-- ==== Sys2Proof/Word.lean ====
section
/-!
DEFINITION. Word.lean: the widths of the part's data and the plainest arithmetic on them
(R9: bit 0 is the least significant bit, ranges are written [hi:lo]).
-/
namespace Sys2Proof

/-- One byte, the smallest unit any store of the part addresses (R22). -/
abbrev Byte := BitVec 8

/-- A 32-bit word: a lane of a vector register, a scalar register, a register-page word. -/
abbrev Word := BitVec 32

/-- The field of `wid` bits of `v` that begins at bit `lo`. -/
def bitsOf (v lo wid : Nat) : Nat := v / 2 ^ lo % 2 ^ wid

/-- Bit `i` of `v`. -/
def bitOf (v i : Nat) : Bool := v / 2 ^ i % 2 == 1

/-- `v` with bit `i` set to 1. -/
def setBit (v i : Nat) : Nat := if bitOf v i then v else v + 2 ^ i

/-- `v` with bit `i` set to 0. -/
def clearBit (v i : Nat) : Nat := if bitOf v i then v - 2 ^ i else v

/-- A mask of the indices below `n` that satisfy `p`. -/
def maskOf (n : Nat) (p : Nat → Bool) : Nat :=
  ((List.range n).filter p).foldl (fun v i => v + 2 ^ i) 0

/-- `v` with its field of `wid` bits at `lo` replaced by `x`. -/
def putBits (v lo wid x : Nat) : Nat :=
  v - bitsOf v lo wid * 2 ^ lo + (x % 2 ^ wid) * 2 ^ lo

/-- The two's-complement reading of the low `wid` bits of `v`. -/
def toSigned (wid v : Nat) : Int :=
  let r := v % 2 ^ wid
  if wid = 0 then 0 else if r < 2 ^ (wid - 1) then (r : Int) else (r : Int) - (2 ^ wid : Nat)

/-- The low `wid` bits of a two's-complement integer. -/
def ofSigned (wid : Nat) (i : Int) : Nat := (i % ((2 ^ wid : Nat) : Int)).toNat

/-- How many of the low `n` bits of `v` are 1. -/
def popCount : Nat → Nat → Nat
  | 0, _ => 0
  | n + 1, v => v % 2 + popCount n (v / 2)

/-- The indices below `n`, ascending, whose bit of `v` is 1. -/
def bitList (n v : Nat) : List Nat := (List.range n).filter (fun i => bitOf v i)

/-- A Bool as one bit. -/
def ofBool (b : Bool) : Nat := if b then 1 else 0

/-- The little-endian number that a list of bytes spells (R251: fields are little-endian). -/
def leNat : List Byte → Nat
  | [] => 0
  | b :: bs => b.toNat + 256 * leNat bs

/-- The `n` little-endian bytes of `v`. -/
def leBytes : Nat → Nat → List Byte
  | 0, _ => []
  | n + 1, v => BitVec.ofNat 8 v :: leBytes n (v / 256)

/-- The field of `n` bytes at byte offset `off` of a record, as a number. -/
def leAt (bs : List Byte) (off n : Nat) : Nat := leNat ((bs.drop off).take n)

/-- The big-endian number that a list of bytes spells. -/
def beNat (bs : List Byte) : Nat := leNat bs.reverse

/-- The `n` big-endian bytes of `v`. -/
def beBytes (n v : Nat) : List Byte := (leBytes n v).reverse

end Sys2Proof
end

