-- ==== Sys2Proof/Syntax.lean ====
section
/-!
DEFINITION. Syntax.lean: the commands of the block (one constructor of `Instr` per row of the
operation and event table), and the instructions of a tile's five slots, which the rows of the
tile's instruction set take as operands (R63, R71, R73, R76, R84, R86).
-/
namespace Sys2Proof

/-- A logical tile id (R22). -/
abbrev TileId := Fin 1920
/-- A sector of a slice (R118). -/
abbrev SectorId := Fin 12582912
/-- A compute die. -/
abbrev DieId := Fin 4
/-- A District; District d is port d's function (R241). -/
abbrev DistId := Fin 4
/-- A host port. -/
abbrev PortId := Fin 4
/-- An optical engine. -/
abbrev OeId := Fin 4
/-- An Alley: 4 × engine + direction (R334). -/
abbrev AlleyId := Fin 16
/-- An optical link: 0–15 an Alley, 16 + 32 × engine + line a Boulevard lane (R188). -/
abbrev LinkId := Fin 144
/-- A collective engine. -/
abbrev CollId := Fin 32
/-- A die-to-die link group: 0–3 the compute dies, 4–7 the optical engines. -/
abbrev GroupId := Fin 8
/-- A register requester: a host function 0–3, or 4, the SMBus port (R338). -/
abbrev ReqId := Fin 5

/-! ### The MX slot (R71) -/

structure LdwF where
  wfmt : Nat
  pair : Bool
  sb : Nat
  loff : Nat
  vs : Nat
  deriving DecidableEq, Repr

/-- Fields of MX.RUN; `m` is the number of rows, 1–256. -/
structure RunF where
  afmt : Nat
  swap : Bool
  add : Bool
  bank : Nat
  port : Nat
  sb : Nat
  loff : Nat
  m : Nat
  vs : Nat
  r0 : Nat
  deriving DecidableEq, Repr

structure WinF where
  afmt : Nat
  swap : Bool
  add : Bool
  bank : Nat
  port : Nat
  sb : Nat
  loff : Nat
  m : Nat
  taps : Nat
  r0 : Nat
  deriving DecidableEq, Repr

inductive Mx where
  | nop
  | ldw (f : LdwF)
  | run (f : RunF)
  | win (f : WinF)
  | illegal
  deriving DecidableEq, Repr

/-! ### The VX slot (R73, R74) -/

inductive VxOpc where
  | add | sub | mul | max | min | fma | fnma | cmp | sel | plog
  | and | or | xor | shl | shr | sra | perm | splat | iota | ext
  | cvt | cvtfmx | cvtmx | exp2 | log2 | rcp | rsq | rsum | rmax | rmin | acrd | acwr
  deriving DecidableEq, Repr

/-- The fields of a VX instruction, as R73 lays them out. -/
structure VxF where
  pg : Nat := 0
  vd : Nat := 0
  va : Nat := 0
  vb : Nat := 0
  vc : Nat := 0
  f1 : Nat := 0
  f2 : Nat := 0
  sat : Bool := false
  x : Nat := 0
  deriving DecidableEq, Repr

inductive Vx where
  | nop
  | op (o : VxOpc) (f : VxF)
  | illegal
  deriving DecidableEq, Repr

/-! ### The SM slot (R76) -/

structure ChF where
  ch : Nat
  port : Nat
  sb : Nat
  loff : Nat
  ova : Bool
  sa : Nat
  sah : Nat
  ovn : Bool
  sn : Nat
  deriving DecidableEq, Repr

inductive Sm where
  | nop
  | vld (vd sb loff pmask lmask : Nat)
  | vst (va sb loff pmask lmask : Nat)
  | qtov (vd q lmask : Nat)
  | vtoq (va o lmask : Nat)
  | qtos (n q port sb loff : Nat)
  | stoq (n o port sb loff : Nat)
  | ch (f : ChF)
  | fence (mask : Nat)
  | illegal
  deriving DecidableEq, Repr

/-! ### The NX slot (R84) -/

inductive Nx where
  | nop
  | send (o route n : Nat) (csrc : Bool) (sc : Nat)
  | sig (route : Nat)
  | wait (e sb : Nat)
  | coll (entry e sa : Nat)
  | hevt (event : Nat)
  | illegal
  deriving DecidableEq, Repr

/-! ### The CT slot (R86) -/

inductive Ct where
  | nop
  | li (sd imm : Nat) (hi : Bool)
  | alu (sd sa sb fn : Nat)
  | addi (sd sa imm : Nat)
  | loop (l sc endB : Nat)
  | rdl (sd l : Nat)
  | br (sa sb cond target : Nat)
  | phase (cls lead : Nat)
  | done
  | trap (code : Nat)
  | illegal
  deriving DecidableEq, Repr

/-- A bundle's five slots (R63). -/
structure Bundle where
  mx : Mx := .nop
  vx : Vx := .nop
  sm : Sm := .nop
  nx : Nx := .nop
  ct : Ct := .nop
  deriving DecidableEq, Repr

/-! ### Operands that the outside supplies -/

/-- A parity error that a tile's reads of one cycle meet (R108, R290): the slot of the reading
instruction (0 MX, 1 VX, 2 SM; 5 the instruction fetch), the bundle that issued it, and what the
log holds (R60). `chan` is set for a channel's descriptor read; `port` is the read port, 4 for a read
that uses none. -/
structure ParHit where
  slot : Nat
  bundle : Nat
  bank : Nat
  line : Nat
  byte : Nat
  count : Nat
  chan : Option Nat := none
  port : Nat := 4
  deriving DecidableEq, Repr

/-- Bits of one byte that flip in a tile's SRAM, an accumulator or a vector register, addressed as
`ERR_ADDR_HI` and `ERR_ADDR_LO` address a line (R60). An even number of them passes the parity check
unseen (R289). -/
structure Upset where
  bank : Nat
  line : Nat
  byte : Nat
  mask : Nat
  deriving DecidableEq, Repr

/-- What goes wrong in a tile's storage in one cycle: reads that meet bad parity, and flips that no
check sees. -/
structure CycleErrs where
  hits : List ParHit := []
  upsets : List Upset := []
  deriving DecidableEq, Repr

/-- What a read of one 32-byte sector meets (R123 to R129): the code symbols that differ from what
was written, 0–31 the data bytes and 32–35 the check bytes, each with the bits that differ; in the
first read and, where the controller reads again, in the second; bit k of `flips`: copy k of the
written flag reads wrong. A line of tile SRAM has 64 symbols, its bytes (R365). -/
structure SectorErr where
  first : List (Nat × Nat)
  second : List (Nat × Nat) := []
  flips : Nat := 0
  deriving DecidableEq, Repr

/-- An error of one piece of a transfer, a sector or a line of tile SRAM: the piece's index from the
transfer's first, and what was found. -/
abbrev SectorErrs := List (Nat × SectorErr)

/-- A training section that a record would hold (R307): type, instance and contents. -/
abbrev TrainSection := Nat × Nat × List Byte

/-- What a soft reset meets (R137, R369): the errors that the reads of a slice's flush meet, the entries of a
command ring that were not yet fetched, and whether host memory refuses completion entries. A register write
that sets `REC_EMIT` meets the firmware's training sections (R311). -/
structure ResetIn where
  errs : SectorErrs := []
  entries : List (List Byte) := []
  refused : Bool := false
  sections : List TrainSection := []
  deriving DecidableEq, Repr

/-- What one governor measures in one step, and what its power model gives, for one domain (R265 to R268):
the power of its work in W, pad not counted, and its VDD_T current in A; what it would draw with every
unit idle; what pad would draw in every idle unit cycle of the step, and in every unit cycle; and the
power that the ceilings of the reasons other than SLEW leave it. -/
structure GovIn where
  work : Nat
  icc : Nat := 0
  idle : Nat := 0
  room : Nat := 0
  full : Nat := 0
  limit : Nat := 1500
  deriving DecidableEq, Repr

/-- How a host port is reset (R243): PERST_N goes low, or high again (R353); a hot reset; a Function Level
Reset. -/
inductive PortReset
  | perstLow
  | perstHigh
  | hot
  | flr
  deriving DecidableEq, Repr

/-- What Dusk measures over one round for one domain: its power, that of its tiles and of its
engine group in mW, its average VDD_T current in A, and its average duty in sixteenths. -/
structure RoundDom where
  power : Nat
  tileMw : Nat := 0
  engMw : Nat := 0
  avgIcc : Nat := 0
  avgDuty : Nat := 16
  deriving DecidableEq, Repr

/-- What Dusk samples in one round (R275): raw readings of channels (temperatures in 1/16 °C, rails
in mV; a channel that is not listed reads its previous filtered value again), package power in W,
the five domains, the inner corrections of slices (R123), and per engine the comb lines that meet
their minimum power (R190). -/
structure RoundIn where
  raw : List (Nat × Int)
  power : Nat
  doms : List RoundDom
  inner : List (Nat × Nat) := []
  lines : List (OeId × BitVec 32) := []
  deriving DecidableEq, Repr

/-- Where a line comes from: an outbound queue of a tile, or another package, for a tile. -/
inductive MeshFrom where
  | tile (n : TileId) (o : Fin 16)
  | package (n : TileId)
  /-- as `tile`, in die-to-die flits whose corruption passes their CRC-32 (R289): bytes of the line with
  the bits that change -/
  | corrupted (n : TileId) (o : Fin 16) (flips : List (Nat × Nat))
  deriving DecidableEq, Repr

/-- A queue of a tile of another package: its coordinates, the tile and the queue (R93, R367). -/
structure FarQueue where
  x : Fin 256
  y : Fin 256
  tile : TileId
  queue : Fin 16
  deriving DecidableEq, Repr

/-- Where a signal comes from: the `k`-th of a tile's router, or another package, for a tile. -/
inductive SigFrom where
  | tile (n : TileId) (k : Nat)
  | package (n : TileId)
  deriving DecidableEq, Repr

/-- A command's header (R251), without its opcode: `BARRIER`, `IRQ` and `TAG`. -/
structure CmdHdr where
  barrier : Bool := false
  irq : Bool := false
  tag : Nat := 0
  deriving DecidableEq, Repr

/-- A failure that BIST finds (R314): the physical tile, `KIND` 1, 3, 5, 6 or 7, word 1, the failing
bits of the row, and the failing rows of its bank. -/
structure BistFail where
  die : DieId
  row : Fin 16
  col : Fin 32
  kind : Nat
  loc : Nat := 0
  count : Nat := 0
  rows : Nat := 1
  deriving DecidableEq, Repr

/-- The bonds of a vertical port that fail at its training (R120): its physical tile and the failing
bonds, lowest first; 0–311 carry signals and 312–319 are the spares. -/
structure PortFail where
  row : Fin 16
  col : Fin 32
  bonds : List (Fin 320)
  deriving DecidableEq, Repr

/-- A module after its training: repair lanes used in each direction, and 0 x64, 1 x32 or 2 disabled. -/
structure ModTrain where
  tx : Fin 5
  rx : Fin 5
  state : Fin 3
  deriving DecidableEq, Repr

/-- The heater codes of a Crossing cell: 0–95 transmit, 96–191 receive (R211). -/
structure CellCode where
  cell : Fin 192
  a : Fin 4096
  b : Fin 4096
  deriving DecidableEq, Repr

/-- The heater codes that calibration finds for a Crossing cell: those of its bar state and those of its
cross state (R187). -/
structure CellCal where
  cell : Fin 192
  barA : Fin 4096
  barB : Fin 4096
  crossA : Fin 4096
  crossB : Fin 4096
  deriving DecidableEq, Repr

/-- The state of a Crossing cell on a path (R184, R186): bar or cross. -/
structure CellSet where
  cell : Fin 192
  cross : Bool
  deriving DecidableEq, Repr

/-- What happens to a DFB line (R201, R208): it goes out of lock, fails, or locks again. -/
inductive DfbEvent where
  | unlocked
  | failed
  | locked
  deriving DecidableEq, Repr

/-- How an optical engine's start ends (R300, R187, R190): the DFB lines locked, the comb lines that
are dark, whether line 0 returns the engine's own identity, the heater codes that calibration found, the
states of the cells on the allocated paths, the worst path loss in 0.1 dB, a cell of each recorded path that failed its verification, whether
calibration or verification succeeded in the end, and which recorded values passed their test (types
0x03 to 0x05). -/
structure OeStart where
  dfb : BitVec 8 := 255
  dark : BitVec 32 := 0
  pilot : Bool := true
  cells : List CellCal := []
  sets : List CellSet := []
  loss : Fin 256 := 0
  verifyFail : List (Fin 192) := []
  ok : Bool := true
  restored : BitVec 3 := 0
  deriving DecidableEq, Repr

/-- Four side units that a word is assembled from, in order (R194): of the four lowest active lanes of
an Alley, or of one lane in four rounds. -/
structure Sides where
  a : BitVec 16
  b : BitVec 16
  c : BitVec 16
  d : BitVec 16
  deriving DecidableEq, Repr

/-- An entry of a function's MSI-X table (R240): the address and data of its message, and its mask. -/
structure MsixEntry where
  addr : BitVec 64 := 0
  data : BitVec 32 := 0
  masked : Bool := true
  deriving DecidableEq, Repr

/-- The commands of the block: one constructor per row of the operation and event table.
The table gives no row any bits, so the operands are the model's own: what the outside, or the
part of the hardware that the event stands for, decides when the event comes about. -/
inductive Instr where
  /-- `VDD_AON_RISE` (R300): The always-on rail rises; the Dusk ROM starts and Dawn stage 0 begins checking each rail as it rises. -/
  | vddAonRise
  /-- `DAWN_RAILS_GOOD` (R300): Every rail has been in range for 2 rounds with PWRGOOD high, ending Dawn stage 0. -/
  | dawnRailsGood
  /-- `DAWN_RAIL_HALT` (R303): A rail stays out of range for 100 rounds and Dawn halts with code 0x10. -/
  | dawnRailHalt
  /-- `PWRGOOD_RISE` (R300): PWRGOOD rises; the Plaza leaves reset, samples OWNER_SEL, senses fuses and derives serial tag, variant and identity key in stage 1. -/
  | pwrgoodRise (ownerSel : Fin 4)
  /-- `PWRGOOD_FALL` (R303): PWRGOOD falls and the Plaza and the whole package reset; Dawn restarts at stage 0 when it rises again. -/
  | pwrgoodFall
  /-- `VDD_AON_REMOVE` (R351): VDD_AON stays below 0.20 V for 100 ms, powering the package down and clearing the Midnight latch. -/
  | vddAonRemove (dip : Bool)
  /-- `PLAZA_RESET` (R11): A reset of the Plaza resets every die, tower, engine and optical engine with no state preserved. -/
  | plazaReset
  /-- `HOST_LINK_TRAINED` (R241): A host port's PCIe link trains, giving its District a host. -/
  | hostLinkTrained (p : PortId) (gen : Fin 7) (width : Fin 17) (flit : Bool)
  /-- `HOST_LINK_DOWN` (R240): A host port's link leaves the trained state and LINK_DOWN is raised. -/
  | hostLinkDown (p : PortId)
  /-- `FW_GO` (R304): The owning host writes FW_GO, starting the DMA fetch of the firmware bundle and any Dawn record. -/
  | fwGo (req : PortId)
  /-- `FW_BUNDLE_CHECK` (R304): The fetched bundle is checked for size, format, signature and interface version, and is accepted or discarded. -/
  | fwBundleCheck (bundle : List Byte) (rec : List Byte)
  /-- `DIE_RELEASE` (R300): In stage 3 each compute die in turn has its trip comparators tested and is released or held, 25 ms apart. -/
  | dieRelease (fails : BitVec 24) (restored : Bool)
  /-- `D2D_LINK_TRAINING` (R15): In stage 4 the die-to-die link groups train to one rate and negotiate a protocol version, fencing a partner with no common version. -/
  | d2dLinkTraining (g : GroupId) (partnerMax : Fin 64) (rate : Fin 64) (vmin : BitVec 16) (vmax : BitVec 16) (mods : List ModTrain) (restored : Bool)
  /-- `VERTICAL_PORT_TRAINING` (R120): In stage 5 vertical ports train onto spare bonds, refresh starts, soft repairs are applied and written flags are cleared. -/
  | verticalPortTraining (d : DieId) (fails : List PortFail) (restored : Bool)
  /-- `BIST_WAVE_START` (R312): A tower or tile BIST wave begins on columns 8w to 8w+7 of every die. -/
  | bistWaveStart (fails : List BistFail)
  /-- `BIST_BUDGET_EXPIRE` (R312): A slice or tile reaches its BIST budget unfinished and is stopped and counted as failed. -/
  | bistBudgetExpire (d : DieId) (row : Fin 16) (col : Fin 32) (us : Nat)
  /-- `YIELD_MAP_FORM` (R315): In stage 8 the yield map and logical numbering are formed, the yield digest is computed and the translators are loaded. -/
  | yieldMapForm
  /-- `OPTICS_START` (R300): In stage 9 lasers lock, the Crossing calibrates, Alleys train and the Boulevard pilot is checked. -/
  | opticsStart (e : OeId) (st : OeStart)
  /-- `DAWN_DONE` (R302): Stage 9 ends; STAGE reads 0xF, DAWN_DONE is raised, the command processors become available and a record is emitted. -/
  | dawnDone (sections : List TrainSection)
  /-- `REC_EMIT` (R311): A write of REC_EMIT after Dawn starts emission of a fresh Dawn record to OUT_ADDR. -/
  | recEmit (req : PortId) (sections : List TrainSection)
  /-- `RECORD_EMITTED` (R311): Emission of a Dawn record completes, OUT_SIZE is set and REC_EMITTED is raised, or it fails on OUT_MAX. -/
  | recordEmitted (takes : Nat)
  /-- `DIE_HEARTBEAT_LOST` (R20): A compute die misses 8 consecutive heartbeats and the Plaza fences it. -/
  | dieHeartbeatLost (d : DieId)
  /-- `DIE_RESET_SIGNALLED` (R20): A compute die signals its own reset and the Plaza fences it. -/
  | dieResetSignalled (d : DieId)
  /-- `DIE_CLOCK_LOSS` (R20): A compute die signals loss of its sideband clock lock and the Plaza fences it. -/
  | dieClockLoss (d : DieId)
  /-- `D2D_FLIT_CRC_ERROR` (R18): A die-to-die adapter detects a CRC error and replays the flit, counting the retry.
  With `flips` the corruption passes the CRC-32, and the next transfer over the module has these bits of its bytes
  changed (R289). -/
  | d2dFlitCrcError (g : GroupId) (m : Fin 24) (flips : List (Nat × Nat))
  /-- `D2D_LANE_FAIL` (R18): A die-to-die lane's error rate exceeds its threshold and it is repaired, or its module goes to x32 or is disabled. -/
  | d2dLaneFail (g : GroupId) (m : Fin 24) (dir : Bool) (lane : Fin 68) (halfFree : Bool)
  /-- `D2D_MODULE_RETRAINED` (R18): A retraining module returns and the adapter replays the held flows, or retraining fails and the module is disabled. -/
  | d2dModuleRetrained (g : GroupId) (m : Fin 24) (ok : Bool)
  /-- `BUNDLE_ISSUE` (R95): An unfrozen tile cycle fetches and issues one bundle, checking encoding, PC range and loop ends. -/
  | bundleIssue (t : TileId) (errs : CycleErrs)
  /-- `WAIT_RELEASE` (R97): A tile frozen on a failing queue, channel, fence or event check issues its bundle in the first cycle every check passes. -/
  | waitRelease (t : TileId) (errs : CycleErrs)
  /-- `PACING_CYCLE` (R107): A tile cycle that the pacing duty marks as a pacing cycle freezes the tile. -/
  | pacingCycle (t : TileId)
  /-- `PARITY_RETRY` (R108): In the sixth frozen cycle the read is repeated; good data continues, a second failure is lasting and traps. -/
  | parityRetry (t : TileId) (fails : List Nat)
  /-- `REGISTER_RESULT_LAND` (R67): An instruction's result is written to its destination register at the end of its latency. -/
  | registerResultLand (t : TileId)
  /-- `ARRAY_RESULT_LAND` (R45): A matrix array result row lands in its accumulator row, overwriting or adding. -/
  | arrayResultLand (t : TileId)
  /-- `MX_LDW` (R43): Loads one weight block and its scales into the shadow buffer over 16 or 32 cycles. -/
  | mxLdw (t : TileId) (f : LdwF)
  /-- `MX_RUN` (R45): Runs the active block, after an optional swap, over 1 to 256 activation rows into an accumulator bank. -/
  | mxRun (t : TileId) (f : RunF)
  /-- `MX_WIN` (R46): Runs the array in window mode for a causal convolution of 2, 4 or 8 taps. -/
  | mxWin (t : TileId) (f : WinF)
  /-- `VX_ADD` (R74): Adds two vectors lane by lane in FP32, BF16 or INT32. -/
  | vxAdd (t : TileId) (f : VxF)
  /-- `VX_SUB` (R74): Subtracts two vectors lane by lane. -/
  | vxSub (t : TileId) (f : VxF)
  /-- `VX_MUL` (R74): Multiplies two vectors lane by lane. -/
  | vxMul (t : TileId) (f : VxF)
  /-- `VX_MAX` (R74): Takes the lane-wise maximum of two vectors. -/
  | vxMax (t : TileId) (f : VxF)
  /-- `VX_MIN` (R74): Takes the lane-wise minimum of two vectors. -/
  | vxMin (t : TileId) (f : VxF)
  /-- `VX_FMA` (R74): Computes a times b plus c with one rounding. -/
  | vxFma (t : TileId) (f : VxF)
  /-- `VX_FNMA` (R74): Computes c minus a times b with one rounding. -/
  | vxFnma (t : TileId) (f : VxF)
  /-- `VX_CMP` (R74): Compares two vectors lane by lane into a predicate. -/
  | vxCmp (t : TileId) (f : VxF)
  /-- `VX_SEL` (R74): Selects lanes of a or b under a predicate. -/
  | vxSel (t : TileId) (f : VxF)
  /-- `VX_PLOG` (R74): Combines predicates with AND, OR, ANDN, XOR or NOT. -/
  | vxPlog (t : TileId) (f : VxF)
  /-- `VX_AND` (R74): Bitwise AND of two vectors. -/
  | vxAnd (t : TileId) (f : VxF)
  /-- `VX_OR` (R74): Bitwise OR of two vectors. -/
  | vxOr (t : TileId) (f : VxF)
  /-- `VX_XOR` (R74): Bitwise XOR of two vectors. -/
  | vxXor (t : TileId) (f : VxF)
  /-- `VX_SHL` (R74): Shifts each lane left. -/
  | vxShl (t : TileId) (f : VxF)
  /-- `VX_SHR` (R74): Shifts each lane right logically. -/
  | vxShr (t : TileId) (f : VxF)
  /-- `VX_SRA` (R74): Shifts each lane right arithmetically. -/
  | vxSra (t : TileId) (f : VxF)
  /-- `VX_PERM` (R74): Permutes lanes of a by the indices in b. -/
  | vxPerm (t : TileId) (f : VxF)
  /-- `VX_SPLAT` (R74): Fills all lanes from a scalar register or an immediate. -/
  | vxSplat (t : TileId) (f : VxF)
  /-- `VX_IOTA` (R74): Writes each lane's index plus a scalar. -/
  | vxIota (t : TileId) (f : VxF)
  /-- `VX_EXT` (R74): Moves one vector lane into a scalar register. -/
  | vxExt (t : TileId) (f : VxF)
  /-- `VX_CVT` (R75): Converts between FP32 and a narrower format, writing or reading one part. -/
  | vxCvt (t : TileId) (f : VxF)
  /-- `VX_CVTFMX` (R75): Converts an MX part with its scales to 64 FP32 lanes. -/
  | vxCvtfmx (t : TileId) (f : VxF)
  /-- `VX_CVTMX` (R58): Converts 64 FP32 lanes to an MX part, computing two block scales. -/
  | vxCvtmx (t : TileId) (f : VxF)
  /-- `VX_EXP2` (R55): Computes 2 to the power of each lane, correctly rounded. -/
  | vxExp2 (t : TileId) (f : VxF)
  /-- `VX_LOG2` (R55): Computes the base-2 logarithm of each lane. -/
  | vxLog2 (t : TileId) (f : VxF)
  /-- `VX_RCP` (R55): Computes the reciprocal of each lane. -/
  | vxRcp (t : TileId) (f : VxF)
  /-- `VX_RSQ` (R55): Computes the reciprocal square root of each lane. -/
  | vxRsq (t : TileId) (f : VxF)
  /-- `VX_RSUM` (R56): Sums all lanes in a fixed tree into every lane. -/
  | vxRsum (t : TileId) (f : VxF)
  /-- `VX_RMAX` (R56): Reduces all lanes to their maximum. -/
  | vxRmax (t : TileId) (f : VxF)
  /-- `VX_RMIN` (R56): Reduces all lanes to their minimum. -/
  | vxRmin (t : TileId) (f : VxF)
  /-- `VX_ACRD` (R52): Reads two accumulator rows into a vector register. -/
  | vxAcrd (t : TileId) (f : VxF)
  /-- `VX_ACWR` (R52): Writes a vector register into two accumulator rows. -/
  | vxAcwr (t : TileId) (f : VxF)
  /-- `SM_VLD` (R76): Loads selected lines of a vector register from data SRAM. -/
  | smVld (t : TileId) (vd : Fin 64) (sb : Fin 32) (loff : Nat) (pmask : Fin 16) (lmask : Fin 16)
  /-- `SM_VST` (R76): Stores selected lines of a vector register to data SRAM. -/
  | smVst (t : TileId) (va : Fin 64) (sb : Fin 32) (loff : Nat) (pmask : Fin 4) (lmask : Fin 16)
  /-- `SM_QTOV` (R78): Pops inbound queue lines into a vector register, freezing or trapping if the queue is empty. -/
  | smQtov (t : TileId) (vd : Fin 64) (q : Fin 16) (lmask : Fin 16)
  /-- `SM_VTOQ` (R78): Pushes vector register lines into an outbound queue. -/
  | smVtoq (t : TileId) (va : Fin 64) (o : Fin 16) (lmask : Fin 16)
  /-- `SM_QTOS` (R77): Pops 1 to 16 queue lines into data SRAM. -/
  | smQtos (t : TileId) (n : Nat) (q : Fin 16) (port : Fin 2) (sb : Fin 32) (loff : Nat)
  /-- `SM_STOQ` (R77): Pushes 1 to 16 SRAM lines into an outbound queue. -/
  | smStoq (t : TileId) (n : Nat) (o : Fin 16) (port : Fin 4) (sb : Fin 32) (loff : Nat)
  /-- `SM_CH` (R79): Issues a stream-mover descriptor, with optional address and row overrides, to a channel. -/
  | smCh (t : TileId) (f : ChF)
  /-- `SM_FENCE` (R83): Waits until every masked channel is idle, trapping on a halted channel. -/
  | smFence (t : TileId) (mask : Fin 256)
  /-- `MOVER_READ` (R80): A channel starts a READ command, moving slice, interleaved or window lines into an inbound queue. -/
  | moverRead (t : TileId) (ch : Fin 8) (lines : Nat) (errs : SectorErrs)
  /-- `MOVER_WRITE` (R80): A channel starts a WRITE command, moving outbound queue lines to memory. -/
  | moverWrite (t : TileId) (ch : Fin 8) (lines : Nat)
  /-- `MOVER_FILL` (R80): A channel starts a FILL command, writing a pattern over every line of a slice region. -/
  | moverFill (t : TileId) (ch : Fin 8) (lines : Nat)
  /-- `MOVER_TREAD` (R80): A channel starts a transposing read of its own slice into an inbound queue. -/
  | moverTread (t : TileId) (ch : Fin 8) (lines : Nat) (errs : SectorErrs)
  /-- `CHANNEL_HALT` (R81): A channel stops at a failing line, discards later commands and poisons the queue it feeds. -/
  | channelHalt (t : TileId) (ch : Fin 8) (errs : SectorErrs)
  /-- `MOVER_COMMAND_DONE` (R83): A channel's command completes once its lines are acknowledged or queued, making the channel idle. -/
  | moverCommandDone (t : TileId) (ch : Fin 8)
  /-- `NX_SEND` (R84): Sends lines of an outbound queue along a route to a destination queue. -/
  | nxSend (t : TileId) (o : Fin 16) (route : Fin 64) (n : Nat) (csrc : Bool) (sc : Fin 32)
  /-- `NX_SIG` (R84): Adds 1 to the event counter named by a route's destination. -/
  | nxSig (t : TileId) (route : Fin 64)
  /-- `NX_WAIT` (R84): Waits until an event counter reaches a scalar value, then subtracts it. -/
  | nxWait (t : TileId) (e : Fin 8) (sb : Fin 32)
  /-- `NX_COLL` (R230): Posts an entry of the image's collective table with an argument. -/
  | nxColl (t : TileId) (entry : Fin 64) (e : Fin 8) (sa : Fin 32)
  /-- `NX_HEVT` (R254): Adds 1 to a host event counter of the District, optionally posting a host event entry. -/
  | nxHevt (t : TileId) (event : Fin 256)
  /-- `MESH_LINE_ARRIVE` (R82): A mesh line reaches its destination tile's queue, or traps MESH_MISROUTE, or is discarded. -/
  | meshLineArrive (src : MeshFrom) (lines : Nat)
  /-- `MESH_SIGNAL_ARRIVE` (R84): An NX.SIG signal reaches its destination tile and increments the named event counter. -/
  | meshSignalArrive (src : SigFrom)
  /-- `MESH_CREDIT_RETURN` (R367): A credit for a popped line returns to the sending tile over the reverse path. -/
  | meshCreditReturn (t : TileId) (far : Option FarQueue)
  /-- `CT_LI` (R86): Loads an immediate into a scalar register, low or high half. -/
  | ctLi (t : TileId) (sd : Fin 32) (imm : Fin 65536) (hi : Bool)
  /-- `CT_ALU` (R86): Performs a scalar arithmetic, logic, shift or compare operation. -/
  | ctAlu (t : TileId) (sd : Fin 32) (sa : Fin 32) (sb : Fin 32) (fn : Fin 16)
  /-- `CT_ADDI` (R86): Adds a sign-extended immediate to a scalar register. -/
  | ctAddi (t : TileId) (sd : Fin 32) (sa : Fin 32) (imm : Fin 65536)
  /-- `CT_LOOP` (R88): Starts a hardware loop with a trip count from a scalar register. -/
  | ctLoop (t : TileId) (l : Fin 4) (sc : Fin 32) (endB : Fin 4096)
  /-- `CT_RDL` (R86): Reads the completed iteration count of a loop. -/
  | ctRdl (t : TileId) (sd : Fin 32) (l : Fin 4)
  /-- `CT_BR` (R87): Branches on a scalar comparison after three delay slots. -/
  | ctBr (t : TileId) (sa : Fin 32) (sb : Fin 32) (cond : Fin 8) (target : Fin 4096)
  /-- `CT_PHASE` (R271): Posts a phase hint of a class and lead to the die's power controller. -/
  | ctPhase (t : TileId) (cls : Fin 4) (lead : Fin 4096)
  /-- `CT_END` (R89): Ends fetch on the tile; it completes once in-flight work has settled. -/
  | ctEnd (t : TileId)
  /-- `CT_TRAP` (R90): Raises a software trap with a code of 0x80 to 0xFF; a code below 0x80
  is a reserved field value (R64). -/
  | ctTrap (t : TileId) (code : Fin 256)
  /-- `TRAP_SETTLED` (R91): In-flight work of a trapped tile has settled, RUN_STATE becomes trapped and TRAP is raised. -/
  | trapSettled (t : TileId)
  /-- `TILE_COMPLETE` (R89): After CT.END, results land, channels idle and queues drain; RUN_STATE becomes complete and COMPLETE is raised. -/
  | tileComplete (t : TileId)
  /-- `SLIP_TIMEOUT` (R110): A tile stays in one wait freeze beyond SLIP_LIMIT_US and the command processor stops the image. -/
  | slipTimeout (t : TileId)
  /-- `TILE_SOFT_RESET` (R62): A SOFT_RESET of a TILE page stops the tile, halts its channels and empties its queues. -/
  | tileSoftReset (req : PortId) (t : TileId)
  /-- `MOVER_SOFT_RESET` (R94): A SOFT_RESET of a MOVER page clears poison, halts, queues and event counters when the tile is not running. -/
  | moverSoftReset (req : PortId) (t : TileId)
  /-- `MOVER_CONFIG_WRITE` (R93): A write to Q_MESH or a ROUTE entry, refused with ERR_BUSY while the tile runs. -/
  | moverConfigWrite (req : PortId) (t : TileId) (route : Option (Fin 64)) (value : Nat)
  /-- `SLICE_READ` (R129): A slice read is decoded and checked; unwritten or uncorrectable sectors are re-read once and reported. -/
  | sliceRead (t : TileId) (d : DistId) (sec : SectorId) (req : Fin 4) (err : Option SectorErr)
  /-- `SLICE_WRITE` (R125): A full-sector write is encoded with check bytes and sets the written flag. -/
  | sliceWrite (t : TileId) (d : DistId) (sec : SectorId) (bytes : List Byte)
  /-- `NARROW_WRITE` (R128): A narrower-than-sector write enters the merge buffer, gathering into an entry or waiting for one. -/
  | narrowWrite (t : TileId) (d : DistId) (sec : SectorId) (lo : Fin 32) (bytes : List Byte)
  /-- `MERGE_AGE_EXPIRE` (R128): A GATHER entry reaches an age of 64 slice cycles and enters FLUSH. -/
  | mergeAgeExpire (t : TileId) (sec : Nat)
  /-- `MERGE_FLUSH` (R128): A FLUSH entry writes its sector whole or by read-modify-write, or drops the merge. -/
  | mergeFlush (t : TileId) (sec : Nat) (err : Option SectorErr)
  /-- `SLICE_REFRESH` (R131): A refresh operation falls due on one layer of a slice in controller mode. -/
  | sliceRefresh (t : TileId)
  /-- `SCRUB_READ` (R135): Patrol scrub reads the next written sector and writes back a corrected one. -/
  | scrubRead (t : TileId) (err : Option SectorErr)
  /-- `SLICE_SOFT_RESET` (R137): A SOFT_RESET of a SLICE page flushes the merge buffer and clears non-RS counters. -/
  | sliceSoftReset (req : PortId) (t : TileId) (errs : SectorErrs)
  /-- `ENGINE_WINDOW_ACCESS` (R141): A read or write of an engine command window's buffers, descriptors or status. -/
  | engineWindowAccess (t : TileId) (d : DistId) (off : Fin 1048576) (req : Fin 4) (data : Option (List Byte)) (err : Option SectorErr)
  /-- `ENGINE_MODE_WRITE` (R142): A write of the mode word begins entering or leaving engine mode, is held, or is refused. -/
  | engineModeWrite (t : TileId) (d : DistId) (word : Nat)
  /-- `ENGINE_MODE_ENTERED` (R142): A slice finishes entering engine mode, acting on any held mode write. -/
  | engineModeEntered (t : TileId)
  /-- `ENGINE_MODE_LEFT` (R142): A slice returns to controller mode after owed refresh, serving held requests and held mode writes. -/
  | engineModeLeft (t : TileId)
  /-- `ENGINE_GO` (R149): A write of the GO line requests a run of descriptors, or forms an empty poisoned run. -/
  | engineGo (t : TileId) (d : DistId) (word : Nat)
  /-- `ENGINE_GO_ACCEPT` (R149): A waiting GO is acknowledged once engine mode is reached and no run is in progress, starting the run. -/
  | engineGoAccept (t : TileId)
  /-- `ENGINE_PASS` (R151): The engine checks a descriptor and executes one pass, or poisons it. -/
  | enginePass (t : TileId) (errs : List (Nat × Nat × SectorErr))
  /-- `ENGINE_RUN_COMPLETE` (R150): A run's last pass completes; held result reads are answered and RUN_DONE is raised. -/
  | engineRunComplete (t : TileId)
  /-- `HUB_REFRESH_DUE` (R158): A refresh interval falls due under the hub, issued at once or counted as owed during a run. -/
  | hubRefreshDue (t : TileId)
  /-- `REFRESH_PAUSE` (R158): A ninth owed interval pauses the pass at the next row boundary to refresh all layers. -/
  | refreshPause (t : TileId)
  /-- `REFRESH_PAUSE_END` (R158): A refresh pause ends and the pass resumes. -/
  | refreshPauseEnd (t : TileId)
  /-- `ENGINE_ENABLE_WRITE` (R160): A write of ENGINE BLK_CTRL.ENABLE turns the engine off, drains it or restarts it. -/
  | engineEnableWrite (req : PortId) (t : TileId) (on : Bool)
  /-- `ENGINE_SOFT_RESET` (R161): A SOFT_RESET of an ENGINE page in controller mode clears HALTED and marks results unwritten. -/
  | engineSoftReset (req : PortId) (t : TileId)
  /-- `CROSSING_APPLY` (R184): A write of APPLY starts the waveguide moves toward the targets, or sets PENDING. -/
  | crossingApply (req : PortId) (e : OeId)
  /-- `CROSSING_MOVE` (R184): One waveguide move begins: release, re-phase, offer, lock and train. -/
  | crossingMove (e : OeId) (cells : List CellSet) (recals : List CellCal) (mask : BitVec 8)
  /-- `MOVE_STEP_TIMEOUT` (R185): A move step exceeds its time limit and the move ends with a timeout result. -/
  | moveStepTimeout (e : OeId)
  /-- `MOVE_DONE` (R185): A move ends with its result, CURRENT updates and the next move begins. -/
  | moveDone (e : OeId) (locked : Bool) (tx : BitVec 8)
  /-- `CROSSING_DITHER` (R187): Every millisecond each cell on a live path is dithered and corrected, raising CAL_FAULT on excess drift. -/
  | crossingDither (e : OeId) (cells : List CellCode)
  /-- `RELEASE` (R184): A RELEASE link word asks the partner to stop striping onto a fibre's lanes. -/
  | release (a : AlleyId) (f : Fin 4)
  /-- `RELEASE_DONE` (R184): The partner confirms release of a fibre. -/
  | releaseDone (a : AlleyId) (f : Fin 4)
  /-- `GRANT_REQ` (R184): A GRANT_REQ offers a fibre to the partner, answered by acceptance or refusal. -/
  | grantReq (a : AlleyId) (f : Fin 4)
  /-- `GRANT_ACCEPT` (R184): The partner accepts a granted fibre. -/
  | grantAccept (a : AlleyId) (f : Fin 4)
  /-- `GRANT_REFUSE` (R185): The partner refuses a granted fibre and the move ends refused. -/
  | grantRefuse (a : AlleyId) (f : Fin 4)
  /-- `DROP_NOTICE` (R198): A link word message naming a dropped lane. -/
  | dropNotice (l : LinkId) (lane : Fin 32)
  /-- `RELOCK_REQ` (R193): The receiver asks the sender to relock its transmit ring with a forced offset. -/
  | relockReq (l : LinkId) (lane : Fin 32)
  /-- `RETRAIN_REQ` (R198): A link word message requesting retraining. -/
  | retrainReq (l : LinkId)
  /-- `HANDOVER` (R204): The receiver of a downed link names its last delivered SEQ so the sender resends on a surviving link. -/
  | handover (l : LinkId) (e : OeId) (seq : Fin 65536)
  /-- `LANE_IDENTITY_WORD` (R192): A lane identity word arrives and is matched, triggering a relock or a miscabling report on mismatch. -/
  | laneIdentityWord (l : LinkId) (lane : Fin 32) (sides : Sides) (peer : Bool) (vers : BitVec 32)
  /-- `IDENTITY_TIMEOUT` (R193): No good identity word for four marker windows or 15 µs of training triggers a relock. -/
  | identityTimeout (l : LinkId) (lane : Fin 32)
  /-- `FLIT_RECEIVE` (R199): A flit is FEC-corrected and CRC-checked and is delivered or discarded with a NAK. -/
  | flitReceive (l : LinkId) (lanes : List (List (BitVec 16)))
  /-- `LINK_WORD_RECEIVE` (R198): A link word brings acknowledgement, NAK, credit and any message. -/
  | linkWordReceive (l : LinkId) (sides : Sides)
  /-- `NAK_REPEAT` (R199): The receiver repeats NAK every 100 ns until the expected flit arrives. -/
  | nakRepeat (l : LinkId)
  /-- `REPLAY_TIMEOUT` (R199): ACK_SEQ has not advanced for 2 µs with flits outstanding, and the sender replays. -/
  | replayTimeout (l : LinkId)
  /-- `LINK_RETRAIN_DONE` (R200): Retraining ends, lanes above the error rate are dropped and flits resume at the new width. -/
  | linkRetrainDone (l : LinkId) (rx : Bool) (bad : BitVec 32) (badId : BitVec 32)
  /-- `LANE_LIGHT_LOSS` (R201): A lane's received power stays below threshold for 1 µs and the direction retrains at once. -/
  | laneLightLoss (l : LinkId) (lane : Fin 32)
  /-- `DFB_FAIL` (R201): A DFB laser line fails, removing its lane from every fibre of the engine. -/
  | dfbFail (e : OeId) (line : Fin 8) (event : DfbEvent)
  /-- `LINK_WORD_SILENCE` (R203): No good link word arrives for 10 µs and the Alley goes down. -/
  | linkWordSilence (a : AlleyId)
  /-- `COMB_LINE_DARK` (R190): A comb line stays below minimum power for 1 ms and is marked dark, parking its ring. -/
  | combLineDark (e : OeId) (k : Fin 32)
  /-- `ALLEY_RETRAIN` (R209): A write of RETRAIN retrains both directions and tests every lane of the live fibres. -/
  | alleyRetrain (req : PortId) (a : AlleyId)
  /-- `OE_ENABLE_WRITE` (R208): A write of OE ENABLE drains the engine and turns lasers off, or restarts it. -/
  | oeEnableWrite (req : PortId) (e : OeId) (on : Bool)
  /-- `BLVD_ENABLE_WRITE` (R210): A write of TX_ENABLE or RX_ENABLE gates lanes, handing over flows before parking a ring. -/
  | blvdEnableWrite (req : PortId) (e : OeId) (tx : Bool) (value : BitVec 32)
  /-- `BEACON_RECEIVE` (R218): A beacon arrives and the port is compared with its plan entry, becoming ACCEPTED or QUARANTINED. -/
  | beaconReceive (l : LinkId)
  /-- `NEIGHBOUR_ABSENT` (R217): A port receives no beacon for 3 rounds and counts as absent, becoming DOWN or NONE. -/
  | neighbourAbsent (p : Fin 36)
  /-- `PORT_ACCEPT` (R218): A write of PORT_ACCEPT accepts a QUARANTINED mesh port. -/
  | portAccept (req : PortId) (mask : BitVec 4)
  /-- `SQUARE_ACCEPT` (R218): A write of SQUARE_ACCEPT accepts a QUARANTINED Square port. -/
  | squareAccept (req : PortId) (mask : BitVec 32)
  /-- `QUARTER_ENTRY_WRITE` (R238): A write of a Quarter entry, dropped or held invalid under its rules. -/
  | quarterEntryWrite (req : PortId) (n : Fin 4) (word : Fin 3) (value : BitVec 32)
  /-- `PACKET_RECEIVE` (R222): A packet arrives at a package and is checked, delivered, forwarded or dropped. -/
  | packetReceive (l : LinkId)
  /-- `COLL_INSTANCE_START` (R230): A collective instance starts when all local members have posted and the engine queue has room; READY is sent. -/
  | collInstanceStart (key : Nat) (errs : SectorErrs)
  /-- `COLL_READY_RECEIVE` (R230): A READY packet arrives, allowing data to be sent to that rank. -/
  | collReadyReceive (errs : SectorErrs)
  /-- `COLL_DATA_RECEIVE` (R229): A COLL_DATA packet arrives and its block is folded or written. -/
  | collDataReceive (errs : SectorErrs)
  /-- `COLL_BLOCK_FOLD` (R229): An owner folds a 4 KiB block once every rank's copy has arrived. -/
  | collBlockFold (key : Nat) (idx : Nat) (errs : SectorErrs)
  /-- `COLL_HOLD_RECEIVE` (R234): A HOLD packet holds its receiver's progress timer for 20 µs. -/
  | collHoldReceive
  /-- `COLL_HOLD_SEND` (R234): A member in hold sends HOLD every 10 µs to each rank it exchanges data with. -/
  | collHoldSend (key : Nat)
  /-- `COLL_HOLD_EXPIRE` (R234): A received HOLD's 20 µs elapses, ending that hold. -/
  | collHoldExpire (key : Nat) (rank : Nat)
  /-- `COLL_HOLD_EXHAUSTED` (R234): An instance accumulates 200 µs of hold and its progress timer runs again. -/
  | collHoldExhausted (key : Nat)
  /-- `COLL_ABORT_RECEIVE` (R235): An ABORT packet ends the instance with the wave's status and is forwarded once. -/
  | collAbortReceive
  /-- `COLL_START_TIMEOUT` (R233): READY has not arrived from every rank within START_MS and the instance ends START_TIMEOUT. -/
  | collStartTimeout (key : Nat)
  /-- `COLL_PROGRESS_TIMEOUT` (R233): TIMEOUT_US passes with no progress and the instance ends TIMEOUT with a wave. -/
  | collProgressTimeout (key : Nat)
  /-- `COLL_ABORT` (R236): A write of COLL_ABORT ends every queued or running instance on the engine as host abort. -/
  | collAbort (req : PortId) (e : CollId)
  /-- `HOST_PORT_RESET` (R243): PERST_N, hot reset or FLR resets one port and its District's command processor. -/
  | hostPortReset (p : PortId) (k : PortReset)
  /-- `QDIE_MASK_WRITE` (R244): A write of QDIE_MASK reassigns quarter-dies, or is dropped with CFG_REJECTED. -/
  | qdieMaskWrite (req : PortId) (d : DistId) (value : Nat)
  /-- `QDIE_SCRUB_DONE` (R245): Scrubbing of a removed quarter-die ends; it joins its new District and REASSIGN_DONE is raised. -/
  | qdieScrubDone (q : Fin 16)
  /-- `WINDOW_READ` (R246): A host read through a BAR2 access window is checked and answered, poisoned or aborted. -/
  | windowRead (p : PortId) (off : Fin 2147483648) (len : Nat) (errs : SectorErrs)
  /-- `WINDOW_WRITE` (R246): A host write through a BAR2 access window is checked and applied or dropped. -/
  | windowWrite (p : PortId) (off : Fin 2147483648) (bytes : List Byte)
  /-- `CMD_DOORBELL` (R249): A write of CMD_DOORBELL makes commands visible, or is ignored with RING_ERROR. -/
  | cmdDoorbell (req : PortId) (d : DistId) (value : Nat)
  /-- `CPL_HEAD_WRITE` (R249): A write of CPL_HEAD frees completion entries, or is ignored with RING_ERROR. -/
  | cplHeadWrite (req : PortId) (d : DistId) (value : Nat) (refused : Bool)
  /-- `COMMAND_FETCH` (R250): The command processor fetches and starts the next command once limits, barriers and completion space allow. -/
  | commandFetch (d : DistId) (entry : Option (List Byte)) (desc : Option (List Byte)) (refused : Bool)
  /-- `NOP` (R251): A command that completes at once. -/
  | nop (d : DistId) (h : CmdHdr) (refused : Bool)
  /-- `WRITE_MEM` (R251): Copies host memory into device memory. -/
  | writeMem (d : DistId) (h : CmdHdr) (host : Nat) (dev : Nat) (len : Nat) (refused : Bool)
  /-- `READ_MEM` (R251): Copies device memory into host memory. -/
  | readMem (d : DistId) (h : CmdHdr) (host : Nat) (dev : Nat) (len : Nat) (refused : Bool)
  /-- `FILL` (R251): Fills slice memory with a pattern. -/
  | fill (d : DistId) (h : CmdHdr) (dev : Nat) (len : Nat) (pattern : Nat) (refused : Bool)
  /-- `DMA_COMPLETE` (R251): A WRITE_MEM, READ_MEM or FILL finishes or stops at a failing sector and posts its completion. -/
  | dmaComplete (d : DistId) (seq : Nat) (data : List Byte) (takes : Nat) (errs : SectorErrs) (refused : Bool)
  /-- `LOAD_IMAGE` (R115): Fetches, checks and loads a schedule image into a slot and its tiles. -/
  | loadImage (d : DistId) (h : CmdHdr) (host : Nat) (size : Nat) (slot : Nat) (refused : Bool)
  /-- `LAUNCH` (R116): Starts every tile of a loaded image, or refuses. -/
  | launch (d : DistId) (h : CmdHdr) (slot : Nat) (args : List Nat) (refused : Bool)
  /-- `WAIT_EVENT` (R254): Waits until a host event counter reaches a count, then subtracts it. -/
  | waitEvent (d : DistId) (h : CmdHdr) (event : Nat) (count : Nat) (timeout : Nat) (refused : Bool)
  /-- `WAIT_EVENT_TIMEOUT` (R254): A WAIT_EVENT's timeout passes first and it completes EVT_TIMEOUT. -/
  | waitEventTimeout (d : DistId) (refused : Bool)
  /-- `SIGNAL_EVENT` (R254): Adds 1 to an event counter of a named tile. -/
  | signalEvent (d : DistId) (h : CmdHdr) (target : Nat) (counter : Nat) (refused : Bool)
  /-- `COLLECTIVE` (R251): Posts a collective on behalf of every local member. -/
  | collective (d : DistId) (h : CmdHdr) (addr : Nat) (arg : Nat) (slot : Nat) (desc : Option (List Byte)) (refused : Bool)
  /-- `PHASE_HINT` (R271): Posts a phase hint to the power controllers of the District's dies. -/
  | phaseHint (d : DistId) (h : CmdHdr) (cls : Nat) (lead : Nat) (dies : Nat) (refused : Bool)
  /-- `RESPARE` (R255): Re-applies row sparing to one row, testing incoming spares. -/
  | respare (d : DistId) (h : CmdHdr) (die : Nat) (row : Nat) (refused : Bool)
  /-- `RESPARE_DONE` (R255): A RESPARE finishes, updating numbering and yield digest, or completes RESPARE_NONE. -/
  | respareDone (d : DistId) (fails : BitVec 32) (refused : Bool)
  /-- `FENCE` (R256): Fences one tile as a failed tile is fenced. -/
  | fence (d : DistId) (h : CmdHdr) (target : Nat) (refused : Bool)
  /-- `MODERATION_TIMER` (R258): TIMER_US passes after the first waiting completion entry and vector 0 fires. -/
  | moderationTimer (d : DistId)
  /-- `CMDPROC_SOFT_RESET` (R369): A SOFT_RESET of a CMDPROC page stops the District's work and completes visible commands ABORTED. -/
  | cmdprocSoftReset (req : PortId) (d : DistId) (entries : List (List Byte)) (refused : Bool)
  /-- `TILE_CLOCK_LOSS` (R295): A tile's clock island loses frequency lock and the die fences the tile. -/
  | tileClockLoss (t : TileId)
  /-- `TILE_ROUTER_LOST` (R295): A tile's router misses 8 watchdog probes; the tile is fenced and its router marked failed. -/
  | tileRouterLost (t : TileId)
  /-- `SLICE_PORT_LOSS` (R295): A slice controller island loses lock or its port cannot retrain in 50 µs; the tile is fenced and its slice lost. -/
  | slicePortLoss (t : TileId)
  /-- `BLOCK_ENABLE_WRITE` (R297): A write of BLK_CTRL.ENABLE starts or drains a block, or sets or clears PEND_ENABLE. -/
  | blockEnableWrite (req : PortId) (page : Fin 16384) (on : Bool)
  /-- `BLOCK_START_DONE` (R297): A block's start completes and STATE becomes ON, applying any waiting soft reset. -/
  | blockStartDone (page : Fin 16384) (st : Option OeStart) (x : ResetIn)
  /-- `BLOCK_DRAIN_DONE` (R297): A block's drain completes and STATE becomes OFF, restarting if PEND_ENABLE is set. -/
  | blockDrainDone (page : Fin 16384) (x : ResetIn)
  /-- `PAGE_SOFT_RESET` (R340): A SOFT_RESET of a page with no own rule clears its non-RS status, counters and raw interrupts. -/
  | pageSoftReset (req : PortId) (page : Fin 16384) (x : ResetIn)
  /-- `ERR_ADDR_LO_READ` (R293): A read of ERR_ADDR_LO captures ERR_ADDR_HI, ERR_SYNDROME and LAST_ERR for later reads. -/
  | errAddrLoRead (req : PortId) (page : Fin 16384) (size : Nat)
  /-- `LO_HALF_READ` (R338): A 4-byte read of a 64-bit _LO register latches the matching high half for the requester. -/
  | loHalfRead (req : PortId) (off : Fin 67108864) (size : Nat)
  /-- `INT_FORCE_WRITE` (R294): A write of INT_FORCE sets INT_RAW bits as the events would. -/
  | intForceWrite (req : PortId) (page : Fin 16384) (value : BitVec 32)
  /-- `INT_STATUS_CLEAR` (R341): A W1C write of INT_STATUS clears INT_RAW bits, re-raising present conditions. -/
  | intStatusClear (req : PortId) (page : Fin 16384) (value : BitVec 32)
  /-- `INT_ENABLE_WRITE` (R341): A write of INT_ENABLE, making the page pending at once if an enabled bit is already raw. -/
  | intEnableWrite (req : PortId) (page : Fin 16384) (value : BitVec 32)
  /-- `INT_EOI` (R347): A write of INT_EOI rearms an MSI-X vector, resending it if its summary is still nonzero. -/
  | intEoi (req : PortId) (d : DistId) (mask : BitVec 8)
  /-- `MSIX_UNMASK` (R347): Unmasking a vector with a pending bit sends its message and sets IN_SERVICE. -/
  | msixUnmask (f : PortId) (v : Fin 8) (e : MsixEntry)
  /-- `LOCK_WRITE` (R339): The owning host sets LOCK, making the page's RWL fields read-only. -/
  | lockWrite (req : PortId) (page : Fin 16384) (lock : Bool) (on : Bool) (soft : Option ResetIn)
  /-- `REGISTER_WRITE` (R337): A write to a register with no behaviour of its own, checked and applied or refused. -/
  | registerWrite (req : PortId) (off : Fin 67108864) (size : Nat) (value : Nat) (x : ResetIn)
  /-- `DIST_GLB_WRITE` (R29): A write of DIST_GLB_BASE or DIST_GLB_SIZE, held until its pair completes, then applied or dropped. -/
  | distGlbWrite (req : PortId) (d : DistId) (base : Option (Fin 512)) (size : Option (Fin 512))
  /-- `PWR_CAP_WRITE` (R262): A write of PWR_CAP_W sets the package cap, clamped, effective at the next round. -/
  | pwrCapWrite (req : PortId) (value : Nat)
  /-- `OP_TARGET_WRITE` (R260): A write of OP_TARGET sets a die's target operating point, clamped to the ceiling. -/
  | opTargetWrite (req : PortId) (d : DieId) (value : Nat)
  /-- `DUSK_ROUND` (R275): Each 1 ms round Dusk samples every channel, filters and cross-checks them, and sets levels, refresh, caps and operating points. -/
  | duskRound (r : RoundIn)
  /-- `SENSOR_SUSPECT_LOW` (R277): A sensor reads more than 12 °C below agreeing neighbours for 3 rounds and is replaced. -/
  | sensorSuspectLow (ch : Fin 528)
  /-- `SENSOR_RECOVERED` (R277): A suspect-low sensor reads within 12 °C of the median for 10 rounds and recovers. -/
  | sensorRecovered (ch : Fin 528)
  /-- `SENSOR_HIGH_SUSPECT` (R277): A sensor reads more than 12 °C above agreeing neighbours for 10 rounds and is reported. -/
  | sensorHighSuspect (ch : Fin 528)
  /-- `RAIL_OUT_OF_RANGE` (R278): A rail stays outside ±5 % for 2 rounds, setting RAIL_OOR and asserting ALERT_N. -/
  | railOutOfRange (ch : Fin 96)
  /-- `TEMP_LEVEL_RELEASE` (R279): Temperature stays below the release threshold for 3 rounds and a TJ or TD level falls by 1. -/
  | tempLevelRelease (d : Fin 5) (td : Bool)
  /-- `REFRESH_RATE_FALL` (R133): DRAM temperature stays 2 °C below a band edge for 4 rounds and the refresh rate falls. -/
  | refreshRateFall (q : Fin 16)
  /-- `OP_RAISE_QUALIFIED` (R261): A higher operating point has been derived for 10 rounds and a raise begins. -/
  | opRaiseQualified (d : DieId)
  /-- `OP_STEP_DONE` (R261): One operating-point step of clock and voltage completes, starting any waiting step. -/
  | opStepDone (d : DieId)
  /-- `CAP_UNATTAINABLE` (R273): Every actuator is at its floor and the package stays above the cap for 2 rounds. -/
  | capUnattainable
  /-- `GOVERNOR_STEP` (R265): Each 1 µs the die governor measures power and moves duty, shaping and pad toward the reasons' ceilings. -/
  | governorStep (doms : List GovIn) (htr : List (Nat × Bool))
  /-- `ICC_CEILING_RISE` (R266): After 8 steps at least 16 A below the limit, the current ceiling rises by one sixteenth. -/
  | iccCeilingRise (d : DieId)
  /-- `THROTTLE_N_ASSERT` (R274): THROTTLE_N reads low for 2 samples and the EXT ceilings apply. -/
  | throttleNAssert
  /-- `THROTTLE_N_RELEASE` (R274): THROTTLE_N reads high for 2 samples and the EXT ceilings are released. -/
  | throttleNRelease
  /-- `PRERAMP_START` (R271): A pending hint's pre-ramp start time arrives and pad begins raising die power. -/
  | prerampStart (d : DieId) (cls : Fin 4)
  /-- `HINT_START` (R271): A pending hint's start time arrives and its class becomes the die's active class. -/
  | hintStart (d : DieId) (cls : Fin 4)
  /-- `HINT_EXPIRE` (R271): No hint arrives for 10 ms and no class remains active. -/
  | hintExpire (d : DieId)
  /-- `THERMAL_TRIP` (R282): A trip triplet agrees on an overtemperature; the Midnight latch sets and the package is held in reset. -/
  | thermalTrip (d : DieId) (t : Fin 8) (up : Bool)
  /-- `TRIP_COMPARATOR_DEGRADED` (R282): A comparator disagrees with its triplet for 10 rounds and is reported in TRIP_DEGRADED. -/
  | tripComparatorDegraded (d : DieId) (t : Fin 8) (c : Fin 3)
  /-- `TW_REQ` (R283): A write of TW_REQ starts Twilight entry, or is refused with TW_REFUSED. -/
  | twReq (req : PortId) (keep : Bool)
  /-- `TW_ENTRY_DONE` (R283): Twilight entry completes; a wake held during entry then starts exit. -/
  | twEntryDone
  /-- `TW_EXIT` (R283): A write of TW_EXIT wakes the package from Twilight. -/
  | twExit (req : PortId) (keep : Bool)
  /-- `TW_EXIT_DONE` (R283): Twilight exit completes with tiles powered and port trainings restored. -/
  | twExitDone (st : List OeStart)
  /-- `LC_REQ` (R324): A write of TARGET requests a life-cycle transition, checked and programmed or refused. -/
  | lcReq (req : PortId) (target : Fin 8) (confirm : BitVec 16)
  /-- `FUSE_PULSE` (R325): A fuse bit is pulsed for 20 µs and read back, retried up to three times. -/
  | fusePulse (ok : Bool)
  /-- `FUSE_SUPPLY_SAG` (R325): VDD_FUSE falls below 1.62 V during a pulse and the transition aborts with 0x07. -/
  | fuseSupplySag (mv : Fin 1620)
  /-- `LC_TRANSITION_DONE` (R325): All fuses of a transition are blown; it ends 0x01 and the Plaza resets. -/
  | lcTransitionDone
  /-- `SCAN_ENABLE` (R321): Setting SCAN_EN or ENGINE_EN stops all launches, erases the identity key and disables attestation. -/
  | scanEnable (req : PortId) (scan : Bool) (engine : Bool)
  /-- `ATT_GO` (R331): A write of ATT_GO requests a signed attestation report, or is refused. -/
  | attGo (req : PortId) (d : DistId) (pkg : Bool)
  /-- `ATT_DONE` (R332): The signed report is written to host memory and ATT_STATUS reads done. -/
  | attDone (d : DistId) (refused : Bool)
  /-- `SIGN_POLICY_WRITE` (R330): A write of SIGN_REQUIRED or IMG_KEY_DIGEST, dropped unless idle, emptying the District's image slots on change. -/
  | signPolicyWrite (req : PortId) (d : DistId) (word : Fin 9) (value : BitVec 32)
  /-- `SET_OFFSET` (R354): An SMBus command that sets the BAR0 offset for later reads. -/
  | setOffset (offset : BitVec 32) (pec : Bool)
  /-- `READ32` (R354): An SMBus command that reads 4 bytes at the offset and advances it. -/
  | read32
  /-- `READ64` (R354): An SMBus command that reads 8 bytes at the offset and advances it. -/
  | read64
  /-- `OE_HEARTBEAT_LOST` (R21): An optical engine misses its heartbeats, or signals reset or clock loss, and the Plaza fences it, taking its Alley and Boulevard links down. -/
  | oeHeartbeatLost (e : OeId) (why : Fin 3)
  /-- `LOAD_IMAGE_DONE` (R115): The fetch of a schedule image from host memory, its checks and its writes to the tiles finish, and LOAD_IMAGE posts its completion. -/
  | loadImageDone (d : DistId) (seq : Nat) (data : List Byte) (refused : Bool)
  deriving DecidableEq, Repr

end Sys2Proof
end

