-- ==== Sys2Proof/Machine/Coding.lean ====
section
/-!
DEFINITION. Machine/Coding.lean: the digests, signatures and check codes that the chapters use:
SM3 (GB/T 32905) and SM2 on the recommended curve of GB/T 32918.5 (chapter 14), CRC-32 of the
optical flits (R195, R197) and CRC-8 of the link words and SMBus (R198, R354).
-/
namespace Sys2Proof.Machine

/-! ### SM3 -/

/-- A 32-bit rotation to the left. -/
def rotl32 (x n : Nat) : Nat :=
  let k := n % 32
  (x <<< k) % 2 ^ 32 + x / 2 ^ (32 - k)

/-- The complement of a 32-bit word. -/
def not32 (x : Nat) : Nat := 0xFFFFFFFF - x % 2 ^ 32

/-- A running SM3 state: the eight chaining words A to H. -/
structure Sm3 where
  a : Nat
  b : Nat
  c : Nat
  d : Nat
  e : Nat
  f : Nat
  g : Nat
  h : Nat
  deriving DecidableEq, Repr

/-- The initial value of SM3. -/
def sm3Init : Sm3 :=
  ⟨0x7380166f, 0x4914b2b9, 0x172442d7, 0xda8a0600, 0xa96f30bc, 0x163138aa, 0xe38dee4d, 0xb0fb0e4e⟩

def sm3P0 (x : Nat) : Nat := x ^^^ rotl32 x 9 ^^^ rotl32 x 17
def sm3P1 (x : Nat) : Nat := x ^^^ rotl32 x 15 ^^^ rotl32 x 23

/-- The next `n` words of the SM3 message expansion; `ws` holds the words so far, newest first. -/
def sm3Expand : Nat → List Nat → List Nat
  | 0, ws => ws
  | n + 1, ws =>
    let w (k : Nat) : Nat := ws.getD (k - 1) 0
    let v := sm3P1 (w 16 ^^^ w 9 ^^^ rotl32 (w 3) 15) ^^^ rotl32 (w 13) 7 ^^^ w 6
    sm3Expand n (v :: ws)

/-- One round of the SM3 compression, on `W_j` and `W'_j`. -/
def sm3Round (j w w' : Nat) (s : Sm3) : Sm3 :=
  let t := if j < 16 then 0x79cc4519 else 0x7a879d8a
  let ss1 := rotl32 ((rotl32 s.a 12 + s.e + rotl32 t j) % 2 ^ 32) 7
  let ss2 := ss1 ^^^ rotl32 s.a 12
  let ff := if j < 16 then s.a ^^^ s.b ^^^ s.c
            else (s.a &&& s.b) ||| (s.a &&& s.c) ||| (s.b &&& s.c)
  let gg := if j < 16 then s.e ^^^ s.f ^^^ s.g else (s.e &&& s.f) ||| (not32 s.e &&& s.g)
  let tt1 := (ff + s.d + ss2 + w') % 2 ^ 32
  let tt2 := (gg + s.h + ss1 + w) % 2 ^ 32
  ⟨tt1, s.a, rotl32 s.b 9, s.c, sm3P0 tt2, s.e, rotl32 s.f 19, s.g⟩

/-- The rounds from `j` on, over the expanded words `ws` (oldest first). -/
def sm3Rounds : Nat → Nat → List Nat → Sm3 → Sm3
  | 0, _, _, s => s
  | _ + 1, _, [], s => s
  | n + 1, j, w :: ws, s => sm3Rounds n (j + 1) ws (sm3Round j w (w ^^^ ws.getD 3 0) s)

/-- The compression of one 64-byte block, given as 16 big-endian words. -/
def sm3Block (s : Sm3) (ws : List Nat) : Sm3 :=
  let full := (sm3Expand 52 ws.reverse).reverse
  let t := sm3Rounds 64 0 full s
  ⟨s.a ^^^ t.a, s.b ^^^ t.b, s.c ^^^ t.c, s.d ^^^ t.d,
   s.e ^^^ t.e, s.f ^^^ t.f, s.g ^^^ t.g, s.h ^^^ t.h⟩

/-- `n` big-endian 32-bit words from the head of a byte list. -/
def beWords : Nat → List Byte → List Nat
  | 0, _ => []
  | n + 1, bs => beNat (bs.take 4) :: beWords n (bs.drop 4)

def sm3Blocks : Nat → List Byte → Sm3 → Sm3
  | 0, _, s => s
  | n + 1, bs, s => sm3Blocks n (bs.drop 64) (sm3Block s (beWords 16 bs))

/-- The SM3 padding of a message. -/
def sm3Pad (m : List Byte) : List Byte :=
  let l := m.length
  m ++ (0x80 : Byte) :: List.replicate ((119 - l % 64) % 64) 0 ++ beBytes 8 (8 * l)

/-- The SM3 digest of a message, as its 32 bytes read big-endian. -/
def sm3 (m : List Byte) : Nat :=
  let p := sm3Pad m
  let t := sm3Blocks (p.length / 64) p sm3Init
  ((((((t.a * 2 ^ 32 + t.b) * 2 ^ 32 + t.c) * 2 ^ 32 + t.d) * 2 ^ 32 + t.e) * 2 ^ 32 + t.f)
    * 2 ^ 32 + t.g) * 2 ^ 32 + t.h

/-- The 32 bytes of a digest. -/
def digestBytes (d : Nat) : List Byte := beBytes 32 d

/-- Word `i` of a digest as the pages show it: bytes 4i to 4i + 3, little-endian. -/
def digestWord (d i : Nat) : Nat := leAt (digestBytes d) (4 * i) 4

/-! ### SM2 -/

/-- The field prime of the recommended curve of GB/T 32918.5. -/
def sm2p : Nat := 0xFFFFFFFEFFFFFFFFFFFFFFFFFFFFFFFFFFFFFFFF00000000FFFFFFFFFFFFFFFF
/-- Its coefficients. -/
def sm2a : Nat := sm2p - 3
def sm2b : Nat := 0x28E9FA9E9D9F5E344D5A9E4BCF6509A7F39789F515AB8F92DDBCBD414D940E93
/-- The order of its base point. -/
def sm2n : Nat := 0xFFFFFFFEFFFFFFFFFFFFFFFFFFFFFFFF7203DF6B21C6052B53BBF40939D54123
/-- The base point. -/
def sm2gx : Nat := 0x32C4AE2C1F1981195F9904466A39C9948FE30BBFF2660BE1715A4589334C74C7
def sm2gy : Nat := 0xBC3736A2F4F6779C59BDCEE36B692153D0A9877CC62A474002DF32E52139F0A0

/-- `b ^ e mod m` by `fuel` halvings of `e`. -/
def powMod (m : Nat) : Nat → Nat → Nat → Nat
  | 0, _, _ => 1 % m
  | f + 1, b, e =>
    let r := powMod m f (b * b % m) (e / 2)
    if e % 2 = 1 then b * r % m else r

/-- The inverse modulo a prime (0 for 0). -/
def invMod (m x : Nat) : Nat := powMod m 256 (x % m) (m - 2)

/-- `a - b` modulo `m`, for reduced arguments. -/
def subMod (m a b : Nat) : Nat := (a % m + (m - b % m)) % m

/-- A point in Jacobian coordinates; `z = 0` is the point at infinity. -/
structure JPoint where
  x : Nat
  y : Nat
  z : Nat
  deriving DecidableEq, Repr

def jInf : JPoint := ⟨1, 1, 0⟩

/-- Doubling on the curve. -/
def jDbl (P : JPoint) : JPoint :=
  if P.z = 0 then P else
  let p := sm2p
  let yy := P.y * P.y % p
  let s := 4 * P.x * yy % p
  let zz := P.z * P.z % p
  let m := (3 * P.x * P.x + sm2a * (zz * zz % p)) % p
  let x := subMod p (m * m) (2 * s)
  ⟨x, subMod p (m * subMod p s x) (8 * yy * yy), 2 * P.y * P.z % p⟩

/-- Addition on the curve. -/
def jAdd (P Q : JPoint) : JPoint :=
  if P.z = 0 then Q else if Q.z = 0 then P else
  let p := sm2p
  let z1 := P.z * P.z % p
  let z2 := Q.z * Q.z % p
  let u1 := P.x * z2 % p
  let u2 := Q.x * z1 % p
  let s1 := P.y * Q.z * z2 % p
  let s2 := Q.y * P.z * z1 % p
  if u1 = u2 then (if s1 = s2 then jDbl P else jInf) else
  let h := subMod p u2 u1
  let r := subMod p s2 s1
  let h2 := h * h % p
  let h3 := h * h2 % p
  let u := u1 * h2 % p
  let x := subMod p (r * r) (h3 + 2 * u)
  ⟨x, subMod p (r * subMod p u x) (s1 * h3), h * P.z * Q.z % p⟩

/-- The low `n` bits of `k` times `P`. -/
def jMul : Nat → Nat → JPoint → JPoint
  | 0, _, _ => jInf
  | n + 1, k, P =>
    let r := jMul n (k / 2) (jDbl P)
    if k % 2 = 1 then jAdd P r else r

/-- The affine coordinates of a point ((0, 0) for infinity). -/
def jAffine (P : JPoint) : Nat × Nat :=
  if P.z = 0 then (0, 0) else
  let i := invMod sm2p P.z
  let i2 := i * i % sm2p
  (P.x * i2 % sm2p, P.y * (i2 * i % sm2p) % sm2p)

/-- `k` times the affine point `Q`. -/
def sm2Mul (k : Nat) (Q : Nat × Nat) : JPoint := jMul 256 k ⟨Q.1, Q.2, 1⟩

/-- `k` times the base point, affine. -/
def sm2MulG (k : Nat) : Nat × Nat := jAffine (sm2Mul k (sm2gx, sm2gy))

/-- Whether an affine point lies on the curve. -/
def sm2OnCurve (Q : Nat × Nat) : Bool :=
  Q.1 < sm2p && Q.2 < sm2p &&
    Q.2 * Q.2 % sm2p == (Q.1 * Q.1 * Q.1 + sm2a * Q.1 + sm2b) % sm2p

/-- The digest Z of the signer's identity and key that GB/T 32918 puts before the message. -/
def sm2Z (ident : List Byte) (pub : Nat × Nat) : Nat :=
  sm3 (beBytes 2 (8 * ident.length) ++ ident ++ beBytes 32 sm2a ++ beBytes 32 sm2b
    ++ beBytes 32 sm2gx ++ beBytes 32 sm2gy ++ beBytes 32 pub.1 ++ beBytes 32 pub.2)

/-- The number that is signed: the digest of Z and the message. -/
def sm2E (ident : List Byte) (pub : Nat × Nat) (m : List Byte) : Nat :=
  sm3 (beBytes 32 (sm2Z ident pub) ++ m)

/-- Verification of an SM2 signature (R323, R328, R329). -/
def sm2Verify (ident : List Byte) (pub : Nat × Nat) (m : List Byte) (r s : Nat) : Bool :=
  let t := (r + s) % sm2n
  let P := jAffine (jAdd (sm2Mul s (sm2gx, sm2gy)) (sm2Mul t pub))
  sm2OnCurve pub && 0 < r && r < sm2n && 0 < s && s < sm2n && t != 0 &&
    (sm2E ident pub m + P.1) % sm2n == r

/-- An SM2 signature with private key `d` and the random number `k` (R332). -/
def sm2Sign (ident : List Byte) (d k : Nat) (m : List Byte) : Nat × Nat :=
  let e := sm2E ident (sm2MulG d) m
  let r := (e + (sm2MulG k).1) % sm2n
  let s := invMod sm2n (1 + d) * subMod sm2n k (r * d) % sm2n
  (r, s)

/-- The key derivation function of GB/T 32918.4 over SM3, `bits` bits of it (R326). -/
def sm2Kdf (z : List Byte) (bits : Nat) : Nat :=
  let n := (bits + 255) / 256
  let all := (List.range n).flatMap (fun i => digestBytes (sm3 (z ++ beBytes 4 (i + 1))))
  beNat (all.take (bits / 8))

/-- The ASCII bytes of a text. -/
def asciiBytes (t : String) : List Byte := t.toList.map (fun c => BitVec.ofNat 8 c.toNat)

/-! ### Cyclic codes -/

/-- One bit of a reflected CRC-32. -/
def crc32Bit (c : Nat) : Nat := if c % 2 = 1 then (c / 2) ^^^ 0xEDB88320 else c / 2

def crc32Byte (c : Nat) (b : Byte) : Nat :=
  crc32Bit (crc32Bit (crc32Bit (crc32Bit (crc32Bit (crc32Bit (crc32Bit (crc32Bit
    (c ^^^ b.toNat))))))))

/-- CRC-32 (IEEE 802.3) of a byte string. -/
def crc32 (bs : List Byte) : Nat := (bs.foldl crc32Byte 0xFFFFFFFF) ^^^ 0xFFFFFFFF

def crc8Bit (c : Nat) : Nat := if c ≥ 128 then (2 * c) % 256 ^^^ 0x07 else 2 * c

def crc8Byte (c : Nat) (b : Byte) : Nat :=
  crc8Bit (crc8Bit (crc8Bit (crc8Bit (crc8Bit (crc8Bit (crc8Bit (crc8Bit (c ^^^ b.toNat))))))))

/-- CRC-8 with polynomial x⁸ + x² + x + 1, from zero (the SMBus packet error code). -/
def crc8 (bs : List Byte) : Nat := bs.foldl crc8Byte 0

/-! ### The outer code of a slice (R124) -/

/-- Multiplication by α = 2 in GF(2⁸) with x⁸ + x⁴ + x³ + x² + 1. -/
def gfDbl (a : Nat) : Nat := if a ≥ 128 then (2 * a) % 256 ^^^ 0x1D else 2 * a

/-- The product of two elements of the field, over the low `n` bits of `b`. -/
def gfMulN : Nat → Nat → Nat → Nat
  | 0, _, _ => 0
  | n + 1, a, b => (if b % 2 = 1 then a else 0) ^^^ gfMulN n (gfDbl a) (b / 2)

def gfMul (a b : Nat) : Nat := gfMulN 8 a b

/-- α to the power `n`. -/
def gfPow : Nat → Nat
  | 0 => 1
  | n + 1 => gfDbl (gfPow n)

/-- The four check bytes of 32 data bytes: the remainder of division by
g(x) = (x − 1)(x − α)(x − α²)(x − α³) = x⁴ + 15x³ + 54x² + 120x + 64. -/
def rsCheck (data : List Byte) : Nat × Nat × Nat × Nat :=
  data.foldl (fun r d =>
    let f := r.1 ^^^ d.toNat
    (r.2.1 ^^^ gfMul f 15, r.2.2.1 ^^^ gfMul f 54, r.2.2.2 ^^^ gfMul f 120, gfMul f 64))
    (0, 0, 0, 0)

/-- Syndrome S_i of an error pattern: symbol j stands at x^(35 − j). The code is linear, so the
syndromes of what is read are those of what differs from a codeword. -/
def rsSyndrome (i : Nat) (e : List (Nat × Nat)) : Nat :=
  e.foldl (fun s x => s ^^^ gfMul (x.2 % 256) (gfPow (i * (35 - x.1 % 36)))) 0

/-- The syndromes packed as R138 packs them, S_i at [8i + 7:8i]. -/
def rsSyndromes (e : List (Nat × Nat)) : Nat :=
  rsSyndrome 0 e + 256 * rsSyndrome 1 e + 65536 * rsSyndrome 2 e + 16777216 * rsSyndrome 3 e

/-- What the decoder makes of a read. -/
inductive RsOut where
  /-- no syndrome is set -/
  | clean
  /-- the error of one symbol that explains the syndromes, corrected -/
  | corrected (sym val : Nat)
  | uncorrectable
  deriving DecidableEq, Repr

/-- Correction of every error confined to one symbol; any other nonzero syndrome is detected. -/
def rsDecode (e : List (Nat × Nat)) : RsOut :=
  let s0 := rsSyndrome 0 e
  let s1 := rsSyndrome 1 e
  let s2 := rsSyndrome 2 e
  let s3 := rsSyndrome 3 e
  if s0 = 0 && s1 = 0 && s2 = 0 && s3 = 0 then .clean
  else match (List.range 36).find? (fun j =>
      let a := gfPow (35 - j)
      s0 != 0 && s1 == gfMul s0 a && s2 == gfMul s1 a && s3 == gfMul s2 a) with
    | some j => .corrected j s0
    | none => .uncorrectable

/-- The data bytes of a sector with an error pattern added. -/
def addErrors (data : List Byte) (e : List (Nat × Nat)) : List Byte :=
  e.foldl (fun d x => d.set x.1 (d.getD x.1 0 ^^^ BitVec.ofNat 8 x.2)) data

/-- The data that a read with error pattern `e` delivers, where the decoder delivers any. -/
def rsData (data : List Byte) (e : List (Nat × Nat)) : Option (List Byte) :=
  match rsDecode e with
  | .clean => some (addErrors data e)
  | .corrected j v => some (addErrors (addErrors data e) [(j, v)])
  | .uncorrectable => none

end Sys2Proof.Machine
end

