-- ==== Sys2Proof/Config.lean ====
section
/-!
DEFINITION. Config.lean: the free values.  Where the specification lets a value result without
saying which (a random number, a time the part measures, a result that may or may not have
landed), the model takes an unconstrained value: an opaque function of a counter in the state.
Nothing can be proved about what it is.
-/
namespace Sys2Proof

/-- A free number: the `n`-th one drawn (log entry 3). -/
opaque Config.freeNat : Nat → Nat

/-- A free 32-bit word. -/
opaque Config.freeWord : Nat → Word

/-- A free byte. -/
opaque Config.freeByte : Nat → Byte

/-- A free choice. -/
opaque Config.freeBool : Nat → Bool

/-- The hash that spreads flows over the links of a port (R183, R188): a free function of the flow. -/
opaque Config.flowHash : Nat → Nat

/-- Whether so many corrections on a lane show that its error rate is above that of R200 (R196, log entry
175). -/
opaque Config.rateExceeded : Nat → Bool

/-- By how much an optical engine lowers its heater power, in units of 10 mW, for a step of so many W in its
neighbour's power (R271, log entry 178). -/
opaque Config.heaterDrop : Nat → Nat

end Sys2Proof
end

