-- ==== Sys2Proof/Machine/Arith.lean ====
section
/-!
DEFINITION. Machine/Arith.lean: the number formats and the arithmetic of the matrix array, the
vector unit and the engines (R41 to R59, R152).  Every operand is taken to its exact value, the
operation is carried out exactly, and the result is rounded once, to nearest, ties to even.
-/
namespace Sys2Proof.Machine

/-- A number as the formats of R41 give it: `num neg m e` is ±m · 2^e, with `m = 0` a zero of
the sign `neg`. -/
inductive FNum where
  | nan
  | inf (neg : Bool)
  | num (neg : Bool) (m : Nat) (e : Int)
  deriving DecidableEq, Repr

/-- A floating-point format: exponent width, fraction width, exponent bias, and which special
values its top exponent holds. `ieee`: infinities and NaNs; `e4m3`: one NaN code, no infinity;
`none`: no special value. -/
inductive FSpecial where
  | ieee | e4m3 | none
  deriving DecidableEq, Repr

structure FFmt where
  ew : Nat
  mw : Nat
  bias : Nat
  special : FSpecial
  deriving DecidableEq, Repr

def fp32 : FFmt := ⟨8, 23, 127, .ieee⟩
def bf16 : FFmt := ⟨8, 7, 127, .ieee⟩
def fp16 : FFmt := ⟨5, 10, 15, .ieee⟩
def e4m3 : FFmt := ⟨4, 3, 7, .e4m3⟩
def e5m2 : FFmt := ⟨5, 2, 15, .ieee⟩
def e2m3 : FFmt := ⟨2, 3, 1, .none⟩
def e3m2 : FFmt := ⟨3, 2, 3, .none⟩
def e2m1 : FFmt := ⟨2, 1, 1, .none⟩

/-- The sticky flags of `FP_FLAGS` (R59) that one computation raises. -/
structure FFlags where
  invalid : Bool := false
  divZero : Bool := false
  overflow : Bool := false
  underflow : Bool := false
  saturated : Bool := false
  deriving DecidableEq, Repr

def FFlags.or (a b : FFlags) : FFlags :=
  ⟨a.invalid || b.invalid, a.divZero || b.divZero, a.overflow || b.overflow,
   a.underflow || b.underflow, a.saturated || b.saturated⟩

/-- The flags as bits [4:0] of the `FP_FLAGS` register. -/
def FFlags.bits (f : FFlags) : Nat :=
  ofBool f.invalid + 2 * ofBool f.divZero + 4 * ofBool f.overflow + 8 * ofBool f.underflow
    + 16 * ofBool f.saturated

/-- A result and the flags it raises. -/
abbrev FRes := Nat × FFlags

/-- The number a bit pattern of a format stands for. -/
def FFmt.decode (f : FFmt) (v : Nat) : FNum :=
  let neg := bitOf v (f.ew + f.mw)
  let ex := bitsOf v f.mw f.ew
  let fr := bitsOf v 0 f.mw
  let top := 2 ^ f.ew - 1
  if f.special = .ieee && ex == top then (if fr = 0 then .inf neg else .nan)
  else if f.special = .e4m3 && ex == top && fr == 2 ^ f.mw - 1 then .nan
  else if ex = 0 then .num neg fr (1 - (f.bias : Int) - f.mw)
  else .num neg (2 ^ f.mw + fr) ((ex : Int) - f.bias - f.mw)

/-- The bits of the canonical NaN of R54. -/
def FFmt.nanBits (f : FFmt) : Nat :=
  if f.special = .e4m3 then 2 ^ (f.ew + f.mw) - 1
  else (2 ^ f.ew - 1) * 2 ^ f.mw + 2 ^ (f.mw - 1)

/-- E5M2's canonical NaN is 0x7E, which is its general rule; FP32 0x7FC0_0000 likewise (R54). -/
def FFmt.infBits (f : FFmt) (neg : Bool) : Nat :=
  ofBool neg * 2 ^ (f.ew + f.mw) + (2 ^ f.ew - 1) * 2 ^ f.mw

def FFmt.zeroBits (f : FFmt) (neg : Bool) : Nat := ofBool neg * 2 ^ (f.ew + f.mw)

/-- The number of bits of `m`, less one (0 for 0). -/
def lg (m : Nat) : Nat := Nat.log2 m

/-- `m` shifted right by `d` bits, rounded to nearest, ties to even. -/
def shiftRne (m d : Nat) : Nat :=
  let q := m / 2 ^ d
  let r := 2 * (m % 2 ^ d)
  if r > 2 ^ d ∨ (r = 2 ^ d ∧ q % 2 = 1) then q + 1 else q

/-- `m · 2^e` brought to the quantum `2^q`, rounded to nearest even: the multiple, and whether it
is inexact. -/
def quantise (m : Nat) (e q : Int) : Nat × Bool :=
  if q ≤ e then (m * 2 ^ (e - q).toNat, false)
  else
    let d := (q - e).toNat
    (shiftRne m d, m % 2 ^ d != 0)

/-- What rounding to a format found: the multiple of the quantum `2^q`, whether it is inexact,
and whether the exact value is tiny as R50 judges it. -/
structure Rounded where
  m : Nat
  q : Int
  inexact : Bool
  tiny : Bool
  deriving DecidableEq, Repr

/-- Rounding a nonzero `m · 2^e` to the precision of a format, its exponent unbounded above. -/
def FFmt.round (f : FFmt) (m : Nat) (e : Int) : Rounded :=
  let top : Int := (lg m : Int) + e
  let emin : Int := 1 - (f.bias : Int)
  let q0 := top - f.mw
  let q := max q0 (emin - f.mw)
  let r := quantise m e q
  let r0 := quantise m e q0
  -- r0 · 2^q0 < 2^emin, the bound judged at the unbounded exponent
  let tiny : Bool := q0 + f.mw < emin && r0.1 < 2 ^ (f.mw + (emin - (q0 + f.mw)).toNat)
  ⟨r.1, q, r.2, tiny⟩

/-- The exponent field and fraction of a rounded multiple, assuming it is in range. -/
def FFmt.pack (f : FFmt) (neg : Bool) (r : Rounded) : Nat :=
  let r := if r.m ≥ 2 ^ (f.mw + 1) then { r with m := r.m / 2, q := r.q + 1 } else r
  let s := ofBool neg * 2 ^ (f.ew + f.mw)
  if r.m < 2 ^ f.mw then s + r.m
  else s + (r.q + f.mw + f.bias).toNat * 2 ^ f.mw + (r.m - 2 ^ f.mw)

/-- The largest finite magnitude of a format, as a multiple and its quantum. -/
def FFmt.maxFinite (f : FFmt) : Nat × Int :=
  match f.special with
  | .ieee => (2 ^ (f.mw + 1) - 1, (2 ^ f.ew - 2 : Nat) - (f.bias : Int) - f.mw)
  | .e4m3 => (2 ^ (f.mw + 1) - 2, (2 ^ f.ew - 1 : Nat) - (f.bias : Int) - f.mw)
  | .none => (2 ^ (f.mw + 1) - 1, (2 ^ f.ew - 1 : Nat) - (f.bias : Int) - f.mw)

/-- `a · 2^i ≤ b · 2^j`. -/
def leScaled (a : Nat) (i : Int) (b : Nat) (j : Int) : Bool :=
  if i ≤ j then a ≤ b * 2 ^ (j - i).toNat else a * 2 ^ (i - j).toNat ≤ b

/-- Whether a rounded multiple is beyond the largest finite magnitude of the format. -/
def FFmt.beyond (f : FFmt) (r : Rounded) : Bool :=
  !leScaled r.m r.q f.maxFinite.1 f.maxFinite.2

def FFmt.maxBits (f : FFmt) (neg : Bool) : Nat :=
  f.pack neg ⟨f.maxFinite.1, f.maxFinite.2, false, false⟩

/-- IEEE rounding of ±m · 2^e to a format with infinities: overflow to ±∞ with `OVERFLOW`, tiny
and inexact with `UNDERFLOW` (R50, R54). -/
def FFmt.ofExact (f : FFmt) (neg : Bool) (m : Nat) (e : Int) : FRes :=
  if m = 0 then (f.zeroBits neg, {})
  else
    let r := f.round m e
    if f.beyond r then (f.infBits neg, { overflow := true })
    else (f.pack neg r, { underflow := r.tiny && r.inexact })

/-- Rounding of any number to a format with infinities. -/
def FFmt.ofNum (f : FFmt) : FNum → FRes
  | .nan => (f.nanBits, {})
  | .inf neg => (f.infBits neg, {})
  | .num neg m e => f.ofExact neg m e

/-- The exact sum of two finite numbers: a zero sum is −0 only when both are negative zeros or
negative (IEEE 754, round to nearest). -/
def addExact (n1 : Bool) (m1 : Nat) (e1 : Int) (n2 : Bool) (m2 : Nat) (e2 : Int) : FNum :=
  let e := min e1 e2
  let a : Int := (m1 * 2 ^ (e1 - e).toNat : Nat)
  let b : Int := (m2 * 2 ^ (e2 - e).toNat : Nat)
  let s := (if n1 then -a else a) + (if n2 then -b else b)
  if s = 0 then .num (n1 && n2) 0 e else .num (s < 0) s.natAbs e

/-- The sum of two numbers, and whether the operation is invalid (+∞ with −∞). A signalling NaN is
taken as a quiet one and makes no operation invalid, here and in every other operation (DESIGN CHOICE,
log entry 131). -/
def FNum.add : FNum → FNum → FNum × Bool
  | .nan, _ => (.nan, false)
  | _, .nan => (.nan, false)
  | .inf a, .inf b => if a = b then (.inf a, false) else (.nan, true)
  | .inf a, _ => (.inf a, false)
  | _, .inf b => (.inf b, false)
  | .num n1 m1 e1, .num n2 m2 e2 => (addExact n1 m1 e1 n2 m2 e2, false)

def FNum.neg : FNum → FNum
  | .nan => .nan
  | .inf a => .inf (!a)
  | .num n m e => .num (!n) m e

/-- The product of two numbers, and whether the operation is invalid (∞ with zero). -/
def FNum.mul : FNum → FNum → FNum × Bool
  | .nan, _ => (.nan, false)
  | _, .nan => (.nan, false)
  | .inf a, .inf b => (.inf (a != b), false)
  | .inf a, .num n m _ => if m = 0 then (.nan, true) else (.inf (a != n), false)
  | .num n m _, .inf b => if m = 0 then (.nan, true) else (.inf (n != b), false)
  | .num n1 m1 e1, .num n2 m2 e2 => (.num (n1 != n2) (m1 * m2) (e1 + e2), false)

/-- A result number with its invalid mark, rounded to a format. -/
def FFmt.finish (f : FFmt) (r : FNum × Bool) : FRes :=
  let o := f.ofNum r.1
  (o.1, { o.2 with invalid := r.2 })

def FFmt.addBits (f : FFmt) (a b : Nat) : FRes := f.finish ((f.decode a).add (f.decode b))
def FFmt.subBits (f : FFmt) (a b : Nat) : FRes := f.finish ((f.decode a).add (f.decode b).neg)
def FFmt.mulBits (f : FFmt) (a b : Nat) : FRes := f.finish ((f.decode a).mul (f.decode b))

/-- a × b + c with one rounding; `negate` gives c − a × b (R54, R74). Infinity times zero is invalid
whatever c is, a NaN too (DESIGN CHOICE, log entry 131). -/
def FFmt.fmaBits (f : FFmt) (negate : Bool) (a b c : Nat) : FRes :=
  let p := (f.decode a).mul (f.decode b)
  let p1 := if negate then p.1.neg else p.1
  let s := p1.add (f.decode c)
  f.finish (s.1, p.2 || s.2)

/-- The order of two numbers that are no NaN: `some` of less, equal, greater; zeros are equal. -/
def FNum.compare : FNum → FNum → Option Ordering
  | .nan, _ => none
  | _, .nan => none
  | .inf a, .inf b => some (if a = b then .eq else if a then .lt else .gt)
  | .inf a, _ => some (if a then .lt else .gt)
  | _, .inf b => some (if b then .gt else .lt)
  | .num n1 m1 e1, .num n2 m2 e2 =>
    match addExact n1 m1 e1 (!n2) m2 e2 with
    | .num n m _ => some (if m = 0 then .eq else if n then .lt else .gt)
    | _ => none

def FNum.isNeg : FNum → Bool
  | .nan => false
  | .inf n => n
  | .num n _ _ => n

/-- Max or min: NaN when either is NaN, −0 below +0 (R54). -/
def FFmt.maxMinBits (f : FFmt) (wantMax : Bool) (a b : Nat) : Nat :=
  let x := f.decode a
  let y := f.decode b
  match x.compare y with
  | none => f.nanBits
  | some .lt => if wantMax then b else a
  | some .gt => if wantMax then a else b
  | some .eq => if (x.isNeg && !y.isNeg) = wantMax then b else a

/-! ### exp2, log2, reciprocal, reciprocal square root (R55) -/

/-- The integer square root, by `fuel` Newton steps from above. -/
def isqrtStep : Nat → Nat → Nat → Nat
  | 0, _, x => x
  | f + 1, n, x =>
    let y := (x + n / x) / 2
    if y < x then isqrtStep f n y else x

def isqrt (n : Nat) : Nat :=
  if n = 0 then 0 else isqrtStep 600 n (2 ^ (lg n / 2 + 1))

/-- The working precision of the series below, in bits. -/
def fixBits : Nat := 320

/-- 2^f · 2^fixBits for f given by its first `n` fraction bits below bit `i` of `v` (v has `w`
fraction bits); `r` is the present root 2^(2^−i). -/
def exp2Frac : Nat → Nat → Nat → Nat → Nat → Nat
  | 0, _, _, _, acc => acc
  | n + 1, w, v, r, acc =>
    let r' := isqrt (r * 2 ^ fixBits)
    let acc' := if w ≥ 1 && bitOf v (w - 1) then acc * r' / 2 ^ fixBits else acc
    exp2Frac n (w - 1) v r' acc'

/-- exp2 of an FP32 value. -/
def exp2Bits (a : Nat) : FRes :=
  match fp32.decode a with
  | .nan => (fp32.nanBits, {})
  | .inf true => (0, {})
  | .inf false => (fp32.infBits false, {})
  | .num neg m e =>
    if m = 0 then (fp32.ofExact false 1 0)
    else if lg m + e ≥ 9 then
      (if neg then fp32.ofExact false 1 (-1000) else (fp32.infBits false, { overflow := true }))
    else
      -- the argument as a fixed-point number with 160 fraction bits; FP32 has none below 2^−149
      let fx : Int := (m * 2 ^ (e + 160).toNat : Nat)
      let x : Int := if neg then -fx else fx
      let n : Int := x / (2 ^ 160 : Nat)
      let fr : Nat := (x % (2 ^ 160 : Nat)).toNat
      if fr = 0 then fp32.ofExact false 1 n
      else
        let v := exp2Frac 160 160 fr (2 * 2 ^ fixBits) (2 ^ fixBits)
        -- an irrational value: a sticky bit below the working precision
        fp32.ofExact false (2 * v + 1) (n - fixBits - 1)

/-- The next `n` bits of log₂ of y · 2^−fixBits, 1 ≤ y < 2, appended to `acc`. -/
def log2Frac : Nat → Nat → Nat → Nat
  | 0, _, acc => acc
  | n + 1, y, acc =>
    let z := y * y / 2 ^ fixBits
    if z ≥ 2 * 2 ^ fixBits then log2Frac n (z / 2) (2 * acc + 1) else log2Frac n z (2 * acc)

/-- log2 of an FP32 value. -/
def log2Bits (a : Nat) : FRes :=
  match fp32.decode a with
  | .nan => (fp32.nanBits, {})
  | .inf true => (fp32.nanBits, { invalid := true })
  | .inf false => (fp32.infBits false, {})
  | .num neg m e =>
    if m = 0 then (fp32.infBits true, { divZero := true })
    else if neg then (fp32.nanBits, { invalid := true })
    else
      let n : Int := lg m + e
      let y := m * 2 ^ (fixBits - lg m)
      if m = 2 ^ lg m then fp32.ofExact (n < 0) n.natAbs 0
      else
        let fr := log2Frac 140 y 0
        -- 140 fraction bits and a sticky bit
        let v : Int := n * (2 ^ 141 : Nat) + (2 * fr + 1 : Nat)
        fp32.ofExact (v < 0) v.natAbs (-141)

/-- 1 / a. -/
def rcpBits (a : Nat) : FRes :=
  match fp32.decode a with
  | .nan => (fp32.nanBits, {})
  | .inf n => (fp32.zeroBits n, {})
  | .num n m e =>
    if m = 0 then (fp32.infBits n, { divZero := true })
    else
      let q := 2 ^ 80 / m
      let st := if 2 ^ 80 % m = 0 then 0 else 1
      fp32.ofExact n (2 * q + st) (-e - 81)

/-- 1 / √a. -/
def rsqBits (a : Nat) : FRes :=
  match fp32.decode a with
  | .nan => (fp32.nanBits, {})
  | .inf true => (fp32.nanBits, { invalid := true })
  | .inf false => (0, {})
  | .num n m e =>
    if m = 0 then (fp32.infBits n, { divZero := true })
    else if n then (fp32.nanBits, { invalid := true })
    else
      -- bring the exponent to an even number, then take the root of 2^240 / m
      let odd := e % 2 = 1
      let m := if odd then 2 * m else m
      let e := if odd then e - 1 else e
      let q := 2 ^ 240 / m
      let s := isqrt q
      let st := if s * s = q && 2 ^ 240 % m = 0 then 0 else 1
      fp32.ofExact false (2 * s + st) (-(e / 2) - 121)

/-! ### Conversions (R57, R58) -/

/-- Conversion of a number to FP8, or to a narrow format with its clamp (R57). `sat` selects the
saturating form. UNDERFLOW is judged at the target's own smallest normal number, here and in every
other conversion (DESIGN CHOICE, log entry 132). -/
def toE4m3 (sat : Bool) : FNum → FRes
  | .nan => (e4m3.nanBits, {})
  | .inf n => if sat then (e4m3.maxBits n, { saturated := true })
              else (e4m3.nanBits, { invalid := true })
  | .num n m e =>
    if m = 0 then (e4m3.zeroBits n, {})
    else
      let r := e4m3.round m e
      if e4m3.beyond r then
        (if sat then (e4m3.maxBits n, { saturated := true })
         else (e4m3.nanBits, { overflow := true }))
      else (e4m3.pack n r, { underflow := r.tiny && r.inexact })

def toE5m2 (sat : Bool) : FNum → FRes
  | .nan => (e5m2.nanBits, {})
  | .inf n => if sat then (e5m2.maxBits n, { saturated := true }) else (e5m2.infBits n, {})
  | .num n m e =>
    if m = 0 then (e5m2.zeroBits n, {})
    else
      let r := e5m2.round m e
      if e5m2.beyond r then
        (if sat then (e5m2.maxBits n, { saturated := true })
         else (e5m2.infBits n, { overflow := true }))
      else (e5m2.pack n r, { underflow := r.tiny && r.inexact })

/-- INT8, as its 8-bit two's complement. -/
def toInt8 : FNum → FRes
  | .nan => (0, { invalid := true })
  | .inf n => (if n then 0x80 else 0x7F, { saturated := true })
  | .num n m e =>
    let r := (quantise m e 0).1
    let i : Int := if n then -(r : Int) else r
    if i > 127 then (0x7F, { saturated := true })
    else if i < -128 then (0x80, { saturated := true })
    else (ofSigned 8 i, {})

/-- FP4 (E2M1). -/
def toE2m1 : FNum → FRes
  | .nan => (0, { invalid := true })
  | .inf n => (e2m1.maxBits n, { saturated := true })
  | .num n m e =>
    if m = 0 then (e2m1.zeroBits n, {})
    else
      let r := e2m1.round m e
      if e2m1.beyond r then (e2m1.maxBits n, { saturated := true })
      else (e2m1.pack n r, { underflow := r.tiny && r.inexact })

/-! ### Format codes (R69) -/

/-- The element format of a floating-point format code. -/
def fmtOf (code : Nat) : Option FFmt :=
  match code with
  | 0x0 => some fp32 | 0x1 => some bf16 | 0x2 => some fp16
  | 0x3 => some e4m3 | 0x4 => some e5m2 | 0x5 => some e4m3 | 0x6 => some e5m2
  | 0x7 => some e2m3 | 0x8 => some e3m2 | 0x9 => some e2m1 | 0xA => some e2m1
  | _ => none

/-- Whether a format code is one of the MX formats. -/
def isMx (code : Nat) : Bool :=
  code == 0x5 || code == 0x6 || code == 0x7 || code == 0x8 || code == 0xA || code == 0xC

/-- Bits of one element. -/
def elemBits (code : Nat) : Nat :=
  match code with
  | 0x0 => 32 | 0x1 => 16 | 0x2 => 16 | 0x7 => 6 | 0x8 => 6 | 0x9 => 4 | 0xA => 4 | 0xD => 32
  | _ => 8

/-- The number an element of a format code stands for, without its scale. MXINT8 elements count
as integers times 2⁻⁶ (R48). -/
def elemNum (code v : Nat) : FNum :=
  if code = 0xB then let i := toSigned 8 v; .num (i < 0) i.natAbs 0
  else if code = 0xC then let i := toSigned 8 v; .num (i < 0) i.natAbs (-6)
  else match fmtOf code with
    | some f => f.decode v
    | none => .num false 0 0

/-- An element of a format, rounded and clamped to the element's largest magnitude (R58): for MXINT8
128 when negative and 127 else. An element that becomes subnormal or zero raises no UNDERFLOW (DESIGN
CHOICE, log entry 132). -/
def toMxElem (code : Nat) (x : FNum) : FRes :=
  match x with
  | .num n m e =>
    if code = 0xC then
      -- MXINT8: an integer times 2⁻⁶, from −128 to 127
      let r := (quantise m e (-6)).1
      if n then (if r > 128 then (0x80, { saturated := true }) else (ofSigned 8 (-(r : Int)), {}))
      else (if r > 127 then (0x7F, { saturated := true }) else (r, {}))
    else match fmtOf code with
      | some f =>
        if m = 0 then (f.zeroBits n, {})
        else
          let r := f.round m e
          if f.beyond r then (f.maxBits n, { saturated := true }) else (f.pack n r, {})
      | none => (0, {})
  | _ => (0, {})

/-- e_max of R58. -/
def mxEmax (code : Nat) : Int :=
  match code with
  | 0x5 => 8 | 0x6 => 15 | 0xA => 2 | 0x7 => 2 | 0x8 => 4 | _ => 0

/-- The number of an FNum scaled by 2^s. -/
def FNum.scale (s : Int) : FNum → FNum
  | .num n m e => .num n m (e + s)
  | x => x

/-- The larger of the exponents of the leading bits, over the nonzero numbers of a list. -/
def topExp : List FNum → Option Int
  | [] => none
  | .num _ m e :: xs =>
    let r := topExp xs
    if m = 0 then r
    else
      let t : Int := lg m + e
      match r with
      | none => some t
      | some u => some (max t u)
  | _ :: xs => topExp xs

def FNum.isFinite : FNum → Bool
  | .num _ _ _ => true
  | _ => false

/-- Conversion of one block of 32 numbers to an MX format: the scale byte, the elements and the
flags (R58). -/
def toMxBlock (code : Nat) (xs : List FNum) : Nat × List Nat × FFlags :=
  if !xs.all FNum.isFinite then (0xFF, xs.map (fun _ => 0), {})
  else match topExp xs with
    | none => (0x00, xs.map (fun _ => 0), {})
    | some t =>
      let s := max (-127) (min 127 (t - mxEmax code))
      let rs := xs.map (fun x => toMxElem code (x.scale (-s)))
      ((s + 127).toNat, rs.map Prod.fst, rs.foldl (fun f r => f.or r.2) {})

/-- The number an E8M0 scale stands for: `none` for 0xFF, which means NaN. -/
def e8m0 (v : Nat) : Option Int := if v = 0xFF then none else some ((v : Int) - 127)

/-! ### Block sums of the matrix array (R47 to R50) -/

/-- One operand pair of a block sum: weight, activation, and the sum of their unbiased scale
exponents (`none` when a scale is 0xFF). -/
structure Pair where
  w : FNum
  a : FNum
  s : Option Int
  deriving DecidableEq, Repr

def Pair.hasNan (p : Pair) : Bool := p.w == .nan || p.a == .nan || p.s == none

/-- The scaled product of a pair that holds no NaN. -/
def Pair.prod (p : Pair) : FNum × Bool :=
  let r := p.w.mul p.a
  (r.1.scale (p.s.getD 0), r.2)

/-- The magnitude of a product as a multiple of 2^q, truncated toward zero. -/
def truncTo (q : Int) : FNum → Int
  | .num n m e =>
    let k : Nat := if q ≤ e then m * 2 ^ (e - q).toNat else m / 2 ^ (q - e).toNat
    if n then -(k : Int) else k
  | _ => 0

/-- The block result of one row and column, rounded once to FP32. -/
def blockSum (ps : List Pair) : FRes :=
  let prods := ps.map Pair.prod
  if ps.any Pair.hasNan then (fp32.nanBits, {})
  else if prods.any (fun p => p.2) then (fp32.nanBits, { invalid := true })
  else
    let pos := prods.any (fun p => p.1 == .inf false)
    let neg := prods.any (fun p => p.1 == .inf true)
    if pos && neg then (fp32.nanBits, { invalid := true })
    else if pos then (fp32.infBits false, {})
    else if neg then (fp32.infBits true, {})
    else match topExp (prods.map Prod.fst) with
      | none => (0, {})
      | some t =>
        let q := t - 55
        let s : Int := (prods.map (fun p => truncTo q p.1)).foldl (fun a b => a + b) 0
        if s = 0 then (0, {}) else fp32.ofExact (s < 0) s.natAbs q

end Sys2Proof.Machine
end

