-- ==== Sys2Proof/Machine/Regs.lean ====
section
/-!
DEFINITION. Machine/Regs.lean: every register field of every page, as the register tables of
the chapters give it (offset, bits, access, reset), and where each page lies in the register
space (R333, R334).  A field of a page is addressed by its bit number in BAR0.
-/
namespace Sys2Proof.Machine

/-- The page types of R333 and R334, and the header that all of them share (R335). -/
inductive PageKind where
  | plaza | dusk | sec | fuse | pkgsw | pwr | therm | bist | dawn | topo
  | hostport | district | cmdproc | cdie | d2d | oe | blvd | crossing | alley | coll
  | tile | slice | engine | mover | hdr
  deriving DecidableEq, Repr

/-- Access codes of R9. -/
inductive Acc where
  | ro | rw | rwl | w1c | wo
  deriving DecidableEq, Repr

/-- One page: its type and its instance (R334). -/
structure PageId where
  kind : PageKind
  inst : Nat
  deriving DecidableEq, Repr

/-- One field of a register table.  `str` and `cnt` are the distance in bits between two
entries of an indexed field and their number (`str2`, `cnt2` for a second index); `rs` is the
code RS; `view` marks a field that the part computes from other state and that no register
cell holds. -/
structure Fld where
  page : PageKind
  off : Nat
  lo : Nat
  wid : Nat
  acc : Acc
  rs : Bool := false
  reset : Nat := 0
  str : Nat := 0
  cnt : Nat := 1
  str2 : Nat := 0
  cnt2 : Nat := 1
  view : Bool := false
  deriving DecidableEq, Repr

/-- The BAR0 byte offset of a page (R333, R334). -/
def PageId.base (p : PageId) : Nat :=
  match p.kind with
  | .plaza => 0x0000 | .dusk => 0x1000 | .sec => 0x2000 | .fuse => 0x3000 | .pkgsw => 0x4000
  | .pwr => 0x5000 | .therm => 0x6000 | .bist => 0x7000 | .dawn => 0x8000 | .topo => 0x9000
  | .hostport => (12 + p.inst) * 0x1000
  | .district => (16 + p.inst) * 0x1000
  | .cmdproc => (20 + p.inst) * 0x1000
  | .cdie => (24 + p.inst) * 0x1000
  | .d2d => (28 + p.inst) * 0x1000
  | .oe => (36 + p.inst) * 0x1000
  | .blvd => (40 + p.inst) * 0x1000
  | .crossing => (44 + p.inst) * 0x1000
  | .alley => (48 + p.inst) * 0x1000
  | .coll => (64 + p.inst) * 0x1000
  | .tile => 0x1000000 + p.inst * 0x4000
  | .slice => 0x1000000 + p.inst * 0x4000 + 0x1000
  | .engine => 0x1000000 + p.inst * 0x4000 + 0x2000
  | .mover => 0x1000000 + p.inst * 0x4000 + 0x3000
  | .hdr => 0

/-- The page that a BAR0 byte offset lies in, or `none` where nothing is mapped (R333, R334). -/
def pageAt (o : Nat) : Option PageId :=
  if o < 0x80000 then
    let i := o / 0x1000
    if i = 0 then some ⟨.plaza, 0⟩ else if i = 1 then some ⟨.dusk, 0⟩
    else if i = 2 then some ⟨.sec, 0⟩ else if i = 3 then some ⟨.fuse, 0⟩
    else if i = 4 then some ⟨.pkgsw, 0⟩ else if i = 5 then some ⟨.pwr, 0⟩
    else if i = 6 then some ⟨.therm, 0⟩ else if i = 7 then some ⟨.bist, 0⟩
    else if i = 8 then some ⟨.dawn, 0⟩ else if i = 9 then some ⟨.topo, 0⟩
    else if i < 12 then none
    else if i < 16 then some ⟨.hostport, i - 12⟩ else if i < 20 then some ⟨.district, i - 16⟩
    else if i < 24 then some ⟨.cmdproc, i - 20⟩ else if i < 28 then some ⟨.cdie, i - 24⟩
    else if i < 36 then some ⟨.d2d, i - 28⟩ else if i < 40 then some ⟨.oe, i - 36⟩
    else if i < 44 then some ⟨.blvd, i - 40⟩ else if i < 48 then some ⟨.crossing, i - 44⟩
    else if i < 64 then some ⟨.alley, i - 48⟩ else if i < 96 then some ⟨.coll, i - 64⟩
    else none
  else if o < 0x1000000 then none
  else if o < 0x2E00000 then
    let n := (o - 0x1000000) / 0x4000
    let k := (o - 0x1000000) % 0x4000 / 0x1000
    if k = 0 then some ⟨.tile, n⟩ else if k = 1 then some ⟨.slice, n⟩
    else if k = 2 then some ⟨.engine, n⟩ else some ⟨.mover, n⟩
  else none

/-- The type code of a page (R333, R334). -/
def PageKind.code : PageKind → Nat
  | .plaza => 0x1 | .dusk => 0x2 | .sec => 0x3 | .fuse => 0x4 | .hostport => 0x5
  | .district => 0x6 | .cmdproc => 0x7 | .coll => 0x8 | .pkgsw => 0x9 | .d2d => 0xA
  | .cdie => 0xB | .tile => 0xC | .slice => 0xD | .engine => 0xE | .mover => 0xF
  | .oe => 0x10 | .alley => 0x11 | .blvd => 0x12 | .crossing => 0x13 | .pwr => 0x14
  | .therm => 0x15 | .bist => 0x16 | .dawn => 0x17 | .topo => 0x18 | .hdr => 0

/-- Whether a page is one of the four of a per-tile group (R333). -/
def PageKind.perTile : PageKind → Bool
  | .tile | .slice | .engine | .mover => true
  | _ => false

/-! ### `D2D` -/

def D2D_PLAZA_MAX_RATE : Fld := { page := .d2d, off := 0x100, lo := 0, wid := 6, acc := .ro, reset := 16 }
def D2D_PARTNER_MAX_RATE : Fld := { page := .d2d, off := 0x100, lo := 8, wid := 6, acc := .ro }
def D2D_MODULE_COUNT : Fld := { page := .d2d, off := 0x100, lo := 16, wid := 5, acc := .ro, reset := 24, view := true }
def D2D_MIN_MODULES : Fld := { page := .d2d, off := 0x100, lo := 24, wid := 5, acc := .ro, reset := 16, view := true }
def D2D_AGREED_MINOR : Fld := { page := .d2d, off := 0x104, lo := 0, wid := 8, acc := .ro }
def D2D_AGREED_MAJOR : Fld := { page := .d2d, off := 0x104, lo := 8, wid := 8, acc := .ro }
def D2D_PARTNER_MAX_MINOR : Fld := { page := .d2d, off := 0x104, lo := 16, wid := 8, acc := .ro }
def D2D_PARTNER_MAX_MAJOR : Fld := { page := .d2d, off := 0x104, lo := 24, wid := 8, acc := .ro }
def D2D_RATE : Fld := { page := .d2d, off := 0x108, lo := 0, wid := 6, acc := .ro }
def D2D_MODULES_USABLE : Fld := { page := .d2d, off := 0x108, lo := 8, wid := 5, acc := .ro, view := true }
def D2D_DEGRADED : Fld := { page := .d2d, off := 0x108, lo := 13, wid := 1, acc := .ro, view := true }
def D2D_LINK_UP : Fld := { page := .d2d, off := 0x108, lo := 14, wid := 1, acc := .ro, view := true }
def D2D_BELOW_MIN : Fld := { page := .d2d, off := 0x108, lo := 15, wid := 1, acc := .ro }
def D2D_HB_MISSED : Fld := { page := .d2d, off := 0x108, lo := 16, wid := 4, acc := .ro }
def D2D_MOD_STATE_LO : Fld := { page := .d2d, off := 0x110, lo := 0, wid := 32, acc := .ro, reset := 0xffffffff, view := true }
def D2D_MOD_STATE_HI : Fld := { page := .d2d, off := 0x114, lo := 0, wid := 16, acc := .ro, reset := 0xffff, view := true }
def D2D_MAX_RATE : Fld := { page := .d2d, off := 0x118, lo := 0, wid := 6, acc := .rwl, reset := 63 }
def D2D_REPAIR_TX_USED : Fld := { page := .d2d, off := 0x200, lo := 0, wid := 3, acc := .ro, str := 32, cnt := 24 }
def D2D_REPAIR_RX_USED : Fld := { page := .d2d, off := 0x200, lo := 4, wid := 3, acc := .ro, str := 32, cnt := 24 }
def D2D_STATE : Fld := { page := .d2d, off := 0x200, lo := 8, wid := 2, acc := .ro, reset := 3, str := 32, cnt := 24 }
def D2D_CRC_REPLAYS : Fld := { page := .d2d, off := 0x200, lo := 16, wid := 16, acc := .ro, str := 32, cnt := 24 }

/-! ### `PKGSW` -/

def PKGSW_DIE_PRESENT : Fld := { page := .pkgsw, off := 0x100, lo := 0, wid := 4, acc := .ro, view := true }
def PKGSW_OE_PRESENT : Fld := { page := .pkgsw, off := 0x100, lo := 4, wid := 4, acc := .ro, view := true }
def PKGSW_REFUSED_UNMAPPED : Fld := { page := .pkgsw, off := 0x104, lo := 0, wid := 32, acc := .ro, rs := true }
def PKGSW_REFUSED_ACCESS : Fld := { page := .pkgsw, off := 0x108, lo := 0, wid := 32, acc := .ro, rs := true }
def PKGSW_REFUSED_FENCED : Fld := { page := .pkgsw, off := 0x10c, lo := 0, wid := 32, acc := .ro, rs := true }
def PKGSW_DIST_GLB_BASE : Fld := { page := .pkgsw, off := 0x110, lo := 0, wid := 9, acc := .rwl, str := 128, cnt := 4 }
def PKGSW_DIST_GLB_SIZE : Fld := { page := .pkgsw, off := 0x114, lo := 0, wid := 9, acc := .rwl, str := 128, cnt := 4 }
def PKGSW_DIST_SLICE_COUNT : Fld := { page := .pkgsw, off := 0x118, lo := 0, wid := 11, acc := .ro, str := 128, cnt := 4, view := true }
def PKGSW_DIST_QDIE_MASK : Fld := { page := .pkgsw, off := 0x11c, lo := 0, wid := 16, acc := .ro, str := 128, cnt := 4, view := true }

/-! ### `CDIE` -/

def CDIE_LOGICAL_TILES : Fld := { page := .cdie, off := 0x100, lo := 0, wid := 9, acc := .ro, view := true }
def CDIE_FENCE_CAUSE : Fld := { page := .cdie, off := 0x100, lo := 12, wid := 4, acc := .ro }
def CDIE_TILES_FENCED : Fld := { page := .cdie, off := 0x104, lo := 0, wid := 11, acc := .ro }
def CDIE_EDGE_HOPS : Fld := { page := .cdie, off := 0x104, lo := 16, wid := 5, acc := .ro, view := true }
def CDIE_FENCE_ROUND : Fld := { page := .cdie, off := 0x108, lo := 0, wid := 32, acc := .ro }
def CDIE_QDIE_OWNER : Fld := { page := .cdie, off := 0x10c, lo := 0, wid := 16, acc := .ro, reset := 0xffff, view := true }

/-! ### `TILE` -/

def TILE_LOGICAL_ID : Fld := { page := .tile, off := 0x100, lo := 0, wid := 11, acc := .ro, view := true }
def TILE_DIE : Fld := { page := .tile, off := 0x100, lo := 11, wid := 2, acc := .ro, view := true }
def TILE_PHYS_ROW : Fld := { page := .tile, off := 0x100, lo := 16, wid := 4, acc := .ro, view := true }
def TILE_PHYS_COL : Fld := { page := .tile, off := 0x100, lo := 21, wid := 5, acc := .ro, view := true }
def TILE_LOGICAL_COL : Fld := { page := .tile, off := 0x100, lo := 26, wid := 5, acc := .ro, view := true }
def TILE_RUN_STATE : Fld := { page := .tile, off := 0x104, lo := 0, wid := 3, acc := .ro, view := true }
def TILE_FROZEN : Fld := { page := .tile, off := 0x104, lo := 3, wid := 1, acc := .ro, view := true }
def TILE_FREEZE_CAUSE : Fld := { page := .tile, off := 0x104, lo := 4, wid := 3, acc := .ro, view := true }
def TILE_TRAP_CAUSE : Fld := { page := .tile, off := 0x104, lo := 8, wid := 8, acc := .ro, rs := true, view := true }
def TILE_TRAP_BUNDLE : Fld := { page := .tile, off := 0x108, lo := 0, wid := 12, acc := .ro, rs := true, view := true }
def TILE_TRAP_SLOTS : Fld := { page := .tile, off := 0x108, lo := 16, wid := 5, acc := .ro, rs := true, view := true }
def TILE_OP : Fld := { page := .tile, off := 0x10c, lo := 0, wid := 3, acc := .ro, view := true }
def TILE_PACE_DUTY : Fld := { page := .tile, off := 0x10c, lo := 4, wid := 5, acc := .ro, reset := 16, view := true }
def TILE_INVALID : Fld := { page := .tile, off := 0x110, lo := 0, wid := 1, acc := .w1c, view := true }
def TILE_DIV_ZERO : Fld := { page := .tile, off := 0x110, lo := 1, wid := 1, acc := .w1c, view := true }
def TILE_OVERFLOW : Fld := { page := .tile, off := 0x110, lo := 2, wid := 1, acc := .w1c, view := true }
def TILE_UNDERFLOW : Fld := { page := .tile, off := 0x110, lo := 3, wid := 1, acc := .w1c, view := true }
def TILE_SATURATED : Fld := { page := .tile, off := 0x110, lo := 4, wid := 1, acc := .w1c, view := true }
def TILE_RUN_CYC_LO : Fld := { page := .tile, off := 0x118, lo := 0, wid := 32, acc := .ro, rs := true, view := true }
def TILE_RUN_CYC_HI : Fld := { page := .tile, off := 0x11c, lo := 0, wid := 32, acc := .ro, rs := true, view := true }
def TILE_FROZEN_CYC_LO : Fld := { page := .tile, off := 0x120, lo := 0, wid := 32, acc := .ro, rs := true, view := true }
def TILE_FROZEN_CYC_HI : Fld := { page := .tile, off := 0x124, lo := 0, wid := 32, acc := .ro, rs := true, view := true }
def TILE_SLIP_CYC_LO : Fld := { page := .tile, off := 0x140, lo := 0, wid := 32, acc := .ro, rs := true, str := 64, cnt := 7, view := true }
def TILE_SLIP_CYC_HI : Fld := { page := .tile, off := 0x144, lo := 0, wid := 32, acc := .ro, rs := true, str := 64, cnt := 7, view := true }
def TILE_SLIP_EVT : Fld := { page := .tile, off := 0x180, lo := 0, wid := 32, acc := .ro, rs := true, str := 32, cnt := 7, view := true }

/-! ### `MOVER` -/

def MOVER_STATE : Fld := { page := .mover, off := 0x100, lo := 0, wid := 2, acc := .ro, str := 32, cnt := 8, view := true }
def MOVER_PENDING : Fld := { page := .mover, off := 0x100, lo := 2, wid := 3, acc := .ro, str := 32, cnt := 8, view := true }
def MOVER_ERR : Fld := { page := .mover, off := 0x100, lo := 8, wid := 8, acc := .ro, rs := true, str := 32, cnt := 8, view := true }
def MOVER_QUEUE : Fld := { page := .mover, off := 0x100, lo := 16, wid := 4, acc := .ro, str := 32, cnt := 8, view := true }
def MOVER_OP : Fld := { page := .mover, off := 0x100, lo := 20, wid := 4, acc := .ro, str := 32, cnt := 8, view := true }
def MOVER_Q_POISON : Fld := { page := .mover, off := 0x120, lo := 0, wid := 16, acc := .ro, rs := true, view := true }
def MOVER_Q_MESH : Fld := { page := .mover, off := 0x124, lo := 0, wid := 16, acc := .rw, view := true }
def MOVER_QLEVEL : Fld := { page := .mover, off := 0x130, lo := 0, wid := 5, acc := .ro, str := 8, cnt := 16, view := true }
def MOVER_OLEVEL : Fld := { page := .mover, off := 0x140, lo := 0, wid := 5, acc := .ro, str := 8, cnt := 16, view := true }
def MOVER_EVT : Fld := { page := .mover, off := 0x150, lo := 0, wid := 32, acc := .ro, str := 32, cnt := 8, view := true }
def MOVER_DEST_TILE : Fld := { page := .mover, off := 0x800, lo := 0, wid := 11, acc := .rw, str := 64, cnt := 64, view := true }
def MOVER_DEST_QUEUE : Fld := { page := .mover, off := 0x800, lo := 12, wid := 4, acc := .rw, str := 64, cnt := 64, view := true }
def MOVER_REMOTE : Fld := { page := .mover, off := 0x800, lo := 16, wid := 1, acc := .rw, str := 64, cnt := 64, view := true }
def MOVER_DEST_X : Fld := { page := .mover, off := 0x800, lo := 24, wid := 8, acc := .rw, str := 64, cnt := 64, view := true }
def MOVER_DEST_Y : Fld := { page := .mover, off := 0x800, lo := 32, wid := 8, acc := .rw, str := 64, cnt := 64, view := true }
def MOVER_PATH : Fld := { page := .mover, off := 0x800, lo := 40, wid := 16, acc := .rw, str := 64, cnt := 64, view := true }
def MOVER_VALID : Fld := { page := .mover, off := 0x800, lo := 63, wid := 1, acc := .rw, str := 64, cnt := 64, view := true }
def MOVER_LINES_IN_LO : Fld := { page := .mover, off := 0x180, lo := 0, wid := 32, acc := .ro, rs := true, view := true }
def MOVER_LINES_IN_HI : Fld := { page := .mover, off := 0x184, lo := 0, wid := 32, acc := .ro, rs := true, view := true }
def MOVER_LINES_OUT_LO : Fld := { page := .mover, off := 0x188, lo := 0, wid := 32, acc := .ro, rs := true, view := true }
def MOVER_LINES_OUT_HI : Fld := { page := .mover, off := 0x18c, lo := 0, wid := 32, acc := .ro, rs := true, view := true }
def MOVER_CMD_COUNT : Fld := { page := .mover, off := 0x190, lo := 0, wid := 32, acc := .ro, rs := true, view := true }

/-! ### `SLICE` -/

def SLICE_MODE : Fld := { page := .slice, off := 0x100, lo := 0, wid := 2, acc := .ro, view := true }
def SLICE_REFRESH_RATE : Fld := { page := .slice, off := 0x100, lo := 2, wid := 2, acc := .ro, view := true }
def SLICE_OVERTEMP : Fld := { page := .slice, off := 0x100, lo := 4, wid := 1, acc := .ro, view := true }
def SLICE_PORT_UP : Fld := { page := .slice, off := 0x100, lo := 5, wid := 1, acc := .ro, view := true }
def SLICE_DRAM_TEMP : Fld := { page := .slice, off := 0x100, lo := 8, wid := 8, acc := .ro, view := true }
def SLICE_HOT_LAYER : Fld := { page := .slice, off := 0x100, lo := 16, wid := 4, acc := .ro, view := true }
def SLICE_MERGE_USED : Fld := { page := .slice, off := 0x100, lo := 20, wid := 5, acc := .ro, view := true }
def SLICE_SCRUB_EN : Fld := { page := .slice, off := 0x104, lo := 0, wid := 1, acc := .rwl }
def SLICE_SCRUB_HOURS : Fld := { page := .slice, off := 0x104, lo := 8, wid := 8, acc := .rwl, reset := 24 }
def SLICE_REFRESH_FLOOR : Fld := { page := .slice, off := 0x104, lo := 16, wid := 2, acc := .rwl }
def SLICE_SCRUB_POS : Fld := { page := .slice, off := 0x108, lo := 0, wid := 24, acc := .ro, rs := true }
def SLICE_SCRUB_PASSES : Fld := { page := .slice, off := 0x10c, lo := 0, wid := 32, acc := .ro, rs := true }
def SLICE_INNER_CORR : Fld := { page := .slice, off := 0x110, lo := 0, wid := 32, acc := .ro, rs := true }
def SLICE_MERGE_DROPS : Fld := { page := .slice, off := 0x114, lo := 0, wid := 32, acc := .ro, rs := true }
def SLICE_UNWRITTEN_READS : Fld := { page := .slice, off := 0x118, lo := 0, wid := 32, acc := .ro, rs := true }
def SLICE_UNCORR_LASTING : Fld := { page := .slice, off := 0x11c, lo := 0, wid := 32, acc := .ro, rs := true }
def SLICE_RD_SECTORS_LO : Fld := { page := .slice, off := 0x120, lo := 0, wid := 32, acc := .ro }
def SLICE_RD_SECTORS_HI : Fld := { page := .slice, off := 0x124, lo := 0, wid := 32, acc := .ro }
def SLICE_WR_SECTORS_LO : Fld := { page := .slice, off := 0x128, lo := 0, wid := 32, acc := .ro }
def SLICE_WR_SECTORS_HI : Fld := { page := .slice, off := 0x12c, lo := 0, wid := 32, acc := .ro }
def SLICE_RMW_LO : Fld := { page := .slice, off := 0x130, lo := 0, wid := 32, acc := .ro }
def SLICE_RMW_HI : Fld := { page := .slice, off := 0x134, lo := 0, wid := 32, acc := .ro }
def SLICE_REFRESH_OPS_LO : Fld := { page := .slice, off := 0x138, lo := 0, wid := 32, acc := .ro }
def SLICE_REFRESH_OPS_HI : Fld := { page := .slice, off := 0x13c, lo := 0, wid := 32, acc := .ro }

/-! ### `ENGINE` -/

def ENGINE_MODE : Fld := { page := .engine, off := 0x100, lo := 0, wid := 2, acc := .ro, view := true }
def ENGINE_RUN : Fld := { page := .engine, off := 0x100, lo := 2, wid := 2, acc := .ro, view := true }
def ENGINE_HALTED : Fld := { page := .engine, off := 0x100, lo := 4, wid := 1, acc := .ro }
def ENGINE_PAUSED : Fld := { page := .engine, off := 0x100, lo := 5, wid := 1, acc := .ro }
def ENGINE_OWED : Fld := { page := .engine, off := 0x100, lo := 8, wid := 4, acc := .ro }
def ENGINE_DESC : Fld := { page := .engine, off := 0x100, lo := 12, wid := 4, acc := .ro }
def ENGINE_CLK_DIV : Fld := { page := .engine, off := 0x100, lo := 16, wid := 2, acc := .ro, view := true }
def ENGINE_SKIP_N : Fld := { page := .engine, off := 0x100, lo := 24, wid := 8, acc := .ro, view := true }
def ENGINE_LAST_TAG : Fld := { page := .engine, off := 0x104, lo := 0, wid := 16, acc := .ro }
def ENGINE_RUNS : Fld := { page := .engine, off := 0x108, lo := 0, wid := 32, acc := .ro, rs := true }
def ENGINE_POISONED_RUNS : Fld := { page := .engine, off := 0x10c, lo := 0, wid := 32, acc := .ro, rs := true }
def ENGINE_PAUSES : Fld := { page := .engine, off := 0x110, lo := 0, wid := 32, acc := .ro, rs := true }
def ENGINE_PAUSE_MAX : Fld := { page := .engine, off := 0x114, lo := 0, wid := 16, acc := .ro, rs := true }
def ENGINE_MATRIX_BYTES_LO : Fld := { page := .engine, off := 0x118, lo := 0, wid := 32, acc := .ro }
def ENGINE_MATRIX_BYTES_HI : Fld := { page := .engine, off := 0x11c, lo := 0, wid := 32, acc := .ro }
def ENGINE_BUSY_CYC_LO : Fld := { page := .engine, off := 0x120, lo := 0, wid := 32, acc := .ro }
def ENGINE_BUSY_CYC_HI : Fld := { page := .engine, off := 0x124, lo := 0, wid := 32, acc := .ro }
def ENGINE_PAUSE_CYC_LO : Fld := { page := .engine, off := 0x128, lo := 0, wid := 32, acc := .ro }
def ENGINE_PAUSE_CYC_HI : Fld := { page := .engine, off := 0x12c, lo := 0, wid := 32, acc := .ro }
def ENGINE_MODE_CYC_LO : Fld := { page := .engine, off := 0x130, lo := 0, wid := 32, acc := .ro }
def ENGINE_MODE_CYC_HI : Fld := { page := .engine, off := 0x134, lo := 0, wid := 32, acc := .ro }

/-! ### `OE` -/

def OE_DFB_OK : Fld := { page := .oe, off := 0x100, lo := 0, wid := 8, acc := .ro }
def OE_ELS_PRESENT : Fld := { page := .oe, off := 0x100, lo := 8, wid := 1, acc := .ro, view := true }
def OE_HTR_LIMIT : Fld := { page := .oe, off := 0x100, lo := 9, wid := 1, acc := .ro }
def OE_ENGINE_TEMP : Fld := { page := .oe, off := 0x100, lo := 16, wid := 8, acc := .ro }
def OE_ELS_DARK : Fld := { page := .oe, off := 0x104, lo := 0, wid := 32, acc := .ro, reset := 0xffffffff }
def OE_HTR_POWER : Fld := { page := .oe, off := 0x108, lo := 0, wid := 16, acc := .ro }

/-! ### `ALLEY` -/

def ALLEY_LSTATE : Fld := { page := .alley, off := 0x100, lo := 0, wid := 3, acc := .ro }
def ALLEY_TX_WIDTH : Fld := { page := .alley, off := 0x100, lo := 4, wid := 6, acc := .ro, view := true }
def ALLEY_RX_WIDTH : Fld := { page := .alley, off := 0x100, lo := 10, wid := 6, acc := .ro, view := true }
def ALLEY_FIBRES : Fld := { page := .alley, off := 0x100, lo := 16, wid := 3, acc := .ro, view := true }
def ALLEY_FIBRE_MASK : Fld := { page := .alley, off := 0x100, lo := 20, wid := 4, acc := .ro }
def ALLEY_TX_LANES : Fld := { page := .alley, off := 0x104, lo := 0, wid := 32, acc := .ro }
def ALLEY_RX_LANES : Fld := { page := .alley, off := 0x108, lo := 0, wid := 32, acc := .ro }
def ALLEY_RX_DROPPED : Fld := { page := .alley, off := 0x10c, lo := 0, wid := 32, acc := .ro }
def ALLEY_PARTNER_TAG : Fld := { page := .alley, off := 0x110, lo := 0, wid := 16, acc := .ro }
def ALLEY_PARTNER_ENGINE : Fld := { page := .alley, off := 0x110, lo := 16, wid := 2, acc := .ro }
def ALLEY_PARTNER_VALID : Fld := { page := .alley, off := 0x110, lo := 18, wid := 1, acc := .ro }
def ALLEY_RETRAIN : Fld := { page := .alley, off := 0x114, lo := 0, wid := 1, acc := .wo }
def ALLEY_FLITS_TX_LO : Fld := { page := .alley, off := 0x120, lo := 0, wid := 32, acc := .ro, rs := true }
def ALLEY_FLITS_TX_HI : Fld := { page := .alley, off := 0x124, lo := 0, wid := 32, acc := .ro, rs := true }
def ALLEY_FLITS_RX_LO : Fld := { page := .alley, off := 0x128, lo := 0, wid := 32, acc := .ro, rs := true }
def ALLEY_FLITS_RX_HI : Fld := { page := .alley, off := 0x12c, lo := 0, wid := 32, acc := .ro, rs := true }
def ALLEY_REPLAY_FLITS_LO : Fld := { page := .alley, off := 0x130, lo := 0, wid := 32, acc := .ro, rs := true }
def ALLEY_REPLAY_FLITS_HI : Fld := { page := .alley, off := 0x134, lo := 0, wid := 32, acc := .ro, rs := true }
def ALLEY_RETRAINS : Fld := { page := .alley, off := 0x140, lo := 0, wid := 32, acc := .ro, rs := true }
def ALLEY_LANE_DROPS : Fld := { page := .alley, off := 0x144, lo := 0, wid := 32, acc := .ro, rs := true }
def ALLEY_RELOCKS : Fld := { page := .alley, off := 0x148, lo := 0, wid := 32, acc := .ro, rs := true }
def ALLEY_DISCARDED : Fld := { page := .alley, off := 0x14c, lo := 0, wid := 32, acc := .ro, rs := true }
def ALLEY_HANDOVERS : Fld := { page := .alley, off := 0x150, lo := 0, wid := 32, acc := .ro, rs := true }
def ALLEY_CRC_FAIL : Fld := { page := .alley, off := 0x154, lo := 0, wid := 32, acc := .ro, rs := true }

/-! ### `BLVD` -/

def BLVD_SQUARE_GROUP : Fld := { page := .blvd, off := 0x100, lo := 0, wid := 12, acc := .rwl }
def BLVD_SQUARE_PORT : Fld := { page := .blvd, off := 0x100, lo := 12, wid := 5, acc := .rwl }
def BLVD_CFG_VALID : Fld := { page := .blvd, off := 0x100, lo := 17, wid := 1, acc := .rwl }
def BLVD_TX_ENABLE : Fld := { page := .blvd, off := 0x104, lo := 0, wid := 32, acc := .rw, reset := 1 }
def BLVD_RX_ENABLE : Fld := { page := .blvd, off := 0x108, lo := 0, wid := 32, acc := .rw, reset := 1 }
def BLVD_PILOT_LOCKED : Fld := { page := .blvd, off := 0x10c, lo := 0, wid := 1, acc := .ro }
def BLVD_UP : Fld := { page := .blvd, off := 0x10c, lo := 1, wid := 1, acc := .ro }
def BLVD_LANES_UP : Fld := { page := .blvd, off := 0x10c, lo := 2, wid := 5, acc := .ro, view := true }
def BLVD_LINE_STATE : Fld := { page := .blvd, off := 0x110, lo := 0, wid := 2, acc := .ro, str := 2, cnt := 32 }
def BLVD_RELOCKS : Fld := { page := .blvd, off := 0x120, lo := 0, wid := 32, acc := .ro, rs := true }
def BLVD_LANE_DROPS : Fld := { page := .blvd, off := 0x124, lo := 0, wid := 32, acc := .ro, rs := true }
def BLVD_DISCARDED : Fld := { page := .blvd, off := 0x128, lo := 0, wid := 32, acc := .ro, rs := true }
def BLVD_CRC_FAIL : Fld := { page := .blvd, off := 0x12c, lo := 0, wid := 32, acc := .ro, rs := true }
def BLVD_FLITS_TX_LO : Fld := { page := .blvd, off := 0x130, lo := 0, wid := 32, acc := .ro, rs := true }
def BLVD_FLITS_TX_HI : Fld := { page := .blvd, off := 0x134, lo := 0, wid := 32, acc := .ro, rs := true }
def BLVD_FLITS_RX_LO : Fld := { page := .blvd, off := 0x138, lo := 0, wid := 32, acc := .ro, rs := true }
def BLVD_FLITS_RX_HI : Fld := { page := .blvd, off := 0x13c, lo := 0, wid := 32, acc := .ro, rs := true }

/-! ### `CROSSING` -/

def CROSSING_TARGET : Fld := { page := .crossing, off := 0x100, lo := 0, wid := 8, acc := .rw, str := 8, cnt := 8 }
def CROSSING_CURRENT : Fld := { page := .crossing, off := 0x108, lo := 0, wid := 8, acc := .ro, str := 8, cnt := 8 }
def CROSSING_APPLY : Fld := { page := .crossing, off := 0x110, lo := 0, wid := 1, acc := .wo }
def CROSSING_BUSY : Fld := { page := .crossing, off := 0x114, lo := 0, wid := 1, acc := .ro }
def CROSSING_PENDING : Fld := { page := .crossing, off := 0x114, lo := 1, wid := 1, acc := .ro }
def CROSSING_WG : Fld := { page := .crossing, off := 0x114, lo := 2, wid := 3, acc := .ro }
def CROSSING_STEP : Fld := { page := .crossing, off := 0x114, lo := 5, wid := 3, acc := .ro }
def CROSSING_LAST_RESULT : Fld := { page := .crossing, off := 0x114, lo := 8, wid := 8, acc := .ro }
def CROSSING_CALIBRATED : Fld := { page := .crossing, off := 0x118, lo := 0, wid := 1, acc := .ro }
def CROSSING_WORST_LOSS : Fld := { page := .crossing, off := 0x118, lo := 8, wid := 8, acc := .ro }
def CROSSING_DITHER_EN : Fld := { page := .crossing, off := 0x11c, lo := 0, wid := 1, acc := .rw, reset := 1 }
def CROSSING_GRANTS_DONE : Fld := { page := .crossing, off := 0x120, lo := 0, wid := 32, acc := .ro, rs := true }
def CROSSING_GRANTS_FAILED : Fld := { page := .crossing, off := 0x124, lo := 0, wid := 32, acc := .ro, rs := true }
def CROSSING_HTR_A : Fld := { page := .crossing, off := 0x400, lo := 0, wid := 12, acc := .ro, str := 32, cnt := 192 }
def CROSSING_HTR_B : Fld := { page := .crossing, off := 0x400, lo := 16, wid := 12, acc := .ro, str := 32, cnt := 192 }

/-! ### `TOPO` -/

def TOPO_X : Fld := { page := .topo, off := 0x100, lo := 0, wid := 8, acc := .rwl }
def TOPO_Y : Fld := { page := .topo, off := 0x100, lo := 8, wid := 8, acc := .rwl }
def TOPO_COORD_VALID : Fld := { page := .topo, off := 0x100, lo := 16, wid := 1, acc := .rwl }
def TOPO_TRAY_ID : Fld := { page := .topo, off := 0x104, lo := 0, wid := 16, acc := .rw }
def TOPO_TRAY_SLOT : Fld := { page := .topo, off := 0x104, lo := 16, wid := 3, acc := .rw }
def TOPO_SERIAL_TAG_LO : Fld := { page := .topo, off := 0x108, lo := 0, wid := 32, acc := .ro, view := true }
def TOPO_SERIAL_TAG_HI : Fld := { page := .topo, off := 0x10c, lo := 0, wid := 32, acc := .ro, view := true }
def TOPO_QID : Fld := { page := .topo, off := 0x140, lo := 0, wid := 16, acc := .rw, str := 128, cnt := 4 }
def TOPO_DISTRICT : Fld := { page := .topo, off := 0x140, lo := 16, wid := 2, acc := .rw, str := 128, cnt := 4 }
def TOPO_VALID : Fld := { page := .topo, off := 0x140, lo := 31, wid := 1, acc := .rw, str := 128, cnt := 4 }
def TOPO_RECT : Fld := { page := .topo, off := 0x144, lo := 0, wid := 32, acc := .rw, str := 128, cnt := 4 }
def TOPO_SQUARE_SET : Fld := { page := .topo, off := 0x148, lo := 0, wid := 32, acc := .rw, str := 128, cnt := 4 }
def TOPO_INGRESS : Fld := { page := .topo, off := 0x180, lo := 0, wid := 4, acc := .rw, str := 32, cnt := 5 }
def TOPO_PLAN_TAG_LO : Fld := { page := .topo, off := 0x200, lo := 0, wid := 32, acc := .rw, str := 256, cnt := 4 }
def TOPO_PLAN_TAG_HI : Fld := { page := .topo, off := 0x204, lo := 0, wid := 32, acc := .rw, str := 256, cnt := 4 }
def TOPO_PLAN_XY : Fld := { page := .topo, off := 0x208, lo := 0, wid := 16, acc := .rw, str := 256, cnt := 4 }
def TOPO_PLANNED : Fld := { page := .topo, off := 0x208, lo := 16, wid := 1, acc := .rw, str := 256, cnt := 4 }
def TOPO_PSTATE : Fld := { page := .topo, off := 0x20c, lo := 0, wid := 3, acc := .ro, str := 256, cnt := 4 }
def TOPO_SEEN_TAG_LO : Fld := { page := .topo, off := 0x210, lo := 0, wid := 32, acc := .ro, str := 256, cnt := 4 }
def TOPO_SEEN_TAG_HI : Fld := { page := .topo, off := 0x214, lo := 0, wid := 32, acc := .ro, str := 256, cnt := 4 }
def TOPO_SEEN_XY : Fld := { page := .topo, off := 0x218, lo := 0, wid := 16, acc := .ro, str := 256, cnt := 4 }
def TOPO_SEEN_FLAGS : Fld := { page := .topo, off := 0x218, lo := 16, wid := 8, acc := .ro, str := 256, cnt := 4 }
def TOPO_SQ_TAG : Fld := { page := .topo, off := 0x300, lo := 0, wid := 32, acc := .rw, str := 64, cnt := 32 }
def TOPO_SQ_XY : Fld := { page := .topo, off := 0x304, lo := 0, wid := 16, acc := .rw, str := 64, cnt := 32 }
def TOPO_SQ_PLANNED : Fld := { page := .topo, off := 0x304, lo := 16, wid := 1, acc := .rw, str := 64, cnt := 32 }
def TOPO_SQ_STATE : Fld := { page := .topo, off := 0x304, lo := 17, wid := 2, acc := .ro, str := 64, cnt := 32 }
def TOPO_PORT_ACCEPT : Fld := { page := .topo, off := 0x400, lo := 0, wid := 4, acc := .wo }
def TOPO_SQUARE_ACCEPT : Fld := { page := .topo, off := 0x404, lo := 0, wid := 32, acc := .wo }
def TOPO_DROPS : Fld := { page := .topo, off := 0x410, lo := 0, wid := 32, acc := .ro, rs := true, str := 32, cnt := 6 }
def TOPO_BEACONS_RX : Fld := { page := .topo, off := 0x428, lo := 0, wid := 32, acc := .ro, rs := true }

/-! ### `COLL` -/

def COLL_CSTATE : Fld := { page := .coll, off := 0x100, lo := 0, wid := 2, acc := .ro, view := true }
def COLL_QUEUED : Fld := { page := .coll, off := 0x100, lo := 2, wid := 5, acc := .ro, view := true }
def COLL_LAST_STATUS : Fld := { page := .coll, off := 0x100, lo := 8, wid := 8, acc := .ro, rs := true }
def COLL_CUR_TAG : Fld := { page := .coll, off := 0x100, lo := 16, wid := 16, acc := .ro, view := true }
def COLL_CUR_INSTANCE : Fld := { page := .coll, off := 0x104, lo := 0, wid := 32, acc := .ro, view := true }
def COLL_COLL_ABORT : Fld := { page := .coll, off := 0x108, lo := 0, wid := 1, acc := .wo }
def COLL_HOLD_USED : Fld := { page := .coll, off := 0x10c, lo := 0, wid := 8, acc := .ro, view := true }
def COLL_DONE_OK : Fld := { page := .coll, off := 0x110, lo := 0, wid := 32, acc := .ro, rs := true }
def COLL_DONE_FAIL : Fld := { page := .coll, off := 0x114, lo := 0, wid := 32, acc := .ro, rs := true }
def COLL_WAVES_SENT : Fld := { page := .coll, off := 0x118, lo := 0, wid := 32, acc := .ro, rs := true }
def COLL_BAD_POSTS : Fld := { page := .coll, off := 0x11c, lo := 0, wid := 32, acc := .ro, rs := true }
def COLL_BYTES_IN_LO : Fld := { page := .coll, off := 0x120, lo := 0, wid := 32, acc := .ro, rs := true }
def COLL_BYTES_IN_HI : Fld := { page := .coll, off := 0x124, lo := 0, wid := 32, acc := .ro, rs := true }
def COLL_BYTES_OUT_LO : Fld := { page := .coll, off := 0x128, lo := 0, wid := 32, acc := .ro, rs := true }
def COLL_BYTES_OUT_HI : Fld := { page := .coll, off := 0x12c, lo := 0, wid := 32, acc := .ro, rs := true }
def COLL_WAIT_CYC_LO : Fld := { page := .coll, off := 0x130, lo := 0, wid := 32, acc := .ro, rs := true }
def COLL_WAIT_CYC_HI : Fld := { page := .coll, off := 0x134, lo := 0, wid := 32, acc := .ro, rs := true }
def COLL_HOLD_CYC_LO : Fld := { page := .coll, off := 0x138, lo := 0, wid := 32, acc := .ro, rs := true }
def COLL_HOLD_CYC_HI : Fld := { page := .coll, off := 0x13c, lo := 0, wid := 32, acc := .ro, rs := true }

/-! ### `HOSTPORT` -/

def HOSTPORT_LINK_GEN : Fld := { page := .hostport, off := 0x100, lo := 0, wid := 3, acc := .ro }
def HOSTPORT_WIDTH : Fld := { page := .hostport, off := 0x100, lo := 3, wid := 5, acc := .ro }
def HOSTPORT_LINK_UP : Fld := { page := .hostport, off := 0x100, lo := 8, wid := 1, acc := .ro }
def HOSTPORT_FLIT_MODE : Fld := { page := .hostport, off := 0x100, lo := 9, wid := 1, acc := .ro }
def HOSTPORT_IS_OWNER : Fld := { page := .hostport, off := 0x100, lo := 10, wid := 1, acc := .ro, view := true }
def HOSTPORT_OWNER_SEL : Fld := { page := .hostport, off := 0x100, lo := 11, wid := 2, acc := .ro }
def HOSTPORT_MAX_GEN : Fld := { page := .hostport, off := 0x104, lo := 0, wid := 3, acc := .rwl, reset := 6 }
def HOSTPORT_WIN_RD_REFUSED : Fld := { page := .hostport, off := 0x110, lo := 0, wid := 32, acc := .ro, rs := true }
def HOSTPORT_WIN_WR_REFUSED : Fld := { page := .hostport, off := 0x114, lo := 0, wid := 32, acc := .ro, rs := true }
def HOSTPORT_POISONED_CPL : Fld := { page := .hostport, off := 0x118, lo := 0, wid := 32, acc := .ro, rs := true }
def HOSTPORT_BYTES_IN_LO : Fld := { page := .hostport, off := 0x120, lo := 0, wid := 32, acc := .ro, rs := true }
def HOSTPORT_BYTES_IN_HI : Fld := { page := .hostport, off := 0x124, lo := 0, wid := 32, acc := .ro, rs := true }
def HOSTPORT_BYTES_OUT_LO : Fld := { page := .hostport, off := 0x128, lo := 0, wid := 32, acc := .ro, rs := true }
def HOSTPORT_BYTES_OUT_HI : Fld := { page := .hostport, off := 0x12c, lo := 0, wid := 32, acc := .ro, rs := true }

/-! ### `DISTRICT` -/

def DISTRICT_QDIE_MASK : Fld := { page := .district, off := 0x100, lo := 0, wid := 16, acc := .rwl }
def DISTRICT_IDLE : Fld := { page := .district, off := 0x104, lo := 0, wid := 1, acc := .ro, reset := 1, view := true }
def DISTRICT_HOST_PRESENT : Fld := { page := .district, off := 0x104, lo := 1, wid := 1, acc := .ro, view := true }
def DISTRICT_SCRUBBING : Fld := { page := .district, off := 0x104, lo := 2, wid := 1, acc := .ro }
def DISTRICT_SIGN_REQUIRED : Fld := { page := .district, off := 0x104, lo := 3, wid := 1, acc := .rwl }
def DISTRICT_SLOT_VALID : Fld := { page := .district, off := 0x104, lo := 16, wid := 16, acc := .ro, view := true }
def DISTRICT_WIN_EN : Fld := { page := .district, off := 0x110, lo := 0, wid := 1, acc := .rw, str := 64, cnt := 8 }
def DISTRICT_WIN_BASE_LO : Fld := { page := .district, off := 0x110, lo := 20, wid := 12, acc := .rw, str := 64, cnt := 8 }
def DISTRICT_WIN_BASE_HI : Fld := { page := .district, off := 0x114, lo := 0, wid := 16, acc := .rw, str := 64, cnt := 8 }
def DISTRICT_EVT_NOTIFY : Fld := { page := .district, off := 0x150, lo := 0, wid := 32, acc := .rw, str := 32, cnt := 8 }
def DISTRICT_HEVT : Fld := { page := .district, off := 0x400, lo := 0, wid := 32, acc := .rw, str := 32, cnt := 256 }

/-! ### `CMDPROC` -/

def CMDPROC_CMD_BASE_LO : Fld := { page := .cmdproc, off := 0x100, lo := 0, wid := 32, acc := .rw }
def CMDPROC_CMD_BASE_HI : Fld := { page := .cmdproc, off := 0x104, lo := 0, wid := 32, acc := .rw }
def CMDPROC_CMD_SIZE : Fld := { page := .cmdproc, off := 0x108, lo := 0, wid := 5, acc := .rw, reset := 6 }
def CMDPROC_CMD_HEAD : Fld := { page := .cmdproc, off := 0x10c, lo := 0, wid := 16, acc := .ro }
def CMDPROC_CMD_DOORBELL : Fld := { page := .cmdproc, off := 0x110, lo := 0, wid := 16, acc := .wo }
def CMDPROC_CPL_BASE_LO : Fld := { page := .cmdproc, off := 0x114, lo := 0, wid := 32, acc := .rw }
def CMDPROC_CPL_BASE_HI : Fld := { page := .cmdproc, off := 0x118, lo := 0, wid := 32, acc := .rw }
def CMDPROC_CPL_SIZE : Fld := { page := .cmdproc, off := 0x11c, lo := 0, wid := 5, acc := .rw, reset := 6 }
def CMDPROC_CPL_TAIL : Fld := { page := .cmdproc, off := 0x120, lo := 0, wid := 16, acc := .ro }
def CMDPROC_CPL_HEAD : Fld := { page := .cmdproc, off := 0x124, lo := 0, wid := 16, acc := .rw }
def CMDPROC_COUNT : Fld := { page := .cmdproc, off := 0x128, lo := 0, wid := 8, acc := .rw }
def CMDPROC_TIMER_US : Fld := { page := .cmdproc, off := 0x128, lo := 8, wid := 16, acc := .rw }
def CMDPROC_CMD_VER : Fld := { page := .cmdproc, off := 0x12c, lo := 0, wid := 16, acc := .rw }
def CMDPROC_DMA_ACTIVE : Fld := { page := .cmdproc, off := 0x130, lo := 0, wid := 4, acc := .ro, view := true }
def CMDPROC_LAUNCHES : Fld := { page := .cmdproc, off := 0x130, lo := 4, wid := 5, acc := .ro, view := true }
def CMDPROC_BLOCKED : Fld := { page := .cmdproc, off := 0x130, lo := 9, wid := 1, acc := .ro }
def CMDPROC_CMDS_DONE : Fld := { page := .cmdproc, off := 0x134, lo := 0, wid := 32, acc := .ro, rs := true }
def CMDPROC_CMDS_FAILED : Fld := { page := .cmdproc, off := 0x138, lo := 0, wid := 32, acc := .ro, rs := true }
def CMDPROC_CPL_STALLS : Fld := { page := .cmdproc, off := 0x13c, lo := 0, wid := 32, acc := .ro, rs := true }

/-! ### `PWR` -/

def PWR_PWR_CAP_W : Fld := { page := .pwr, off := 0x100, lo := 0, wid := 16, acc := .rw, reset := 0x5dc }
def PWR_LIMIT_W : Fld := { page := .pwr, off := 0x100, lo := 16, wid := 16, acc := .ro, view := true }
def PWR_PKG_POWER_W : Fld := { page := .pwr, off := 0x104, lo := 0, wid := 16, acc := .ro }
def PWR_CAP_UNATTAINABLE : Fld := { page := .pwr, off := 0x108, lo := 0, wid := 1, acc := .ro }
def PWR_EXT_ACTIVE : Fld := { page := .pwr, off := 0x108, lo := 1, wid := 1, acc := .ro }
def PWR_MAX_OP : Fld := { page := .pwr, off := 0x108, lo := 8, wid := 3, acc := .ro, view := true }
def PWR_COLL_LEVEL : Fld := { page := .pwr, off := 0x150, lo := 0, wid := 3, acc := .ro }
def PWR_HOST_COLL_SHAPE : Fld := { page := .pwr, off := 0x150, lo := 4, wid := 3, acc := .rw }
def PWR_EXT_COLL_SHAPE : Fld := { page := .pwr, off := 0x150, lo := 8, wid := 3, acc := .rw, reset := 4 }
def PWR_COLL_BINDING : Fld := { page := .pwr, off := 0x150, lo := 16, wid := 8, acc := .ro }
def PWR_EVT_WR : Fld := { page := .pwr, off := 0x154, lo := 0, wid := 6, acc := .ro }
def PWR_EVT_COUNT : Fld := { page := .pwr, off := 0x158, lo := 0, wid := 32, acc := .ro, rs := true }
def PWR_OP_TARGET : Fld := { page := .pwr, off := 0x110, lo := 0, wid := 3, acc := .rw, reset := 5, str := 128, cnt := 4 }
def PWR_OP_APPLIED : Fld := { page := .pwr, off := 0x110, lo := 4, wid := 3, acc := .ro, str := 128, cnt := 4 }
def PWR_OP_CHANGING : Fld := { page := .pwr, off := 0x110, lo := 7, wid := 1, acc := .ro, str := 128, cnt := 4 }
def PWR_DUTY : Fld := { page := .pwr, off := 0x110, lo := 8, wid := 5, acc := .ro, reset := 16, str := 128, cnt := 4 }
def PWR_CEILING : Fld := { page := .pwr, off := 0x110, lo := 16, wid := 5, acc := .ro, reset := 16, str := 128, cnt := 4 }
def PWR_ENG_LEVEL : Fld := { page := .pwr, off := 0x110, lo := 24, wid := 3, acc := .ro, str := 128, cnt := 4 }
def PWR_ICC_RAIL : Fld := { page := .pwr, off := 0x114, lo := 0, wid := 5, acc := .rw, reset := 25, str := 128, cnt := 4 }
def PWR_ICC_CAP : Fld := { page := .pwr, off := 0x114, lo := 8, wid := 5, acc := .ro, reset := 25, str := 128, cnt := 4 }
def PWR_ICC_NOW : Fld := { page := .pwr, off := 0x114, lo := 16, wid := 12, acc := .ro, str := 128, cnt := 4 }
def PWR_HOST_DUTY : Fld := { page := .pwr, off := 0x118, lo := 0, wid := 5, acc := .rw, reset := 16, str := 128, cnt := 4 }
def PWR_HOST_SHAPE : Fld := { page := .pwr, off := 0x118, lo := 8, wid := 3, acc := .rw, str := 128, cnt := 4 }
def PWR_EXT_DUTY : Fld := { page := .pwr, off := 0x118, lo := 16, wid := 5, acc := .rw, reset := 4, str := 128, cnt := 4 }
def PWR_EXT_SHAPE : Fld := { page := .pwr, off := 0x118, lo := 21, wid := 3, acc := .rw, reset := 4, str := 128, cnt := 4 }
def PWR_DIE_POWER_W : Fld := { page := .pwr, off := 0x11c, lo := 0, wid := 16, acc := .ro, str := 128, cnt := 4 }
def PWR_BINDING : Fld := { page := .pwr, off := 0x11c, lo := 16, wid := 8, acc := .ro, str := 128, cnt := 4 }
def PWR_CLASS_POWER : Fld := { page := .pwr, off := 0x160, lo := 0, wid := 16, acc := .ro, str := 32, cnt := 16 }
def PWR_PENDING : Fld := { page := .pwr, off := 0x1a0, lo := 0, wid := 4, acc := .ro, str := 32, cnt := 4 }
def PWR_ACTIVE : Fld := { page := .pwr, off := 0x1a0, lo := 4, wid := 4, acc := .ro, str := 32, cnt := 4 }
def PWR_PAD_W : Fld := { page := .pwr, off := 0x1a0, lo := 8, wid := 16, acc := .ro, str := 32, cnt := 4 }
def PWR_UNHINTED_STEPS : Fld := { page := .pwr, off := 0x1b0, lo := 0, wid := 32, acc := .ro, rs := true, str := 32, cnt := 4 }
def PWR_PAD_MJ : Fld := { page := .pwr, off := 0x1c0, lo := 0, wid := 32, acc := .ro, rs := true, str := 32, cnt := 4 }
def PWR_LEDGER_TOTAL_US_LO : Fld := { page := .pwr, off := 0x400, lo := 0, wid := 32, acc := .ro, rs := true, str := 128, cnt := 40 }
def PWR_LEDGER_TOTAL_US_HI : Fld := { page := .pwr, off := 0x404, lo := 0, wid := 32, acc := .ro, rs := true, str := 128, cnt := 40 }
def PWR_LEDGER_ENTRIES : Fld := { page := .pwr, off := 0x408, lo := 0, wid := 32, acc := .ro, rs := true, str := 128, cnt := 40 }
def PWR_LEDGER_LAST_US : Fld := { page := .pwr, off := 0x40c, lo := 0, wid := 32, acc := .ro, rs := true, str := 128, cnt := 40 }
def PWR_LOG_CODE : Fld := { page := .pwr, off := 0x800, lo := 0, wid := 8, acc := .ro, str := 128, cnt := 64 }
def PWR_LOG_DOMAIN : Fld := { page := .pwr, off := 0x800, lo := 8, wid := 8, acc := .ro, str := 128, cnt := 64 }
def PWR_LOG_ARG : Fld := { page := .pwr, off := 0x800, lo := 16, wid := 8, acc := .ro, str := 128, cnt := 64 }
def PWR_LOG_ROUND : Fld := { page := .pwr, off := 0x804, lo := 0, wid := 32, acc := .ro, str := 128, cnt := 64 }
def PWR_LOG_STEP : Fld := { page := .pwr, off := 0x808, lo := 0, wid := 16, acc := .ro, str := 128, cnt := 64 }
def PWR_LOG_VALUE : Fld := { page := .pwr, off := 0x80c, lo := 0, wid := 32, acc := .ro, str := 128, cnt := 64 }

/-! ### `THERM` -/

def THERM_TJ_MAX : Fld := { page := .therm, off := 0x100, lo := 0, wid := 8, acc := .ro, str := 128, cnt := 5 }
def THERM_TD_MAX : Fld := { page := .therm, off := 0x100, lo := 8, wid := 8, acc := .ro, str := 128, cnt := 5 }
def THERM_TJ_LEVEL : Fld := { page := .therm, off := 0x100, lo := 16, wid := 5, acc := .ro, str := 128, cnt := 5 }
def THERM_TD_LEVEL : Fld := { page := .therm, off := 0x100, lo := 24, wid := 5, acc := .ro, str := 128, cnt := 5 }
def THERM_TJ_GUARD : Fld := { page := .therm, off := 0x104, lo := 0, wid := 4, acc := .ro, str := 128, cnt := 5 }
def THERM_TJ_GUARD_ON : Fld := { page := .therm, off := 0x104, lo := 4, wid := 1, acc := .ro, str := 128, cnt := 5 }
def THERM_TD_GUARD : Fld := { page := .therm, off := 0x104, lo := 8, wid := 4, acc := .ro, str := 128, cnt := 5 }
def THERM_TD_GUARD_ON : Fld := { page := .therm, off := 0x104, lo := 12, wid := 1, acc := .ro, str := 128, cnt := 5 }
def THERM_TRIP_OK : Fld := { page := .therm, off := 0x104, lo := 16, wid := 8, acc := .ro, str := 128, cnt := 5, view := true }
def THERM_TRIP_DEGRADED : Fld := { page := .therm, off := 0x104, lo := 24, wid := 8, acc := .ro, rs := true, str := 128, cnt := 5 }
def THERM_QD_TEMP : Fld := { page := .therm, off := 0x108, lo := 0, wid := 8, acc := .ro, str := 128, cnt := 16, str2 := 8, cnt2 := 4 }
def THERM_TJ_THROTTLE : Fld := { page := .therm, off := 0x150, lo := 0, wid := 8, acc := .ro, reset := 103 }
def THERM_TD_THROTTLE : Fld := { page := .therm, off := 0x150, lo := 8, wid := 8, acc := .ro, reset := 98 }
def THERM_TJ_TRIP : Fld := { page := .therm, off := 0x150, lo := 16, wid := 8, acc := .ro, reset := 118 }
def THERM_TD_TRIP : Fld := { page := .therm, off := 0x150, lo := 24, wid := 8, acc := .ro, reset := 112 }
def THERM_MIDNIGHT : Fld := { page := .therm, off := 0x154, lo := 0, wid := 1, acc := .ro }
def THERM_TRIP_DIE : Fld := { page := .therm, off := 0x154, lo := 1, wid := 2, acc := .ro }
def THERM_TRIP_TRIPLET : Fld := { page := .therm, off := 0x154, lo := 3, wid := 3, acc := .ro }
def THERM_SUSPECT_LOW : Fld := { page := .therm, off := 0x200, lo := 0, wid := 32, acc := .ro, str := 32, cnt := 20 }
def THERM_HIGH_SUSPECT : Fld := { page := .therm, off := 0x280, lo := 0, wid := 32, acc := .ro, str := 32, cnt := 20 }
def THERM_READING : Fld := { page := .therm, off := 0x400, lo := 0, wid := 16, acc := .ro, str := 16, cnt := 624 }

/-! ### `DUSK` -/

def DUSK_ROUND_LO : Fld := { page := .dusk, off := 0x100, lo := 0, wid := 32, acc := .ro }
def DUSK_ROUND_HI : Fld := { page := .dusk, off := 0x104, lo := 0, wid := 32, acc := .ro }
def DUSK_TW_STATE : Fld := { page := .dusk, off := 0x108, lo := 0, wid := 2, acc := .ro }
def DUSK_KEEP_RINGS : Fld := { page := .dusk, off := 0x108, lo := 2, wid := 1, acc := .rw, reset := 1 }
def DUSK_TW_REQ : Fld := { page := .dusk, off := 0x108, lo := 3, wid := 1, acc := .wo }
def DUSK_TW_EXIT : Fld := { page := .dusk, off := 0x108, lo := 4, wid := 1, acc := .wo }
def DUSK_WAKE_PENDING : Fld := { page := .dusk, off := 0x108, lo := 5, wid := 1, acc := .ro }
def DUSK_WAKE_CAUSE : Fld := { page := .dusk, off := 0x10c, lo := 0, wid := 2, acc := .ro, rs := true }
def DUSK_CHANNEL : Fld := { page := .dusk, off := 0x110, lo := 0, wid := 10, acc := .rw, str := 32, cnt := 4 }
def DUSK_ABOVE : Fld := { page := .dusk, off := 0x110, lo := 10, wid := 1, acc := .rw, str := 32, cnt := 4 }
def DUSK_WATCH_EN : Fld := { page := .dusk, off := 0x110, lo := 11, wid := 1, acc := .rw, str := 32, cnt := 4 }
def DUSK_LEVEL : Fld := { page := .dusk, off := 0x110, lo := 12, wid := 16, acc := .rw, str := 32, cnt := 4 }
def DUSK_RAIL_OOR : Fld := { page := .dusk, off := 0x120, lo := 0, wid := 32, acc := .ro, str := 32, cnt := 3 }
def DUSK_TW_COUNT : Fld := { page := .dusk, off := 0x130, lo := 0, wid := 32, acc := .ro, rs := true }
def DUSK_TW_MS : Fld := { page := .dusk, off := 0x134, lo := 0, wid := 32, acc := .ro, rs := true }
def DUSK_ALERT : Fld := { page := .dusk, off := 0x138, lo := 0, wid := 1, acc := .ro, view := true }

/-! ### `DAWN` -/

def DAWN_STAGE : Fld := { page := .dawn, off := 0x100, lo := 0, wid := 4, acc := .ro }
def DAWN_DONE : Fld := { page := .dawn, off := 0x100, lo := 4, wid := 1, acc := .ro }
def DAWN_HALTED : Fld := { page := .dawn, off := 0x100, lo := 5, wid := 1, acc := .ro }
def DAWN_HALT_CODE : Fld := { page := .dawn, off := 0x100, lo := 8, wid := 8, acc := .ro }
def DAWN_REC_STATUS : Fld := { page := .dawn, off := 0x100, lo := 16, wid := 2, acc := .ro }
def DAWN_NUMBERING_CHANGED : Fld := { page := .dawn, off := 0x100, lo := 18, wid := 1, acc := .ro }
def DAWN_NEW_DEFECT : Fld := { page := .dawn, off := 0x100, lo := 19, wid := 1, acc := .ro }
def DAWN_DIE_HELD : Fld := { page := .dawn, off := 0x100, lo := 20, wid := 4, acc := .ro }
def DAWN_FW_STATE : Fld := { page := .dawn, off := 0x104, lo := 0, wid := 2, acc := .ro }
def DAWN_FW_REJECT : Fld := { page := .dawn, off := 0x104, lo := 8, wid := 8, acc := .ro }
def DAWN_FW_ATTEMPTS : Fld := { page := .dawn, off := 0x104, lo := 16, wid := 16, acc := .ro }
def DAWN_FW_ADDR_LO : Fld := { page := .dawn, off := 0x108, lo := 0, wid := 32, acc := .rw }
def DAWN_FW_ADDR_HI : Fld := { page := .dawn, off := 0x10c, lo := 0, wid := 32, acc := .rw }
def DAWN_FW_SIZE : Fld := { page := .dawn, off := 0x110, lo := 0, wid := 25, acc := .rw }
def DAWN_FW_GO : Fld := { page := .dawn, off := 0x114, lo := 0, wid := 1, acc := .wo }
def DAWN_FW_IF_VER : Fld := { page := .dawn, off := 0x13c, lo := 0, wid := 16, acc := .ro }
def DAWN_REC_ADDR_LO : Fld := { page := .dawn, off := 0x118, lo := 0, wid := 32, acc := .rw }
def DAWN_REC_ADDR_HI : Fld := { page := .dawn, off := 0x11c, lo := 0, wid := 32, acc := .rw }
def DAWN_REC_SIZE : Fld := { page := .dawn, off := 0x120, lo := 0, wid := 21, acc := .rw }
def DAWN_OUT_ADDR_LO : Fld := { page := .dawn, off := 0x124, lo := 0, wid := 32, acc := .rw }
def DAWN_OUT_ADDR_HI : Fld := { page := .dawn, off := 0x128, lo := 0, wid := 32, acc := .rw }
def DAWN_OUT_MAX : Fld := { page := .dawn, off := 0x12c, lo := 0, wid := 21, acc := .rw }
def DAWN_REC_EMIT : Fld := { page := .dawn, off := 0x130, lo := 0, wid := 1, acc := .wo }
def DAWN_OUT_SIZE : Fld := { page := .dawn, off := 0x134, lo := 0, wid := 21, acc := .ro }
def DAWN_REC_REJECT : Fld := { page := .dawn, off := 0x138, lo := 0, wid := 8, acc := .ro }
def DAWN_SECTIONS_IGNORED : Fld := { page := .dawn, off := 0x138, lo := 8, wid := 8, acc := .ro }
def DAWN_YIELD_DIGEST : Fld := { page := .dawn, off := 0x140, lo := 0, wid := 32, acc := .ro, str := 32, cnt := 8 }
def DAWN_STAGE_US : Fld := { page := .dawn, off := 0x160, lo := 0, wid := 32, acc := .ro, str := 32, cnt := 10 }
def DAWN_DAWN_RESTORED : Fld := { page := .dawn, off := 0x190, lo := 0, wid := 16, acc := .ro, str := 32, cnt := 7 }
def DAWN_DAWN_RETRAINED : Fld := { page := .dawn, off := 0x190, lo := 16, wid := 16, acc := .ro, str := 32, cnt := 7 }

/-! ### `BIST` -/

def BIST_BUDGET_DRAM_MS : Fld := { page := .bist, off := 0x100, lo := 0, wid := 8, acc := .rw, reset := 40 }
def BIST_BUDGET_LOGIC_MS : Fld := { page := .bist, off := 0x100, lo := 8, wid := 8, acc := .rw, reset := 5 }
def BIST_PHASE : Fld := { page := .bist, off := 0x104, lo := 0, wid := 2, acc := .ro }
def BIST_WAVE : Fld := { page := .bist, off := 0x104, lo := 2, wid := 2, acc := .ro }
def BIST_LOG_COUNT : Fld := { page := .bist, off := 0x108, lo := 0, wid := 13, acc := .ro }
def BIST_LOG_LOST : Fld := { page := .bist, off := 0x10c, lo := 0, wid := 32, acc := .ro }
def BIST_LOG_INDEX : Fld := { page := .bist, off := 0x110, lo := 0, wid := 12, acc := .rw }
def BIST_LOG_W : Fld := { page := .bist, off := 0x114, lo := 0, wid := 32, acc := .ro, str := 32, cnt := 4, view := true }
def BIST_NEW_DEFECTS : Fld := { page := .bist, off := 0x130, lo := 0, wid := 11, acc := .ro }
def BIST_REPAIRS_DRAM : Fld := { page := .bist, off := 0x134, lo := 0, wid := 32, acc := .ro }
def BIST_REPAIRS_SRAM : Fld := { page := .bist, off := 0x138, lo := 0, wid := 32, acc := .ro }
def BIST_BUDGET_FAILS : Fld := { page := .bist, off := 0x13c, lo := 0, wid := 16, acc := .ro }
def BIST_FUSE_BAD : Fld := { page := .bist, off := 0x400, lo := 0, wid := 32, acc := .ro, str := 256, cnt := 64, view := true }
def BIST_BIST_BAD : Fld := { page := .bist, off := 0x404, lo := 0, wid := 32, acc := .ro, str := 256, cnt := 64 }
def BIST_RECORD_BAD : Fld := { page := .bist, off := 0x408, lo := 0, wid := 32, acc := .ro, str := 256, cnt := 64 }
def BIST_LATE_BAD : Fld := { page := .bist, off := 0x40c, lo := 0, wid := 32, acc := .ro, str := 256, cnt := 64 }
def BIST_ROUTER_FAILED : Fld := { page := .bist, off := 0x410, lo := 0, wid := 32, acc := .ro, str := 256, cnt := 64 }
def BIST_LOGICAL : Fld := { page := .bist, off := 0x414, lo := 0, wid := 5, acc := .ro, str := 256, cnt := 64, view := true }
def BIST_BAD_COUNT : Fld := { page := .bist, off := 0x414, lo := 5, wid := 6, acc := .ro, str := 256, cnt := 64, view := true }

/-! ### `FUSE` -/

def FUSE_SENSED : Fld := { page := .fuse, off := 0x100, lo := 0, wid := 1, acc := .ro }
def FUSE_SENSE_FAIL : Fld := { page := .fuse, off := 0x100, lo := 1, wid := 1, acc := .ro }
def FUSE_LC_STATE : Fld := { page := .fuse, off := 0x104, lo := 0, wid := 3, acc := .ro, view := true }
def FUSE_VARIANT : Fld := { page := .fuse, off := 0x108, lo := 0, wid := 4, acc := .ro, view := true }
def FUSE_MAX_OP : Fld := { page := .fuse, off := 0x108, lo := 4, wid := 3, acc := .ro, view := true }
def FUSE_LIMIT_W : Fld := { page := .fuse, off := 0x108, lo := 16, wid := 16, acc := .ro, view := true }
def FUSE_STEPPING : Fld := { page := .fuse, off := 0x10c, lo := 0, wid := 8, acc := .ro, reset := 176 }
def FUSE_SERIAL_LO : Fld := { page := .fuse, off := 0x110, lo := 0, wid := 32, acc := .ro, view := true }
def FUSE_SERIAL_HI : Fld := { page := .fuse, off := 0x114, lo := 0, wid := 32, acc := .ro, view := true }
def FUSE_SERIAL_TAG_LO : Fld := { page := .fuse, off := 0x118, lo := 0, wid := 32, acc := .ro }
def FUSE_SERIAL_TAG_HI : Fld := { page := .fuse, off := 0x11c, lo := 0, wid := 32, acc := .ro }
def FUSE_FW_KEY_DIGEST : Fld := { page := .fuse, off := 0x120, lo := 0, wid := 32, acc := .ro, str := 32, cnt := 8, view := true }

/-! ### `SEC` -/

def SEC_LC_STATE : Fld := { page := .sec, off := 0x100, lo := 0, wid := 3, acc := .ro, view := true }
def SEC_ID_READY : Fld := { page := .sec, off := 0x100, lo := 3, wid := 1, acc := .ro }
def SEC_TARGET : Fld := { page := .sec, off := 0x104, lo := 0, wid := 3, acc := .wo }
def SEC_CONFIRM : Fld := { page := .sec, off := 0x104, lo := 16, wid := 16, acc := .wo }
def SEC_LC_PHASE : Fld := { page := .sec, off := 0x108, lo := 0, wid := 2, acc := .ro }
def SEC_LC_RESULT : Fld := { page := .sec, off := 0x108, lo := 8, wid := 8, acc := .ro }
def SEC_BITS_WRITTEN : Fld := { page := .sec, off := 0x108, lo := 16, wid := 16, acc := .ro }
def SEC_SCAN_EN : Fld := { page := .sec, off := 0x10c, lo := 0, wid := 1, acc := .rw }
def SEC_ENGINE_EN : Fld := { page := .sec, off := 0x10c, lo := 1, wid := 1, acc := .rw }
def SEC_ID_PUBKEY : Fld := { page := .sec, off := 0x140, lo := 0, wid := 32, acc := .ro, str := 32, cnt := 16, view := true }
def SEC_CHALLENGE : Fld := { page := .sec, off := 0x180, lo := 0, wid := 32, acc := .ro, str := 32, cnt := 8 }
def SEC_TOKEN : Fld := { page := .sec, off := 0x200, lo := 0, wid := 32, acc := .rw, str := 32, cnt := 32 }
def SEC_ATT_ADDR_LO : Fld := { page := .sec, off := 0x300, lo := 0, wid := 32, acc := .rw, str := 512, cnt := 4 }
def SEC_ATT_ADDR_HI : Fld := { page := .sec, off := 0x304, lo := 0, wid := 32, acc := .rw, str := 512, cnt := 4 }
def SEC_ATT_GO : Fld := { page := .sec, off := 0x308, lo := 0, wid := 1, acc := .wo, str := 512, cnt := 4 }
def SEC_ATT_PKG : Fld := { page := .sec, off := 0x308, lo := 1, wid := 1, acc := .rw, str := 512, cnt := 4 }
def SEC_ATT_STATUS : Fld := { page := .sec, off := 0x308, lo := 2, wid := 2, acc := .ro, str := 512, cnt := 4 }
def SEC_NONCE : Fld := { page := .sec, off := 0x310, lo := 0, wid := 32, acc := .rw, str := 512, cnt := 32, str2 := 32, cnt2 := 8 }
def SEC_IMG_KEY_DIGEST : Fld := { page := .sec, off := 0x400, lo := 0, wid := 32, acc := .rwl, str := 32, cnt := 32 }
def SEC_STAGE_SERIAL : Fld := { page := .sec, off := 0x800, lo := 0, wid := 32, acc := .rw, str := 32, cnt := 2 }
def SEC_STAGE_FW_KEY : Fld := { page := .sec, off := 0x820, lo := 0, wid := 32, acc := .rw, str := 32, cnt := 8 }
def SEC_STAGE_SVC_KEY : Fld := { page := .sec, off := 0x840, lo := 0, wid := 32, acc := .rw, str := 32, cnt := 8 }
def SEC_STAGE_VARIANT : Fld := { page := .sec, off := 0x860, lo := 0, wid := 32, acc := .rw }
def SEC_STAGE_BAD : Fld := { page := .sec, off := 0x900, lo := 0, wid := 32, acc := .rw, str := 1024, cnt := 64, str2 := 32, cnt2 := 16 }

/-! ### `HDR` -/

def HDR_PAGE_FORMAT : Fld := { page := .hdr, off := 0x0, lo := 0, wid := 8, acc := .ro, reset := 1, view := true }
def HDR_INSTANCE : Fld := { page := .hdr, off := 0x0, lo := 8, wid := 8, acc := .ro, view := true }
def HDR_TYPE : Fld := { page := .hdr, off := 0x0, lo := 16, wid := 16, acc := .ro, view := true }
def HDR_OLDEST_MINOR : Fld := { page := .hdr, off := 0x4, lo := 0, wid := 8, acc := .ro, view := true }
def HDR_OLDEST_MAJOR : Fld := { page := .hdr, off := 0x4, lo := 8, wid := 8, acc := .ro, view := true }
def HDR_NEWEST_MINOR : Fld := { page := .hdr, off := 0x4, lo := 16, wid := 8, acc := .ro, view := true }
def HDR_NEWEST_MAJOR : Fld := { page := .hdr, off := 0x4, lo := 24, wid := 8, acc := .ro, view := true }
def HDR_ENABLE : Fld := { page := .hdr, off := 0x8, lo := 0, wid := 1, acc := .rw }
def HDR_SOFT_RESET : Fld := { page := .hdr, off := 0x8, lo := 1, wid := 1, acc := .wo }
def HDR_MODE : Fld := { page := .hdr, off := 0x8, lo := 4, wid := 4, acc := .rw }
def HDR_LOCK : Fld := { page := .hdr, off := 0x8, lo := 31, wid := 1, acc := .rw, rs := true }
def HDR_STATE : Fld := { page := .hdr, off := 0xc, lo := 0, wid := 2, acc := .ro }
def HDR_PEND_ENABLE : Fld := { page := .hdr, off := 0xc, lo := 2, wid := 1, acc := .ro }
def HDR_FENCED : Fld := { page := .hdr, off := 0xc, lo := 3, wid := 1, acc := .ro, rs := true }
def HDR_LAST_ERR : Fld := { page := .hdr, off := 0xc, lo := 8, wid := 8, acc := .ro, rs := true }
def HDR_INT_RAW : Fld := { page := .hdr, off := 0x10, lo := 0, wid := 32, acc := .ro }
def HDR_INT_STATUS : Fld := { page := .hdr, off := 0x14, lo := 0, wid := 32, acc := .w1c, view := true }
def HDR_INT_ENABLE : Fld := { page := .hdr, off := 0x18, lo := 0, wid := 32, acc := .rw }
def HDR_INT_FORCE : Fld := { page := .hdr, off := 0x1c, lo := 0, wid := 32, acc := .wo }
def HDR_ERR_CORR_COUNT : Fld := { page := .hdr, off := 0x20, lo := 0, wid := 32, acc := .ro, rs := true }
def HDR_ERR_RETRY_COUNT : Fld := { page := .hdr, off := 0x24, lo := 0, wid := 32, acc := .ro, rs := true }
def HDR_ERR_ADDR_LO : Fld := { page := .hdr, off := 0x28, lo := 0, wid := 32, acc := .ro, rs := true }
def HDR_ERR_ADDR_HI : Fld := { page := .hdr, off := 0x2c, lo := 0, wid := 32, acc := .ro, rs := true }
def HDR_ERR_SYNDROME : Fld := { page := .hdr, off := 0x30, lo := 0, wid := 32, acc := .ro, rs := true }
def HDR_OWNER : Fld := { page := .hdr, off := 0x34, lo := 0, wid := 4, acc := .ro, view := true }

/-! ### `PLAZA` -/

def PLAZA_PAGE_PEND : Fld := { page := .plaza, off := 0x100, lo := 0, wid := 32, acc := .ro, str := 32, cnt := 4, view := true }
def PLAZA_COLL_PEND : Fld := { page := .plaza, off := 0x110, lo := 0, wid := 8, acc := .ro, str := 32, cnt := 4, view := true }
def PLAZA_VEC_SUM : Fld := { page := .plaza, off := 0x120, lo := 0, wid := 8, acc := .ro, str := 32, cnt := 4, view := true }
def PLAZA_IN_SERVICE : Fld := { page := .plaza, off := 0x120, lo := 8, wid := 8, acc := .ro, str := 32, cnt := 4 }
def PLAZA_NOTICE_PEND : Fld := { page := .plaza, off := 0x120, lo := 16, wid := 1, acc := .ro, str := 32, cnt := 4 }
def PLAZA_INT_EOI : Fld := { page := .plaza, off := 0x130, lo := 0, wid := 8, acc := .wo, str := 32, cnt := 4 }
def PLAZA_QDIE_PEND : Fld := { page := .plaza, off := 0x140, lo := 0, wid := 16, acc := .ro, str := 32, cnt := 4, view := true }
def PLAZA_QDIE_PEND_PKG : Fld := { page := .plaza, off := 0x150, lo := 0, wid := 16, acc := .ro, view := true }
def PLAZA_TILE_PEND : Fld := { page := .plaza, off := 0x200, lo := 0, wid := 32, acc := .ro, str := 2048, cnt := 240, str2 := 32, cnt2 := 60, view := true }
def PLAZA_TILE_PEND_PKG : Fld := { page := .plaza, off := 0x600, lo := 0, wid := 32, acc := .ro, str := 32, cnt := 60, view := true }

/-- The fields of the `D2D` page. -/
def d2dFields : List Fld :=
  [D2D_PLAZA_MAX_RATE, D2D_PARTNER_MAX_RATE, D2D_MODULE_COUNT, D2D_MIN_MODULES, D2D_AGREED_MINOR, D2D_AGREED_MAJOR, D2D_PARTNER_MAX_MINOR, D2D_PARTNER_MAX_MAJOR] ++
  [D2D_RATE, D2D_MODULES_USABLE, D2D_DEGRADED, D2D_LINK_UP, D2D_BELOW_MIN, D2D_HB_MISSED, D2D_MOD_STATE_LO, D2D_MOD_STATE_HI] ++
  [D2D_MAX_RATE, D2D_REPAIR_TX_USED, D2D_REPAIR_RX_USED, D2D_STATE, D2D_CRC_REPLAYS]
/-- The fields of the `PKGSW` page. -/
def pkgswFields : List Fld :=
  [PKGSW_DIE_PRESENT, PKGSW_OE_PRESENT, PKGSW_REFUSED_UNMAPPED, PKGSW_REFUSED_ACCESS, PKGSW_REFUSED_FENCED, PKGSW_DIST_GLB_BASE, PKGSW_DIST_GLB_SIZE, PKGSW_DIST_SLICE_COUNT] ++
  [PKGSW_DIST_QDIE_MASK]
/-- The fields of the `CDIE` page. -/
def cdieFields : List Fld :=
  [CDIE_LOGICAL_TILES, CDIE_FENCE_CAUSE, CDIE_TILES_FENCED, CDIE_EDGE_HOPS, CDIE_FENCE_ROUND, CDIE_QDIE_OWNER]
/-- The fields of the `TILE` page. -/
def tileFields : List Fld :=
  [TILE_LOGICAL_ID, TILE_DIE, TILE_PHYS_ROW, TILE_PHYS_COL, TILE_LOGICAL_COL, TILE_RUN_STATE, TILE_FROZEN, TILE_FREEZE_CAUSE] ++
  [TILE_TRAP_CAUSE, TILE_TRAP_BUNDLE, TILE_TRAP_SLOTS, TILE_OP, TILE_PACE_DUTY, TILE_INVALID, TILE_DIV_ZERO, TILE_OVERFLOW] ++
  [TILE_UNDERFLOW, TILE_SATURATED, TILE_RUN_CYC_LO, TILE_RUN_CYC_HI, TILE_FROZEN_CYC_LO, TILE_FROZEN_CYC_HI, TILE_SLIP_CYC_LO, TILE_SLIP_CYC_HI] ++
  [TILE_SLIP_EVT]
/-- The fields of the `MOVER` page. -/
def moverFields : List Fld :=
  [MOVER_STATE, MOVER_PENDING, MOVER_ERR, MOVER_QUEUE, MOVER_OP, MOVER_Q_POISON, MOVER_Q_MESH, MOVER_QLEVEL] ++
  [MOVER_OLEVEL, MOVER_EVT, MOVER_DEST_TILE, MOVER_DEST_QUEUE, MOVER_REMOTE, MOVER_DEST_X, MOVER_DEST_Y, MOVER_PATH] ++
  [MOVER_VALID, MOVER_LINES_IN_LO, MOVER_LINES_IN_HI, MOVER_LINES_OUT_LO, MOVER_LINES_OUT_HI, MOVER_CMD_COUNT]
/-- The fields of the `SLICE` page. -/
def sliceFields : List Fld :=
  [SLICE_MODE, SLICE_REFRESH_RATE, SLICE_OVERTEMP, SLICE_PORT_UP, SLICE_DRAM_TEMP, SLICE_HOT_LAYER, SLICE_MERGE_USED, SLICE_SCRUB_EN] ++
  [SLICE_SCRUB_HOURS, SLICE_REFRESH_FLOOR, SLICE_SCRUB_POS, SLICE_SCRUB_PASSES, SLICE_INNER_CORR, SLICE_MERGE_DROPS, SLICE_UNWRITTEN_READS, SLICE_UNCORR_LASTING] ++
  [SLICE_RD_SECTORS_LO, SLICE_RD_SECTORS_HI, SLICE_WR_SECTORS_LO, SLICE_WR_SECTORS_HI, SLICE_RMW_LO, SLICE_RMW_HI, SLICE_REFRESH_OPS_LO, SLICE_REFRESH_OPS_HI]
/-- The fields of the `ENGINE` page. -/
def engineFields : List Fld :=
  [ENGINE_MODE, ENGINE_RUN, ENGINE_HALTED, ENGINE_PAUSED, ENGINE_OWED, ENGINE_DESC, ENGINE_CLK_DIV, ENGINE_SKIP_N] ++
  [ENGINE_LAST_TAG, ENGINE_RUNS, ENGINE_POISONED_RUNS, ENGINE_PAUSES, ENGINE_PAUSE_MAX, ENGINE_MATRIX_BYTES_LO, ENGINE_MATRIX_BYTES_HI, ENGINE_BUSY_CYC_LO] ++
  [ENGINE_BUSY_CYC_HI, ENGINE_PAUSE_CYC_LO, ENGINE_PAUSE_CYC_HI, ENGINE_MODE_CYC_LO, ENGINE_MODE_CYC_HI]
/-- The fields of the `OE` page. -/
def oeFields : List Fld :=
  [OE_DFB_OK, OE_ELS_PRESENT, OE_HTR_LIMIT, OE_ENGINE_TEMP, OE_ELS_DARK, OE_HTR_POWER]
/-- The fields of the `ALLEY` page. -/
def alleyFields : List Fld :=
  [ALLEY_LSTATE, ALLEY_TX_WIDTH, ALLEY_RX_WIDTH, ALLEY_FIBRES, ALLEY_FIBRE_MASK, ALLEY_TX_LANES, ALLEY_RX_LANES, ALLEY_RX_DROPPED] ++
  [ALLEY_PARTNER_TAG, ALLEY_PARTNER_ENGINE, ALLEY_PARTNER_VALID, ALLEY_RETRAIN, ALLEY_FLITS_TX_LO, ALLEY_FLITS_TX_HI, ALLEY_FLITS_RX_LO, ALLEY_FLITS_RX_HI] ++
  [ALLEY_REPLAY_FLITS_LO, ALLEY_REPLAY_FLITS_HI, ALLEY_RETRAINS, ALLEY_LANE_DROPS, ALLEY_RELOCKS, ALLEY_DISCARDED, ALLEY_HANDOVERS, ALLEY_CRC_FAIL]
/-- The fields of the `BLVD` page. -/
def blvdFields : List Fld :=
  [BLVD_SQUARE_GROUP, BLVD_SQUARE_PORT, BLVD_CFG_VALID, BLVD_TX_ENABLE, BLVD_RX_ENABLE, BLVD_PILOT_LOCKED, BLVD_UP, BLVD_LANES_UP] ++
  [BLVD_LINE_STATE, BLVD_RELOCKS, BLVD_LANE_DROPS, BLVD_DISCARDED, BLVD_CRC_FAIL, BLVD_FLITS_TX_LO, BLVD_FLITS_TX_HI, BLVD_FLITS_RX_LO] ++
  [BLVD_FLITS_RX_HI]
/-- The fields of the `CROSSING` page. -/
def crossingFields : List Fld :=
  [CROSSING_TARGET, CROSSING_CURRENT, CROSSING_APPLY, CROSSING_BUSY, CROSSING_PENDING, CROSSING_WG, CROSSING_STEP, CROSSING_LAST_RESULT] ++
  [CROSSING_CALIBRATED, CROSSING_WORST_LOSS, CROSSING_DITHER_EN, CROSSING_GRANTS_DONE, CROSSING_GRANTS_FAILED, CROSSING_HTR_A, CROSSING_HTR_B]
/-- The fields of the `TOPO` page. -/
def topoFields : List Fld :=
  [TOPO_X, TOPO_Y, TOPO_COORD_VALID, TOPO_TRAY_ID, TOPO_TRAY_SLOT, TOPO_SERIAL_TAG_LO, TOPO_SERIAL_TAG_HI, TOPO_QID] ++
  [TOPO_DISTRICT, TOPO_VALID, TOPO_RECT, TOPO_SQUARE_SET, TOPO_INGRESS, TOPO_PLAN_TAG_LO, TOPO_PLAN_TAG_HI, TOPO_PLAN_XY] ++
  [TOPO_PLANNED, TOPO_PSTATE, TOPO_SEEN_TAG_LO, TOPO_SEEN_TAG_HI, TOPO_SEEN_XY, TOPO_SEEN_FLAGS, TOPO_SQ_TAG, TOPO_SQ_XY] ++
  [TOPO_SQ_PLANNED, TOPO_SQ_STATE, TOPO_PORT_ACCEPT, TOPO_SQUARE_ACCEPT, TOPO_DROPS, TOPO_BEACONS_RX]
/-- The fields of the `COLL` page. -/
def collFields : List Fld :=
  [COLL_CSTATE, COLL_QUEUED, COLL_LAST_STATUS, COLL_CUR_TAG, COLL_CUR_INSTANCE, COLL_COLL_ABORT, COLL_HOLD_USED, COLL_DONE_OK] ++
  [COLL_DONE_FAIL, COLL_WAVES_SENT, COLL_BAD_POSTS, COLL_BYTES_IN_LO, COLL_BYTES_IN_HI, COLL_BYTES_OUT_LO, COLL_BYTES_OUT_HI, COLL_WAIT_CYC_LO] ++
  [COLL_WAIT_CYC_HI, COLL_HOLD_CYC_LO, COLL_HOLD_CYC_HI]
/-- The fields of the `HOSTPORT` page. -/
def hostportFields : List Fld :=
  [HOSTPORT_LINK_GEN, HOSTPORT_WIDTH, HOSTPORT_LINK_UP, HOSTPORT_FLIT_MODE, HOSTPORT_IS_OWNER, HOSTPORT_OWNER_SEL, HOSTPORT_MAX_GEN, HOSTPORT_WIN_RD_REFUSED] ++
  [HOSTPORT_WIN_WR_REFUSED, HOSTPORT_POISONED_CPL, HOSTPORT_BYTES_IN_LO, HOSTPORT_BYTES_IN_HI, HOSTPORT_BYTES_OUT_LO, HOSTPORT_BYTES_OUT_HI]
/-- The fields of the `DISTRICT` page. -/
def districtFields : List Fld :=
  [DISTRICT_QDIE_MASK, DISTRICT_IDLE, DISTRICT_HOST_PRESENT, DISTRICT_SCRUBBING, DISTRICT_SIGN_REQUIRED, DISTRICT_SLOT_VALID, DISTRICT_WIN_EN, DISTRICT_WIN_BASE_LO] ++
  [DISTRICT_WIN_BASE_HI, DISTRICT_EVT_NOTIFY, DISTRICT_HEVT]
/-- The fields of the `CMDPROC` page. -/
def cmdprocFields : List Fld :=
  [CMDPROC_CMD_BASE_LO, CMDPROC_CMD_BASE_HI, CMDPROC_CMD_SIZE, CMDPROC_CMD_HEAD, CMDPROC_CMD_DOORBELL, CMDPROC_CPL_BASE_LO, CMDPROC_CPL_BASE_HI, CMDPROC_CPL_SIZE] ++
  [CMDPROC_CPL_TAIL, CMDPROC_CPL_HEAD, CMDPROC_COUNT, CMDPROC_TIMER_US, CMDPROC_CMD_VER, CMDPROC_DMA_ACTIVE, CMDPROC_LAUNCHES, CMDPROC_BLOCKED] ++
  [CMDPROC_CMDS_DONE, CMDPROC_CMDS_FAILED, CMDPROC_CPL_STALLS]
/-- The fields of the `PWR` page. -/
def pwrFields : List Fld :=
  [PWR_PWR_CAP_W, PWR_LIMIT_W, PWR_PKG_POWER_W, PWR_CAP_UNATTAINABLE, PWR_EXT_ACTIVE, PWR_MAX_OP, PWR_COLL_LEVEL, PWR_HOST_COLL_SHAPE] ++
  [PWR_EXT_COLL_SHAPE, PWR_COLL_BINDING, PWR_EVT_WR, PWR_EVT_COUNT, PWR_OP_TARGET, PWR_OP_APPLIED, PWR_OP_CHANGING, PWR_DUTY] ++
  [PWR_CEILING, PWR_ENG_LEVEL, PWR_ICC_RAIL, PWR_ICC_CAP, PWR_ICC_NOW, PWR_HOST_DUTY, PWR_HOST_SHAPE, PWR_EXT_DUTY] ++
  [PWR_EXT_SHAPE, PWR_DIE_POWER_W, PWR_BINDING, PWR_CLASS_POWER, PWR_PENDING, PWR_ACTIVE, PWR_PAD_W, PWR_UNHINTED_STEPS] ++
  [PWR_PAD_MJ, PWR_LEDGER_TOTAL_US_LO, PWR_LEDGER_TOTAL_US_HI, PWR_LEDGER_ENTRIES, PWR_LEDGER_LAST_US, PWR_LOG_CODE, PWR_LOG_DOMAIN, PWR_LOG_ARG] ++
  [PWR_LOG_ROUND, PWR_LOG_STEP, PWR_LOG_VALUE]
/-- The fields of the `THERM` page. -/
def thermFields : List Fld :=
  [THERM_TJ_MAX, THERM_TD_MAX, THERM_TJ_LEVEL, THERM_TD_LEVEL, THERM_TJ_GUARD, THERM_TJ_GUARD_ON, THERM_TD_GUARD, THERM_TD_GUARD_ON] ++
  [THERM_TRIP_OK, THERM_TRIP_DEGRADED, THERM_QD_TEMP, THERM_TJ_THROTTLE, THERM_TD_THROTTLE, THERM_TJ_TRIP, THERM_TD_TRIP, THERM_MIDNIGHT] ++
  [THERM_TRIP_DIE, THERM_TRIP_TRIPLET, THERM_SUSPECT_LOW, THERM_HIGH_SUSPECT, THERM_READING]
/-- The fields of the `DUSK` page. -/
def duskFields : List Fld :=
  [DUSK_ROUND_LO, DUSK_ROUND_HI, DUSK_TW_STATE, DUSK_KEEP_RINGS, DUSK_TW_REQ, DUSK_TW_EXIT, DUSK_WAKE_PENDING, DUSK_WAKE_CAUSE] ++
  [DUSK_CHANNEL, DUSK_ABOVE, DUSK_WATCH_EN, DUSK_LEVEL, DUSK_RAIL_OOR, DUSK_TW_COUNT, DUSK_TW_MS, DUSK_ALERT]
/-- The fields of the `DAWN` page. -/
def dawnFields : List Fld :=
  [DAWN_STAGE, DAWN_DONE, DAWN_HALTED, DAWN_HALT_CODE, DAWN_REC_STATUS, DAWN_NUMBERING_CHANGED, DAWN_NEW_DEFECT, DAWN_DIE_HELD] ++
  [DAWN_FW_STATE, DAWN_FW_REJECT, DAWN_FW_ATTEMPTS, DAWN_FW_ADDR_LO, DAWN_FW_ADDR_HI, DAWN_FW_SIZE, DAWN_FW_GO, DAWN_FW_IF_VER] ++
  [DAWN_REC_ADDR_LO, DAWN_REC_ADDR_HI, DAWN_REC_SIZE, DAWN_OUT_ADDR_LO, DAWN_OUT_ADDR_HI, DAWN_OUT_MAX, DAWN_REC_EMIT, DAWN_OUT_SIZE] ++
  [DAWN_REC_REJECT, DAWN_SECTIONS_IGNORED, DAWN_YIELD_DIGEST, DAWN_STAGE_US, DAWN_DAWN_RESTORED, DAWN_DAWN_RETRAINED]
/-- The fields of the `BIST` page. -/
def bistFields : List Fld :=
  [BIST_BUDGET_DRAM_MS, BIST_BUDGET_LOGIC_MS, BIST_PHASE, BIST_WAVE, BIST_LOG_COUNT, BIST_LOG_LOST, BIST_LOG_INDEX, BIST_LOG_W] ++
  [BIST_NEW_DEFECTS, BIST_REPAIRS_DRAM, BIST_REPAIRS_SRAM, BIST_BUDGET_FAILS, BIST_FUSE_BAD, BIST_BIST_BAD, BIST_RECORD_BAD, BIST_LATE_BAD] ++
  [BIST_ROUTER_FAILED, BIST_LOGICAL, BIST_BAD_COUNT]
/-- The fields of the `FUSE` page. -/
def fuseFields : List Fld :=
  [FUSE_SENSED, FUSE_SENSE_FAIL, FUSE_LC_STATE, FUSE_VARIANT, FUSE_MAX_OP, FUSE_LIMIT_W, FUSE_STEPPING, FUSE_SERIAL_LO] ++
  [FUSE_SERIAL_HI, FUSE_SERIAL_TAG_LO, FUSE_SERIAL_TAG_HI, FUSE_FW_KEY_DIGEST]
/-- The fields of the `SEC` page. -/
def secFields : List Fld :=
  [SEC_LC_STATE, SEC_ID_READY, SEC_TARGET, SEC_CONFIRM, SEC_LC_PHASE, SEC_LC_RESULT, SEC_BITS_WRITTEN, SEC_SCAN_EN] ++
  [SEC_ENGINE_EN, SEC_ID_PUBKEY, SEC_CHALLENGE, SEC_TOKEN, SEC_ATT_ADDR_LO, SEC_ATT_ADDR_HI, SEC_ATT_GO, SEC_ATT_PKG] ++
  [SEC_ATT_STATUS, SEC_NONCE, SEC_IMG_KEY_DIGEST, SEC_STAGE_SERIAL, SEC_STAGE_FW_KEY, SEC_STAGE_SVC_KEY, SEC_STAGE_VARIANT, SEC_STAGE_BAD]
/-- The fields of the common page header (R335). -/
def hdrFields : List Fld :=
  [HDR_PAGE_FORMAT, HDR_INSTANCE, HDR_TYPE, HDR_OLDEST_MINOR, HDR_OLDEST_MAJOR, HDR_NEWEST_MINOR, HDR_NEWEST_MAJOR, HDR_ENABLE] ++
  [HDR_SOFT_RESET, HDR_MODE, HDR_LOCK, HDR_STATE, HDR_PEND_ENABLE, HDR_FENCED, HDR_LAST_ERR, HDR_INT_RAW] ++
  [HDR_INT_STATUS, HDR_INT_ENABLE, HDR_INT_FORCE, HDR_ERR_CORR_COUNT, HDR_ERR_RETRY_COUNT, HDR_ERR_ADDR_LO, HDR_ERR_ADDR_HI, HDR_ERR_SYNDROME] ++
  [HDR_OWNER]
/-- The fields of the `PLAZA` page. -/
def plazaFields : List Fld :=
  [PLAZA_PAGE_PEND, PLAZA_COLL_PEND, PLAZA_VEC_SUM, PLAZA_IN_SERVICE, PLAZA_NOTICE_PEND, PLAZA_INT_EOI, PLAZA_QDIE_PEND, PLAZA_QDIE_PEND_PKG] ++
  [PLAZA_TILE_PEND, PLAZA_TILE_PEND_PKG]

/-- The fields of a page beyond the common header. -/
def PageKind.fields : PageKind → List Fld
  | .plaza => plazaFields | .dusk => duskFields | .sec => secFields | .fuse => fuseFields
  | .pkgsw => pkgswFields | .pwr => pwrFields | .therm => thermFields | .bist => bistFields
  | .dawn => dawnFields | .topo => topoFields | .hostport => hostportFields
  | .district => districtFields | .cmdproc => cmdprocFields | .cdie => cdieFields
  | .d2d => d2dFields | .oe => oeFields | .blvd => blvdFields | .crossing => crossingFields
  | .alley => alleyFields | .coll => collFields | .tile => tileFields | .slice => sliceFields
  | .engine => engineFields | .mover => moverFields | .hdr => hdrFields

end Sys2Proof.Machine
end

