-- ==== Sys2Proof/Machine/State.lean ====
section
/-!
DEFINITION. Machine/State.lean: every piece of state the specification gives the package, the
reasons a step can stop, and the machine right after reset (no rail up, nothing sensed).
-/
namespace Sys2Proof.Machine

/-- Why a command stops with a fault. -/
inductive Fault where
  /-- Raised by a command whose payload has a length or a form that no such transfer of the
  specification has (WellFormed refuses the same commands). Safe: the hardware never sees it. -/
  | malformed (what : String)
  deriving DecidableEq, Repr

/-- Why a command is refused. -/
inductive Refusal where
  /-- Raised by an arm of `exec` that has no meaning yet. Safe: the machine stops. -/
  | notModelled (mnemonic : String)
  deriving DecidableEq, Repr

/-! ### Sparse maps -/

/-- A finite map by numeric key, keys strictly rising. -/
abbrev SMap (α : Type) := List (Nat × α)

/-- The entry of a key. -/
def SMap.find {α : Type} : SMap α → Nat → Option α
  | [], _ => none
  | (k, v) :: m, i => if i = k then some v else if i < k then none else SMap.find m i

/-- The entry of a key, or `d` where the key has none. -/
def SMap.getD {α : Type} (m : SMap α) (i : Nat) (d : α) : α := (SMap.find m i).getD d

/-- The map with the entry of `i` set to `v`. -/
def SMap.put {α : Type} : SMap α → Nat → α → SMap α
  | [], i, v => [(i, v)]
  | (k, w) :: m, i, v =>
    if i = k then (i, v) :: m else if i < k then (i, v) :: (k, w) :: m
    else (k, w) :: SMap.put m i v

/-- The map without an entry for `i`. -/
def SMap.del {α : Type} : SMap α → Nat → SMap α
  | [], _ => []
  | (k, w) :: m, i => if i = k then m else if i < k then (k, w) :: m else (k, w) :: SMap.del m i

/-- The entries whose key satisfies `p` removed. -/
def SMap.drop {α : Type} (m : SMap α) (p : Nat → Bool) : SMap α := m.filter (fun kv => !p kv.1)

/-! ### Addressed memory -/

/-- Bytes by address, addresses strictly rising and no entry equal to 0, which is what an
unlisted address reads as. -/
abbrev Memory := List Host.Cell

/-- What an address that nothing has written reads as (DESIGN CHOICE, log entry 5). -/
def Memory.unlisted : Byte := 0

/-! ### What leaves the package -/

/-- Everything the package sends to the outside, in the order it leaves. -/
inductive Out where
  /-- An MSI-X message of a host function, with the address and data of its table entry (R240, R258,
  R347). -/
  | msix (func vec : Nat) (addr : BitVec 64) (data : BitVec 32)
  /-- A completion-ring entry written to host memory (R252): the District, the ring index and
  the 16 bytes. -/
  | completion (dist index : Nat) (bytes : List Byte)
  /-- A DMA write to host memory through a port. -/
  | hostWrite (port addr : Nat) (bytes : List Byte)
  /-- A PCIe read completion with data; `poisoned` as R130 states. -/
  | readData (port : Nat) (bytes : List Byte) (poisoned : Bool)
  /-- A read that ends with Completer Abort (R246). -/
  | completerAbort (port : Nat)
  /-- A packet handed to an optical link (R214): the port it leaves on (0–3 mesh, 4 + p Square
  port p) and its bytes. -/
  | packet (port : Nat) (bytes : List Byte)
  /-- The side units of a round of a link: the round's number, and each lane with its side unit
  (R194). -/
  | sides (link round : Nat) (units : List (Nat × Nat))
  /-- A flit of a link: its sequence number, and each active lane with the flit's units that travel
  on it (R194, R195, R199). -/
  | flit (link seq : Nat) (lanes : List (Nat × List Nat))
  /-- A regulator frame (R352). -/
  | vrFrame (word : Nat)
  /-- A credit for a line that came from another package (R367): that package, and the tile and
  queue of this one that the line stood in. -/
  | lineCredit (x y tile queue : Nat)
  /-- The data of an SMBus block read (R354). -/
  | smbus (bytes : List Byte)
  /-- The data a register read returns to a requester (R336). -/
  | regData (req : Nat) (value : Nat)
  /-- A command of the scan or test engine cannot be seen; this marks THERMTRIP_N driven low. -/
  | thermtrip
  deriving DecidableEq, Repr

/-! ### Fuses (chapter 14) -/

/-- One copy of the identity fields. `variant` holds VARIANT, MAX_OP and LIMIT_W as the 23 bits
[3:0], [6:4] and [22:7]; `state` one bit for each state beyond BLANK (DEDUCED, log entry 8). The
values here are a FIELD part WX1-A15 (DESIGN CHOICE, log entry 8). -/
structure FuseCopy where
  serial : Nat := 0
  seed : Nat := 0
  fwKey : Nat := 0
  svcKey : Nat := 0
  variant : Nat := 192081
  state : Nat := 3
  deriving DecidableEq, Repr

/-- The fuse array: three copies of the identity fields, two of the tile-bad bits (key: die ×
16 + physical row; bit c: physical column c). -/
structure Fuses where
  c0 : FuseCopy := {}
  c1 : FuseCopy := {}
  c2 : FuseCopy := {}
  bad0 : SMap Nat := []
  bad1 : SMap Nat := []
  deriving DecidableEq, Repr

/-- One fuse bit: the field, the copy, and the bit within the field (for tile-bad bits: 32 × the
row key + column). -/
inductive FuseField where
  | serial | seed | fwKey | svcKey | variant | bad | state
  deriving DecidableEq, Repr

structure FuseBit where
  field : FuseField
  copy : Nat
  bit : Nat
  deriving DecidableEq, Repr

/-- A life-cycle transition in progress (R325). -/
structure LcRun where
  target : Nat
  /-- the bits still to be blown, in programming order -/
  todo : List FuseBit
  /-- pulses given to the head of `todo` -/
  tries : Nat := 0
  /-- ordinal of the head of `todo` in the transition, and whether it begins a field -/
  index : Nat := 0
  newField : Bool := true
  deriving DecidableEq, Repr

/-- A report being written (R331): the set that asked, the package form, and its bytes. -/
structure AttRun where
  dist : Nat
  port : Nat
  addr : Nat
  bytes : List Byte
  deriving DecidableEq, Repr

/-- The security controller. -/
structure Sec where
  /-- the identity private key, while it is held (R326, R321) -/
  key : Option Nat := none
  /-- `SCAN_EN` or `ENGINE_EN` has been set since Dawn (R321) -/
  scanned : Bool := false
  lc : Option LcRun := none
  att : List AttRun := []
  /-- reports signed since Dawn -/
  attCount : Nat := 0
  /-- `BUNDLE_DIGEST` of the accepted bundle -/
  fwDigest : Nat := 0
  /-- `RECORD_DIGEST` of the supplied record, 0 when none was accepted -/
  recDigest : Nat := 0
  deriving DecidableEq, Repr

/-! ### Dawn (chapter 13) -/

/-- A soft repair in force: 0x08 DRAM or 0x09 SRAM, its die and its 32-bit entry (R310). -/
structure Repair where
  kind : Nat
  die : Nat
  entry : Nat
  deriving DecidableEq, Repr

/-- What a tile has posted to the Plaza and has not reached it: an entry of its image's collective table
(R230), or a host event (R254). -/
inductive Post where
  /-- the District and the image slot, the tile's position, the event counter, the argument, the
  descriptor, and the members -/
  | coll (dist slot pos event arg : Nat) (desc : List Byte) (members : List Nat)
  | hevt (event : Nat)
  deriving DecidableEq, Repr

/-- The hidden state of the power-up sequence. -/
structure Dawn where
  /-- VDD_AON is up -/
  aon : Bool := false
  /-- PWRGOOD is high -/
  pwrgood : Bool := false
  /-- every rail has been in range for two rounds -/
  railsGood : Bool := false
  /-- the sampled OWNER_SEL straps (R242) -/
  ownerSel : Nat := 0
  /-- the host ports whose PERST_N is low, which holds them in reset (R353) -/
  perst : Nat := 0xF
  /-- compute dies released (bits 0–3) and optical engines released (bits 4–7) -/
  released : Nat := 0
  /-- dies that stage 3 has passed over, released or held -/
  nextDie : Nat := 0
  /-- link groups that have ended their training (R15) -/
  groups : Nat := 0
  /-- dies whose vertical ports have ended their training -/
  ports : Nat := 0
  /-- BIST waves begun in the present stage -/
  waves : Nat := 0
  /-- optical engines whose start has ended -/
  engines : Nat := 0
  /-- the accepted record's bytes, and the section entries that were ignored -/
  record : Option (List Byte) := none
  ignored : List Nat := []
  /-- the yield map is formed (stage 8), over the dies of `mapDies` -/
  mapFormed : Bool := false
  mapDies : Nat := 0
  /-- the dies fenced during Dawn (R316) -/
  lost : Nat := 0
  /-- results log, newest entry first (R314) -/
  log : List (Nat × Nat × Nat × Nat) := []
  /-- routers that failed tile BIST or the watchdog: key 16 × die + row, bit c of physical
  column c (R33, R295) -/
  routers : SMap Nat := []
  /-- bonds of the vertical ports that failed at training, and the spare that each is mapped onto
  (R120): key 512 × die + 32 × row + column of the physical tile -/
  bonds : SMap (List (Nat × Nat)) := []
  /-- soft repairs in force -/
  repairs : List Repair := []
  /-- spare rows used: key of a bank, count (R313) -/
  spares : SMap Nat := []
  /-- physical tiles fenced since Dawn: die × 512 + row × 32 + column -/
  fenced : List Nat := []
  /-- die-to-die modules at half width, or retraining to it: key 32 × group + module -/
  half : SMap Nat := []
  /-- the module that each flow across a link group was assigned to: key 8 × flow + group (R17) -/
  flows : SMap Nat := []
  /-- corruption that passes the CRC-32 in the next transfer over a module: bytes, with the bits that
  change (R289); key 32 × group + module -/
  flips : SMap (List (Nat × Nat)) := []
  /-- what tiles have posted and a link group holds, oldest first (R18) -/
  posts : List (Nat × Post) := []
  /-- the record being emitted (R311), as it stood at the request -/
  emit : Option (List Byte) := none
  /-- the yield digest in force -/
  digest : Nat := 0
  deriving DecidableEq, Repr

/-! ### Dusk and the governors (chapter 11) -/

/-- A pending phase hint: its class, its start time and the start of its pre-ramp, in µs (`ramp` is
cleared once the pre-ramp has begun). -/
structure Hint where
  cls : Nat
  start : Nat
  ramp : Option Nat
  deriving DecidableEq, Repr

/-- A pre-ramp (R271): its class, when it began, the die power then, the power it goes to, and the start
of its phase, once that has come. -/
structure Ramp where
  cls : Nat
  start : Nat
  base : Nat
  goal : Nat
  hold : Option Nat := none
  deriving DecidableEq, Repr

/-- What Dusk and one governor keep for one domain (0–3 the dies, 4 the collective group). -/
structure Dom where
  /-- rounds in a row with T below the release threshold: TJ, TD -/
  coolJ : Nat := 0
  coolD : Nat := 0
  /-- the DRAM temperature has been above 105 °C and has not fallen to 103 °C -/
  hotD : Bool := false
  /-- the points that R261 gave in the last 10 rounds, newest first -/
  given : List Nat := []
  /-- the ceiling that the average duty of the last round gave, 16 where it gave none (R272) -/
  avgCeil : Nat := 16
  /-- an operating-point step in progress and the point it goes to; a step that waits -/
  opStep : Option Nat := none
  opNext : Option Nat := none
  /-- CAP shaping level (R272) and the current ceiling on duty (R266) -/
  capShape : Nat := 0
  iccCeil : Nat := 16
  iccLow : Nat := 0
  /-- a setpoint for VDD_T has been sent since the Plaza left reset (R351, R352); the level that the
  regulator holds, in mV -/
  vrSent : Bool := false
  vrSet : Nat := 670
  /-- the duty that R261 gives -/
  duskDuty : Nat := 16
  /-- pad energy below 1 mJ, in µJ, and the share of idle unit cycles that are padded, in 2⁻¹⁶ (R267) -/
  padUj : Nat := 0
  padFrac : Nat := 0
  /-- the last 100 step powers, newest first -/
  powers : List Nat := []
  /-- the slew ceilings in force -/
  slewDuty : Nat := 16
  slewShape : Nat := 0
  /-- microseconds the present binding of each reason has lasted -/
  bound : SMap Nat := []
  hints : List Hint := []
  active : Option Nat := none
  /-- when the last hint started -/
  lastHint : Nat := 0
  /-- pre-ramps in progress -/
  ramps : List Ramp := []
  /-- classes whose power is to be measured, and when (R270) -/
  samples : List (Nat × Nat) := []
  deriving DecidableEq, Repr

/-- Dusk, the always-on housekeeping controller. -/
structure Dusk where
  /-- microseconds since VDD_AON rose, and the microsecond of the present round -/
  us : Nat := 0
  step : Nat := 0
  dom : SMap Dom := []
  /-- per channel: rounds in a row 12 °C below, within, 12 °C above the neighbours' median;
  rounds in a row out of range (rails) -/
  low : SMap Nat := []
  ok : SMap Nat := []
  high : SMap Nat := []
  oor : SMap Nat := []
  /-- the rails that the last round found in range: bit i for channel 528 + i (R278, R351) -/
  railsIn : Nat := 0
  /-- rounds in a row with every rail in range -/
  inRange : Nat := 0
  /-- raw readings of the last round, as 16-bit numbers (R287) -/
  raw : SMap Nat := []
  /-- per quarter-die: the refresh rate that its temperature asks for (0 1×, 1 2×, 2 4×), and
  rounds in a row at which a lower one was due -/
  rate : SMap Nat := []
  fall : SMap Nat := []
  /-- rounds in a row above the cap with every actuator at its floor -/
  overCap : Nat := 0
  /-- trip comparators that disagree or failed: bit 3t + c of die n -/
  comparators : SMap Nat := []
  /-- rounds since Twilight was entered -/
  twMs : Nat := 0
  /-- a waiting wake's cause -/
  wake : Nat := 0
  deriving DecidableEq, Repr

/-! ### Register access -/

/-- A requester's latch for a page (R338): the byte offset of the `_LO` half and the high half. -/
structure Latch where
  pair : Nat
  high : Nat
  deriving DecidableEq, Repr

/-- The values a read of `ERR_ADDR_LO` captured in a page (R293). -/
structure Capture where
  hi : Nat
  synd : Nat
  code : Nat
  deriving DecidableEq, Repr

/-! ### Tiles (chapters 02 to 04) -/

/-- The classes of R109 and the causes of R61: 0 MEM, 1 NOC, 2 D2D, 3 OPT, 4 ENG, 5 PAR, 6 PACE. -/
abbrev Cause := Nat

/-- A line of an inbound queue: its 64 bytes and the sender whose credit it holds (R367), if it
holds one: a tile of this package, or 2048 + X + 256 Y for another package. -/
structure Line where
  bytes : List Byte
  src : Option Nat := none
  deriving DecidableEq, Repr

/-- An inbound queue: its lines, oldest first, and the class of its last feeder, for R109. -/
structure InQ where
  lines : List Line := []
  last : Option Cause := none
  deriving DecidableEq, Repr

/-- Where an NX.SEND or NX.SIG goes, as its route entry said at issue (R84, R114). -/
structure Route where
  tile : Nat
  queue : Nat
  remote : Bool
  x : Nat
  y : Nat
  path : Nat
  deriving DecidableEq, Repr

/-- An NX.SEND that has lines left to take from its outbound queue (R82, R367). -/
structure Send where
  seq : Nat
  route : Route
  left : Nat
  deriving DecidableEq, Repr

/-- An outbound queue: its lines, the sends that drain it, and its last drainer's class. -/
structure OutQ where
  lines : List (List Byte) := []
  sends : List Send := []
  last : Option Cause := none
  deriving DecidableEq, Repr

/-- A stream-mover command (R79): its descriptor fields, its issue order, the lines moved so far,
and the error it completes with before any line moves (0: none). -/
structure MCmd where
  seq : Nat
  op : Nat
  queue : Nat
  esz : Nat
  rowLines : Nat
  rows : Nat
  stride : Nat
  addr : Nat
  pattern : Nat
  bad : Nat := 0
  moved : Nat := 0
  deriving DecidableEq, Repr

/-- A channel: its commands, oldest first; result lines of a TREAD unit that has been read and not
delivered whole; what a halt has discarded, the failing command first (R81), and its error code. -/
structure Chan where
  cmds : List MCmd := []
  unit : List (List Byte) := []
  dropped : List MCmd := []
  stopped : Bool := false
  err : Nat := 0
  deriving DecidableEq, Repr

/-- A weight block (R43): its format, the cycle its load issued in, its scales, and the bytes
read so far. -/
structure Block where
  fmt : Nat
  issued : Nat
  scales : List Byte
  bytes : List Byte
  /-- where it is read: the address of its first byte, the first vector register of its scales -/
  src : Nat := 0
  vs : Nat := 0
  deriving DecidableEq, Repr

/-- A run of the array in progress (R45, R46): `win` is the tap count, 0 for MX.RUN. -/
structure Run where
  id : Nat
  m : Nat
  two : Bool
  win : Nat
  afmt : Nat
  block : Block
  scales : List Byte
  bank : Nat
  r0 : Nat
  add : Bool
  /-- where it reads: the address of its first activation line, the first vector register of its scales -/
  src : Nat := 0
  vs : Nat := 0
  deriving DecidableEq, Repr

/-- What comes about in a later unfrozen cycle of a tile. -/
inductive Act where
  /-- bytes of `mask` of a vector register, and the flags of the result -/
  | v (n mask : Nat) (lanes : List Word) (flags : Nat)
  | p (n mask bits : Nat)
  | s (n : Nat) (val : Word)
  /-- a row that VX.ACWR writes -/
  | acw (bank row : Nat) (vals : List Word)
  /-- an array result row lands -/
  | row (run i : Nat)
  /-- the array reads activation line `k` -/
  | act (run k addr : Nat)
  /-- the weight port reads 128 bytes into the shadow buffer -/
  | ldw (addr : Nat)
  /-- bytes are stored; those of a line that the tile's storage held come with its `badKey` -/
  | store (addr : Nat) (bytes : List Byte) (src : Option Nat)
  /-- SM.VLD reads line `k` of register `n`; then its result lands. Its lines stand from `addr` on -/
  | vldRead (id k addr : Nat)
  | vldLand (id n lmask addr : Nat)
  | push (o : Nat) (bytes : List Byte) (src : Option Nat)
  | stoq (o addr : Nat)
  | accept (ch : Nat) (cmd : MCmd)
  deriving DecidableEq, Repr

/-- An agenda entry: the unfrozen cycle it is due in, the bundle and slot that issued it. -/
structure Pend where
  due : Nat
  bundle : Nat
  slot : Nat
  act : Act
  deriving DecidableEq, Repr

/-- A register landing booked for R68: cycle, file (0 V, 1 P, 2 S), number, and the port class
(0 VX, 1 SM, 2 CT). -/
structure Landing where
  cycle : Nat
  file : Nat
  num : Nat
  cls : Nat
  deriving DecidableEq, Repr

/-- An active hardware loop (R88). -/
structure LoopSt where
  l : Nat
  start : Nat
  last : Nat
  trips : Nat
  done : Nat
  deriving DecidableEq, Repr

/-- A bundle that waits (R78) or whose fetch is being retried (R108): its index and slots, whether
its checks have passed, and the parity errors of its fetch, whose retry begins when they do. -/
structure Hold where
  bundle : Nat
  slots : Bundle
  passed : Bool := false
  par : List ParHit := []
  deriving DecidableEq, Repr

/-- A signal on its way (R85, R367). -/
structure Sig where
  route : Route
  seq : Nat
  deriving DecidableEq, Repr

/-- One logical tile: its storage, its sequencer, its queues and channels, and the fields of its
`TILE` and `MOVER` pages. -/
structure Tile where
  data : Memory := []
  code : Memory := []
  v : SMap (List Word) := []
  s : SMap Word := []
  p : SMap Nat := []
  acc : SMap (List Word) := []
  active : Option Block := none
  shadow : Option Block := none
  -- sequencing
  pc : Nat := 0
  bundles : Nat := 0
  minor : Nat := 0
  cyc : Nat := 0
  phase : Nat := 0
  duty : Nat := 16
  loops : List LoopSt := []
  pendLoop : Option LoopSt := none
  doneLoops : SMap Nat := []
  delay : Nat := 0
  redirect : Option Nat := none
  /-- nothing more is fetched: CT.END has issued or a trap was taken -/
  fetchEnd : Bool := false
  /-- a trap has been taken and is settling -/
  trapping : Bool := false
  hold : Option Hold := none
  /-- the reads that the parity retry in progress repeats (R108, R290) -/
  retry : List ParHit := []
  /-- lines that failed for good and that nothing has written since (R290), by `badKey` -/
  bad : SMap ParHit := []
  misroute : Bool := false
  arrayFree : Nat := 0
  wportFree : Nat := 0
  nextId : Nat := 0
  runs : List Run := []
  agenda : List Pend := []
  resv : List (Nat × Nat) := []
  lands : List Landing := []
  bufs : SMap (List Byte) := []
  -- queues, channels, events
  inq : SMap InQ := []
  outq : SMap OutQ := []
  chans : SMap Chan := []
  nextSeq : Nat := 0
  ev : SMap Nat := []
  evSrc : SMap Cause := []
  /-- events that an outstanding collective of this tile will increment (R110) -/
  evColl : List Nat := []
  sigs : List Sig := []
  /-- lines of this tile in flight toward or waiting in a queue: key 16 × tile + queue, and for a
  queue of another package 2¹⁵ × (1 + X + 256 Y) more -/
  credits : SMap Nat := []
  /-- credits to be returned to this tile: keys as in `credits` -/
  owed : List Nat := []
  -- MOVER page
  qMesh : Nat := 0
  qPoison : Nat := 0
  routes : SMap Nat := []
  linesIn : Nat := 0
  linesOut : Nat := 0
  cmdCount : Nat := 0
  -- TILE page
  runState : Nat := 0
  frozen : Bool := false
  freezeCause : Nat := 0
  trapCause : Nat := 0
  trapBundle : Nat := 0
  trapSlots : Nat := 0
  fpFlags : Nat := 0
  runCyc : Nat := 0
  frozenCyc : Nat := 0
  slipCyc : SMap Nat := []
  slipEvt : SMap Nat := []
  deriving DecidableEq, Repr

/-! ### Slices and engines (chapters 05 and 06) -/

/-- The written flag of every sector, in the three copies that check storage holds (R126): key a group
of 32 sectors, one bit per sector. -/
structure Flags where
  a : SMap Nat := []
  b : SMap Nat := []
  c : SMap Nat := []
  deriving DecidableEq, Repr

/-- An entry of the merge buffer that is not FREE (R128): its sector, byte mask and bytes, its state
(FLUSH, else GATHER) and its age in slice cycles. -/
structure Merge where
  sector : Nat
  mask : Nat
  data : List Byte
  flush : Bool := false
  age : Nat := 0
  deriving DecidableEq, Repr

/-- A narrow write that waits for an entry of the merge buffer (R128): its sector and first byte, its
bytes, and the requester that waits for its acknowledgement. -/
structure Narrow where
  sector : Nat
  lo : Nat
  bytes : List Byte
  who : Option Nat := none
  deriving DecidableEq, Repr

/-- A run in progress (R149): the descriptors copied at its start, the page list of each (empty:
not readable), the passes done, and the descriptors whose pass ended poisoned. -/
structure EngRun where
  first : Nat
  count : Nat
  tag : Nat
  descs : List (List Byte)
  lists : List (List Byte)
  next : Nat := 0
  poison : Nat := 0
  deriving DecidableEq, Repr

/-- A write to a command window that waits (R149): a GO word, `late` when it waits for engine mode
behind a held mode write, or a buffer write; and the mover channel that waits for its
acknowledgement (8 × tile + channel). -/
inductive WinOp where
  | go (word : Nat) (late : Bool) (who : Option Nat)
  | put (off : Nat) (bytes : List Byte) (who : Option Nat)
  deriving DecidableEq, Repr

/-- One slice with its merge buffer, its command window and its engine. -/
structure Slice where
  mem : Memory := []
  /-- check bytes, four at 4 × a sector's number; the sectors of the command window stand at 2²⁴ and
  above (R125, R141) -/
  check : Memory := []
  flags : Flags := {}
  /-- what differs from a codeword in a sector that failed for good, until it is written whole (R130) -/
  lasting : SMap (List (Nat × Nat)) := []
  /-- merge-buffer entries, oldest first, and narrow writes that wait for an entry -/
  merge : List Merge := []
  narrow : List Narrow := []
  /-- refresh operations issued, one layer after the other: the position that the controller and the
  hub hand to each other (R142, R157) -/
  refresh : Nat := 0
  /-- 0 controller, 1 engine, 2 entering, 3 leaving -/
  mode : Nat := 0
  /-- the mode word last accepted, and a mode write that is held (R142) -/
  modeWord : Nat := 0
  held : Option Nat := none
  /-- buffers of the command window, by window offset; written flags and poison flags of their
  sectors -/
  buf : Memory := []
  bflags : Flags := {}
  poison : SMap Nat := []
  run : Option EngRun := none
  /-- writes to the window that wait, in the order in which they arrived (R141, R149) -/
  queue : List WinOp := []
  /-- a LAUNCH has asked for controller mode and cleared buffers (R144) -/
  relaunch : Bool := false
  runsDone : Nat := 0
  poisonMask : Nat := 0
  /-- the vertical port has lost its clock or could not retrain (R295) -/
  portLost : Bool := false
  deriving DecidableEq, Repr

/-! ### Districts and command processors (chapter 10) -/

/-- An image slot's image: the logical tiles in position order, the collective table, the digest
computed at load, whether it was loaded under SIGN_REQUIRED, the package's yield digest at load,
and the wait limit in µs. -/
structure Image where
  tiles : List Nat
  colls : List (List Byte) := []
  digest : Nat := 0
  verified : Bool := false
  yield : Nat := 0
  slipUs : Nat := 0
  deriving DecidableEq, Repr

/-- What a command that has started has yet to do. -/
inductive Work where
  /-- WRITE_MEM, READ_MEM or FILL, by the job's opcode -/
  | dma (host dev len pattern : Nat)
  /-- its data has reached a command window that has not acknowledged it (R149): the waiter's key,
  how the command will complete, and the span that it writes -/
  | ack (who status data dev len : Nat)
  | load (host size slot : Nat)
  /-- a LOAD_IMAGE that was running when the die was lost: its image says whether it spans it (R21) -/
  | loadLost (size die : Nat)
  /-- a launch of an image, which is that of the slot as LAUNCH found it (R110, R230); it starts its tiles
  once their slices are in controller mode (R144). `ends` says how its tiles have ended: by position,
  `RUN_STATE` and `TRAP_CAUSE` (R116) -/
  | launch (slot : Nat) (image : Image) (args : List Nat) (started : Bool) (ends : SMap (Nat × Nat))
  | waitEvt (event count timeout : Nat)
  /-- COLLECTIVE: the key of its instance -/
  | coll (key : Nat)
  | respare (die row : Nat)
  deriving DecidableEq, Repr

/-- A command that has started and not completed. -/
structure Job where
  seq : Nat
  op : Nat
  hdr : CmdHdr
  work : Work
  deriving DecidableEq, Repr

/-- A completion entry that waits for room in the ring: its 16 bytes with PHASE 0, its kind, and
whether it fires vector 0 at once. -/
structure CplEntry where
  bytes : List Byte
  kind : Nat
  irq : Bool
  deriving DecidableEq, Repr

/-- One District's command processor. -/
structure Proc where
  /-- the tail last written to CMD_DOORBELL -/
  tail : Nat := 0
  /-- the PHASE bit of the present pass through the completion ring -/
  phase : Nat := 1
  running : List Job := []
  nextSeq : Nat := 0
  /-- completion entries that wait for room (R248) -/
  held : List CplEntry := []
  /-- a stall already counted -/
  stalled : Bool := false
  /-- entries waiting under MODERATION (R258) -/
  moderated : Nat := 0
  /-- host memory refused a completion entry (R248) -/
  broken : Bool := false
  /-- host memory refuses completion entries, as the latest command with a `refused` operand said -/
  refuse : Bool := false
  /-- functions that rang the doorbell while window writes of theirs were not acknowledged (R247) -/
  rang : List Nat := []
  deriving DecidableEq, Repr

/-- A window access of a host function that waits (R143, R247): its internal address and length, the
bytes of a write, and the errors that a read's pieces meet. -/
structure HostReq where
  port : Nat
  addr : Nat
  len : Nat
  write : Bool := false
  bytes : List Byte := []
  errs : SectorErrs := []
  deriving DecidableEq, Repr

/-- A quarter-die being scrubbed (R245) and the District it leaves. -/
structure Scrub where
  qdie : Nat
  old : Nat
  /-- the tiles that were fenced before (R245, R296) -/
  was : List Nat := []
  deriving DecidableEq, Repr

/-! ### Optical engines (chapter 08) -/

/-- One link: an Alley (key 4 × engine + direction) or a Boulevard lane (key 16 + 32 × engine +
line). -/
structure Link where
  /-- what waits to be sent: the packets of the byte stream, in order; whether the first is partly
  sent; and the 56-byte payloads sent and not acknowledged (R199) -/
  txq : List (List Byte) := []
  mid : Bool := false
  retry : List (Nat × List Byte) := []
  next : Nat := 0
  /-- data flits sent since reset, replays excluded -/
  made : Nat := 0
  /-- flits that may be sent against returned credit (R198) -/
  credit : Nat := 0
  /-- the next SEQ expected, whether one has been delivered, and whether NAK is repeated -/
  expect : Nat := 0
  any : Bool := false
  nak : Bool := false
  /-- a `NAK` is due in the next link word (R199) -/
  nakDue : Bool := false
  /-- delivered payload bytes that no packet has been taken from yet -/
  rx : List Byte := []
  /-- Dusk microseconds at which the latest replays began, newest first (R200), and whether a replay
  has not been acknowledged yet (R234) -/
  replays : List Nat := []
  replaying : Bool := false
  /-- per lane: good matching identity words in a row, relocks in the present training -/
  good : SMap Nat := []
  relocks : SMap Nat := []
  /-- the message repeated in every link word, with its ARG (R198) -/
  msg : Option (Nat × Nat) := none
  /-- bytes taken from the receive buffer whose credit has not been returned -/
  freed : Nat := 0
  /-- a direction retrains (R200), and every lane of the live fibres is tested with it (R209) -/
  txTrain : Bool := false
  rxTrain : Bool := false
  txAll : Bool := false
  rxAll : Bool := false
  /-- lanes to be dropped at the end of the retraining, with the cause of R209 -/
  txLost : SMap Nat := []
  rxLost : SMap Nat := []
  /-- a direction is in service; an Alley's has gone down and waits for a RETRAIN or a grant (R203) -/
  txOn : Bool := false
  rxOn : Bool := false
  txDead : Bool := false
  rxDead : Bool := false
  /-- the transmit direction went down, and its flits wait for a HANDOVER (R204) -/
  handing : Bool := false
  /-- messages that wait for a retraining to end, with their ARG (R185), and the message heard last -/
  asked : List (Nat × Nat) := []
  heard : Option (Nat × Nat) := none
  /-- rounds that have carried side units, and the flit of a round that is sent and received next
  (R194) -/
  round : Nat := 0
  txSlot : Nat := 0
  rxSlot : Nat := 0
  /-- per lane: bytes corrected (R196), and the partner's requests to relock its transmit ring, the
  first with an offset of +1 line, the second of −1 (R193) -/
  corr : SMap Nat := []
  forced : SMap Nat := []
  /-- lanes whose ring has searched a line on each side (R193), and the mask of miscabled fibres -/
  searched : List Nat := []
  barred : Nat := 0
  /-- the beginning of a packet from a downed link, which handed-over flits go on with, and how many
  bytes of `rx` came by another link's buffer (R204) -/
  joins : List Byte := []
  foreign : Nat := 0
  /-- the receive direction takes what a downed link hands over (R204, R234) -/
  taking : Bool := false
  /-- the link word whose four parts a Boulevard lane sends (R194) -/
  word : Nat := 0
  deriving DecidableEq, Repr

/-- A waveguide move in progress (R184): the waveguide, its target field, its step, the states of the cells on
its paths, the codes that recalibration finds for cells in fault, the waveguides that it still has to
release (its own, and those whose paths it disturbs, R186), and those of them whose release waits for a
retraining to end (R185). -/
structure Move where
  w : Nat
  target : Nat
  step : Nat
  cells : List CellSet := []
  recals : List CellCal := []
  rels : List Nat := []
  waits : List Nat := []
  deriving DecidableEq, Repr

/-- One Crossing: the targets last applied, by waveguide, the waveguides still to move, the move in
progress, whether a move of this `APPLY` has ended otherwise than done, the calibrated heater codes
(key 4 × cell + 2 × state + heater, state 0 bar, 1 cross), the cells in their cross state, the cells that need
recalibration (R187), and the mask of DFB lines of the engine that have failed (R201). -/
structure Cross where
  targets : SMap Nat := []
  todo : List Nat := []
  cur : Option Move := none
  failed : Bool := false
  cal : SMap Nat := []
  crossed : List Nat := []
  recal : List Nat := []
  dfbDead : Nat := 0
  deriving DecidableEq, Repr

/-! ### Topology and collectives (chapter 09) -/

/-- What the Plaza keeps for the ports (0–3 mesh, 4 + p Square port p): whole rounds without a beacon,
the ports that have heard one in the present round, the tags heard, and the tag that the host accepted
(R217, R218); and the link that each flow of a port uses (R183, R188), with whether it was handed over to it
(R204): key 64 × flow + port. -/
structure Topo where
  silent : SMap Nat := []
  fresh : List Nat := []
  heard : SMap Nat := []
  accepted : SMap Nat := []
  flows : SMap (Nat × Bool) := []
  deriving DecidableEq, Repr

/-- A block of a collective: the rank it comes from or goes to, its index, its bytes. -/
structure Blk where
  rank : Nat
  idx : Nat
  bytes : List Byte
  deriving DecidableEq, Repr

/-- One instance of a collective (R230). -/
structure Coll where
  key : Nat
  dist : Nat
  desc : List Byte
  slot : Nat
  /-- the local members' logical tiles, in position order -/
  members : List Nat
  /-- posts by NX.COLL: position, event counter, argument -/
  posts : List (Nat × Nat × Nat) := []
  /-- the job of the COLLECTIVE command that posted for every member, and its argument -/
  job : Option Nat := none
  arg : Nat := 0
  started : Bool := false
  /-- the instance count (R230) -/
  count : Nat := 0
  /-- ranks whose READY has arrived, and ranks to which the first data has been sent -/
  ready : List Nat := []
  sent : List Nat := []
  /-- blocks that arrived and wait to be folded, and blocks that wait for their rank's READY -/
  got : List Blk := []
  out : List Blk := []
  /-- arrivals of each block index, for the ring -/
  seen : SMap Nat := []
  /-- block indices written to the destination -/
  written : List Nat := []
  /-- ranks whose HOLD is in force; the instance has been in hold; µs of hold used; hold exhausted -/
  holds : List Nat := []
  everHeld : Bool := false
  holdUsed : Nat := 0
  exhausted : Bool := false
  /-- for each link, how many of its flits must be acknowledged before what the instance sent has been
  delivered (R235) -/
  owed : SMap Nat := []
  /-- the status, cause and origin with which the instance ends once its status lines can be written
  (R143) -/
  ending : Option (Nat × Nat × Option (Nat × Nat)) := none
  deriving DecidableEq, Repr

/-- A READY or an ABORT that arrived before its instance started (R235). -/
structure EarlyCtl where
  dist : Nat
  tag : Nat
  inst : Nat
  /-- READY: the source's coordinates, X + 256 Y; ABORT: the packet's TARGET -/
  abort : Bool
  val : Nat
  deriving DecidableEq, Repr


/-! ### The package -/

/-- The state of the block. -/
structure State where
  pending : List Instr := []
  sent : List Out := []
  /-- counts the free values drawn so far (DESIGN CHOICE, log entry 3; not the manual's) -/
  fresh : Nat := 0
  /-- register fields that do not stand at their reset value, by bit number in BAR0 -/
  regs : SMap Nat := []
  latches : SMap Latch := []
  captures : SMap Capture := []
  /-- the MSI-X tables, key 8 × function + vector, and the pending-bit array: bit v of function d
  (R240) -/
  msix : SMap MsixEntry := []
  pba : SMap Nat := []
  fuses : Fuses := {}
  /-- the fuses as stage 1 of the present Dawn read them (R320) -/
  sensed : Fuses := {}
  sec : Sec := {}
  dawn : Dawn := {}
  dusk : Dusk := {}
  tiles : SMap Tile := []
  slices : SMap Slice := []
  procs : SMap Proc := []
  /-- image slots: key 16 × District + slot -/
  images : SMap Image := []
  scrubs : List Scrub := []
  /-- window accesses that wait, in the order in which they came -/
  hostHeld : List HostReq := []
  /-- held halves of a DIST_GLB pair (R29): key 2 × District, base, and 2 × District + 1, size -/
  glbHeld : SMap Nat := []
  links : SMap Link := []
  crossings : SMap Cross := []
  topo : Topo := {}
  colls : List Coll := []
  nextColl : Nat := 0
  /-- instances started since LAUNCH: key 2¹⁶ × District + COLL_TAG -/
  collCounts : SMap Nat := []
  early : List EarlyCtl := []
  /-- packets for this package that wait for delivery: lines and signals, and those of the
  collective engines -/
  meshIn : List (List Byte) := []
  collIn : List (List Byte) := []
  /-- `PKGSW` has logged a refusal since its `INT_STATUS` bit 0 was last cleared -/
  refusalHeld : Bool := false
  /-- pages, by BAR0 offset, whose soft reset waits for `STATE` (R298) -/
  resetWaits : SMap Nat := []
  /-- the SMBus offset (R354) -/
  smbOffset : Nat := 0
  deriving DecidableEq, Repr

/-- The block right after reset: no rail is up, nothing is sensed, every register at its reset
value. -/
def State.reset : State := {}

end Sys2Proof.Machine
end

