-- ==== Sys2Proof/Machine/Operands.lean ====
section
/-!
DEFINITION. Machine/Operands.lean: a bundle's slots read from its 256 bits (R63, R64, R71, R73,
R76, R84, R86, R368, R111), and the operand forms of the slots: data SRAM lines (R35, R70),
parts and elements of packed registers (R75), guards (R73).
-/
namespace Sys2Proof.Machine

/-! ### Slots -/

/-- The MX slot (R71). Contract level 3.0 reserves TAPS = 2 (R111). -/
def decodeMx (w minor : Nat) : Mx :=
  let o := bitsOf w 58 6
  if o = 0 then (if w = 0 then .nop else .illegal)
  else if o = 1 then
    if bitsOf w 0 27 = 0 then
      .ldw ⟨bitsOf w 54 4, bitOf w 53, bitsOf w 48 5, bitsOf w 33 15, bitsOf w 27 6⟩
    else .illegal
  else if o = 2 then
    if bitsOf w 0 7 = 0 then
      .run ⟨bitsOf w 54 4, bitOf w 53, bitOf w 52, bitsOf w 51 1, bitsOf w 49 2, bitsOf w 44 5,
        bitsOf w 29 15, bitsOf w 21 8 + 1, bitsOf w 15 6, bitsOf w 7 8⟩
    else .illegal
  else if o = 3 then
    let taps := bitsOf w 19 2
    if bitsOf w 0 11 = 0 && (taps < 2 || (taps = 2 && minor ≥ 1)) then
      .win ⟨bitsOf w 54 4, bitOf w 53, bitOf w 52, bitsOf w 51 1, bitsOf w 49 2, bitsOf w 44 5,
        bitsOf w 29 15, bitsOf w 21 8 + 1, taps, bitsOf w 11 8⟩
    else .illegal
  else .illegal

/-- The VX opcode of a code (R74). -/
def vxOpcode (o : Nat) : Option VxOpc :=
  match o with
  | 0x01 => some .add | 0x02 => some .sub | 0x03 => some .mul | 0x04 => some .max
  | 0x05 => some .min | 0x06 => some .fma | 0x07 => some .fnma | 0x08 => some .cmp
  | 0x09 => some .sel | 0x0A => some .plog | 0x10 => some .and | 0x11 => some .or
  | 0x12 => some .xor | 0x13 => some .shl | 0x14 => some .shr | 0x15 => some .sra
  | 0x18 => some .perm | 0x19 => some .splat | 0x1A => some .iota | 0x1B => some .ext
  | 0x20 => some .cvt | 0x21 => some .cvtfmx | 0x22 => some .cvtmx | 0x28 => some .exp2
  | 0x29 => some .log2 | 0x2A => some .rcp | 0x2B => some .rsq | 0x30 => some .rsum
  | 0x31 => some .rmax | 0x32 => some .rmin | 0x38 => some .acrd | 0x39 => some .acwr
  | _ => none

/-- The fields that an opcode's row of R368 marks, as a VxF whose nonzero fields are the largest
values allowed. `x` is given as the mask of the bits used. -/
structure VxUse where
  pg : Bool := false
  vd : Nat := 0
  va : Nat := 0
  vb : Nat := 0
  vc : Nat := 0
  f1 : Bool := false
  f2 : Bool := false
  sat : Bool := false
  x : Nat := 0

/-- What R368 lets an instruction use. -/
def vxUse (o : VxOpc) (f : VxF) : VxUse :=
  match o with
  | .add | .sub | .mul | .max | .min => { pg := true, vd := 63, va := 63, vb := 63, f1 := true }
  | .fma | .fnma => { pg := true, vd := 63, va := 63, vb := 63, vc := 63, f1 := true }
  | .cmp => { pg := true, vd := 7, va := 63, vb := 63, f1 := true, x := 7 }
  | .sel => { pg := true, vd := 63, va := 63, vb := 63, f1 := true, x := 7 }
  | .plog => { pg := true, vd := 7, va := 7, vb := if f.x = 4 then 0 else 7, x := 7 }
  | .and | .or | .xor | .shl | .shr | .sra | .perm => { pg := true, vd := 63, va := 63, vb := 63 }
  | .splat =>
    { pg := true, vd := 63, f1 := true,
      x := if bitOf f.x 20 then 2 ^ 20 + 31 else 2 ^ 16 - 1 }
  | .iota => { pg := true, vd := 63, x := 31 }
  | .ext => { vd := 31, va := 63, x := if bitOf f.x 20 then 2 ^ 20 + 31 else 63 }
  | .cvt =>
    if f.f2 = 0 then { pg := true, vd := 63, va := 63, f1 := true, f2 := true, x := 7 }
    else { vd := 63, va := 63, vb := if f.f2 = 1 || f.f2 = 2 then 63 else 0,
           f1 := true, f2 := true, sat := true, x := 7 }
  | .cvtfmx => { pg := true, vd := 63, va := 63, vb := 63, f1 := true, x := 0xFF07 }
  | .cvtmx => { vd := 63, va := 63, vc := 63, f1 := true, f2 := true, x := 0xFF07 }
  | .exp2 | .log2 | .rcp | .rsq | .rsum | .rmax | .rmin =>
    { pg := true, vd := 63, va := 63, f1 := true }
  | .acrd => { pg := true, vd := 63, x := 0xFF }
  | .acwr => { va := 63, x := 0xFF }

/-- Whether a field value only holds bits of a mask of low bits or of single bits. -/
def withinMask (v mask : Nat) : Bool := v &&& mask == v

/-- Whether an instruction's fields are ones that R64 and R368 let it hold. -/
def vxLegal (o : VxOpc) (f : VxF) : Bool :=
  let u := vxUse o f
  (u.pg || f.pg == 0) && f.vd ≤ u.vd && f.va ≤ u.va && f.vb ≤ u.vb && f.vc ≤ u.vc
    && (u.f1 || f.f1 == 0) && (u.f2 || f.f2 == 0) && (u.sat || !f.sat) && withinMask f.x u.x
    && (o != .cmp || f.x < 7) && (o != .plog || f.x < 5)

/-- The VX slot (R73). An illegal encoding is all that such a slot reports: no other check is made of it
(log entry 161). -/
def decodeVx (w : Nat) : Vx :=
  let o := bitsOf w 57 7
  if o = 0 then (if w = 0 then .nop else .illegal)
  else match vxOpcode o with
    | none => .illegal
    | some p =>
      let f : VxF := ⟨bitsOf w 54 3, bitsOf w 48 6, bitsOf w 42 6, bitsOf w 36 6, bitsOf w 30 6,
        bitsOf w 26 4, bitsOf w 22 4, bitOf w 21, bitsOf w 0 21⟩
      if vxLegal p f then .op p f else .illegal

/-- The SM slot (R76): a slot whose unlisted bits are not all zero is illegal (R64). -/
def decodeSm (w : Nat) : Sm :=
  let o := bitsOf w 42 6
  if o = 0 then (if w = 0 then .nop else .illegal)
  else if o = 1 then
    if bitsOf w 0 8 = 0 then
      .vld (bitsOf w 36 6) (bitsOf w 31 5) (bitsOf w 16 15) (bitsOf w 12 4) (bitsOf w 8 4)
    else .illegal
  else if o = 2 then
    if bitsOf w 0 8 = 0 && bitsOf w 14 2 = 0 then
      .vst (bitsOf w 36 6) (bitsOf w 31 5) (bitsOf w 16 15) (bitsOf w 12 2) (bitsOf w 8 4)
    else .illegal
  else if o = 3 then
    if bitsOf w 0 8 = 0 && bitsOf w 12 20 = 0 then
      .qtov (bitsOf w 36 6) (bitsOf w 32 4) (bitsOf w 8 4)
    else .illegal
  else if o = 4 then
    if bitsOf w 0 8 = 0 && bitsOf w 12 20 = 0 then
      .vtoq (bitsOf w 36 6) (bitsOf w 32 4) (bitsOf w 8 4)
    else .illegal
  else if o = 5 then
    if bitsOf w 0 13 = 0 then
      .qtos (bitsOf w 38 4 + 1) (bitsOf w 34 4) (bitsOf w 33 1) (bitsOf w 28 5) (bitsOf w 13 15)
    else .illegal
  else if o = 6 then
    if bitsOf w 0 12 = 0 then
      .stoq (bitsOf w 38 4 + 1) (bitsOf w 34 4) (bitsOf w 32 2) (bitsOf w 27 5) (bitsOf w 12 15)
    else .illegal
  else if o = 8 then
    .ch ⟨bitsOf w 39 3, bitsOf w 37 2, bitsOf w 32 5, bitsOf w 17 15, bitOf w 16, bitsOf w 11 5,
      bitsOf w 6 5, bitOf w 5, bitsOf w 0 5⟩
  else if o = 9 then
    if bitsOf w 0 34 = 0 then .fence (bitsOf w 34 8) else .illegal
  else .illegal

/-- The NX slot (R84). -/
def decodeNx (w : Nat) : Nx :=
  let o := bitsOf w 42 6
  if o = 0 then (if w = 0 then .nop else .illegal)
  else if o = 1 then
    if bitsOf w 0 10 = 0 then
      .send (bitsOf w 38 4) (bitsOf w 32 6) (bitsOf w 16 16 + 1) (bitOf w 15) (bitsOf w 10 5)
    else .illegal
  else if o = 2 then
    if bitsOf w 0 36 = 0 then .sig (bitsOf w 36 6) else .illegal
  else if o = 3 then
    if bitsOf w 0 34 = 0 then .wait (bitsOf w 39 3) (bitsOf w 34 5) else .illegal
  else if o = 4 then
    if bitsOf w 0 28 = 0 then .coll (bitsOf w 36 6) (bitsOf w 33 3) (bitsOf w 28 5) else .illegal
  else if o = 5 then
    if bitsOf w 0 34 = 0 then .hevt (bitsOf w 34 8) else .illegal
  else .illegal

/-- The CT slot (R86). -/
def decodeCt (w : Nat) : Ct :=
  let o := bitsOf w 26 6
  if o = 0 then (if w = 0 then .nop else .illegal)
  else if o = 1 then
    if bitsOf w 0 4 = 0 then .li (bitsOf w 21 5) (bitsOf w 5 16) (bitOf w 4) else .illegal
  else if o = 2 then
    if bitsOf w 0 7 = 0 && bitsOf w 7 4 < 13 then
      .alu (bitsOf w 21 5) (bitsOf w 16 5) (bitsOf w 11 5) (bitsOf w 7 4)
    else .illegal
  else if o = 3 then .addi (bitsOf w 21 5) (bitsOf w 16 5) (bitsOf w 0 16)
  else if o = 8 then
    if bitsOf w 0 7 = 0 then .loop (bitsOf w 24 2) (bitsOf w 19 5) (bitsOf w 7 12) else .illegal
  else if o = 9 then
    if bitsOf w 0 19 = 0 then .rdl (bitsOf w 21 5) (bitsOf w 19 2) else .illegal
  else if o = 0x10 then
    if bitsOf w 12 1 = 0 && bitsOf w 13 3 < 7 then
      .br (bitsOf w 21 5) (bitsOf w 16 5) (bitsOf w 13 3) (bitsOf w 0 12)
    else .illegal
  else if o = 0x18 then
    if bitsOf w 0 12 = 0 then .phase (bitsOf w 24 2) (bitsOf w 12 12) else .illegal
  else if o = 0x1E then (if bitsOf w 0 26 = 0 then .done else .illegal)
  else if o = 0x1F then
    if bitsOf w 8 18 = 0 && bitsOf w 0 8 ≥ 0x80 then .trap (bitsOf w 0 8) else .illegal
  else .illegal

/-- A bundle from its 256 bits (R63). -/
def decodeBundle (w minor : Nat) : Bundle :=
  ⟨decodeMx (bitsOf w 192 64) minor, decodeVx (bitsOf w 128 64), decodeSm (bitsOf w 80 48),
   decodeNx (bitsOf w 32 48), decodeCt (bitsOf w 0 32)⟩

/-! ### Data SRAM lines (R35, R70) -/

/-- The bytes of data SRAM. -/
def dataBytes : Nat := 0x180000

/-- The address S[SB] + 64 × LOFF, modulo 2²¹ (R70). -/
def sramAddr (sb : Word) (loff : Nat) : Nat := (sb.toNat + 64 * loff) % 2 ^ 21

/-- The group and the bank of an address (R35). -/
def sramGroup (a : Nat) : Nat := a / 2 ^ 18
def sramBank (a : Nat) : Nat := sramGroup a * 4 + bitsOf a 6 2

/-- Whether `bytes` bytes from `a` obey R37 and R70 at the alignment `al`. -/
def sramOk (a bytes al : Nat) : Bool :=
  a % al == 0 && bytes > 0 && a + bytes ≤ dataBytes && sramGroup a == sramGroup (a + bytes - 1)

/-! ### Packed registers -/

/-- The bytes of a register's lanes, little-endian. -/
def laneBytes (ls : List Word) : List Byte := ls.flatMap (fun w => leBytes 4 w.toNat)

/-- `n` lanes from a list of bytes. -/
def lanesOf : Nat → List Byte → List Word
  | 0, _ => []
  | n + 1, bs => BitVec.ofNat 32 (leNat (bs.take 4)) :: lanesOf n (bs.drop 4)

/-- `n` elements of `w` bits each from a little-endian bit stream. -/
def unpackElems (w : Nat) : Nat → Nat → List Nat
  | 0, _ => []
  | n + 1, v => v % 2 ^ w :: unpackElems w n (v / 2 ^ w)

/-- The bit stream of a list of elements of `w` bits. -/
def packElems (w : Nat) : List Nat → Nat
  | [] => 0
  | e :: es => e % 2 ^ w + 2 ^ w * packElems w es

/-- Size of a part in bytes and number of parts, by the narrow side's element width (R75). -/
def partSize (w : Nat) : Nat := if w = 16 then 256 else 8 * w
def partCount (w : Nat) : Nat := if w = 16 then 1 else if w = 8 then 4 else if w = 6 then 5 else 8

/-- A byte mask of `n` bytes from byte `lo`. -/
def byteMask (lo n : Nat) : Nat := (2 ^ n - 1) * 2 ^ lo

/-- The byte mask of the lanes of a guard. -/
def guardMask : Nat → Nat → Nat
  | 0, _ => 0
  | n + 1, g => 15 * (g % 2) + 16 * guardMask n (g / 2)

end Sys2Proof.Machine
end

