-- ==== Sys2Proof/Machine/Flags.lean ====
section
/-!
DEFINITION. Machine/Flags.lean: the flags that results raise (R59), the trap codes (R90), and
the freeze causes (R61).
-/
namespace Sys2Proof.Machine

/-- The union of the flags of the results whose bit of a guard is 1 (R59: an element-wise
operation raises the flags of the lanes it writes). -/
def guardFlags : Nat → List FFlags → FFlags
  | _, [] => {}
  | g, f :: fs => (if g % 2 = 1 then f else {}).or (guardFlags (g / 2) fs)

/-- The union of all the flags of a list. -/
def allFlags (fs : List FFlags) : FFlags := fs.foldl FFlags.or {}

/-- The flags of a computation that depends on several lanes: raised when at least one lane is
written (R59). -/
def wholeFlags (g : Nat) (f : FFlags) : FFlags := if g = 0 then {} else f

/-- Sticky flags joined into `FP_FLAGS`. -/
def stickFlags (old new : Nat) : Nat := old ||| new

/-! ### Trap codes (R90) -/

def trapBank : Nat := 0x01
def trapPort : Nat := 0x02
def trapAddress : Nat := 0x03
def trapFormat : Nat := 0x04
def trapBusy : Nat := 0x05
def trapRegWrite : Nat := 0x06
def trapAcc : Nat := 0x07
def trapControl : Nat := 0x08
def trapQueue : Nat := 0x09
def trapIllegal : Nat := 0x10
def trapPcRange : Nat := 0x11
def trapParityFetch : Nat := 0x20
def trapParityOperand : Nat := 0x21
def trapChannelHalted : Nat := 0x30
def trapMisroute : Nat := 0x31

/-! ### Freeze causes (R61) -/

def causeMem : Cause := 0
def causeNoc : Cause := 1
def causeD2d : Cause := 2
def causeOpt : Cause := 3
def causeEng : Cause := 4
def causePar : Cause := 5
def causePace : Cause := 6

/-- The place of a cause in the order of R109: PAR, PACE, ENG, OPT, D2D, MEM, NOC. -/
def causeRank (c : Cause) : Nat :=
  match c with
  | 5 => 0 | 6 => 1 | 4 => 2 | 3 => 3 | 2 => 4 | 0 => 5 | _ => 6

/-- The cause that R109 uses where several apply. -/
def firstCause : List Cause → Cause
  | [] => causeNoc
  | [c] => c
  | c :: cs => let r := firstCause cs; if causeRank c ≤ causeRank r then c else r

/-- The lowest code of a list of trap conditions (R91). -/
def lowestCode : List Nat → Nat
  | [] => 0
  | [c] => c
  | c :: cs => min c (lowestCode cs)

/-- Whether cycle `c` of R107's count of 16 is a pacing cycle at duty `d`. -/
def isPacing (d c : Nat) : Bool := (c + 1) * d / 16 == c * d / 16

end Sys2Proof.Machine
end

