-- ==== Sys2Proof/Machine/TileOps.lean ====
section
/-!
DEFINITION. Machine/TileOps.lean: the named operations over one tile's registers, accumulators,
SRAM and agenda (R31, R35, R52, R65 to R68), and the lists of the sparse stores.
-/
namespace Sys2Proof.Machine

/-! ### Addressed memory -/

/-- The byte at an address. -/
def memRead : Memory → Nat → Byte
  | [], _ => Memory.unlisted
  | (k, v) :: m, a => if a = k then v else if a < k then Memory.unlisted else memRead m a

/-- The memory with one byte written; the canonical form is kept. -/
def memWrite : Memory → Nat → Byte → Memory
  | [], a, b => if b = Memory.unlisted then [] else [(a, b)]
  | (k, v) :: m, a, b =>
    if a = k then (if b = Memory.unlisted then m else (a, b) :: m)
    else if a < k then (if b = Memory.unlisted then (k, v) :: m else (a, b) :: (k, v) :: m)
    else (k, v) :: memWrite m a b

/-- `n` bytes from an address on. -/
def memBytes (m : Memory) (a : Nat) : Nat → List Byte
  | 0 => []
  | n + 1 => memRead m a :: memBytes m (a + 1) n

/-- Consecutive bytes written from an address on. -/
def memStore (m : Memory) (a : Nat) : List Byte → Memory
  | [] => m
  | b :: bs => memStore (memWrite m a b) (a + 1) bs

/-- Addresses strictly rising from `lo`, and no byte equal to what an unlisted address reads as. -/
def Memory.wfFrom : Nat → Memory → Bool
  | _, [] => true
  | lo, (k, v) :: m => decide (lo ≤ k) && decide (v ≠ Memory.unlisted) && Memory.wfFrom (k + 1) m

/-- The canonical form of an addressed memory. -/
def Memory.wf (m : Memory) : Bool := Memory.wfFrom 0 m

/-! ### Register files -/

def zeroLanes : List Word := List.replicate 64 0
def zeroCols : List Word := List.replicate 32 0

/-- The 64 lanes of Vn. -/
def Tile.vreg (t : Tile) (n : Nat) : List Word := SMap.getD t.v n zeroLanes

/-- The lanes of Vn as numbers. -/
def Tile.vnums (t : Tile) (n : Nat) : List Nat := (t.vreg n).map BitVec.toNat

/-- The 256 bytes of Vn. -/
def Tile.vbytes (t : Tile) (n : Nat) : List Byte := laneBytes (t.vreg n)

/-- Line `k` of Vn, bytes 64k to 64k + 63. -/
def Tile.vline (t : Tile) (n k : Nat) : List Byte := ((t.vbytes n).drop (64 * k)).take 64

/-- S[n]; S0 reads 0 (R65). -/
def Tile.sreg (t : Tile) (n : Nat) : Word := if n = 0 then 0 else SMap.getD t.s n 0

/-- P[n] as 64 bits; P0 reads all ones (R65). -/
def Tile.preg (t : Tile) (n : Nat) : Nat := if n = 0 then 2 ^ 64 - 1 else SMap.getD t.p n 0

/-- The key of a line that failed for good, by its bank and its offset as R60 gives them: a line of
the SRAM window, half a row of an accumulator, or a line of a vector register. -/
def badKey (bank line : Nat) : Nat :=
  line / 64 + (if bank = 28 then 2 ^ 21 else if bank = 26 then 2 ^ 20 else if bank = 27 then 2 ^ 20 + 512 else 0)

/-- The lines of `hs` fail until something writes them (R290). -/
def markBad (t : Tile) (hs : List ParHit) : Tile :=
  { t with bad := hs.foldl (fun m h => SMap.put m (badKey h.bank h.line) h) t.bad }

/-- Lines are written, and fail no longer (R290). -/
def Tile.written (t : Tile) (f : Nat → Bool) : Tile := { t with bad := SMap.drop t.bad f }

/-- Bytes of the SRAM window are written from an offset on. -/
def Tile.writtenAt (t : Tile) (off n : Nat) : Tile :=
  t.written (fun k => off / 64 ≤ k && 64 * k < off + n)

/-- The 32 columns of a row of an accumulator bank. -/
def Tile.accRow (t : Tile) (bank row : Nat) : List Word :=
  SMap.getD t.acc (256 * bank + row) zeroCols

def Tile.setAccRow (t : Tile) (bank row : Nat) (vals : List Word) : Tile :=
  { t with acc := SMap.put t.acc (256 * bank + row) vals }.written
    (fun k => k == badKey (26 + bank) (128 * row) || k == badKey (26 + bank) (128 * row + 64))

/-- A write of S[n]; a write to S0 is discarded (R66). -/
def Tile.setS (t : Tile) (n : Nat) (v : Word) : Tile :=
  if n = 0 then t else { t with s := SMap.put t.s n v }

/-- A write of the bits of `mask` of P[n]; a write to P0 is discarded (R66). -/
def Tile.setP (t : Tile) (n mask bits : Nat) : Tile :=
  if n = 0 then t
  else
    let old := t.preg n
    { t with p := SMap.put t.p n ((old - (old &&& mask)) + (bits &&& mask)) }

/-- One lane, its bytes taken from `new` where the mask's bit is 1. -/
def mergeLane (m : Nat) (old new : Word) : Word :=
  if m % 16 = 15 then new
  else if m % 16 = 0 then old
  else
    let pick (i : Nat) : Nat := bitsOf (if bitOf m i then new.toNat else old.toNat) (8 * i) 8
    BitVec.ofNat 32 (pick 0 + 256 * pick 1 + 65536 * pick 2 + 16777216 * pick 3)

/-- Lanes merged under a byte mask, bit 4m + i for byte i of lane m. -/
def mergeLanes : Nat → List Word → List Word → List Word
  | m, o :: os, n :: ns => mergeLane m o n :: mergeLanes (m / 16) os ns
  | _, os, [] => os
  | _, [], _ => []

/-- The bytes of `mask` of Vn written (R73: the other bytes keep their old value). -/
def Tile.setV (t : Tile) (n mask : Nat) (lanes : List Word) : Tile :=
  { t with v := SMap.put t.v n (mergeLanes mask (t.vreg n) lanes) }.written
    (fun k => k / 4 == 2 ^ 19 + n && bitsOf mask (64 * (k % 4)) 64 != 0)

/-- Bytes of data SRAM written from an address on. -/
def Tile.storeData (t : Tile) (a : Nat) (bs : List Byte) : Tile :=
  { t with data := memStore t.data a bs }.writtenAt a bs.length

/-- Bytes of instruction SRAM written from an address on. -/
def Tile.storeCode (t : Tile) (a : Nat) (bs : List Byte) : Tile :=
  { t with code := memStore t.code a bs }.writtenAt (0x180000 + a) bs.length

/-- One bit pattern of a byte of data SRAM, of instruction SRAM, of an accumulator or of a vector
register flips (R289). -/
def Tile.upset (t : Tile) (u : Upset) : Tile :=
  let o := u.line + u.byte
  let flip (b : Byte) : Byte := b ^^^ BitVec.ofNat 8 u.mask
  if u.bank < 24 then { t with data := memWrite t.data o (flip (memRead t.data o)) }
  else if u.bank < 26 then
    let a := o - 0x180000
    { t with code := memWrite t.code a (flip (memRead t.code a)) }
  else
    let w := BitVec.ofNat 32 (u.mask % 256 * 2 ^ (8 * (o % 4)))
    if u.bank < 28 then
      let k := 256 * (u.bank - 26) + o / 128
      { t with acc := SMap.put t.acc k ((SMap.getD t.acc k zeroCols).modify (o / 4 % 32) (· ^^^ w)) }
    else
      { t with v := SMap.put t.v (o / 256) ((t.vreg (o / 256)).modify (o / 4 % 64) (· ^^^ w)) }

/-- Sticky flags raised (R59). -/
def Tile.raiseFlags (t : Tile) (f : Nat) : Tile := { t with fpFlags := stickFlags t.fpFlags f }

/-! ### Queues -/

def Tile.inQ (t : Tile) (q : Nat) : InQ := SMap.getD t.inq q {}
def Tile.outQ (t : Tile) (o : Nat) : OutQ := SMap.getD t.outq o {}
def Tile.setInQ (t : Tile) (q : Nat) (x : InQ) : Tile := { t with inq := SMap.put t.inq q x }
def Tile.setOutQ (t : Tile) (o : Nat) (x : OutQ) : Tile := { t with outq := SMap.put t.outq o x }
def Tile.chan (t : Tile) (c : Nat) : Chan := SMap.getD t.chans c {}
def Tile.setChan (t : Tile) (c : Nat) (x : Chan) : Tile := { t with chans := SMap.put t.chans c x }

/-- Event counter E[e]. -/
def Tile.evc (t : Tile) (e : Nat) : Nat := SMap.getD t.ev e 0

/-- Event counters saturate at 0xFFFF_FFFF (R84). -/
def Tile.addEv (t : Tile) (e : Nat) (src : Cause) : Tile :=
  { t with ev := SMap.put t.ev e (min 0xFFFFFFFF (t.evc e + 1)), evSrc := SMap.put t.evSrc e src }

/-! ### Counters -/

def sat32 (n : Nat) : Nat := min 0xFFFFFFFF n

/-- One unfrozen tile cycle counted (R61). -/
def Tile.countRun (t : Tile) : Tile := { t with runCyc := (t.runCyc + 1) % 2 ^ 64, frozen := false }

/-- One frozen tile cycle counted under one cause; the first of an unbroken run counts in
`SLIP_EVT` (R61, R109). -/
def Tile.countFrozen (t : Tile) (c : Cause) : Tile :=
  let t := if t.frozen then t else
    { t with slipEvt := SMap.put t.slipEvt c (sat32 (SMap.getD t.slipEvt c 0 + 1)) }
  { t with frozen := true, freezeCause := c, frozenCyc := (t.frozenCyc + 1) % 2 ^ 64,
           slipCyc := SMap.put t.slipCyc c ((SMap.getD t.slipCyc c 0 + 1) % 2 ^ 64) }

/-- The tile clock count of R107 moved on by one cycle; a change of duty is taken at c = 0. -/
def Tile.tick (t : Tile) (duty : Nat) : Tile :=
  let p := (t.phase + 1) % 16
  { t with phase := p, duty := if p = 0 then duty else t.duty }

/-! ### Plans -/

/-- What one slot's instruction asks for when it issues: the trap conditions it raises by
itself, the ports (0–3 R0–R3, 4–5 W0–W1) and banks (100 + bank) it uses in which cycles, the
registers it lands in, and its later actions with the cycles they are due in. -/
structure Plan where
  traps : List Nat := []
  mem : List (Nat × Nat) := []
  lands : List Landing := []
  acts : List (Nat × Act) := []

/-- The trap codes of the uses of `new` that meet one of `old` or each other (R36, R90). -/
def memClash (old : List (Nat × Nat)) : List (Nat × Nat) → List Nat
  | [] => []
  | u :: us =>
    (if old.contains u then [if u.2 ≥ 100 then trapBank else trapPort] else [])
      ++ memClash (u :: old) us

/-- Whether a landing breaks R68 beside those already booked. One to S0 or P0, whose write is discarded (R66),
counts like any other (DESIGN CHOICE, log entry 191). -/
def landClash1 (old : List Landing) (l : Landing) : Bool :=
  let same := old.filter (fun o => o.cycle == l.cycle)
  let vx := fun (o : Landing) => o.cls == 0 && (o.file == 0 || o.file == 1)
  (same.any (fun o => o.file == l.file && o.num == l.num)) ||
    (if vx l then (same.filter vx).length ≥ 2
     else same.any (fun o => o.file == l.file && o.cls == l.cls))

/-- The trap codes of landings that break R68 beside `old` or each other. -/
def landClash (old : List Landing) : List Landing → List Nat
  | [] => []
  | l :: ls => (if landClash1 old l then [trapRegWrite] else []) ++ landClash (l :: old) ls

/-- The port and bank uses of one line access. -/
def lineUse (cycle port a : Nat) : List (Nat × Nat) := [(cycle, port), (cycle, 100 + sramBank a)]

end Sys2Proof.Machine
end

