-- ==== Sys2Proof/Machine/VectorOps.lean ====
section
/-!
DEFINITION. Machine/VectorOps.lean: what each VX instruction computes and when its result lands
(R52 to R59, R73 to R75).
-/
namespace Sys2Proof.Machine

/-! ### Lane operations -/

/-- A lane-wise operation on 32-bit lanes, with flags. -/
def mapLanes (f : Nat → Nat → Nat → FRes) : List Nat → List Nat → List Nat → List FRes
  | a :: as, b :: bs, c :: cs => f a b c :: mapLanes f as bs cs
  | _, _, _ => []

/-- An operation on BF16 halves applied to both values of a lane (R73). -/
def onHalves (f : Nat → Nat → Nat → FRes) (a b c : Nat) : FRes :=
  let lo := f (a % 65536) (b % 65536) (c % 65536)
  let hi := f (a / 65536) (b / 65536) (c / 65536)
  (lo.1 + 65536 * hi.1, lo.2.or hi.2)

/-- A result without flags. -/
def plain (n : Nat) : FRes := (n % 2 ^ 32, {})

/-- The INT32 form of an arithmetic opcode: results wrap (R74). -/
def intOp (o : VxOpc) (a b : Nat) : Nat :=
  let x := toSigned 32 a
  let y := toSigned 32 b
  match o with
  | .add => (a + b) % 2 ^ 32
  | .sub => (a + 2 ^ 32 - b % 2 ^ 32) % 2 ^ 32
  | .mul => a * b % 2 ^ 32
  | .max => if x ≥ y then a else b
  | .min => if x ≤ y then a else b
  | _ => 0

/-- The floating-point form of an arithmetic opcode. -/
def floatOp (o : VxOpc) (f : FFmt) (a b c : Nat) : FRes :=
  match o with
  | .add => f.addBits a b
  | .sub => f.subBits a b
  | .mul => f.mulBits a b
  | .max => (f.maxMinBits true a b, {})
  | .min => (f.maxMinBits false a b, {})
  | .fma => f.fmaBits false a b c
  | .fnma => f.fmaBits true a b c
  | _ => (0, {})

/-- An arithmetic opcode on one lane in format F1. -/
def arithLane (o : VxOpc) (f1 a b c : Nat) : FRes :=
  if f1 = 0xD then plain (intOp o a b)
  else if f1 = 1 then onHalves (floatOp o bf16) a b c
  else floatOp o fp32 a b c

/-- The condition of VX.CMP on one lane (R74). Comparisons are quiet: a NaN sets no INVALID (DESIGN
CHOICE, log entry 131). -/
def cmpLane (f1 cond a b : Nat) : Bool :=
  let ord : Option Ordering :=
    if f1 = 0xD then
      some (if toSigned 32 a < toSigned 32 b then .lt
            else if toSigned 32 a = toSigned 32 b then .eq else .gt)
    else (fp32.decode a).compare (fp32.decode b)
  match cond, ord with
  | 6, r => r == none
  | 1, none => true
  | _, none => false
  | 0, some r => r == .eq
  | 1, some r => r != .eq
  | 2, some r => r == .lt
  | 3, some r => r != .gt
  | 4, some r => r == .gt
  | 5, some r => r != .lt
  | _, _ => false

/-- The bits of VX.CMP. -/
def cmpBits (f1 cond : Nat) : List Nat → List Nat → Nat
  | a :: as, b :: bs => ofBool (cmpLane f1 cond a b) + 2 * cmpBits f1 cond as bs
  | _, _ => 0

/-- VX.PLOG's function (R74). -/
def plogBits (fn a b : Nat) : Nat :=
  match fn with
  | 0 => a &&& b
  | 1 => a ||| b
  | 2 => a &&& (2 ^ 64 - 1 - b)
  | 3 => a ^^^ b
  | _ => 2 ^ 64 - 1 - a

/-- The lanes of `a` where the bit of `g` is 1, else of `b`. -/
def selLanes : Nat → List Nat → List Nat → List Nat
  | g, a :: as, b :: bs => (if g % 2 = 1 then a else b) :: selLanes (g / 2) as bs
  | _, _, _ => []

/-- The bitwise operations and shifts (R74). -/
def logicLane (o : VxOpc) (a b : Nat) : Nat :=
  match o with
  | .and => a &&& b
  | .or => a ||| b
  | .xor => a ^^^ b
  | .shl => a * 2 ^ (b % 32) % 2 ^ 32
  | .shr => a / 2 ^ (b % 32)
  | .sra => ofSigned 32 (toSigned 32 a / (2 ^ (b % 32) : Nat))
  | _ => 0

def zipNat (f : Nat → Nat → Nat) : List Nat → List Nat → List Nat
  | a :: as, b :: bs => f a b :: zipNat f as bs
  | _, _ => []

/-- One level of the reduction tree of R56: neighbours combined. -/
def foldPairs (f : Nat → Nat → FRes) : List Nat → List Nat × FFlags
  | a :: b :: xs =>
    let r := f a b
    let s := foldPairs f xs
    (r.1 :: s.1, r.2.or s.2)
  | xs => (xs, {})

/-- The reduction tree, `n` levels of it. -/
def foldTree (f : Nat → Nat → FRes) : Nat → List Nat → List Nat × FFlags
  | 0, xs => (xs, {})
  | n + 1, xs =>
    let r := foldPairs f xs
    let s := foldTree f n r.1
    (s.1, r.2.or s.2)

/-- The step of a reduction opcode, in FP32. -/
def redStep (o : VxOpc) (a b : Nat) : FRes :=
  match o with
  | .rsum => fp32.addBits a b
  | .rmax => (fp32.maxMinBits true a b, {})
  | _ => (fp32.maxMinBits false a b, {})

/-- BF16 lanes widened to FP32, element 2m + 1 following element 2m (R56). -/
def widenPairs : List Nat → List Nat
  | [] => []
  | a :: as => (a % 65536) * 65536 :: (a / 65536) * 65536 :: widenPairs as

/-- A lane reduction: the value of every lane and the flags (R56). A NaN among the inputs makes
the canonical NaN of the last step. -/
def reduce (o : VxOpc) (f1 : Nat) (a : List Nat) : FRes :=
  let r := if f1 = 1 then foldTree (redStep o) 7 (widenPairs a) else foldTree (redStep o) 6 a
  (r.1.getD 0 0, r.2)

/-! ### Conversions (R57, R58, R75) -/

/-- Narrowing of one FP32 value to the format of a code. -/
def narrow (code : Nat) (sat : Bool) (v : Nat) : FRes :=
  let x := fp32.decode v
  match code with
  | 0x1 => bf16.ofNum x
  | 0x2 => fp16.ofNum x
  | 0x3 => toE4m3 sat x
  | 0x4 => toE5m2 sat x
  | 0x9 => toE2m1 x
  | _ => toInt8 x

/-- Widening of one element of a code to FP32. -/
def widen (code v : Nat) : FRes := fp32.ofNum (elemNum code v)

/-- The narrow formats of VX.CVT (R41, R75). -/
def isNarrow (code : Nat) : Bool :=
  code == 1 || code == 2 || code == 3 || code == 4 || code == 9 || code == 0xB

/-- The elements of part `q` of a register. -/
def partElems (w q : Nat) (reg : List Byte) : List Nat :=
  unpackElems w 64 (leNat ((reg.drop (8 * w * q)).take (8 * w)))

/-- A register image whose bytes from `lo` on spell `v` in `n` bytes. -/
def partLanes (lo n v : Nat) : List Word :=
  lanesOf 64 ((List.replicate lo (0 : Byte) ++ leBytes n v ++ List.replicate 256 0).take 256)

/-- A scaled MX element widened to FP32; a scale of 0xFF gives NaN. -/
def widenMx (code scale v : Nat) : FRes :=
  match e8m0 scale with
  | none => (fp32.nanBits, {})
  | some s => fp32.ofNum ((elemNum code v).scale s)

/-- The sum of two lists of results with a scale byte for each half. -/
def widenMxList (code s0 s1 : Nat) (es : List Nat) : List FRes :=
  (es.take 32).map (widenMx code s0) ++ (es.drop 32).map (widenMx code s1)

/-! ### Plans -/

/-- The latency of an opcode (R53, R74). -/
def vxLatency (o : VxOpc) : Nat :=
  match o with
  | .fma | .fnma => 5
  | .cvt | .cvtfmx => 6
  | .cvtmx => 14
  | .exp2 | .log2 => 12
  | .rcp | .rsq => 10
  | .rsum | .rmax | .rmin => 9
  | .acrd => 3
  | .acwr => 2
  | _ => 4

/-- Whether F1 (and, for conversions, F2, the part and the scale position) is one that R41, R74
and R75 accept. -/
def vxFormatOk (o : VxOpc) (f : VxF) : Bool :=
  let q := f.x % 8
  match o with
  | .add | .sub | .mul | .max | .min | .sel => f.f1 == 0 || f.f1 == 1 || f.f1 == 0xD
  | .fma | .fnma | .rsum | .rmax | .rmin => f.f1 == 0 || f.f1 == 1
  | .cmp | .splat => f.f1 == 0 || f.f1 == 0xD
  | .exp2 | .log2 | .rcp | .rsq => f.f1 == 0
  | .cvt =>
    if f.f2 = 0 then
      isNarrow f.f1 && q < (if elemBits f.f1 = 16 then 2 else partCount (elemBits f.f1))
    else f.f1 == 0 && isNarrow f.f2 && q < partCount (elemBits f.f2)
  | .cvtfmx => isMx f.f1 && q < partCount (elemBits f.f1) && f.x / 256 % 2 == 0
  | .cvtmx => f.f1 == 0 && isMx f.f2 && q < partCount (elemBits f.f2) && f.x / 256 % 2 == 0
  | _ => true

/-- All bytes of a register. -/
def allBytes : Nat := 2 ^ 256 - 1

/-- A plan that writes guarded lanes of VD. -/
def planV (t : Tile) (lat : Nat) (vd g : Nat) (lanes : List Nat) (flags : FFlags) : Plan :=
  { lands := [⟨t.cyc + lat, 0, vd, 0⟩],
    acts := [(t.cyc + lat, .v vd (guardMask 64 g) (lanes.map (BitVec.ofNat 32)) flags.bits)] }

/-- A plan of an element-wise operation. -/
def planElems (t : Tile) (lat vd g : Nat) (rs : List FRes) : Plan :=
  planV t lat vd g (rs.map Prod.fst) (guardFlags g (rs.map Prod.snd))

/-- A plan that writes one part of VD, and no other byte. -/
def planPart (t : Tile) (lat vd lo n v : Nat) (flags : FFlags) : Plan :=
  { lands := [⟨t.cyc + lat, 0, vd, 0⟩],
    acts := [(t.cyc + lat, .v vd (byteMask lo n) (partLanes lo n v) flags.bits)] }

/-- A plan that writes guarded bits of a predicate. -/
def planP (t : Tile) (pd g bits : Nat) : Plan :=
  { lands := [⟨t.cyc + 4, 1, pd, 0⟩], acts := [(t.cyc + 4, .p pd g bits)] }

/-- The conversion VX.CVT. -/
def planCvt (t : Tile) (f : VxF) (g : Nat) : Plan :=
  let q := f.x % 8
  if f.f2 = 0 then
    let w := elemBits f.f1
    planElems t 6 f.vd g ((partElems w q (t.vbytes f.va)).map (widen f.f1))
  else
    let w := elemBits f.f2
    let src := t.vnums f.va ++ (if w = 16 then t.vnums f.vb else [])
    let rs := src.map (narrow f.f2 f.sat)
    planPart t 6 f.vd (partSize w * q) (partSize w) (packElems w (rs.map Prod.fst))
      (allFlags (rs.map Prod.snd))

/-- The conversion VX.CVTMX: the part of VD and two scale bytes of VC (R58, R75). -/
def planCvtmx (t : Tile) (f : VxF) : Plan :=
  let w := elemBits f.f2
  let q := f.x % 8
  let sp := f.x / 256 % 256
  let xs := (t.vnums f.va).map fp32.decode
  let b0 := toMxBlock f.f2 (xs.take 32)
  let b1 := toMxBlock f.f2 (xs.drop 32)
  let p := planPart t 14 f.vd (partSize w * q) (partSize w) (packElems w (b0.2.1 ++ b1.2.1))
    (b0.2.2.or b1.2.2)
  let s := planPart t 14 f.vc sp 2 (b0.1 + 256 * b1.1) {}
  { lands := p.lands ++ s.lands, acts := p.acts ++ s.acts }

/-- Whether an array result lands in a row that `rows` names in this cycle. -/
def rowLandsNow (t : Tile) (bank : Nat) (rows : List Nat) (cycle : Nat) : Bool :=
  t.agenda.any (fun p => match p.act with
    | .row rid i => p.due == cycle && t.runs.any (fun r =>
        r.id == rid && r.bank == bank && (rows.isEmpty || rows.contains (r.r0 + i)))
    | _ => false)

/-- VX.ACRD and VX.ACWR (R52, R74). -/
def planAcrd (t : Tile) (f : VxF) (g : Nat) : Plan :=
  let bank := bitsOf f.x 7 1
  let j := f.x % 128
  if rowLandsNow t bank [2 * j, 2 * j + 1] t.cyc then { traps := [trapAcc] }
  else planV t 3 f.vd g
    (((t.accRow bank (2 * j)) ++ (t.accRow bank (2 * j + 1))).map BitVec.toNat) {}

def planAcwr (t : Tile) (f : VxF) : Plan :=
  let bank := bitsOf f.x 7 1
  let j := f.x % 128
  let v := t.vreg f.va
  if rowLandsNow t bank [] (t.cyc + 2) then { traps := [trapAcc] }
  else
    -- written in cycle t + 2, so that a read issued at t + 3 is the first to see it
    { acts := [(t.cyc + 3, .acw bank (2 * j) (v.take 32)),
               (t.cyc + 3, .acw bank (2 * j + 1) (v.drop 32))] }

/-- The result and landing of a VX instruction whose format is accepted. -/
def vxResult (t : Tile) (o : VxOpc) (f : VxF) : Plan :=
  let g := t.preg f.pg
  let a := t.vnums f.va
  let b := t.vnums f.vb
  let c := t.vnums f.vc
  let lat := vxLatency o
  match o with
  | .add | .sub | .mul | .max | .min | .fma | .fnma =>
    planElems t lat f.vd g (mapLanes (arithLane o f.f1) a b c)
  | .cmp => planP t f.vd g (cmpBits f.f1 (f.x % 8) a b)
  | .sel => planV t lat f.vd g (selLanes (t.preg (f.x % 8)) a b) {}
  | .plog => planP t f.vd g (plogBits (f.x % 8) (t.preg f.va) (t.preg f.vb))
  | .and | .or | .xor | .shl | .shr | .sra => planV t lat f.vd g (zipNat (logicLane o) a b) {}
  | .perm => planV t lat f.vd g (b.map (fun i => a.getD (i % 64) 0)) {}
  | .splat =>
    let h := f.x % 65536
    let v := if bitOf f.x 20 then (t.sreg (f.x % 32)).toNat
             else if f.f1 = 0 then h * 65536 else ofSigned 32 (toSigned 16 h)
    planV t lat f.vd g (List.replicate 64 v) {}
  | .iota =>
    let s := (t.sreg (f.x % 32)).toNat
    planV t lat f.vd g ((List.range 64).map (fun m => (m + s) % 2 ^ 32)) {}
  | .ext =>
    let lane := if bitOf f.x 20 then (t.sreg (f.x % 32)).toNat % 64 else f.x % 64
    { lands := [⟨t.cyc + lat, 2, f.vd, 0⟩],
      acts := [(t.cyc + lat, .s f.vd ((t.vreg f.va).getD lane 0))] }
  | .cvt => planCvt t f g
  | .cvtfmx =>
    let w := elemBits f.f1
    let vb := t.vbytes f.vb
    let sp := f.x / 256 % 256
    planElems t lat f.vd g (widenMxList f.f1 (vb.getD sp 0).toNat (vb.getD (sp + 1) 0).toNat
      (partElems w (f.x % 8) (t.vbytes f.va)))
  | .cvtmx => planCvtmx t f
  | .exp2 => planElems t lat f.vd g (a.map exp2Bits)
  | .log2 => planElems t lat f.vd g (a.map log2Bits)
  | .rcp => planElems t lat f.vd g (a.map rcpBits)
  | .rsq => planElems t lat f.vd g (a.map rsqBits)
  | .rsum | .rmax | .rmin =>
    let r := reduce o f.f1 a
    planV t lat f.vd g (List.replicate 64 r.1) (wholeFlags g r.2)
  | .acrd => planAcrd t f g
  | .acwr => planAcwr t f

/-- The plan of the VX slot: ILLEGAL_ENCODING, SCHEDULE_VIOLATION: format, or the result. -/
def vxPlan (t : Tile) (i : Vx) : Plan :=
  match i with
  | .nop => {}
  | .illegal => { traps := [trapIllegal] }
  | .op o f =>
    if !vxLegal o f then { traps := [trapIllegal] }
    else if !vxFormatOk o f then { traps := [trapFormat] }
    else vxResult t o f

end Sys2Proof.Machine
end

