-- ==== Sys2Proof/Machine/MatrixOps.lean ====
section
/-!
DEFINITION. Machine/MatrixOps.lean: the matrix array: weight blocks, format pairs, runs, window
mode, and the result rows (R42 to R50, R71, R72).
-/
namespace Sys2Proof.Machine

/-! ### Formats (R41, R42) -/

def isFp8 (c : Nat) : Bool := c == 3 || c == 4 || c == 5 || c == 6
def isInt8 (c : Nat) : Bool := c == 0xB || c == 0xC
def isFp4 (c : Nat) : Bool := c == 9 || c == 0xA
def isE5m2 (c : Nat) : Bool := c == 4 || c == 6

/-- Formats that the array accepts as weights. -/
def weightOk (c : Nat) : Bool := c == 1 || isFp8 c || isInt8 c || isFp4 c

/-- The rows of K and whether a row takes two cycles, for an accepted pair of weight and
activation formats. -/
def pairMode (w a : Nat) : Option (Nat × Bool) :=
  if isFp8 w && isFp8 a then (if isE5m2 w && isE5m2 a then none else some (64, false))
  else if isInt8 w && isInt8 a then some (64, false)
  else if isFp4 w && isFp4 a then some (128, false)
  else if isFp4 w && isFp8 a then some (128, true)
  else if w == 1 && a == 1 then some (64, true)
  else none

/-- Cycles that a weight load occupies the weight port (R43). -/
def ldwCycles (wfmt : Nat) : Nat := if wfmt = 1 then 32 else 16

/-! ### Weight loads -/

/-- The plan of MX.LDW. -/
def ldwPlan (t : Tile) (f : LdwF) : Plan :=
  let a := sramAddr (t.sreg f.sb) f.loff
  let n := ldwCycles f.wfmt
  let fmtBad := !weightOk f.wfmt
  let addrBad := !sramOk a (128 * n) 128
  let p := if f.pair then 2 else 0
  { traps := (if fmtBad then [trapFormat] else []) ++ (if addrBad then [trapAddress] else [])
      ++ (if t.cyc < t.wportFree then [trapBusy] else []),
    mem := if fmtBad || addrBad then [] else
      (List.range n).flatMap (fun k =>
        lineUse (t.cyc + k) p (a + 128 * k) ++ lineUse (t.cyc + k) (p + 1) (a + 128 * k + 64)),
    acts := (List.range n).map (fun k => (t.cyc + k, .ldw (a + 128 * k))) }

/-- What MX.LDW does as it issues: the shadow buffer takes the new block's format and scales. -/
def ldwStart (t : Tile) (f : LdwF) : Tile :=
  { t with
    shadow := some ⟨f.wfmt, t.cyc, if isMx f.wfmt then (t.vbytes f.vs).take 128 else [], [],
      sramAddr (t.sreg f.sb) f.loff, f.vs⟩,
    wportFree := t.cyc + ldwCycles f.wfmt }

/-! ### Runs -/

/-- The block a run would use, and whether it is ready (R44). -/
def runBlock (t : Tile) (swap : Bool) : Option Block := if swap then t.shadow else t.active

/-- The shadow and active blocks after a run's first cycle (R44). -/
def swapBlocks (t : Tile) (swap : Bool) : Tile :=
  if swap then { t with active := t.shadow, shadow := t.active } else t

/-- A swapping run that issues too soon after the load of its block (R44). -/
def swapEarly (t : Tile) (swap : Bool) : Bool :=
  match swap, t.shadow with
  | true, some b => t.cyc < b.issued + ldwCycles b.fmt
  | _, _ => false

/-- The traps that MX.RUN and MX.WIN share, given the mode when the pair is accepted. -/
def runTraps (t : Tile) (swap : Bool) (m r0 : Nat) (mode : Option (Nat × Bool)) : List Nat :=
  (if mode == none then [trapFormat] else [])
    ++ (if swapEarly t swap || t.cyc < t.arrayFree then [trapBusy] else [])
    ++ (if r0 + m > 256 then [trapAcc] else [])

/-- The plan of MX.RUN. Where the pair is refused, the address is judged for one line a row (DESIGN
CHOICE, log entry 134). -/
def runPlan (t : Tile) (f : RunF) : Plan :=
  let mode := (runBlock t f.swap).bind (fun b => pairMode b.fmt f.afmt)
  let a := sramAddr (t.sreg f.sb) f.loff
  let traps := runTraps t f.swap f.m f.r0 mode
    ++ (if isMx f.afmt && f.vs > 60 then [trapFormat] else [])
  match mode with
  | none => { traps := traps ++ (if sramOk a (64 * f.m) 64 then [] else [trapAddress]) }
  | some (_, two) =>
    let n := if two then 2 * f.m else f.m
    if !sramOk a (64 * n) 64 then { traps := trapAddress :: traps }
    else
      { traps := traps,
        mem := (List.range n).flatMap (fun k => lineUse (t.cyc + k) f.port (a + 64 * k)),
        acts := (List.range n).map (fun k => (t.cyc + k, .act t.nextId k (a + 64 * k)))
          ++ (List.range f.m).map (fun i =>
            (t.cyc + 72 + (if two then 2 * i else i), .row t.nextId i)) }

/-- The tap count of a TAPS code. -/
def tapCount (taps : Nat) : Nat := if taps = 0 then 2 else if taps = 1 then 4 else 8

/-- Bytes of one sub-row of the window stream (R46): g = K / w elements. -/
def subRowBytes (k w afmt : Nat) : Nat := k / w * elemBits afmt / 8

/-- The plan of MX.WIN. Where the pair is refused, the address is judged for its first line (DESIGN
CHOICE, log entry 134). -/
def winPlan (t : Tile) (f : WinF) : Plan :=
  let mode := (runBlock t f.swap).bind (fun b =>
    if isMx b.fmt || isMx f.afmt then none else pairMode b.fmt f.afmt)
  let a := sramAddr (t.sreg f.sb) f.loff
  let w := tapCount f.taps
  let traps := runTraps t f.swap f.m f.r0 mode
    ++ (if f.taps > 2 || (f.taps = 2 && t.minor = 0) then [trapIllegal] else [])
  match mode with
  | none => { traps := traps ++ (if sramOk a 64 64 then [] else [trapAddress]) }
  | some (k, two) =>
    let step := if two then 2 else 1
    let subs := f.m + w - 1
    let gb := subRowBytes k w f.afmt
    let lines := (subs * gb + 63) / 64
    if !sramOk a (64 * lines) 64 then { traps := trapAddress :: traps }
    else
      -- the port is held throughout; line l is read when its first sub-row is taken
      { traps := traps,
        mem := (List.range (step * subs)).map (fun k => (t.cyc + k, f.port))
          ++ (List.range lines).map (fun l =>
            (t.cyc + step * (64 * l / gb), 100 + sramBank (a + 64 * l))),
        acts := (List.range lines).map (fun l =>
            (t.cyc + step * (64 * l / gb), .act t.nextId l (a + 64 * l)))
          ++ (List.range f.m).map (fun i =>
            (t.cyc + 72 + step * (w - 1) + step * i, .row t.nextId i)) }

/-- What a run does as it issues: swap, occupancy, and the run's record. -/
def runStart (t : Tile) (swap add : Bool) (bank m vs afmt r0 win src : Nat) : Tile :=
  let t := swapBlocks t swap
  match t.active with
  | none => t
  | some b =>
    let two := match pairMode b.fmt afmt with
      | some (_, two) => two
      | none => false
    let subs := if win = 0 then m else m + win - 1
    let scales := if isMx afmt && win = 0 then
        t.vbytes vs ++ t.vbytes (vs + 1) ++ t.vbytes (vs + 2) ++ t.vbytes (vs + 3)
      else []
    { t with
      runs := t.runs ++ [⟨t.nextId, m, two, win, afmt, b, scales, bank, r0, add, src, vs⟩],
      nextId := t.nextId + 1,
      arrayFree := t.cyc + (if two then 2 * subs else subs) }

/-- The plan of the MX slot. -/
def mxPlan (t : Tile) (i : Mx) : Plan :=
  match i with
  | .nop => {}
  | .illegal => { traps := [trapIllegal] }
  | .ldw f => ldwPlan t f
  | .run f => runPlan t f
  | .win f => winPlan t f

/-- What the MX slot changes at once as it issues. -/
def mxStart (t : Tile) (i : Mx) : Tile :=
  match i with
  | .ldw f => ldwStart t f
  | .run f => runStart t f.swap f.add f.bank f.m f.vs f.afmt f.r0 0 (sramAddr (t.sreg f.sb) f.loff)
  | .win f => runStart t f.swap f.add f.bank f.m 0 f.afmt f.r0 (tapCount f.taps)
      (sramAddr (t.sreg f.sb) f.loff)
  | _ => t

/-! ### Result rows -/

/-- Element `i` of a byte string whose elements have `w` bits (4, 8 or 16). -/
def elemAt (w : Nat) (bs : List Byte) (i : Nat) : Nat :=
  if w = 4 then bitsOf (bs.getD (i / 2) 0).toNat (4 * (i % 2)) 4
  else if w = 16 then (bs.getD (2 * i) 0).toNat + 256 * (bs.getD (2 * i + 1) 0).toNat
  else (bs.getD i 0).toNat

/-- The line bytes that a run has read, lines 0 to `n` − 1. -/
def runLines (t : Tile) (id n : Nat) : List Byte :=
  (List.range n).flatMap (fun k => SMap.getD t.bufs (1024 * id + k) (List.replicate 64 0))

/-- The unbiased scale exponent of a scale byte, or 0 for an unscaled format (R47). -/
def scaleOf (fmt : Nat) (scales : List Byte) (i : Nat) : Option Int :=
  if isMx fmt then e8m0 (scales.getD i 0).toNat else some 0

/-- The rows of K of a block. -/
def blockK (b : Block) : Nat := if isFp4 b.fmt then 128 else 64

/-- Activation element `k` of result row `i`: its number (R45, R46). -/
def actElem (r : Run) (lines : List Byte) (i k : Nat) : FNum :=
  let w := elemBits r.afmt
  let kk := blockK r.block
  if r.win = 0 then
    elemNum r.afmt (elemAt w (lines.drop ((if r.two then 128 else 64) * i)) k)
  else
    let g := kk / r.win
    let j := k / g
    -- sub-row of x[i − j] in the stream that begins with x₋₍w₋₁₎
    elemNum r.afmt (elemAt w lines ((i + r.win - 1 - j) * g + k % g))

/-- The operand pairs of row `i` and column `n` (R47). -/
def rowPairs (r : Run) (lines : List Byte) (i n : Nat) : List Pair :=
  let w := elemBits r.block.fmt
  (List.range (blockK r.block)).map (fun k =>
    let sw := scaleOf r.block.fmt r.block.scales (4 * n + k / 32)
    let sa := scaleOf r.afmt r.scales (4 * i + k / 32)
    { w := elemNum r.block.fmt (elemAt w r.block.bytes (32 * k + n)),
      a := actElem r lines i k,
      s := match sw, sa with
        | some x, some y => some (x + y)
        | _, _ => none })

/-- The 32 block sums of row `i`. -/
def rowSums (r : Run) (lines : List Byte) (i : Nat) : List FRes :=
  (List.range 32).map (fun n => blockSum (rowPairs r lines i n))

/-- A result row landing in an accumulator row: overwrite, or one FP32 addition (R45, R50). -/
def landRow (old : List Word) (add : Bool) (sums : List FRes) : List FRes :=
  if add then
    (List.zip old sums).map (fun os =>
      let r := fp32.addBits os.1.toNat os.2.1
      (r.1, r.2.or os.2.2))
  else sums

/-- Lines that result row `i` of a run needs. -/
def rowLines (r : Run) : Nat :=
  if r.win = 0 then (if r.two then 2 * r.m else r.m)
  else ((r.m + r.win - 1) * subRowBytes (blockK r.block) r.win r.afmt + 63) / 64

/-- Result row `i` of run `id` lands. -/
def doRow (t : Tile) (id i : Nat) : Tile :=
  match t.runs.find? (fun r => r.id == id) with
  | none => t
  | some r =>
    let sums := rowSums r (runLines t id (rowLines r)) i
    let res := landRow (t.accRow r.bank (r.r0 + i)) r.add sums
    let t := t.setAccRow r.bank (r.r0 + i) (res.map (fun x => BitVec.ofNat 32 x.1))
    let t := t.raiseFlags (allFlags (res.map Prod.snd)).bits
    if i + 1 = r.m then
      { t with runs := t.runs.filter (fun x => x.id != id),
               bufs := SMap.drop t.bufs (fun k => k / 1024 == id) }
    else t

end Sys2Proof.Machine
end

