-- ==== Sys2Proof/Machine/StreamOps.lean ====
section
/-!
DEFINITION. Machine/StreamOps.lean: the SM slot: its plans (R76, R77), its checks (R78, R81,
R82), descriptors (R79, R80), and the classes of the waits on channels and queues (R109).
-/
namespace Sys2Proof.Machine

/-! ### Address ranges (R22) -/

def glbBase : Nat := 0x100000000000
def glbEnd : Nat := 0x10B400000000
def sramBase : Nat := 0x200000000000
def sramEnd : Nat := 0x2000F0000000
def winBase : Nat := 0x300000000000
def winEnd : Nat := 0x300078000000
def regBase : Nat := 0x3F0000000000
def regEnd : Nat := 0x3F0004000000
/-- One above the slice-direct space: 1,920 slices of 2²⁹ bytes. -/
def sliceEnd : Nat := 1920 * 2 ^ 29
/-- The mapped bytes of a slice. -/
def sliceBytes : Nat := 0x18000000

/-- The die of a logical tile id (R22). -/
def tileDie (t : Nat) : Nat := t / 480

/-! ### Classes of channel commands (R109) -/

/-- The class of a command by the address it names, for tile `t`: own slice MEM, own engine
window ENG, another tile's slice or window NOC on the same die and D2D on another,
District-interleaved space D2D. R109's table names neither another tile's engine window nor the other
addresses, which are MEM here (log entry 167). -/
def addrClass (t a : Nat) : Cause :=
  if glbBase ≤ a ∧ a < glbEnd then causeD2d
  else if a < sliceEnd then
    let n := a / 2 ^ 29
    if n = t then causeMem else if tileDie n = tileDie t then causeNoc else causeD2d
  else if winBase ≤ a ∧ a < winEnd then
    let n := (a - winBase) / 2 ^ 20
    if n = t then causeEng else if tileDie n = tileDie t then causeNoc else causeD2d
  else causeMem

def MCmd.cls (tid : Nat) (c : MCmd) : Cause := addrClass tid c.addr

/-- Result lines that leave a unit of a TREAD: 64/esz (R80). -/
def MCmd.unitLines (c : MCmd) : Nat := 64 / 2 ^ c.esz

/-- The lines that a command moves in all. -/
def MCmd.total (c : MCmd) : Nat := c.rows * c.rowLines * (if c.op = 4 then c.unitLines else 1)

/-- Whether a command has lines left to move. -/
def MCmd.unfinished (c : MCmd) : Bool := c.moved < c.total

/-- Whether a command is to feed inbound queue `q`; one with a bad descriptor was to, however many
rows it names. -/
def MCmd.feeds (c : MCmd) (q : Nat) : Bool :=
  (c.op == 1 || c.op == 4) && c.queue == q && (c.unfinished || c.bad != 0)

/-- Whether a command is to drain outbound queue `o`. -/
def MCmd.drains (c : MCmd) (o : Nat) : Bool :=
  c.op == 2 && c.queue == o && (c.unfinished || c.bad != 0)

/-! ### Occupancy -/

/-- Lines on their way into outbound queue `o` from instructions already issued. -/
def Tile.pushesInFlight (t : Tile) (o : Nat) : Nat :=
  (t.agenda.filter (fun p => match p.act with
    | .push o' _ _ => o' == o
    | .stoq o' _ => o' == o
    | _ => false)).length

/-- Commands of channel `c` accepted or about to be, and not complete. -/
def Tile.chanLoad (t : Tile) (c : Nat) : List MCmd :=
  (t.chan c).cmds ++ t.agenda.filterMap (fun p => match p.act with
    | .accept c' m => if c' == c then some m else none
    | _ => none)

/-- The commands of every channel that have not completed, and those that a halt has discarded. -/
def Tile.liveCmds (t : Tile) : List MCmd := (List.range 8).flatMap t.chanLoad
def Tile.deadCmds (t : Tile) : List MCmd := (List.range 8).flatMap (fun c => (t.chan c).dropped)

/-- The commands whose order R82 keeps. A discarded one never moves its lines, so that none issued
after it moves any. -/
def Tile.orderCmds (t : Tile) : List MCmd := t.liveCmds ++ t.deadCmds

/-- The earliest-issued of a list of commands. -/
def earliest : List MCmd → Option MCmd
  | [] => none
  | c :: cs =>
    match earliest cs with
    | none => some c
    | some d => if c.seq ≤ d.seq then some c else some d

/-- The command that is to feed the next line of queue `q` (R82). -/
def Tile.feeder (t : Tile) (q : Nat) : Option MCmd :=
  earliest (t.orderCmds.filter (fun c => c.feeds q))

/-- Whether the command that was to feed queue `q` next was discarded by a halt (R78, R81). -/
def Tile.starved (t : Tile) (q : Nat) : Bool :=
  match t.feeder q with
  | none => false
  | some f => t.deadCmds.contains f

/-- Whether a drainer of outbound queue `o` that was issued before `seq` has lines left to take. -/
def Tile.drainedBefore (t : Tile) (o seq : Nat) : Bool :=
  t.orderCmds.any (fun k => k.drains o && k.seq < seq)

/-- The class of a pop of queue `q` that waits (R109). -/
def Tile.popClass (t : Tile) (tid q : Nat) : Cause :=
  let last := (t.inQ q).last
  if bitOf t.qMesh q then last.getD causeNoc
  else match t.feeder q with
    | some c => c.cls tid
    | none => last.getD causeMem

/-- The class of an NX.SEND by its path kind (R109). -/
def sendClass (path : Nat) : Cause :=
  let k := bitsOf path 14 2
  if k = 0 then causeNoc else if k = 1 then causeD2d else causeOpt

/-- The class of a push to outbound queue `o` that waits: that of the drainer at the head. -/
def Tile.pushClass (t : Tile) (tid o : Nat) : Cause :=
  let cmd := earliest (t.orderCmds.filter (fun c => c.drains o))
  let q := t.outQ o
  match cmd, q.sends.head? with
  | some c, some s => if c.seq < s.seq then c.cls tid else sendClass s.route.path
  | some c, none => c.cls tid
  | none, some s => sendClass s.route.path
  | none, none => q.last.getD causeNoc

/-! ### Descriptors (R79) -/

/-- The error that R79's field rules give a descriptor, or 0: 0x08 BAD_DESC. -/
def descError (d : List Byte) (minor addr rows : Nat) (ovn : Bool) : Nat :=
  let op := leAt d 10 1 % 16
  let esz := leAt d 11 1 % 4
  let ok :=
    leAt d 6 2 == 0 && addr % 64 == 0 && leAt d 8 2 ≥ 1
      && (1 ≤ op && op ≤ 4)
      && (if op = 4 then esz < 2 || (esz == 2 && minor ≥ 1) else esz == 0)
      && leAt d 11 1 / 4 == 0
      && (ovn || rows ≥ 1) && rows ≤ 16777215 && leAt d 15 1 == 0
      && leAt d 16 5 % 64 == 0 && leAt d 21 3 == 0
      && (op == 3 || leAt d 24 8 == 0)
      && (d.drop 32).all (fun b => b == 0)
  if ok then 0 else 8

/-- The command that SM.CH reads from its descriptor line with its overrides. -/
def readDesc (t : Tile) (f : ChF) (d : List Byte) : MCmd :=
  let addr := if f.ova then
      ((t.sreg f.sah).toNat % 65536) * 2 ^ 32 + (t.sreg f.sa).toNat
    else leAt d 0 6
  let rows := if f.ovn then (t.sreg f.sn).toNat else leAt d 12 3
  { seq := t.nextSeq, op := leAt d 10 1 % 16, queue := leAt d 10 1 / 16, esz := leAt d 11 1 % 4,
    rowLines := leAt d 8 2, rows := rows, stride := leAt d 16 5, addr := addr,
    pattern := leAt d 24 8, bad := descError d t.minor addr rows f.ovn }

/-! ### Plans -/

/-- Ports of a PMASK of one, two or four bits. -/
def portsOf (pmask : Nat) : Option (List Nat) :=
  let ps := bitList 4 pmask
  if ps.length = 1 || ps.length = 2 || ps.length = 4 then some ps else none

/-- The plan of SM.VLD. The j-th selected line takes the (j mod p)-th lowest port of `PMASK`, and ports beyond the
number of lines are not booked (DESIGN CHOICE, log entry 188). An access that is refused books no port and no
bank, here and in every other plan (DESIGN CHOICE, log entry 134). -/
def vldPlan (t : Tile) (vd sb loff pmask lmask : Nat) : Plan :=
  let a := sramAddr (t.sreg sb) loff
  let ls := bitList 4 lmask
  let n := ls.length
  let addrBad := n > 0 && !sramOk a (64 * n) 64
  let traps := (if lmask = 0 then [trapPort] else []) ++ (if addrBad then [trapAddress] else [])
  match portsOf pmask with
  | none => { traps := trapPort :: traps }
  | some ps =>
    let p := ps.length
    let land := t.cyc + (n + p - 1) / p + 2
    { traps := traps,
      mem := if addrBad then [] else (List.range n).flatMap (fun j =>
        lineUse (t.cyc + j / p) (ps.getD (j % p) 0) (a + 64 * j)),
      lands := [⟨land, 0, vd, 1⟩],
      acts := (List.range n).map (fun j =>
          (t.cyc + j / p, .vldRead (t.nextId + 1) (ls.getD j 0) (a + 64 * j)))
        ++ [(land, .vldLand (t.nextId + 1) vd lmask a)] }

/-- The plan of SM.VST. -/
def vstPlan (t : Tile) (va sb loff pmask lmask : Nat) : Plan :=
  let a := sramAddr (t.sreg sb) loff
  let ls := bitList 4 lmask
  let n := ls.length
  let addrBad := n > 0 && !sramOk a (64 * n) 64
  let traps := (if lmask = 0 then [trapPort] else []) ++ (if addrBad then [trapAddress] else [])
  match portsOf pmask with
  | none => { traps := trapPort :: traps }
  | some ps =>
    let p := ps.length
    { traps := traps,
      mem := if addrBad then [] else (List.range n).flatMap (fun j =>
        lineUse (t.cyc + 1 + j / p) (4 + ps.getD (j % p) 0) (a + 64 * j)),
      acts := (List.range n).map (fun j =>
        (t.cyc + 1 + j / p, .store (a + 64 * j) (t.vline va (ls.getD j 0))
          (some (badKey 28 (256 * va + 64 * ls.getD j 0))))) }

/-- The plan of SM.QTOV: the selected lines take the queue's first lines. -/
def qtovPlan (t : Tile) (vd q lmask : Nat) : Plan :=
  let ls := bitList 4 lmask
  let got := (t.inQ q).lines
  let put (k : Nat) : List Byte :=
    match ls.idxOf? k with
    | some j => (got[j]?.map Line.bytes).getD (List.replicate 64 0)
    | none => List.replicate 64 0
  if ls.isEmpty then {}
  else
    { lands := [⟨t.cyc + 3, 0, vd, 1⟩],
      acts := [(t.cyc + 3, .v vd (ls.foldl (fun m k => m + byteMask (64 * k) 64) 0)
        (lanesOf 64 (put 0 ++ put 1 ++ put 2 ++ put 3)) 0)] }

/-- The plan of SM.VTOQ. -/
def vtoqPlan (t : Tile) (va o lmask : Nat) : Plan :=
  { acts := (bitList 4 lmask).map (fun k =>
    (t.cyc + 1, .push o (t.vline va k) (some (badKey 28 (256 * va + 64 * k))))) }

/-- The plan of SM.QTOS. -/
def qtosPlan (t : Tile) (n q port sb loff : Nat) : Plan :=
  let a := sramAddr (t.sreg sb) loff
  let got := (t.inQ q).lines
  if !sramOk a (64 * n) 64 then { traps := [trapAddress] }
  else
    { mem := (List.range n).flatMap (fun k => lineUse (t.cyc + 1 + k) (4 + port) (a + 64 * k)),
      acts := (List.range n).filterMap (fun k =>
        got[k]?.map (fun l => (t.cyc + 1 + k, .store (a + 64 * k) l.bytes none))) }

/-- The plan of SM.STOQ. -/
def stoqPlan (t : Tile) (n o port sb loff : Nat) : Plan :=
  let a := sramAddr (t.sreg sb) loff
  if !sramOk a (64 * n) 64 then { traps := [trapAddress] }
  else
    { mem := (List.range n).flatMap (fun k => lineUse (t.cyc + k) port (a + 64 * k)),
      acts := (List.range n).map (fun k => (t.cyc + k, .stoq o (a + 64 * k))) }

/-- The descriptor line that SM.CH reads in its issue cycle. -/
def chDesc (t : Tile) (f : ChF) : List Byte := memBytes t.data (sramAddr (t.sreg f.sb) f.loff) 64

/-- The plan of SM.CH. -/
def chPlan (t : Tile) (f : ChF) : Plan :=
  let a := sramAddr (t.sreg f.sb) f.loff
  if !sramOk a 64 64 then { traps := [trapAddress] }
  else
    let m := readDesc t f (chDesc t f)
    { traps := (if (m.op = 1 || m.op = 4) && bitOf t.qMesh m.queue then [trapQueue] else [])
        ++ (if (t.chan f.ch).stopped then [trapChannelHalted] else []),
      mem := lineUse t.cyc f.port a,
      acts := [(t.cyc + 1, .accept f.ch m)] }

/-- Traps of a pop of `n` lines. A queue that holds some of them, and whose feeder is gone, counts as empty
(R78; log entry 162). -/
def popTraps (t : Tile) (q n : Nat) : List Nat :=
  if (t.inQ q).lines.length < n && t.starved q then [trapChannelHalted] else []

/-- The plan of the SM slot. -/
def smPlan (t : Tile) (i : Sm) : Plan :=
  match i with
  | .nop => {}
  | .illegal => { traps := [trapIllegal] }
  | .vld vd sb loff pmask lmask => vldPlan t vd sb loff pmask lmask
  | .vst va sb loff pmask lmask => vstPlan t va sb loff pmask lmask
  | .qtov vd q lmask =>
    let p := qtovPlan t vd q lmask
    { p with traps := popTraps t q (bitList 4 lmask).length }
  | .vtoq va o lmask => vtoqPlan t va o lmask
  | .qtos n q port sb loff =>
    let p := qtosPlan t n q port sb loff
    { p with traps := p.traps ++ popTraps t q n }
  | .stoq n o port sb loff => stoqPlan t n o port sb loff
  | .ch f => chPlan t f
  | .fence mask =>
    { traps := if (bitList 8 mask).any (fun c => (t.chan c).stopped) then [trapChannelHalted]
        else [] }

/-! ### Checks (R78, R97) -/

/-- The class of the wait of the SM slot when one of its checks fails. -/
def smWait (t : Tile) (tid : Nat) (i : Sm) : Option Cause :=
  match i with
  | .qtov _ q lmask =>
    if (t.inQ q).lines.length < (bitList 4 lmask).length then some (t.popClass tid q) else none
  | .qtos n q _ _ _ => if (t.inQ q).lines.length < n then some (t.popClass tid q) else none
  | .vtoq _ o lmask =>
    if (t.outQ o).lines.length + t.pushesInFlight o + (bitList 4 lmask).length > 16 then
      some (t.pushClass tid o)
    else none
  | .stoq n o _ _ _ =>
    if (t.outQ o).lines.length + t.pushesInFlight o + n > 16 then some (t.pushClass tid o) else none
  | .ch f =>
    match t.chanLoad f.ch with
    | c :: cs => if cs.length ≥ 3 then some (c.cls tid) else none
    | [] => none
  | .fence mask =>
    match (bitList 8 mask).flatMap t.chanLoad with
    | c :: _ => some (c.cls tid)
    | [] => none
  | _ => none

/-- The tiles whose credits the first `n` lines of a queue hold, as keys of the queue's credits
(R367): the sender's id and 16 × this tile + queue. -/
def creditsOf (tid q : Nat) (ls : List Line) : List (Nat × Nat) :=
  ls.filterMap (fun l => l.src.map (fun s => (s, 16 * tid + q)))

/-- What the SM slot changes at once as it issues: a pop takes its lines. -/
def smStart (t : Tile) (i : Sm) : Tile :=
  match i with
  | .qtov _ q lmask => t.setInQ q { t.inQ q with
      lines := (t.inQ q).lines.drop (bitList 4 lmask).length }
  | .qtos n q _ _ _ => t.setInQ q { t.inQ q with lines := (t.inQ q).lines.drop n }
  | _ => t

/-- The credits that a pop of the SM slot frees. -/
def smCredits (t : Tile) (tid : Nat) (i : Sm) : List (Nat × Nat) :=
  match i with
  | .qtov _ q lmask => creditsOf tid q ((t.inQ q).lines.take (bitList 4 lmask).length)
  | .qtos n q _ _ _ => creditsOf tid q ((t.inQ q).lines.take n)
  | _ => []

end Sys2Proof.Machine
end

