-- ==== Sys2Proof/Machine/ScalarOps.lean ====
section
/-!
DEFINITION. Machine/ScalarOps.lean: the CT slot (R86 to R89) and the NX slot (R84, R85, R367).
-/
namespace Sys2Proof.Machine

/-! ### Scalars (R86) -/

/-- CT.ALU's function on two words. -/
def aluFn (fn a b : Nat) : Nat :=
  let x := toSigned 32 a
  let y := toSigned 32 b
  match fn with
  | 0 => (a + b) % 2 ^ 32
  | 1 => (a + 2 ^ 32 - b % 2 ^ 32) % 2 ^ 32
  | 2 => a &&& b
  | 3 => a ||| b
  | 4 => a ^^^ b
  | 5 => a * 2 ^ (b % 32) % 2 ^ 32
  | 6 => a / 2 ^ (b % 32)
  | 7 => ofSigned 32 (x / (2 ^ (b % 32) : Nat))
  | 8 => a * b % 2 ^ 32
  | 9 => if x ≤ y then a else b
  | 10 => if x ≥ y then a else b
  | 11 => ofBool (x < y)
  | 12 => ofBool (a < b)
  | _ => 0

/-- CT.BR's condition (R86). -/
def brCond (cond a b : Nat) : Bool :=
  let x := toSigned 32 a
  let y := toSigned 32 b
  match cond with
  | 0 => a == b
  | 1 => a != b
  | 2 => x < y
  | 3 => x ≥ y
  | 4 => a < b
  | 5 => a ≥ b
  | 6 => true
  | _ => false

/-- Iterations of loop `l` completed: of its present run, or of its last one (R86). -/
def Tile.loopDone (t : Tile) (l : Nat) : Nat :=
  match t.loops.find? (fun x => x.l == l) with
  | some x => x.done
  | none => SMap.getD t.doneLoops l 0

/-- The landing and result of a scalar instruction. -/
def scalarPlan (t : Tile) (lat sd v : Nat) : Plan :=
  { lands := [⟨t.cyc + lat, 2, sd, 2⟩], acts := [(t.cyc + lat, .s sd (BitVec.ofNat 32 v))] }

/-- Whether bundle `b` is one of the last `n` + 1 of an active loop. -/
def Tile.nearEnd (t : Tile) (b n : Nat) : List LoopSt :=
  t.loops.filter (fun x => x.last ≤ b + n && b ≤ x.last)

/-- The control violations of R87 and R88 in bundle `b`. -/
def ctBad (t : Tile) (b : Nat) (i : Ct) : Bool :=
  match i with
  | .br _ _ _ target => t.delay > 0 || target ≥ t.bundles || !(t.nearEnd b 3).isEmpty
  | .loop l _ e =>
    t.delay > 0 || e < b + 4 || t.loops.any (fun x => x.l == l || e > x.last)
      || (t.nearEnd b 2).any (fun x => e > x.last)
  | .done => t.delay > 0 || !(t.nearEnd b 2).isEmpty
  | _ => false

/-- The plan of the CT slot of bundle `b`. -/
def ctPlan (t : Tile) (b : Nat) (i : Ct) : Plan :=
  match i with
  | .illegal => { traps := [trapIllegal] }
  | .trap code => { traps := [code] }
  | .li sd imm hi =>
    scalarPlan t 1 sd
      (if hi then imm * 65536 + (t.sreg sd).toNat % 65536 else ofSigned 32 (toSigned 16 imm))
  | .alu sd sa sb fn =>
    scalarPlan t (if fn = 8 then 3 else 1) sd (aluFn fn (t.sreg sa).toNat (t.sreg sb).toNat)
  | .addi sd sa imm =>
    scalarPlan t 1 sd (((t.sreg sa).toNat + ofSigned 32 (toSigned 16 imm)) % 2 ^ 32)
  | .rdl sd l => scalarPlan t 1 sd (t.loopDone l)
  | _ => if ctBad t b i then { traps := [trapControl] } else {}

/-! ### The order of fetch (R87, R88) -/

/-- What CT.BR, CT.LOOP and CT.END change as bundle `b` issues. -/
def ctStart (t : Tile) (b : Nat) (i : Ct) : Tile :=
  match i with
  | .br sa sb cond target =>
    { t with delay := 4,
             redirect := if brCond cond (t.sreg sa).toNat (t.sreg sb).toNat then some target
               else none }
  | .loop l sc e =>
    let n := (t.sreg sc).toNat
    { t with delay := 4,
             doneLoops := SMap.put t.doneLoops l 0,
             pendLoop := if n = 0 then none else some ⟨l, b + 4, e, n, 0⟩,
             redirect := if n = 0 then some (e + 1) else none }
  | .done => { t with fetchEnd := true }
  | _ => t

/-- The loops, innermost first, as bundle `b` issues: each whose END is `b` counts an iteration,
and the next one outward is tested only when it is exhausted. Answers the loops left, the ones
exhausted, and where the fetch goes. -/
def stepLoops (b : Nat) : List LoopSt → List LoopSt × List LoopSt × Nat
  | [] => ([], [], b + 1)
  | x :: xs =>
    if x.last = b then
      if x.done + 1 < x.trips then ({ x with done := x.done + 1 } :: xs, [], x.start)
      else
        let r := stepLoops b xs
        (r.1, { x with done := x.done + 1 } :: r.2.1, r.2.2)
    else (x :: xs, [], b + 1)

/-- The program counter after bundle `b` has issued: loops are tested, and the third delay slot
hands over to the branch target or to the loop body. -/
def flow (t : Tile) (b : Nat) : Tile :=
  let r := stepLoops b t.loops
  let t : Tile := { t with
    loops := r.1, pc := r.2.2,
    doneLoops := r.2.1.foldl (fun m x => SMap.put m x.l x.done) t.doneLoops }
  if t.delay = 0 then t
  else if t.delay = 1 then
    { t with
      delay := 0, redirect := none, pendLoop := none,
      pc := t.redirect.getD t.pc,
      loops := match t.pendLoop with
        | some l => l :: t.loops
        | none => t.loops }
  else { t with delay := t.delay - 1 }

/-! ### The NX slot (R84) -/

/-- The fields of a route entry (R93). -/
def routeOf (e : Nat) : Route :=
  { tile := bitsOf e 0 11, queue := bitsOf e 12 4, remote := bitOf e 16, x := bitsOf e 24 8,
    y := bitsOf e 32 8, path := bitsOf e 40 16 }

/-- The valid route entry of a number. -/
def Tile.route (t : Tile) (r : Nat) : Option Route :=
  let e := SMap.getD t.routes r 0
  if bitOf e 63 then some (routeOf e) else none

/-- The traps of the NX slot. -/
def nxTraps (t : Tile) (i : Nx) : List Nat :=
  match i with
  | .illegal => [trapIllegal]
  | .send _ r _ _ _ => if t.route r == none then [trapQueue] else []
  | .sig r => if t.route r == none then [trapQueue] else []
  | _ => []

/-- The class of the wait of NX.WAIT when its check fails (R84, R109). -/
def nxWait (t : Tile) (i : Nx) : Option Cause :=
  match i with
  | .wait e sb =>
    if t.evc e < (t.sreg sb).toNat then some (SMap.getD t.evSrc e causeNoc) else none
  | _ => none

/-- What an issue asks of the world outside the tile. -/
inductive Eff where
  /-- a pop returns a credit to tile `sender`, for its queue key (R367) -/
  | credit (sender key : Nat)
  /-- NX.COLL posts an entry of the collective table (R230) -/
  | coll (entry e arg : Nat)
  /-- NX.HEVT signals a host event (R254) -/
  | hevt (event : Nat)
  /-- CT.PHASE posts a hint (R271) -/
  | phase (cls lead : Nat)
  deriving DecidableEq, Repr

/-- What the NX slot changes at once as it issues: sends and signals are handed to the router. A send comes after
a WRITE of the same bundle on the same outbound queue (DESIGN CHOICE, log entry 189). -/
def nxStart (t : Tile) (i : Nx) : Tile :=
  match i with
  | .send o r n csrc sc =>
    let n := if csrc then (t.sreg sc).toNat else n
    match t.route r with
    | some rt =>
      if n = 0 then t
      else
        let q := t.outQ o
        t.setOutQ o { q with sends := q.sends ++ [⟨t.nextSeq + 1, rt, n⟩] }
    | none => t
  | .sig r =>
    match t.route r with
    | some rt => { t with sigs := t.sigs ++ [⟨rt, t.nextSeq + 1⟩] }
    | none => t
  | .wait e sb => { t with ev := SMap.put t.ev e (t.evc e - (t.sreg sb).toNat) }
  | _ => t

def nxEffects (t : Tile) (i : Nx) : List Eff :=
  match i with
  | .coll entry e sa => [.coll entry e (t.sreg sa).toNat]
  | .hevt event => [.hevt event]
  | _ => []

def ctEffects (i : Ct) : List Eff :=
  match i with
  | .phase cls lead => [.phase cls lead]
  | _ => []

end Sys2Proof.Machine
end

