-- ==== Sys2Proof/Machine/Issue.lean ====
section
/-!
DEFINITION. Machine/Issue.lean: one tile cycle: results that come about in it, the bundle's trap
conditions and checks, and its issue (R64, R67, R68, R70, R91, R95, R97, R106 to R109).
-/
namespace Sys2Proof.Machine

/-! ### Results that come about (R67, R77) -/

/-- A stream-mover command is accepted by its channel; a stopped channel discards it. -/
def acceptCmd (t : Tile) (c : Nat) (m : MCmd) : Tile :=
  let ch := t.chan c
  if ch.stopped then t.setChan c { ch with dropped := ch.dropped ++ [m] }
  else { t.setChan c { ch with cmds := ch.cmds ++ [m] } with cmdCount := sat32 (t.cmdCount + 1) }

/-- The 64-byte line of data SRAM at an address. -/
def Tile.line (t : Tile) (a : Nat) : List Byte := memBytes t.data a 64

/-- One agenda entry comes about. -/
def doAct (t : Tile) (p : Pend) : Tile :=
  match p.act with
  | .v n mask lanes flags => (t.setV n mask lanes).raiseFlags flags
  | .p n mask bits => t.setP n mask bits
  | .s n val => t.setS n val
  | .acw bank row vals => t.setAccRow bank row vals
  | .row run i => doRow t run i
  | .act run k a => { t with bufs := SMap.put t.bufs (1024 * run + k) (t.line a) }
  | .ldw a =>
    { t with shadow := t.shadow.map (fun b => { b with bytes := b.bytes ++ memBytes t.data a 128 }) }
  | .store a bytes _ => t.storeData a bytes
  | .vldRead id k a => { t with bufs := SMap.put t.bufs (1024 * id + k) (t.line a) }
  | .vldLand id n lmask _ =>
    let ln (k : Nat) : List Byte := SMap.getD t.bufs (1024 * id + k) (List.replicate 64 0)
    let t' := t.setV n ((bitList 4 lmask).foldl (fun m k => m + byteMask (64 * k) 64) 0)
      (lanesOf 64 (ln 0 ++ ln 1 ++ ln 2 ++ ln 3))
    { t' with bufs := SMap.drop t.bufs (fun k => k / 1024 == id) }
  | .push o bytes _ => t.setOutQ o { t.outQ o with lines := (t.outQ o).lines ++ [bytes] }
  | .stoq o a =>
    { t with agenda := t.agenda ++ [⟨p.due + 1, p.bundle, p.slot, .push o (t.line a) (some (a / 64))⟩] }
  | .accept c m => acceptCmd t c m

/-- Whether an entry is an array result row. -/
def Act.isRow : Act → Bool
  | .row _ _ => true
  | _ => false

/-- Whether an entry reads a line of the tile's SRAM and does nothing else. -/
def Act.isRead : Act → Bool
  | .act _ _ _ | .ldw _ | .vldRead _ _ _ | .stoq _ _ => true
  | _ => false

/-- Whether an entry writes a register of the V, P or S file. -/
def Act.isReg : Act → Bool
  | .v _ _ _ _ | .p _ _ _ | .s _ _ | .vldLand _ _ _ _ => true
  | _ => false

/-- The entries of the agenda that satisfy `f` come about, in the order they stand. -/
def comeAbout (t : Tile) (f : Pend → Bool) : Tile :=
  (t.agenda.filter f).foldl doAct { t with agenda := t.agenda.filter (fun p => !f p) }

/-- Before the tile issues in its present cycle: all that is due, but for the array rows that
land in this very cycle (R52), and for the reads of the cycle, which are made as it goes by unfrozen (R106). A
store that is due in the cycle of a clash lands, though its bundle traps (R36, R91; DESIGN CHOICE, log entry
134). -/
def startCycle (t : Tile) : Tile :=
  comeAbout t (fun p => p.due < t.cyc || (p.due == t.cyc && !p.act.isRow && !p.act.isRead))

/-- After the tile has issued: the reads of the cycle, and what the issue itself does in it. -/
def endCycle (t : Tile) : Tile := comeAbout t (fun p => p.due ≤ t.cyc && !p.act.isRow)

/-- One unfrozen cycle ends. -/
def nextCycle (t : Tile) (duty : Nat) : Tile := { (endCycle t).tick duty with cyc := t.cyc + 1 }

/-- The entries due in cycle `d` come about: what the cycle finds at its start, then the array rows
that land in it (R50, R52). -/
def comeDue (t : Tile) (d : Nat) : Tile :=
  comeAbout (comeAbout t (fun p => p.due == d && !p.act.isRow)) (fun p => p.due == d)

/-- The entry due first. -/
def firstDue : List Pend → Option Nat
  | [] => none
  | p :: ps =>
    match firstDue ps with
    | none => some p.due
    | some d => some (min p.due d)

/-- In-flight work settles: all entries of the agenda come about in the order of their cycles. -/
def settleLoop : Nat → Tile → Tile
  | 0, t => t
  | n + 1, t =>
    match firstDue t.agenda with
    | none => t
    | some d =>
      settleLoop n (comeDue { t with cyc := max d t.cyc } d)

/-- As `settleLoop`, with as many rounds as the agenda can need. -/
def settle (t : Tile) : Tile := settleLoop (2 * t.agenda.length) t

/-! ### A bundle's conditions -/

/-- The plans of a bundle's slots and their conditions. -/
structure Checked where
  mx : Plan
  vx : Plan
  sm : Plan
  ct : Plan
  /-- trap conditions: code and slot bit -/
  traps : List (Nat × Nat)
  /-- classes of the checks that fail -/
  waits : List Cause

/-- The bit of `TRAP_SLOTS` of each slot (R90). -/
def slotBit (i : Nat) : Nat := 2 ^ i

/-- The conditions of bundle `b` at the tile's present cycle (R64, R68, R36, R78). A clash of the MX
and SM slots of one bundle is the SM slot's, and an access that its own address, format or ports
refuse books neither port nor bank (DESIGN CHOICE, log entry 134). -/
def checkBundle (t : Tile) (tid b : Nat) (i : Bundle) : Checked :=
  let mx := mxPlan t i.mx
  let vx := vxPlan t i.vx
  let sm := smPlan t i.sm
  let ct := ctPlan t b i.ct
  let on (k : Nat) (cs : List Nat) : List (Nat × Nat) := cs.map (fun c => (c, slotBit k))
  { mx, vx, sm, ct,
    traps :=
      on 0 (mx.traps ++ memClash t.resv mx.mem)
        ++ on 1 (vx.traps ++ landClash t.lands vx.lands)
        ++ on 2 (sm.traps ++ memClash (mx.mem ++ t.resv) sm.mem
            ++ landClash (vx.lands ++ t.lands) sm.lands)
        ++ on 3 (nxTraps t i.nx)
        ++ on 4 (ct.traps ++ landClash (vx.lands ++ t.lands) ct.lands),
    waits := (smWait t tid i.sm).toList ++ (nxWait t i.nx).toList }

/-- The conditions of the fetch at `b` (R70, R82, R88). -/
def fetchTraps (t : Tile) (b : Nat) : List (Nat × Nat) :=
  (if t.misroute then [(trapMisroute, 0)] else [])
    ++ (if t.loops.any (fun l => b < l.start || b > l.last) then [(trapControl, 0)] else [])

/-- The trap of R91 is taken at bundle `b`. What has come about in the cycle stays: a store of an earlier bundle
that is due in it lands, also where the trap is a clash of R36 (DESIGN CHOICE, log entry 134). -/
def takeTrap (t : Tile) (b : Nat) (traps : List (Nat × Nat)) : Tile :=
  { t with
    trapBundle := b % 4096,
    trapSlots := traps.foldl (fun m c => m ||| c.2) 0,
    trapCause := lowestCode (traps.map Prod.fst),
    fetchEnd := true, trapping := true, hold := none, retry := [], misroute := false,
    frozen := false }

/-- Agenda entries of a plan. -/
def pends (b slot : Nat) (p : Plan) : List Pend := p.acts.map (fun a => ⟨a.1, b, slot, a.2⟩)

/-- Bundle `b` issues: it takes effect, the fetch moves on, and the cycle ends. -/
def issueNow (t : Tile) (tid b duty : Nat) (i : Bundle) (c : Checked) : Tile × List Eff :=
  let effs := (smCredits t tid i.sm).map (fun k => Eff.credit k.1 k.2)
    ++ nxEffects t i.nx ++ ctEffects i.ct
  let t1 := ctStart (nxStart (smStart (mxStart t i.mx) i.sm) i.nx) b i.ct
  let t2 := { t1 with
    agenda := t1.agenda ++ pends b 0 c.mx ++ pends b 1 c.vx ++ pends b 2 c.sm ++ pends b 4 c.ct,
    resv := t.resv.filter (fun u => u.1 > t.cyc) ++ c.mx.mem ++ c.sm.mem,
    lands := t.lands.filter (fun l => l.cycle > t.cyc) ++ c.vx.lands ++ c.sm.lands ++ c.ct.lands,
    nextId := t.nextId + 2, nextSeq := t.nextSeq + 2, hold := none }
  (nextCycle (flow t2 b) duty |>.countRun, effs)

/-- A tile cycle in which the bundle at `b` may issue: a trap, a wait, or the issue. `passed` says
that the checks have passed and are not made again (R108). -/
def tryIssue (t : Tile) (tid b duty : Nat) (i : Bundle) (passed : Bool) : Tile × List Eff :=
  let c := checkBundle t tid b i
  let traps := fetchTraps t b ++ c.traps
  if !traps.isEmpty then (takeTrap t b traps, [])
  else if !passed && !c.waits.isEmpty then
    (({ t with hold := some ⟨b, i, false, []⟩ }.countFrozen (firstCause c.waits)).tick duty, [])
  else issueNow t tid b duty i c

/-- Whether the bundle at `b` would issue without a trap and without a wait. -/
def wouldIssue (t : Tile) (tid b : Nat) (i : Bundle) : Bool :=
  let c := checkBundle t tid b i
  (fetchTraps t b ++ c.traps).isEmpty && c.waits.isEmpty

def wouldTrap (t : Tile) (tid b : Nat) (i : Bundle) : Bool :=
  !(fetchTraps t b ++ (checkBundle t tid b i).traps).isEmpty

/-- The bundle at index `b` of instruction SRAM (R38). -/
def Tile.bundleAt (t : Tile) (b : Nat) : Bundle :=
  decodeBundle (leNat (memBytes t.code (32 * b) 32)) t.minor

/-- Whether the tile is between two bundles of its schedule, in a cycle that may issue. -/
def Tile.ready (t : Tile) : Bool :=
  t.runState == 2 && t.retry.isEmpty && !isPacing t.duty t.phase

/-! ### Lines that fail (R108, R290) -/

/-- A read of a line: its key, and the slot and bundle that make it, its port and its channel. -/
structure LineRead where
  key : Nat
  slot : Nat
  bundle : Nat
  port : Nat := 4
  chan : Option Nat := none

/-- Vector registers that an instruction of the VX slot reads (R74, R75). -/
def vxSources (o : VxOpc) (f : VxF) : List Nat :=
  match o with
  | .plog | .splat | .iota | .acrd => []
  | .fma | .fnma => [f.va, f.vb, f.vc]
  | .cvt => if f.f2 = 0 then [f.va] else if f.f2 = 1 || f.f2 = 2 then [f.va, f.vb] else [f.va, f.vd]
  | .cvtfmx => [f.va, f.vb]
  | .cvtmx => [f.va, f.vd, f.vc]
  | .add | .sub | .mul | .max | .min | .cmp | .sel | .and | .or | .xor | .shl | .shr | .sra
  | .perm => [f.va, f.vb]
  | _ => [f.va]

/-- The keys of the lines of a vector register. -/
def vregKeys (n : Nat) : List Nat := (List.range 4).map (fun k => badKey 28 (256 * n + 64 * k))

/-- The keys of the two halves of a row of an accumulator. -/
def accKeys (bank row : Nat) : List Nat :=
  [badKey (26 + bank) (128 * row), badKey (26 + bank) (128 * row + 64)]

/-- The reads that the slots of bundle `b` make as it issues. -/
def issueReads (t : Tile) (b : Nat) (i : Bundle) : List LineRead :=
  let mx := match i.mx with
    | .ldw f => if isMx f.wfmt then (vregKeys f.vs).take 2 else []
    | .run f => if isMx f.afmt then (List.range 4).flatMap (fun k => vregKeys (f.vs + k)) else []
    | _ => []
  let vx := match i.vx with
    | .op .acrd f => (List.range 2).flatMap (fun k => accKeys (f.x / 128 % 2) (2 * (f.x % 128) + k))
    | .op o f => (vxSources o f).flatMap vregKeys
    | _ => []
  let sm := match i.sm with
    | .vst va _ _ _ m => (bitList 4 m).map (fun k => badKey 28 (256 * va + 64 * k))
    | .vtoq va _ m => (bitList 4 m).map (fun k => badKey 28 (256 * va + 64 * k))
    | _ => []
  mx.map (fun k => ⟨k, 0, b, 4, none⟩) ++ vx.map (fun k => ⟨k, 1, b, 4, none⟩)
    ++ sm.map (fun k => ⟨k, 2, b, 4, none⟩)
    ++ (match i.sm with
      | .ch f => [⟨sramAddr (t.sreg f.sb) f.loff / 64, 2, b, f.port, some f.ch⟩]
      | _ => [])

/-- The reads of an entry of the agenda. -/
def pendReads (t : Tile) (p : Pend) : List LineRead :=
  let keys : List Nat := match p.act with
    | .act _ _ a | .vldRead _ _ a | .stoq _ a => [a / 64]
    | .ldw a => [a / 64, a / 64 + 1]
    | .row run i =>
      match t.runs.find? (fun (r : Run) => r.id == run) with
      | some r => if r.add then accKeys r.bank (r.r0 + i) else []
      | none => []
    | _ => []
  keys.map (fun k => ⟨k, p.slot, p.bundle, 4, none⟩)

/-- The reads that the entries `ps` of the agenda make in the present cycle. -/
def agendaReads (t : Tile) (ps : List Pend) : List LineRead :=
  (ps.filter (fun p => p.due == t.cyc)).flatMap (pendReads t)

/-- The line of instruction SRAM that the fetch of bundle `b` reads. -/
def fetchRead (b : Nat) : LineRead := ⟨(0x180000 + 32 * b) / 64, 5, b, 4, none⟩

/-- The reads among `rs` of lines that have failed for good and that nothing has written since: they
fail again (R290). -/
def badHits (t : Tile) (rs : List LineRead) : List ParHit :=
  rs.filterMap (fun r => (SMap.find t.bad r.key).map (fun h =>
    { h with slot := r.slot, bundle := r.bundle, chan := r.chan, port := r.port }))

/-- Whether work in flight is to read a line that fails. -/
def Tile.readsBad (t : Tile) : Bool := !(badHits t (t.agenda.flatMap (pendReads t))).isEmpty

/-- Every read of the cycle in which bundle `b` issues: its own, and those of work in flight. -/
def cycleReads (t : Tile) (tid b : Nat) (i : Bundle) : List LineRead :=
  let u := startCycle t
  let c := checkBundle u tid b i
  issueReads u b i ++ agendaReads t (t.agenda ++ pends b 0 c.mx ++ pends b 2 c.sm)

/-- The errors among `par` that the fetch of the bundle at the program counter meets. -/
def fetchHits (t : Tile) (par : List ParHit) : List ParHit :=
  par.filter (fun h => h.slot == 5 && h.bundle == t.pc) ++ badHits t [fetchRead t.pc]

/-- The errors among `par` that the other reads `rs` of a cycle meet. -/
def readHits (t : Tile) (par : List ParHit) (rs : List LineRead) : List ParHit :=
  par.filter (fun h => h.slot != 5) ++ badHits t rs

/-- Whether a tile fetches a bundle that would issue in its present cycle. -/
def fetchIssues (t : Tile) (tid : Nat) : Bool :=
  !t.fetchEnd && decide (t.pc < t.bundles) && wouldIssue (startCycle t) tid t.pc (t.bundleAt t.pc)

/-- The cycle is followed by the retry of its reads that met bad parity; a trap or a wait makes none. Where the
fetch of the bundle that would issue next meets it too, its retry would begin in the same cycle: one retry
repeats all, and the bundle issues behind it (R108, R290). -/
def withRetry (r : Tile × List Eff) (tid : Nat) (hits par : List ParHit) : Tile × List Eff :=
  let t := r.1
  let fetch := fetchHits t par
  if t.trapping || t.hold.isSome then r
  else if hits.isEmpty || fetch.isEmpty || !fetchIssues t tid then ({ t with retry := hits }, r.2)
  else ({ t with retry := hits ++ fetch, hold := some ⟨t.pc, t.bundleAt t.pc, true, []⟩ }, r.2)

/-- A tile cycle that issues bundle `i` at the program counter. Parity errors of the fetch hold the
bundle back, after any wait of its own, in frozen cycles, in which no read is made; those of the cycle's other
reads are retried after it (R106, R108, R290). -/
def bundleCycle (t0 : Tile) (tid duty : Nat) (i : Bundle) (par : List ParHit) : Tile × List Eff :=
  let t := startCycle t0
  if t.pc ≥ t.bundles then (takeTrap t t.pc ((trapPcRange, 0) :: fetchTraps t t.pc), [])
  else
    let fetch := fetchHits t par
    if fetch.isEmpty || wouldTrap t tid t.pc i then
      withRetry (tryIssue t tid t.pc duty i false) tid (readHits t par (cycleReads t0 tid t.pc i)) par
    else if wouldIssue t tid t.pc i then
      ({ t with hold := some ⟨t.pc, i, true, []⟩, retry := fetch }, [])
    else
      let r := tryIssue t tid t.pc duty i false
      ({ r.1 with hold := r.1.hold.map (fun h => { h with par := fetch }) }, r.2)

/-- A cycle with no fetch, while work issued before CT.END or a trap settles. -/
def drainCycle (t : Tile) (duty : Nat) : Tile := nextCycle (startCycle t) duty

/-- A cycle of a tile whose bundle waits: it issues when its checks pass, after the retry of its
fetch where that met bad parity; else one more frozen cycle is counted under the class of R109. The reads of work
in flight are made in the cycle that issues (R106). -/
def waitCycle (t0 : Tile) (tid duty : Nat) (h : Hold) (par : List ParHit) : Tile × List Eff :=
  let t := startCycle t0
  if !h.passed && !h.par.isEmpty && wouldIssue t tid h.bundle h.slots then
    ({ t with hold := some { h with passed := true, par := [] }, retry := h.par }, [])
  else
    let r := tryIssue t tid h.bundle duty h.slots h.passed
    if r.1.hold.isSome then ({ r.1 with hold := some { h with passed := false } }, r.2)
    else withRetry r tid (readHits t par (cycleReads t0 tid h.bundle h.slots)) par

end Sys2Proof.Machine
end

