-- ==== Sys2Proof/Machine/Ops.lean ====
section
/-!
DEFINITION. Machine/Ops.lean: the named operations over the package: register fields, interrupts
and their delivery (R341, R345 to R347), the yield map (R32, R315), Districts (R25, R244), and
the checks of a request (R22 to R24, R26).
-/
namespace Sys2Proof.Machine

/-! ### Register fields -/

/-- The bit number in BAR0 of entry `i` of a field of a page. -/
def fkey (p : PageId) (f : Fld) (i : Nat) : Nat :=
  8 * (p.base + f.off) + f.lo + i / f.cnt2 * f.str + i % f.cnt2 * f.str2

/-- Reset values that depend on the page (R297, R335): ENABLE and STATE, ON but for the pages whose
chapter gives a start (DESIGN CHOICE, log entry 35). -/
def hdrReset (p : PageId) (f : Fld) : Nat :=
  let on := match p.kind with
    | .cmdproc | .cdie | .oe | .hdr => false
    | _ => true
  if f = HDR_ENABLE then ofBool on
  else if f = HDR_STATE then (if on then 2 else 0)
  else f.reset

/-- The value a field holds at reset. -/
def fieldReset (p : PageId) (f : Fld) : Nat := if f.page = .hdr then hdrReset p f else f.reset

/-- The value entry `i` of a field holds at reset: the default allocation of R182 for `TARGET`. -/
def fieldResetAt (p : PageId) (f : Fld) (i : Nat) : Nat :=
  if f = CROSSING_TARGET then 0x80 + i / 2 * 4 + i % 2 else fieldReset p f

/-- The value of entry `i` of a register field. -/
def rd (s : State) (p : PageId) (f : Fld) (i : Nat := 0) : Nat :=
  SMap.getD s.regs (fkey p f i) (fieldResetAt p f i)

/-- The register file with entry `i` of a field set; a field at its reset value is unlisted. -/
def wr (s : State) (p : PageId) (f : Fld) (v : Nat) (i : Nat := 0) : State :=
  let x := v % 2 ^ f.wid
  { s with regs := if x = fieldResetAt p f i then SMap.del s.regs (fkey p f i)
      else SMap.put s.regs (fkey p f i) x }

/-- A counter that saturates at its field's largest value (R292). -/
def bump (s : State) (p : PageId) (f : Fld) (n : Nat := 1) (i : Nat := 0) : State :=
  wr s p f (min (2 ^ f.wid - 1) (rd s p f i + n)) i

/-- A 64-bit counter held as a `_LO` and `_HI` pair. -/
def bump64 (s : State) (p : PageId) (lo hi : Fld) (n : Nat := 1) : State :=
  let v := rd s p lo + 2 ^ 32 * rd s p hi + n
  wr (wr s p lo v) p hi (v / 2 ^ 32)

/-- The pages that come one to the package. -/
def plazaP : PageId := ⟨.plaza, 0⟩
def duskP : PageId := ⟨.dusk, 0⟩
def secP : PageId := ⟨.sec, 0⟩
def fuseP : PageId := ⟨.fuse, 0⟩
def pkgswP : PageId := ⟨.pkgsw, 0⟩
def pwrP : PageId := ⟨.pwr, 0⟩
def thermP : PageId := ⟨.therm, 0⟩
def bistP : PageId := ⟨.bist, 0⟩
def dawnP : PageId := ⟨.dawn, 0⟩
def topoP : PageId := ⟨.topo, 0⟩
/-- The pages that come in instances. -/
def hostportP (i : Nat) : PageId := ⟨.hostport, i⟩
def districtP (i : Nat) : PageId := ⟨.district, i⟩
def cmdprocP (i : Nat) : PageId := ⟨.cmdproc, i⟩
def cdieP (i : Nat) : PageId := ⟨.cdie, i⟩
def d2dP (i : Nat) : PageId := ⟨.d2d, i⟩
def oeP (i : Nat) : PageId := ⟨.oe, i⟩
def blvdP (i : Nat) : PageId := ⟨.blvd, i⟩
def crossingP (i : Nat) : PageId := ⟨.crossing, i⟩
def alleyP (i : Nat) : PageId := ⟨.alley, i⟩
def collP (i : Nat) : PageId := ⟨.coll, i⟩
def tileP (n : Nat) : PageId := ⟨.tile, n⟩
def sliceP (n : Nat) : PageId := ⟨.slice, n⟩
def engineP (n : Nat) : PageId := ⟨.engine, n⟩
def moverP (n : Nat) : PageId := ⟨.mover, n⟩

/-! ### Units of State -/

def tile (s : State) (n : Nat) : Tile := SMap.getD s.tiles n {}
def setTile (s : State) (n : Nat) (t : Tile) : State := { s with tiles := SMap.put s.tiles n t }
def slice (s : State) (n : Nat) : Slice := SMap.getD s.slices n {}
def setSlice (s : State) (n : Nat) (x : Slice) : State :=
  { s with slices := SMap.put s.slices n x }
def proc (s : State) (d : Nat) : Proc := SMap.getD s.procs d {}
def setProc (s : State) (d : Nat) (x : Proc) : State := { s with procs := SMap.put s.procs d x }
def dom (s : State) (i : Nat) : Dom := SMap.getD s.dusk.dom i {}
def setDom (s : State) (i : Nat) (x : Dom) : State :=
  { s with dusk := { s.dusk with dom := SMap.put s.dusk.dom i x } }

/-- Something leaves the package. -/
def emit (s : State) (o : Out) : State := { s with sent := s.sent ++ [o] }

/-- A free number (log entry 3), and the state that has drawn it. -/
def freeNat (s : State) : Nat × State :=
  (Config.freeNat s.fresh, { s with fresh := s.fresh + 1 })

def freeWord (s : State) : Word × State :=
  (Config.freeWord s.fresh, { s with fresh := s.fresh + 1 })

def freeBool (s : State) : Bool × State :=
  (Config.freeBool s.fresh, { s with fresh := s.fresh + 1 })

/-! ### Fuses -/

/-- The bitwise majority of three copies (R320). -/
def maj3 (a b c : Nat) : Nat := (a &&& b) ||| (a &&& c) ||| (b &&& c)

/-- The package's serial number. -/
def pkgSerial (s : State) : Nat := maj3 s.sensed.c0.serial s.sensed.c1.serial s.sensed.c2.serial

/-! ### The yield map (R32, R315) -/

/-- The tile-bad bits of a row that either fuse copy holds. -/
def fuseBad (s : State) (die row : Nat) : Nat :=
  SMap.getD s.sensed.bad0 (16 * die + row) 0 ||| SMap.getD s.sensed.bad1 (16 * die + row) 0

/-- The bad mask of a row: the union of R316. -/
def badMask (s : State) (die row : Nat) : Nat :=
  let i := 16 * die + row
  fuseBad s die row ||| rd s bistP BIST_BIST_BAD i ||| rd s bistP BIST_RECORD_BAD i
    ||| rd s bistP BIST_LATE_BAD i

/-- How many columns of a row are bad. -/
def badCount (s : State) (die row : Nat) : Nat := popCount 32 (badMask s die row)

/-- The logical tiles of a row: 30, or 32 − b when b > 2. -/
def rowTiles (s : State) (die row : Nat) : Nat := min 30 (32 - badCount s die row)

/-- The good physical columns of a row, ascending. -/
def goodCols (s : State) (die row : Nat) : List Nat :=
  let m := badMask s die row
  (List.range 32).filter (fun c => !bitOf m c)

/-- The physical column of logical column `l`. -/
def physCol (s : State) (die row l : Nat) : Nat := (goodCols s die row).getD l l

/-- The row and the logical column of a logical tile id. -/
def tileRow (n : Nat) : Nat := n % 480 / 30
def tileCol (n : Nat) : Nat := n % 30
/-- The quarter-die of a logical tile id (R25). -/
def tileQdie (n : Nat) : Nat := n / 120

/-- Whether the yield map covers a die. -/
def dieMapped (s : State) (die : Nat) : Bool := s.dawn.mapFormed && bitOf s.dawn.mapDies die

/-- Whether a logical tile exists (R32). A die over which the map was not formed, fenced or held before, has
none (DESIGN CHOICE, log entry 160). -/
def tileExists (s : State) (n : Nat) : Bool :=
  n < 1920 && dieMapped s (tileDie n) && tileCol n < rowTiles s (tileDie n) (tileRow n)

/-- The logical tiles of a die that exist. -/
def dieTiles (s : State) (die : Nat) : List Nat :=
  (List.range 480).filterMap (fun i =>
    let n := 480 * die + i
    if tileExists s n then some n else none)

/-! ### Fences -/

def tileFenced (s : State) (n : Nat) : Bool := rd s (tileP n) HDR_FENCED == 1
def dieFenced (s : State) (d : Nat) : Bool := rd s (cdieP d) HDR_FENCED == 1
/-- Whether a compute die is released and not fenced. -/
def dieUp (s : State) (d : Nat) : Bool := bitOf s.dawn.released d && !dieFenced s d
/-- Whether an optical engine is released and not fenced. -/
def oeUp (s : State) (e : Nat) : Bool := bitOf s.dawn.released (4 + e) && rd s (oeP e) HDR_FENCED == 0

/-! ### The flows of a link group (R17) -/

/-- The modules of a link group. -/
def groupModules (g : Nat) : Nat := if g < 4 then 24 else 12

/-- The state code of a module: 0 x64, 1 x32, 2 disabled, 3 training. -/
def modState (s : State) (g m : Nat) : Nat := rd s (d2dP g) D2D_STATE m

/-- A module runs at x32, or retrains to it. -/
def modHalf (s : State) (g m : Nat) : Bool := (SMap.find s.dawn.half (32 * g + m)).isSome

/-- The module that a flow hashes to: one of those enabled, a module at x32 with half the weight. -/
def hashModule (s : State) (g flow : Nat) : Option Nat :=
  let w := (List.range (groupModules g)).flatMap (fun m =>
    if modState s g m = 2 then [] else if modHalf s g m then [m] else [m, m])
  w[Config.flowHash flow % w.length]?

/-- The module that carries a flow across a link group: the one it was assigned to. -/
def flowModule (s : State) (g flow : Nat) : Option Nat :=
  (SMap.find s.dawn.flows (8 * flow + g)).orElse (fun _ => hashModule s g flow)

/-- Whether the package switch and a link group take new transfers: their blocks are ON (R297; DESIGN
CHOICE, log entry 52). -/
def groupOpen (s : State) (g : Nat) : Bool :=
  rd s pkgswP HDR_STATE == 2 && rd s (d2dP g) HDR_STATE == 2

/-- A flow is held at a link group while its module retrains (R18), or the group takes no new transfers.
What it had in the adapter's retry buffer then stands at its source, ahead of all that is newer. -/
def flowHeld (s : State) (g flow : Nat) : Bool :=
  !groupOpen s g || match flowModule s g flow with
  | some m => modState s g m == 3
  | none => false

/-- A flow that has no module yet is assigned the one it hashes to. -/
def assignFlow (s : State) (g flow : Nat) : State :=
  match flowModule s g flow with
  | some m => { s with dawn := { s.dawn with flows := SMap.put s.dawn.flows (8 * flow + g) m } }
  | none => s

/-- Whether one of several link groups holds a flow; and the flow takes its modules at each. -/
def crossHeld (s : State) (gs : List Nat) (flow : Nat) : Bool := gs.any (fun g => flowHeld s g flow)
def crossFlow (s : State) (gs : List Nat) (flow : Nat) : State := gs.foldl (fun s g => assignFlow s g flow) s

/-- Bits of the bytes of a transfer change. -/
def flipBytes (b : List Byte) (flips : List (Nat × Nat)) : List Byte :=
  flips.foldl (fun b f => b.set f.1 (b.getD f.1 0 ^^^ BitVec.ofNat 8 f.2)) b

/-- The bytes of a transfer of a flow as they come through a link group: corruption that passes the CRC-32
of its module's flits is found by nothing (R289). -/
def takeFlips (s : State) (g flow : Nat) (b : List Byte) : State × List Byte :=
  match flowModule s g flow with
  | none => (s, b)
  | some m =>
    match SMap.find s.dawn.flips (32 * g + m) with
    | none => (s, b)
    | some f =>
      ({ s with dawn := { s.dawn with flips := SMap.del s.dawn.flips (32 * g + m) } }, flipBytes b f)

/-- Bytes of a flow cross link groups: it takes its module at each. -/
def crossData (s : State) (gs : List Nat) (flow : Nat) (b : List Byte) : State × List Byte :=
  gs.foldl (fun r g => takeFlips (assignFlow r.1 g flow) g flow r.2) (s, b)

/-- A number of `k` bytes crosses link groups. -/
def crossNat (s : State) (gs : List Nat) (flow k v : Nat) : State × Nat :=
  let r := crossData s gs flow (leBytes k v)
  (r.1, leNat r.2)

/-- The flow between a source in the Plaza and tile `n` across its die's link group: a District's host and its
command processor 0–3, what the tile posts to the Plaza 8, credits that an optical engine brings 9, a
collective engine from 16 on. -/
def plazaFlow (src n : Nat) : Nat := 2 ^ 44 + 2 ^ 11 * src + n

/-- Whether the link group of a tile's die holds what a source in the Plaza exchanges with it; and that flow
takes its module. -/
def plazaHeld (s : State) (src n : Nat) : Bool := flowHeld s (tileDie n) (plazaFlow src n)
def plazaCross (s : State) (src n : Nat) : State := assignFlow s (tileDie n) (plazaFlow src n)

/-- Bytes, or a number of `k` bytes, cross between a source in the Plaza and a tile. -/
def plazaData (s : State) (src n : Nat) (b : List Byte) : State × List Byte :=
  crossData s [tileDie n] (plazaFlow src n) b
def plazaNat (s : State) (src n k v : Nat) : State × Nat :=
  crossNat s [tileDie n] (plazaFlow src n) k v

/-- The flows of a module are hashed again over the modules that are enabled. -/
def rehash (s : State) (g m : Nat) : State :=
  { s with dawn := { s.dawn with flows := s.dawn.flows.map (fun kv =>
      if kv.1 % 8 = g && kv.2 = m then (kv.1, (hashModule s g (kv.1 / 8)).getD m) else kv) } }

/-- The link groups between two dies. -/
def dieGroups (a b : Nat) : List Nat := if a = b then [] else [a, b]

/-! ### Districts -/

/-- The quarter-dies of a District that are not being scrubbed (R244, R245). -/
def qdieMask (s : State) (d : Nat) : Nat :=
  (s.scrubs.foldl (fun m x => clearBit m x.qdie) (rd s (districtP d) DISTRICT_QDIE_MASK))

/-- The District of a quarter-die, or 0xF. -/
def qdieOwner (s : State) (q : Nat) : Nat :=
  match (List.range 4).find? (fun d => bitOf (qdieMask s d) q) with
  | some d => d
  | none => 0xF

/-- The District of a tile, or 0xF. -/
def tileOwner (s : State) (n : Nat) : Nat := qdieOwner s (tileQdie n)

/-- The owning host's port (R242). -/
def ownerPort (s : State) : Nat := s.dawn.ownerSel

/-- The slice list of a District (R25). -/
def sliceList (s : State) (d : Nat) : List Nat :=
  let qs := bitList 16 (qdieMask s d)
  (List.range 120).flatMap (fun p => (qs.map (fun q => q * 120 + p)).filter (tileExists s))

/-! ### Interrupts (R341, R345, R346, R347) -/

/-- `INT_STATUS` of a page. -/
def intStatus (s : State) (p : PageId) : Nat :=
  rd s p HDR_INT_RAW &&& rd s p HDR_INT_ENABLE

/-- Whether what a per-tile page signals counts: its tile exists and its die is not fenced. -/
def pageCounts (s : State) (p : PageId) : Bool :=
  !p.kind.perTile || (tileExists s p.inst && !dieFenced s (tileDie p.inst))

/-- The pages that are pending, found among the listed fields. -/
def pendingPages (s : State) : List PageId :=
  s.regs.filterMap (fun kv =>
    if kv.1 % 32768 = 128 then
      match pageAt (kv.1 / 8) with
      | some p => if intStatus s p ≠ 0 && pageCounts s p then some p else none
      | none => none
    else none)

/-- The vector of a page (R334), with the function that gets it: 4 is the owning host's. -/
def pageVector (s : State) (p : PageId) : Option (Nat × Nat) :=
  match p.kind with
  | .plaza | .fuse | .hdr => none
  | .hostport | .district | .cmdproc => some (p.inst, 3)
  | .coll => some (p.inst / 8, 2)
  | .tile | .slice | .engine | .mover =>
    let d := tileOwner s p.inst
    if d = 0xF then some (ownerPort s, 4) else some (d, 2)
  | _ => some (ownerPort s, 4)

/-- Whether the summary of vector `v` of function `d` is nonzero. -/
def vecSummary (s : State) (d v : Nat) : Bool :=
  (pendingPages s).any (fun p => pageVector s p == some (d, v))
    || (v == 3 && rd s plazaP PLAZA_NOTICE_PEND d == 1)

/-- A vector's message: sent, or held in the pending-bit array while it is masked (R240, R347).
The owning host's vector 4 operates from Dawn stage 2. -/
def sendVector (s : State) (d v : Nat) : State :=
  let e := SMap.getD s.msix (8 * d + v) {}
  if !e.masked then
    let s := emit s (.msix d v e.addr e.data)
    if v < 2 then s
    else wr s plazaP PLAZA_IN_SERVICE (setBit (rd s plazaP PLAZA_IN_SERVICE d) v) d
  else { s with pba := SMap.put s.pba d (setBit (SMap.getD s.pba d 0) v) }

/-- One vector is delivered when its summary is nonzero and it is not in service. -/
def deliver1 (s : State) (d v : Nat) : State :=
  if vecSummary s d v && !bitOf (rd s plazaP PLAZA_IN_SERVICE d) v
      && !(v == 4 && rd s dawnP DAWN_STAGE < 2) then sendVector s d v else s

/-- Every vector of the interrupt tree is delivered. -/
def deliver (s : State) : State :=
  [2, 3, 4].foldl (fun s v => (List.range 4).foldl (fun s d => deliver1 s d v) s) s

/-- An event sets bit `b` of a page's `INT_RAW` (R341), and the tree delivers it. -/
def raise (s : State) (p : PageId) (b : Nat) : State :=
  deliver (wr s p HDR_INT_RAW (setBit (rd s p HDR_INT_RAW) b))

/-- The last-error code of a page. -/
def lastErr (s : State) (p : PageId) (code : Nat) : State := wr s p HDR_LAST_ERR code

/-- An error is logged: address, syndrome and last-error code in one cycle (R292). -/
def logErr (s : State) (p : PageId) (code lo hi synd : Nat) : State :=
  wr (wr (wr (wr s p HDR_LAST_ERR code) p HDR_ERR_ADDR_LO lo) p HDR_ERR_ADDR_HI hi)
    p HDR_ERR_SYNDROME synd

/-- Fields of a page cleared, its raw interrupts among them (R340). -/
def clearFields (s : State) (p : PageId) (fs : List Fld) : State :=
  deliver (fs.foldl (fun s f => wr s p f 0) s)

/-! ### Requests (R22 to R24, R26) -/

/-- What an internal address names. -/
inductive Target where
  | slice (n off : Nat)
  | sram (n off : Nat)
  | win (n off : Nat)
  | reg (off : Nat)
  deriving DecidableEq, Repr

/-- The error codes of R23 and R24. -/
def errUnmapped : Nat := 1
def errAccess : Nat := 2
def errFenced : Nat := 3
def errBusy : Nat := 4

/-- Whether an offset of a command window is mapped (R140). -/
def winMapped (o : Nat) : Bool :=
  o < 0x9000 || (0x10000 ≤ o && o < 0x18000) || (0xFFF00 ≤ o && o < 0x100000)

/-- The decode of R22 and R26 for a requester of District `d`. -/
def decodeAddr (s : State) (d a : Nat) : Option Target :=
  if a < sliceEnd then
    let off := a % 2 ^ 29
    if off < sliceBytes then some (.slice (a / 2 ^ 29) off) else none
  else if glbBase ≤ a ∧ a < glbEnd then
    if d ≥ 4 then none
    else
      let l := sliceList s d
      let n := l.length
      let o := a - glbBase
      let g := o / 4096
      if g ≥ n * rd s pkgswP PKGSW_DIST_GLB_SIZE d * 256 then none
      else some (.slice (l.getD (g % n) 0)
        (rd s pkgswP PKGSW_DIST_GLB_BASE d * 2 ^ 20 + g / n * 4096 + o % 4096))
  else if sramBase ≤ a ∧ a < sramEnd then
    let off := (a - sramBase) % 2 ^ 21
    if off < 0x1A0000 then some (.sram ((a - sramBase) / 2 ^ 21) off) else none
  else if winBase ≤ a ∧ a < winEnd then
    let off := (a - winBase) % 2 ^ 20
    if winMapped off then some (.win ((a - winBase) / 2 ^ 20) off) else none
  else if regBase ≤ a ∧ a < regEnd then some (.reg (a - regBase))
  else none

/-- The first error of R23 for a request of District `d` (0xF: the Plaza) to a tile's storage. -/
def tileError (s : State) (d n : Nat) : Nat :=
  if !tileExists s n then errUnmapped
  else if d ≠ 0xF && tileOwner s n ≠ d then errAccess
  else if tileFenced s n || dieFenced s (tileDie n) then errFenced
  else 0

/-- A request's target, or its error (R23). -/
def resolve (s : State) (d a : Nat) : Except Nat Target :=
  match decodeAddr s d a with
  | none => .error errUnmapped
  | some (.reg o) => .ok (.reg o)
  | some t =>
    let n := match t with
      | .slice n _ | .sram n _ | .win n _ => n
      | .reg _ => 0
    let e := tileError s d n
    if e = 0 then .ok t else .error e

/-- A request refused under R23 or R24: counted, logged and reported in the `PKGSW` page. -/
def refuse (s : State) (d a code : Nat) : State :=
  let s := if code = 1 then bump s pkgswP PKGSW_REFUSED_UNMAPPED
    else if code = 2 then bump s pkgswP PKGSW_REFUSED_ACCESS
    else if code = 3 then bump s pkgswP PKGSW_REFUSED_FENCED
    else s
  let s := if s.refusalHeld then s
    else logErr s pkgswP code (a % 2 ^ 32) (a / 2 ^ 32 % 2 ^ 16) (code + 256 * (d % 16))
  raise { s with refusalHeld := true } pkgswP 0

/-! ### Command windows -/

/-- The requester that waits for a window write. -/
def WinOp.who : WinOp → Option Nat
  | .go _ _ w => w
  | .put _ _ w => w

/-- Whether a requester's writes wait at a slice: at its window, or for an entry of its merge buffer. -/
def Slice.waits (x : Slice) (who : Nat) : Bool :=
  x.queue.any (fun o => o.who == some who) || x.narrow.any (fun w => w.who == some who)

/-- Whether a requester's writes wait at some slice. -/
def waitsAtWindow (s : State) (who : Nat) : Bool := s.slices.any (fun x => x.2.waits who)

/-! ### Tiles at large -/

/-- The pacing duty that the governor of a tile's die has set (R107, R263). -/
def dieDuty (s : State) (die : Nat) : Nat := rd s pwrP PWR_DUTY die

/-- The current operating point of a die. -/
def dieOp (s : State) (die : Nat) : Nat := rd s pwrP PWR_OP_APPLIED die

end Sys2Proof.Machine
end

