-- ==== Sys2Proof/Machine/SliceOps.lean ====
section
/-!
DEFINITION. Machine/SliceOps.lean: sectors of a slice: written flags, reads with their checks,
full-sector writes, the merge buffer, and the mode's effect on data requests (R119, R125 to
R130, R138, R143).
-/
namespace Sys2Proof.Machine

/-! ### Sectors -/

/-- Whether a flag of a sector is set in a map of 32-sector words. -/
def secFlag (m : SMap Nat) (sec : Nat) : Bool := bitOf (SMap.getD m (sec / 32) 0) (sec % 32)

def setSecFlag (m : SMap Nat) (sec : Nat) : SMap Nat :=
  SMap.put m (sec / 32) (setBit (SMap.getD m (sec / 32) 0) (sec % 32))

def clearSecFlag (m : SMap Nat) (sec : Nat) : SMap Nat :=
  let v := clearBit (SMap.getD m (sec / 32) 0) (sec % 32)
  if v = 0 then SMap.del m (sec / 32) else SMap.put m (sec / 32) v

/-- The three copies of a sector's written flag, copy k in bit k. -/
def Flags.copies (f : Flags) (sec : Nat) : Nat :=
  ofBool (secFlag f.a sec) + 2 * ofBool (secFlag f.b sec) + 4 * ofBool (secFlag f.c sec)

/-- The written flag as a read finds it: the majority of the copies, of which those of `flips` read
wrong (R126). -/
def Flags.read (f : Flags) (sec flips : Nat) : Bool := 2 ≤ popCount 3 (f.copies sec ^^^ flips % 8)

/-- The written flag of a sector. -/
def Flags.get (f : Flags) (sec : Nat) : Bool := f.read sec 0

/-- Every copy of a sector's written flag set, and clear. -/
def Flags.set (f : Flags) (sec : Nat) : Flags :=
  ⟨setSecFlag f.a sec, setSecFlag f.b sec, setSecFlag f.c sec⟩
def Flags.clear (f : Flags) (sec : Nat) : Flags :=
  ⟨clearSecFlag f.a sec, clearSecFlag f.b sec, clearSecFlag f.c sec⟩

/-- Sectors of the command window stand above those of the slice. -/
def winSector (off : Nat) : Nat := 2 ^ 24 + off / 32

/-- `ERR_ADDR_HI` of a slice sector (R119, R138). -/
def sectorHi (off : Nat) : Nat :=
  let page := off / 1024
  let q := page / 12
  page % 12 + 16 * (q % 4) + 64 * (q / 4) + 2 ^ 19 * (off / 32 % 32)

/-- A slice error logged for the sector `sec` and requester code `req` (R138); for a sector of the command
window its window offset and 0 (DESIGN CHOICE, log entry 169). -/
def logSector (s : State) (n code sec req synd : Nat) : State :=
  let off := 32 * (sec % 2 ^ 24)
  logErr s (sliceP n) code (off % 2 ^ 29 + 2 ^ 29 * req) (if sec < 2 ^ 24 then sectorHi off else 0)
    synd

/-- What a read of a sector gives. -/
inductive SecRead where
  | good (bytes : List Byte)
  /-- a lasting uncorrectable error, or an unwritten sector -/
  | bad
  /-- a poisoned engine result (R155) -/
  | poisoned
  deriving DecidableEq, Repr

/-! ### The decoder (R123, R124, R129, R130) -/

/-- The 32 data bytes of a sector, of the slice or of its command window. -/
def secData (x : Slice) (sec : Nat) : List Byte :=
  if sec < 2 ^ 24 then memBytes x.mem (32 * sec) 32 else memBytes x.buf (32 * (sec - 2 ^ 24)) 32

/-- The 36 symbols that a sector holds: its data and check bytes. -/
def secWord (x : Slice) (sec : Nat) : List Byte := secData x sec ++ memBytes x.check (4 * sec) 4

/-- A word read with the symbols of `e` differing, as an error pattern over the zero word: the code is
linear, so that its syndromes are those of what was read. -/
def readPattern (w : List Byte) (e : List (Nat × Nat)) : List (Nat × Nat) :=
  (w.zipIdx.map (fun b => (b.2, b.1.toNat))) ++ e

/-- What the decoder makes of a read: its verdict, and the data that it delivers, if any. -/
def decodeRead (w : List Byte) (e : List (Nat × Nat)) : RsOut × Option (List Byte) :=
  match rsDecode (readPattern w e) with
  | .clean => (.clean, some ((addErrors w e).take 32))
  | .corrected j v => (.corrected j v, some ((addErrors w (e ++ [(j, v)])).take 32))
  | .uncorrectable => (.uncorrectable, none)

/-- A checked read of a written sector: the last-error code of R138 and R162 that it logs (0: none),
the syndromes of the first read, the data where there are any, and the pattern that a second read
meets where that fails too. A sector that has failed for good meets what it met then. -/
def checkedRead (x : Slice) (sec : Nat) (err : Option SectorErr) :
    Nat × Nat × Option (List Byte) × List (Nat × Nat) :=
  let err := (SMap.find x.lasting sec).elim err (fun p => some { first := p, second := p })
  match err with
  | none => (0, 0, some (secData x sec), [])
  | some e =>
    let w := secWord x sec
    let sy := rsSyndromes (readPattern w e.first) % 2 ^ 31
    let r := decodeRead w e.first
    match r.1 with
    | .clean => (0, sy, r.2, [])
    | .corrected _ _ => (1, sy, r.2, [])
    | .uncorrectable =>
      match (decodeRead w e.second).2 with
      | some d => (2, sy, some d, [])
      | none => (3, sy, none, e.second)

/-- Whether a read finds a sector written. -/
def readsWritten (x : Slice) (sec : Nat) (err : Option SectorErr) : Bool :=
  let flips := (err.map SectorErr.flips).getD 0
  if sec < 2 ^ 24 then x.flags.read sec flips else x.bflags.read (sec - 2 ^ 24) flips

/-- A sector fails for good, until it is written whole (R130). -/
def failSector (s : State) (n sec : Nat) (p : List (Nat × Nat)) : State :=
  let x := slice s n
  setSlice s n { x with lasting := SMap.put x.lasting sec p }

/-- One sector of slice `n`, or of its command window, is read by the controller (R123, R127, R129). -/
def controllerRead (s : State) (n sec req : Nat) (err : Option SectorErr) : State × SecRead :=
  let p := sliceP n
  let x := slice s n
  if !readsWritten x sec err then
    (raise (logSector (bump s p SLICE_UNWRITTEN_READS) n 4 sec req (2 ^ 31)) p 0, .bad)
  else
    let r := checkedRead x sec err
    match r.2.2.1, r.1 with
    | some d, 0 => (s, .good d)
    | some d, 1 => (logSector (bump s p HDR_ERR_CORR_COUNT) n 1 sec req r.2.1, .good d)
    | some d, _ => (logSector (bump s p HDR_ERR_RETRY_COUNT) n 2 sec req r.2.1, .good d)
    | none, _ =>
      let s := failSector s n sec r.2.2.2
      (raise (logSector (bump s p SLICE_UNCORR_LASTING) n 3 sec req r.2.1) p 0, .bad)

/-- One sector of slice `n` is read in controller mode. -/
def readSector (s : State) (n sec req : Nat) (err : Option SectorErr) : State × SecRead :=
  controllerRead (bump64 s (sliceP n) SLICE_RD_SECTORS_LO SLICE_RD_SECTORS_HI) n sec req err

/-! ### Writes of whole sectors -/

/-- The four check bytes of 32 data bytes (R124). -/
def checkBytes (d : List Byte) : List Byte :=
  let r := rsCheck d
  [BitVec.ofNat 8 r.1, BitVec.ofNat 8 r.2.1, BitVec.ofNat 8 r.2.2.1, BitVec.ofNat 8 r.2.2.2]

/-- A sector's check bytes are stored with its data, and it fails no longer. -/
def encode (x : Slice) (sec : Nat) (d : List Byte) : Slice :=
  { x with check := memStore x.check (4 * sec) (checkBytes d), lasting := SMap.del x.lasting sec }

/-- A full sector is written, with check bytes and the written flag (R125, R126). -/
def putSector (s : State) (n sec : Nat) (bytes : List Byte) : State :=
  let x := encode (slice s n) sec (bytes.take 32)
  let s := setSlice s n { x with mem := memStore x.mem (32 * sec) (bytes.take 32),
                                 flags := x.flags.set sec }
  bump64 s (sliceP n) SLICE_WR_SECTORS_LO SLICE_WR_SECTORS_HI

/-- A sector of the command window is written: data, check bytes, written flag, no poison (R141). -/
def putWin (s : State) (n off : Nat) (bytes : List Byte) : State :=
  let x := encode (slice s n) (winSector off) (bytes.take 32)
  setSlice s n { x with buf := memStore x.buf off (bytes.take 32),
                        bflags := x.bflags.set (off / 32),
                        poison := clearSecFlag x.poison (off / 32) }

/-! ### The merge buffer (R128) -/

def mergeOf (x : Slice) (sec : Nat) : Option Merge := x.merge.find? (fun e => e.sector == sec)

/-- The bytes of `new` where the mask has a 1, else those of `old`. -/
def mergeBytes (mask : Nat) : List Byte → List Byte → List Byte
  | o :: os, n :: ns => (if mask % 2 = 1 then n else o) :: mergeBytes (mask / 2) os ns
  | _, _ => []

/-- The merge is dropped: the sector is left as it was (R128). -/
def mergeDropped (s : State) (n sec : Nat) (synd : Nat) : State :=
  let p := sliceP n
  raise (logSector (bump s p SLICE_MERGE_DROPS) n 5 sec 4 synd) p 1

/-- A sector, of the slice or of the window, is written whole. -/
def putAny (s : State) (n sec : Nat) (d : List Byte) : State :=
  if sec < 2 ^ 24 then putSector s n sec d else putWin s n (32 * (sec - 2 ^ 24)) d

/-- A FLUSH entry writes its sector whole, or by a read-modify-write. -/
def flushEntry (s : State) (n sec : Nat) (err : Option SectorErr) : State :=
  match mergeOf (slice s n) sec with
  | none => s
  | some e =>
    let x := slice s n
    let s := setSlice s n { x with merge := x.merge.filter (fun y => y.sector != sec) }
    let p := sliceP n
    if e.mask = 2 ^ 32 - 1 then putAny s n sec e.data
    else
      let r := if sec < 2 ^ 24 then readSector s n sec 4 err else controllerRead s n sec 4 err
      match r.2 with
      | .good old =>
        bump64 (putAny r.1 n sec (mergeBytes e.mask old e.data)) p SLICE_RMW_LO SLICE_RMW_HI
      | _ => mergeDropped r.1 n sec (rd r.1 p HDR_ERR_SYNDROME)

/-- Bytes of a narrow write laid into a merge entry. -/
def layBytes (data : List Byte) (at' : Nat) (bytes : List Byte) : List Byte :=
  (data.take at' ++ bytes ++ data.drop (at' + bytes.length)).take 32

/-- Whether an entry made now flushes at once: the slice is entering engine mode, and the write reached
the controller before that (R142). -/
def flushesNow (x : Slice) (sec : Nat) : Bool := x.mode == 2 && sec < 2 ^ 24

/-- A narrow write laid into the entry of its sector or into a FREE one; none where no entry is FREE. An
entry in FLUSH takes it too (DESIGN CHOICE, log entry 168). -/
def layNarrow (x : Slice) (w : Narrow) : Option Slice :=
  let bits := (2 ^ w.bytes.length - 1) * 2 ^ w.lo
  match mergeOf x w.sector with
  | some e =>
    let m := e.mask ||| bits
    some { x with merge := x.merge.map (fun y =>
      if y.sector == w.sector then
        { y with mask := m, data := layBytes y.data w.lo w.bytes, flush := y.flush || m == 2 ^ 32 - 1 }
      else y) }
  | none =>
    if x.merge.length < 16 then
      some { x with merge := x.merge ++ [{
        sector := w.sector, mask := bits, data := layBytes (List.replicate 32 0) w.lo w.bytes,
        flush := bits == 2 ^ 32 - 1 || flushesNow x w.sector }] }
    else none

/-- A narrow write waits for an entry, and the oldest GATHER entry enters FLUSH. -/
def waitNarrow (x : Slice) (w : Narrow) : Slice :=
  let old := (x.merge.find? (fun e => !e.flush)).map Merge.sector
  { x with
    merge := x.merge.map (fun y => if some y.sector == old then { y with flush := true } else y)
    narrow := x.narrow ++ [w] }

/-- Whether a request for a sector waits for narrow writes to it that came before and have no entry. -/
def narrowAhead (x : Slice) (sec : Nat) : Bool := x.narrow.any (fun w => w.sector == sec)

/-- Whether a narrow write may be laid now: it merges into the entry of its sector; it takes a FREE entry
behind the writes that wait for one. -/
def mayLay (x : Slice) (w : Narrow) : Bool :=
  !narrowAhead x w.sector && ((mergeOf x w.sector).isSome || x.narrow.isEmpty)

/-- A narrow write reaches the controller: it takes an entry, or waits for one. -/
def gather (s : State) (n : Nat) (w : Narrow) : State :=
  let x := slice s n
  setSlice s n ((if mayLay x w then layNarrow x w else none).getD (waitNarrow x w))

/-- Narrow writes that wait take entries, the first that an entry can take ahead of the others; those to
one sector keep their order. -/
def gatherWaiting (x : Slice) : Nat → Slice
  | 0 => x
  | k + 1 =>
    match x.narrow.find? (fun w => (layNarrow x w).isSome) with
    | none => x
    | some w =>
      match layNarrow { x with narrow := x.narrow.erase w } w with
      | some y => gatherWaiting y k
      | none => x

/-- A full-sector write overwrites what an entry, and narrow writes that wait, hold for the sector; the
entry is FREE for those that still wait. -/
def dropMerge (x : Slice) (sec : Nat) : Slice :=
  let y := { x with merge := x.merge.filter (fun e => e.sector != sec),
                    narrow := x.narrow.filter (fun w => w.sector != sec) }
  gatherWaiting y y.narrow.length

/-- Whether a narrow write to the command window waits for an entry. -/
def windowWaits (x : Slice) : Bool := x.narrow.any (fun w => w.sector ≥ 2 ^ 24)

/-- Whether a waiting window write is a GO. -/
def WinOp.isGo : WinOp → Bool
  | .go _ _ _ => true
  | .put _ _ _ => false

/-- A GO that waits makes every entry of the window flush: it is acknowledged once every earlier write
has taken effect (R149). -/
def flushForGo (x : Slice) : Slice :=
  if x.queue.any WinOp.isGo then
    { x with merge := x.merge.map (fun e => if e.sector ≥ 2 ^ 24 then { e with flush := true } else e) }
  else x

/-- A buffer write takes effect: whole sectors directly, others through the merge buffer (R141). -/
def putWindow (s : State) (n off : Nat) (who : Option Nat) : Nat → List Byte → State
  | 0, _ => s
  | k + 1, bytes =>
    if bytes.isEmpty then s
    else
      let m := min (32 - off % 32) bytes.length
      let s := if off ≥ 0x8400 then s
        else if m = 32 then
          putWin (setSlice s n (dropMerge (slice s n) (winSector off))) n off (bytes.take 32)
        else gather s n ⟨winSector off, off % 32, bytes.take m, who⟩
      putWindow s n (off + m) who k (bytes.drop m)

/-- Buffer writes at the front of the queue take effect, in order, while no run is in progress and no
earlier one waits (R141, R149). -/
def drainPuts (s : State) (n : Nat) : Nat → State
  | 0 => s
  | k + 1 =>
    let x := slice s n
    match x.run, x.queue with
    | none, .put off bytes who :: rest =>
      if windowWaits x then s
      else drainPuts (putWindow (setSlice s n { x with queue := rest }) n off who bytes.length bytes) n k
    | _, _ => s

/-- What waited for an entry of the merge buffer goes on. -/
def settleSlice (s : State) (n : Nat) : State :=
  let x := slice s n
  let s := setSlice s n (gatherWaiting x x.narrow.length)
  let s := drainPuts s n (slice s n).queue.length
  setSlice s n (flushForGo (slice s n))

/-- The entry of a sector flushes, and what waited for one goes on. -/
def flushSector (s : State) (n sec : Nat) (err : Option SectorErr) : State :=
  settleSlice (flushEntry s n sec err) n

/-- The error of a transfer's `i`-th piece. -/
def errAt (errs : SectorErrs) (i : Nat) : Option SectorErr :=
  (errs.find? (fun e => e.1 == i)).map Prod.snd

/-- Every entry flushes (soft reset); `errs` numbers what the reads meet by sector. -/
def flushAll (s : State) (n : Nat) (errs : SectorErrs) : Nat → State
  | 0 => s
  | k + 1 =>
    match (slice s n).merge with
    | [] => s
    | e :: _ => flushAll (flushSector s n e.sector (errAt errs e.sector)) n errs k

/-! ### Requests of whole sectors -/

/-- A read of a sector by a requester: an entry of the merge buffer for it flushes first. A
read-modify-write meets what the sector holds, and writes it anew. -/
def sliceSector (s : State) (n sec req : Nat) (err : Option SectorErr) : State × SecRead :=
  match mergeOf (slice s n) sec with
  | some e =>
    readSector (flushSector s n sec err) n sec req (if e.mask = 2 ^ 32 - 1 then err else none)
  | none => readSector s n sec req err

/-- `k` sectors from `sec` on, in order, up to the first that fails: the bytes read, and whether
all were good. `i` is the index of the first within its transfer. -/
def sliceSectors (s : State) (n sec req : Nat) (errs : SectorErrs) (i : Nat) :
    Nat → State × List Byte × Bool
  | 0 => (s, [], true)
  | k + 1 =>
    let r := sliceSector s n sec req (errAt errs i)
    match r.2 with
    | .good bytes =>
      let q := sliceSectors r.1 n (sec + 1) req errs (i + 1) k
      (q.1, bytes ++ q.2.1, q.2.2)
    | _ => (r.1, [], false)

/-- A full-sector write by a requester: what the merge buffer holds for it is discarded (R128). -/
def sliceWriteSector (s : State) (n sec : Nat) (bytes : List Byte) : State :=
  settleSlice (putSector (setSlice s n (dropMerge (slice s n) sec)) n sec bytes) n

/-- Whole sectors written from `sec` on. -/
def sliceWriteSectors (s : State) (n sec : Nat) : Nat → List Byte → State
  | 0, _ => s
  | k + 1, bytes =>
    sliceWriteSectors (sliceWriteSector s n sec (bytes.take 32)) n (sec + 1) k (bytes.drop 32)

/-- A write of any bytes: whole sectors directly, the rest through the merge buffer. -/
def sliceWriteBytes (s : State) (n off : Nat) : Nat → List Byte → State
  | 0, _ => s
  | k + 1, bytes =>
    if bytes.isEmpty then s
    else
      let m := min (32 - off % 32) bytes.length
      let s := if m = 32 then sliceWriteSector s n (off / 32) (bytes.take 32)
        else gather s n ⟨off / 32, off % 32, bytes.take m, none⟩
      sliceWriteBytes s n (off + m) k (bytes.drop m)

/-- Whether a slice takes data requests: 0 yes, 4 ERR_BUSY (entering or engine mode). While the
mode is leaving, requests are held (R143). -/
def sliceBusy (s : State) (n : Nat) : Bool := (slice s n).mode == 1 || (slice s n).mode == 2
def sliceHolds (s : State) (n : Nat) : Bool := (slice s n).mode == 3

/-- A read of `k` sectors from `sec` on is held: the mode is leaving (R143), or narrow writes to one of
them wait for an entry of the merge buffer (R128). -/
def readHeld (s : State) (n sec k : Nat) : Bool :=
  sliceHolds s n || (List.range k).any (fun i => narrowAhead (slice s n) (sec + i))

/-! ### Refresh positions (R131, R142, R157) -/

/-- The row of each bank that the next refresh operation of layer `l` refreshes. -/
def layerRow (x : Slice) (l : Nat) : Nat := (x.refresh + 11 - l) / 12 % 8192

/-- `k` refresh operations are issued, the twelve layers taking turns. -/
def refreshOps (s : State) (n k : Nat) : State :=
  let x := slice s n
  setSlice s n { x with refresh := (x.refresh + k) % (12 * 8192) }

/-- `k` refresh intervals pass to every layer. -/
def refreshIntervals (s : State) (n k : Nat) : State := refreshOps s n (12 * k)

end Sys2Proof.Machine
end

