-- ==== Sys2Proof/Machine/EngineOps.lean ====
section
/-!
DEFINITION. Machine/EngineOps.lean: near-bank engines: the command window (R140, R141), the mode
word (R142, R143), GO and runs (R149, R150), descriptors (R147, R151), the arithmetic of a pass
(R145, R152), and poison (R155, R156).
-/
namespace Sys2Proof.Machine

/-! ### Descriptors (R147, R151) -/

/-- The fields of an engine descriptor. -/
structure EDesc where
  op : Nat
  mfmt : Nat
  vfmt : Nat
  nvec : Nat
  maddr : Nat
  saddr : Nat
  rpitch : Nat
  spitch : Nat
  rows : Nat
  cols : Nat
  xoff : Nat
  xstride : Nat
  yoff : Nat
  ystride : Nat
  scale : Nat
  npages : Nat
  last : Nat
  plist : Nat
  part : Nat
  pscl : Nat
  deriving DecidableEq, Repr

def readEDesc (b : List Byte) : EDesc :=
  let w := leAt b 0 4
  { op := bitsOf w 0 4, mfmt := bitsOf w 4 4, vfmt := bitsOf w 8 4, nvec := bitsOf w 12 2,
    maddr := leAt b 4 4 % 2 ^ 29, saddr := leAt b 8 4 % 2 ^ 29, rpitch := leAt b 12 4 % 2 ^ 24,
    spitch := leAt b 16 4 % 2 ^ 20, rows := leAt b 20 4 % 2 ^ 20, cols := leAt b 24 2 % 2 ^ 14,
    xoff := leAt b 28 2 % 2 ^ 15, xstride := leAt b 30 2 % 2 ^ 15, yoff := leAt b 32 2 % 2 ^ 15,
    ystride := leAt b 34 2 % 2 ^ 15, scale := leAt b 36 4, npages := leAt b 40 2 % 512,
    last := leAt b 42 2 % 512, plist := leAt b 44 2 % 2 ^ 15, part := leAt b 46 2,
    pscl := leAt b 48 2 }

/-- Whether every reserved bit of a descriptor is 0. -/
def eReservedOk (b : List Byte) : Bool :=
  leAt b 0 4 / 2 ^ 14 == 0 && leAt b 4 4 / 2 ^ 29 == 0 && leAt b 8 4 / 2 ^ 29 == 0
    && leAt b 12 4 / 2 ^ 24 == 0 && leAt b 16 4 / 2 ^ 20 == 0 && leAt b 20 4 / 2 ^ 20 == 0
    && leAt b 24 2 / 2 ^ 14 == 0 && leAt b 26 2 == 0 && leAt b 28 2 / 2 ^ 15 == 0
    && leAt b 30 2 / 2 ^ 15 == 0 && leAt b 32 2 / 2 ^ 15 == 0 && leAt b 34 2 / 2 ^ 15 == 0
    && leAt b 40 2 / 512 == 0 && leAt b 42 2 / 512 == 0 && leAt b 44 2 / 2 ^ 15 == 0
    && (b.drop 50).all (fun x => x == 0)

/-- Whether a pass reads KV pages through a page list (SCORE, MIX). -/
def EDesc.paged (d : EDesc) : Bool := d.op == 3 || d.op == 4

/-- Rows of the matrix: ROWS, or the T valid tokens of the listed pages (R145). -/
def EDesc.rowCount (d : EDesc) : Nat :=
  if d.paged then 256 * (d.npages - 1) + d.last else d.rows

/-- Whether outputs go by rows (ROWMV, SCORE) or by columns (COLMV, MIX). -/
def EDesc.byRow (d : EDesc) : Bool := d.op == 1 || d.op == 3

def EDesc.outLen (d : EDesc) : Nat := if d.byRow then d.rowCount else d.cols
def EDesc.inLen (d : EDesc) : Nat := if d.byRow then d.cols else d.rowCount

/-- Bytes of one matrix row, of its scales, and of one vector element. -/
def EDesc.rowBytes (d : EDesc) : Nat := d.cols * elemBits d.mfmt / 8
def EDesc.sclBytes (d : EDesc) : Nat := if isMx d.mfmt then d.cols / 32 else 0
def EDesc.vecBytes (d : EDesc) : Nat := if d.vfmt = 0 then 4 else 2

/-- The matrix formats of R146. -/
def engFormat (c : Nat) : Bool := c == 1 || c == 3 || c == 4 || c == 5 || c == 6 || c == 0xA

/-- The checks of R151 on a descriptor, but for its page list's entries. -/
def eDescOk (b : List Byte) : Bool :=
  let d := readEDesc b
  let mx := isMx d.mfmt
  eReservedOk b && 1 ≤ d.op && d.op ≤ 4 && engFormat d.mfmt && d.vfmt < 2
    && d.maddr % 32 == 0 && d.rpitch % 32 == 0 && d.part % 1024 == 0 && d.pscl % 32 == 0
    && d.xoff % 64 == 0 && d.xstride % 64 == 0 && d.yoff % 64 == 0 && d.ystride % 64 == 0
    && d.plist % 64 == 0
    && 1 ≤ d.cols && d.cols ≤ 8192 && (!mx || d.cols % 32 == 0) && (mx || d.pscl == 0)
    && (if d.paged then
          d.maddr == 0 && d.saddr == 0 && d.rpitch == 0 && d.rows == 0
            && 1 ≤ d.npages && d.npages ≤ 256 && 1 ≤ d.last && d.last ≤ 256
            && d.plist + 4 * d.npages ≤ 0x8000
        else
          1 ≤ d.rows && d.npages == 0 && d.last == 0 && (mx || d.saddr == 0)
            && d.maddr + (d.rows - 1) * d.rpitch + d.rowBytes ≤ sliceBytes
            && (!mx || d.saddr + (d.rows - 1) * d.spitch + d.cols / 32 ≤ sliceBytes))
    && d.xoff + d.nvec * d.xstride + d.inLen * d.vecBytes ≤ 0x8000
    && d.yoff + d.nvec * d.ystride + 4 * d.outLen ≤ 0x8000

/-- Tokens of page `p` of the list. -/
def EDesc.pageTokens (d : EDesc) (p : Nat) : Nat := if p + 1 = d.npages then d.last else 256

/-- Entry `p` of a page list (R148). -/
def pageEntry (l : List Byte) (p : Nat) : Nat := leAt l (4 * p) 4

/-- The checks of R151 and R148 on the entries of a page list. -/
def eListOk (d : EDesc) (l : List Byte) : Bool :=
  !d.paged || (List.range d.npages).all (fun p =>
    let e := pageEntry l p
    let base := e % 2 ^ 17 * 4096
    e / 2 ^ 17 == 0 && base + d.part + d.pageTokens p * d.rowBytes ≤ sliceBytes
      && base + d.pscl + d.pageTokens p * d.sclBytes ≤ sliceBytes)

/-- The slice offset of row `r` and of its scales. -/
def EDesc.rowAt (d : EDesc) (l : List Byte) (r : Nat) : Nat × Nat :=
  if d.paged then
    let base := pageEntry l (r / 256) % 2 ^ 17 * 4096
    let t := r % 256
    (base + d.part + t * d.rowBytes, base + d.pscl + t * d.sclBytes)
  else (d.maddr + r * d.rpitch, d.saddr + r * d.spitch)

/-! ### Arithmetic (R152) -/

/-- The 128-bit accumulator of one element: the exponent E of the largest product so far (none:
no nonzero product yet), the register in units of 2^(E − 100), and the specials met. -/
structure EAcc where
  e : Option Int := none
  v : Int := 0
  nan : Bool := false
  invalid : Bool := false
  pos : Bool := false
  neg : Bool := false
  deriving DecidableEq, Repr

/-- An integer in units of 2^`d` fewer: magnitude bits that fall below are truncated. -/
def truncShift (v : Int) (d : Nat) : Int :=
  let m := v.natAbs / 2 ^ d
  if v < 0 then -(m : Int) else m

/-- One exact product added. -/
def EAcc.add (a : EAcc) (p : FNum × Bool) : EAcc :=
  match p.1 with
  | .nan => { a with nan := true, invalid := a.invalid || p.2 }
  | .inf s => if s then { a with neg := true } else { a with pos := true }
  | .num n m e =>
    if m = 0 then a
    else
      let top : Int := e + lg m
      let e' := match a.e with
        | none => top
        | some x => max x top
      let v := match a.e with
        | none => a.v
        | some x => truncShift a.v (e' - x).toNat
      { a with e := some e', v := v + truncTo (e' - 100) (.num n m e) }

/-- The number in the register. -/
def EAcc.value (a : EAcc) : FNum :=
  if a.nan then .nan
  else if a.pos && a.neg then .nan
  else if a.pos then .inf false
  else if a.neg then .inf true
  else .num (a.v < 0) a.v.natAbs (a.e.getD 0 - 100)

/-- The element: the register times SCALE, rounded once to FP32. -/
def EAcc.result (a : EAcc) (scale : Nat) : Nat :=
  (fp32.finish (a.value.mul (fp32.decode scale))).1

/-- The products of one output element, added in their fixed order. -/
def eDot (ps : List (FNum × Bool)) (scale : Nat) : Nat :=
  (ps.foldl EAcc.add {}).result scale

/-- Element `c` of matrix row `r`, with its scale. -/
def EDesc.elem (d : EDesc) (x : Slice) (l : List Byte) (r c : Nat) : FNum :=
  let at' := d.rowAt l r
  let w := elemBits d.mfmt
  let n := elemNum d.mfmt (if w = 4 then bitsOf (memRead x.mem (at'.1 + c / 2)).toNat (4 * (c % 2)) 4
    else leNat (memBytes x.mem (at'.1 + c * (w / 8)) (w / 8)))
  if isMx d.mfmt then
    match e8m0 (memRead x.mem (at'.2 + c / 32)).toNat with
    | some k => n.scale k
    | none => .nan
  else n

/-- Element `i` of input vector `v`. -/
def EDesc.vec (d : EDesc) (x : Slice) (v i : Nat) : FNum :=
  let n := leNat (memBytes x.buf (d.xoff + v * d.xstride + i * d.vecBytes) d.vecBytes)
  if d.vfmt = 0 then fp32.decode n else bf16.decode n

/-- The outputs of vector `v` (R145). -/
def EDesc.outputs (d : EDesc) (x : Slice) (l : List Byte) (v : Nat) : List Nat :=
  (List.range d.outLen).map (fun o =>
    eDot ((List.range d.inLen).map (fun k =>
      (if d.byRow then d.elem x l o k else d.elem x l k o).mul (d.vec x v k))) d.scale)

/-! ### Sectors of the window -/

/-- Whether a sector of a buffer is written. -/
def bufWritten (x : Slice) (off : Nat) : Bool := x.bflags.get (off / 32)

/-- The sectors that a span of bytes touches. -/
def spanSectors (off n : Nat) : List Nat :=
  if n = 0 then [] else (List.range ((off + n - 1) / 32 - off / 32 + 1)).map (fun k => off / 32 + k)

/-- The bytes of a span of the buffers, empty where a sector is unwritten. -/
def copySpan (x : Slice) (off n : Nat) : List Byte :=
  if (spanSectors off n).all x.bflags.get then memBytes x.buf off n else []

/-- The result lines of a descriptor whose fields pass R151, as window offsets of its vectors'
first bytes. -/
def EDesc.outBase (d : EDesc) (v : Nat) : Nat := 0x10000 + d.yoff + v * d.ystride

/-- A result sector poisoned: no data, no written flag (R155). -/
def poisonSector (x : Slice) (k : Nat) : Slice :=
  { x with bflags := x.bflags.clear k, poison := setSecFlag x.poison k }

/-- The sectors of the 64-byte result lines of a descriptor. -/
def resultSectors (b : List Byte) : List Nat :=
  if b.length = 64 && eDescOk b then
    let d := readEDesc b
    (List.range (d.nvec + 1)).flatMap (fun v =>
      let a := d.outBase v / 64
      let z := (d.outBase v + 4 * d.outLen + 63) / 64
      (List.range (2 * (z - a))).map (fun k => 2 * a + k))
  else []

/-- The result lines of a descriptor poisoned. -/
def poisonLines (x : Slice) (b : List Byte) : Slice := (resultSectors b).foldl poisonSector x

/-- The result sectors, all of them. -/
def allResults : List Nat := (List.range 1024).map (fun k => 0x10000 / 32 + k)

/-- The sectors that the outputs of a pass touch. -/
def EDesc.outSectors (d : EDesc) : List Nat :=
  (List.range (d.nvec + 1)).flatMap (fun v => spanSectors (d.outBase v) (4 * d.outLen))

/-- The outputs of a pass written, whole sectors with their check bytes, flags and no poison (R154);
`v` is the slice as the engine's decoder delivered it. -/
def EDesc.writeAll (d : EDesc) (x v : Slice) (l : List Byte) : Slice :=
  -- outputs of later vectors that share a sector with an earlier one's keep what it wrote there
  let ks := d.outSectors
  let buf := ks.foldl (fun m k => memStore m (32 * k) (List.replicate 32 0)) x.buf
  let buf := (List.range (d.nvec + 1)).foldl (fun m i =>
    memStore m (d.outBase i) ((d.outputs v l i).flatMap (leBytes 4))) buf
  ks.foldl (fun x k =>
    { encode x (2 ^ 24 + k) (memBytes buf (32 * k) 32) with
      bflags := x.bflags.set k, poison := clearSecFlag x.poison k }) { x with buf := buf }

/-! ### Reads by the engine (R154, R155) -/

/-- An engine error logged: `src` 0 matrix, 1 scales, 2 input, 3 descriptor, 4 page list (R162). -/
def logEngine (s : State) (n code src sec synd : Nat) : State :=
  let off := 32 * sec
  logErr s (engineP n) code (off % 2 ^ 29 + 2 ^ 29 * src) (if src < 2 then sectorHi off else 0) synd

/-- A sector read by the engine through its replica decoder: its number among the slice's and the
window's sectors, and the failure code, 0 where it is good, with what the decoder delivers (R154,
R155). -/
def engineRead (s : State) (n src sec : Nat) (err : Option SectorErr) : State × Nat × List Byte :=
  let x := slice s n
  let p := engineP n
  let k := if src < 2 then sec else 2 ^ 24 + sec
  if !readsWritten x k err then (logEngine s n 4 src sec (2 ^ 31), 4, [])
  else
    let r := checkedRead x k err
    match r.2.2.1, r.1 with
    | some d, 0 => (s, 0, d)
    | some d, 1 => (logEngine (bump s p HDR_ERR_CORR_COUNT) n 1 src sec r.2.1, 0, d)
    | some d, _ => (logEngine (bump s p HDR_ERR_RETRY_COUNT) n 2 src sec r.2.1, 0, d)
    | none, _ => (logEngine (failSector s n k r.2.2.2) n 3 src sec r.2.1, 3, [])

/-- What errors a pass meets: source, sector number within that source, and the pattern. -/
abbrev EngErrs := List (Nat × Nat × SectorErr)

def engErr (errs : EngErrs) (src sec : Nat) : Option SectorErr :=
  (errs.find? (fun e => e.1 == src && e.2.1 == sec)).map (fun e => e.2.2)

/-- What the decoder delivered for sectors that met errors: source, sector, data. -/
abbrev Seen := List (Nat × Nat × List Byte)

/-- A store as the engine's decoder delivered it: that of the sources of `p`. -/
def Seen.over (v : Seen) (p : Nat → Bool) (m : Memory) : Memory :=
  v.foldl (fun m o => if p o.1 then memStore m (32 * o.2.1) o.2.2 else m) m

/-- A copy made at the start of a run, from window offset `off` on, as the decoder delivered it. -/
def Seen.copy (v : Seen) (src off : Nat) (b : List Byte) : List Byte :=
  if v.any (fun o => o.1 == src) then memBytes (v.over (· == src) (memStore [] off b)) off b.length
  else b

/-- The end of a list of reads: the failure code, the sectors read, and what the decoder changed. -/
structure ReadEnd where
  code : Nat := 0
  count : Nat := 0
  seen : Seen := []
  deriving DecidableEq, Repr

/-- Sectors read in order up to the first that fails. -/
def engineReads (s : State) (n : Nat) (errs : EngErrs) : List (Nat × Nat) → State × ReadEnd
  | [] => (s, {})
  | (src, sec) :: rest =>
    let err := engErr errs src sec
    let r := engineRead s n src sec err
    if r.2.1 = 0 then
      let q := engineReads r.1 n errs rest
      (q.1, { q.2 with
        count := q.2.count + 1
        seen := if err.isSome then (src, sec, r.2.2) :: q.2.seen else q.2.seen })
    else (r.1, { code := r.2.1 })

/-- The sectors a pass reads: its input vectors, then per row its scales and its elements
(DESIGN CHOICE, log entry 20: the manual gives no order between sources). -/
def EDesc.sectors (d : EDesc) (l : List Byte) : List (Nat × Nat) :=
  ((List.range (d.nvec + 1)).flatMap (fun v =>
      (spanSectors (d.xoff + v * d.xstride) (d.inLen * d.vecBytes)).map (fun k => (2, k)))
    ++ (List.range d.rowCount).flatMap (fun r =>
      let a := d.rowAt l r
      (spanSectors a.2 d.sclBytes).map (fun k => (1, k))
        ++ (spanSectors a.1 d.rowBytes).map (fun k => (0, k)))).eraseDups

/-! ### Runs -/

/-- The counts of a completed run (R150, R153, R162). -/
def countRun (s : State) (n tag mask : Nat) : State :=
  let x := slice s n
  let p := engineP n
  let s := setSlice s n { x with runsDone := (x.runsDone + 1) % 2 ^ 32, poisonMask := mask }
  let s := bump (wr s p ENGINE_LAST_TAG tag) p ENGINE_RUNS
  let s := if mask = 0 then s else bump s p ENGINE_POISONED_RUNS
  raise s p 0

/-- A run that executes no pass: every result line is poisoned (R150). -/
def emptyRun (s : State) (n tag code bit : Nat) : State :=
  let s := setSlice s n (allResults.foldl poisonSector (slice s n))
  raise (lastErr (countRun s n tag 0xFFFF) (engineP n) code) (engineP n) bit

/-- The fields of a GO word. -/
def goFirst (w : Nat) : Nat := bitsOf w 0 4
def goCount (w : Nat) : Nat := bitsOf w 4 5
def goTag (w : Nat) : Nat := bitsOf w 16 16
def goBad (w : Nat) : Bool :=
  goCount w == 0 || goFirst w + goCount w > 16 || bitsOf w 9 7 != 0

/-- The bits of descriptors `a` to `a + k` − 1. -/
def descBits (a k : Nat) : Nat := (2 ^ k - 1) * 2 ^ a

/-- `DESC` shows the descriptor of the pass in progress (R162). -/
def showDesc (s : State) (n : Nat) : State :=
  match (slice s n).run with
  | some r => if r.next < r.count then wr s (engineP n) ENGINE_DESC (r.first + r.next) else s
  | none => s

/-- A run starts: descriptors and page lists are copied (R149). While the engine is halted,
every descriptor's result lines are poisoned and no pass is left (R156). -/
def startRun (s : State) (n w : Nat) : State :=
  let x := slice s n
  let ds := (List.range (goCount w)).map (fun i => copySpan x (0x8000 + 64 * (goFirst w + i)) 64)
  let ls := ds.map (fun b =>
    let d := readEDesc b
    if b.length = 64 && eDescOk b && d.paged then copySpan x d.plist (4 * d.npages) else [])
  let r : EngRun := { first := goFirst w, count := goCount w, tag := goTag w, descs := ds, lists := ls }
  if rd s (engineP n) ENGINE_HALTED = 1 then
    setSlice s n { ds.foldl poisonLines x with
      run := some { r with next := goCount w, poison := descBits (goFirst w) (goCount w) } }
  else showDesc (setSlice s n { x with run := some r }) n

/-- The pass of descriptor index `i` of the run ends poisoned with its result lines, and the rest
of the run with it. `own` says whether the failing pass poisons its own lines (R151, R155). -/
def poisonRest (s : State) (n i : Nat) (own : Bool) : State :=
  let x := slice s n
  match x.run with
  | none => s
  | some r =>
    let x := (r.descs.drop (if own then i else i + 1)).foldl poisonLines x
    setSlice s n { x with run := some { r with
      next := r.count, poison := r.poison ||| descBits (r.first + i) (r.count - i) } }

/-- A lasting error or an unwritten sector poisons the run and halts the engine (R155, R156). -/
def haltRun (s : State) (n i code : Nat) : State :=
  let p := engineP n
  raise (raise (wr (lastErr (poisonRest s n i true) p code) p ENGINE_HALTED 1) p 1) p 2

/-- A pass that fails its descriptor check (R151). -/
def badRun (s : State) (n i : Nat) : State :=
  raise (lastErr (poisonRest s n i false) (engineP n) 5) (engineP n) 3

/-- The matrix and scale bytes of a pass (R139, R162). -/
def EDesc.matrixBytes (d : EDesc) : Nat := d.rowCount * (d.rowBytes + d.sclBytes)

/-- The matrix and scale bytes of the first `k` of a list of sectors. -/
def matrixRead (l : List (Nat × Nat)) (k : Nat) : Nat := 32 * (l.take k).countP (fun x => x.1 < 2)

/-- The page list of descriptor `i` of a run, as `b` names it. Where the decoder delivers another descriptor
than the copied one, the list comes from the input buffer, which stands as it did at the run's start
(R149, R154). -/
def passList (x : Slice) (r : EngRun) (i : Nat) (b : List Byte) : List Byte :=
  if b = r.descs.getD i [] then r.lists.getD i []
  else
    let d := readEDesc b
    if d.paged then copySpan x d.plist (4 * d.npages) else []

/-- The next pass of the run of slice `n` (R151 to R155): the engine reads the descriptor, its page list,
then its inputs, and computes on what its decoder delivers. -/
def runPass (s : State) (n : Nat) (errs : EngErrs) : State :=
  match (slice s n).run with
  | none => s
  | some r =>
    let i := r.next
    let p := engineP n
    let at' := 0x8000 + 64 * (r.first + i)
    let a := engineReads s n errs [(3, at' / 32), (3, at' / 32 + 1)]
    let b := a.2.seen.copy 3 at' (r.descs.getD i [])
    if a.2.code ≠ 0 then haltRun a.1 n i a.2.code
    else if !eDescOk b then badRun a.1 n i
    else
      let d := readEDesc b
      let q := engineReads a.1 n errs
        (if d.paged then (spanSectors d.plist (4 * d.npages)).map (fun k => (4, k)) else [])
      let l := q.2.seen.copy 4 d.plist (passList (slice q.1 n) r i b)
      if q.2.code ≠ 0 then haltRun q.1 n i q.2.code
      else if !eListOk d l then badRun q.1 n i
      else
        let m := engineReads q.1 n errs (d.sectors l)
        if m.2.code ≠ 0 then
          haltRun (bump64 m.1 p ENGINE_MATRIX_BYTES_LO ENGINE_MATRIX_BYTES_HI
            (matrixRead (d.sectors l) m.2.count)) n i m.2.code
        else
          let x := slice m.1 n
          let v := { x with mem := m.2.seen.over (· < 2) x.mem, buf := m.2.seen.over (· == 2) x.buf }
          showDesc (bump64 (setSlice m.1 n { d.writeAll x v l with run := some { r with next := i + 1 } }) p
            ENGINE_MATRIX_BYTES_LO ENGINE_MATRIX_BYTES_HI d.matrixBytes) n

/-- Whether a later pass of the run in progress writes the result line at window offset `off`, so
that a read of it is held (R150). -/
def resultHeld (x : Slice) (off : Nat) : Bool :=
  match x.run with
  | none => false
  | some r => (r.descs.drop r.next).any (fun b => (resultSectors b).contains (off / 32))
      || (r.next == r.count && (r.descs.drop (r.count - 1)).any (fun b =>
        (resultSectors b).contains (off / 32)))

/-! ### The mode word and GO (R142, R149, R150) -/

/-- A refused mode write. -/
def modeRefused (s : State) (n : Nat) : State :=
  raise (lastErr s (engineP n) 6) (engineP n) 4

/-- Entering mode begins: every entry of the merge buffer enters FLUSH, and engine mode is reached once
they have flushed (R128, R142). -/
def beginEnter (s : State) (n : Nat) : State :=
  let x := slice s n
  setSlice s n { x with mode := 2, merge := x.merge.map (fun e => { e with flush := true }) }

/-- Whether the merge buffer has flushed for engine mode: what is left came to the window since. -/
def flushedIn (x : Slice) : Bool :=
  x.merge.all (fun e => e.sector ≥ 2 ^ 24 && !e.flush) && x.narrow.all (fun w => w.sector ≥ 2 ^ 24)

/-- A mode-word write is acted on (R142). One that the table gives no effect leaves the mode word too
(DEDUCED, log entry 170). -/
def modeWrite (s : State) (n w : Nat) : State :=
  let x := slice s n
  if w ≥ 2 then modeRefused s n
  else if w = 1 then
    if rd s (engineP n) HDR_STATE ≠ 2 then modeRefused s n
    else if x.mode = 0 then beginEnter (setSlice s n { x with modeWord := 1 }) n
    else if x.mode = 3 then setSlice s n { x with modeWord := 1, held := some 1 }
    else s
  else
    if x.mode = 1 then setSlice s n { x with modeWord := 0, mode := 3 }
    else if x.mode = 2 then setSlice s n { x with modeWord := 0, held := some 0 }
    else s

/-- A GO write reaches the slice controller (R149, R150). -/
def goWrite (s : State) (n w : Nat) (who : Option Nat) : State :=
  let x := slice s n
  let late := x.mode == 3 && x.held == some 1
  if x.mode = 0 || (x.mode = 3 && !late) then emptyRun s n (goTag w) 7 5
  else if goBad w then emptyRun s n (goTag w) 5 3
  else setSlice s n (flushForGo { x with queue := x.queue ++ [.go w late who] })

/-- Whether every write to the window that came before a GO at the front has taken effect (R149). -/
def windowSettled (x : Slice) : Bool := x.merge.all (fun e => e.sector < 2 ^ 24) && !windowWaits x

/-- Whether the waiting GO at the front may be acknowledged: engine mode, or leaving mode with the
GO ahead of the mode write, no run in progress, and every earlier window write done. -/
def goReady (x : Slice) : Bool :=
  x.run.isNone && windowSettled x && match x.queue with
    | .go _ late _ :: _ => x.mode == 1 || (x.mode == 3 && !late)
    | _ => false

/-- The status of a window write. -/
inductive WinWrite where
  | done
  /-- accepted, and unacknowledged until it takes effect -/
  | waits
  | access
  deriving DecidableEq, Repr

/-- A write to the window at `off` (R140, R141); `off` and the bytes lie within one region. -/
def winWrite (s : State) (n off : Nat) (bytes : List Byte) (who : Option Nat) :
    State × WinWrite :=
  if off ≥ 0xFFF00 then
    let line := off / 64
    if line = 0xFFF80 / 64 then (s, .access)
    else if off % 64 ≠ 0 || bytes.length < 4 then (s, .done)
    else if line = 0xFFF00 / 64 then (modeWrite s n (leAt bytes 0 4), .done)
    else if line = 0xFFF40 / 64 then
      let s := goWrite s n (leAt bytes 0 4) who
      let waits := (slice s n).queue.any (fun o => match o with
        | .go _ _ k => k == who
        | _ => false)
      if waits then (s, .waits) else (s, .done)
    else (s, .done)
  else if off ≥ 0x10000 then (s, .access)
  else if off ≥ 0x8400 then (s, .done)
  else
    let x := slice s n
    if x.run.isNone && x.queue.isEmpty && !windowWaits x then
      let s := putWindow s n off who bytes.length bytes
      (s, if (slice s n).narrow.any (fun w => w.who == who && who.isSome) then .waits else .done)
    else (setSlice s n { x with queue := x.queue ++ [.put off bytes who] }, .waits)

/-! ### Reads of the window (R140, R141, R155) -/

/-- The RUN field of the status line. -/
def runCode (x : Slice) : Nat :=
  if x.run.isNone then 0
  else if x.queue.any WinOp.isGo then 2
  else 1

/-- The status line (R153). -/
def statusLine (s : State) (n : Nat) : List Byte :=
  let x := slice s n
  let p := engineP n
  let w := x.mode + 4 * runCode x + 16 * rd s p ENGINE_HALTED + 32 * rd s p ENGINE_PAUSED
    + 2 ^ 8 * rd s p HDR_LAST_ERR + 2 ^ 16 * rd s p ENGINE_LAST_TAG
  leBytes 4 w ++ leBytes 4 x.runsDone ++ leBytes 2 x.poisonMask ++ List.replicate 54 0

/-- The 64 bytes of a control line of the window. -/
def controlLine (s : State) (n off : Nat) : List Byte :=
  if off / 64 = 0xFFF00 / 64 then leBytes 4 (slice s n).modeWord ++ List.replicate 60 0
  else if off / 64 = 0xFFF80 / 64 then statusLine s n
  else List.replicate 64 0

/-- What a read of one window sector gives; `none`: it is held (R150). -/
def winSectorRead (s : State) (n off req : Nat) (err : Option SectorErr) :
    State × Option SecRead :=
  if off ≥ 0xFFF00 then
    (s, some (.good (((controlLine s n off).drop (off / 32 % 2 * 32)).take 32)))
  else if 0x8400 ≤ off && off < 0x9000 then (s, some (.good (List.replicate 32 0)))
  else if (off ≥ 0x10000 && resultHeld (slice s n) off) || narrowAhead (slice s n) (winSector off) then
    (s, none)
  else
    let sec := winSector off
    let m := mergeOf (slice s n) sec
    let s := if m.isSome then flushSector s n sec err else s
    -- a read-modify-write meets what the sector holds, and writes it anew
    let err := if m.any (fun e => e.mask != 2 ^ 32 - 1) then none else err
    if secFlag (slice s n).poison (off / 32) then (s, some .poisoned)
    else
      let r := controllerRead s n sec req err
      (r.1, some r.2)

/-! ### Leaving, relaunch and fencing (R143, R144) -/

/-- The buffers of a window marked unwritten (R144, R161, R245), with the buffer writes that came before
and wait: they take effect and are marked with the rest. -/
def unwriteBuffers (x : Slice) : Slice :=
  { x with bflags := {}, poison := [],
           merge := x.merge.filter (fun e => e.sector < 2 ^ 24),
           narrow := x.narrow.filter (fun w => w.sector < 2 ^ 24),
           queue := x.queue.filter WinOp.isGo }

/-- Every entry of the merge buffer for a sector of the window flushes, those of writes that waited among
them. -/
def flushWindow (s : State) (n : Nat) : Nat → State
  | 0 => s
  | k + 1 =>
    match (slice s n).merge.find? (fun e => e.sector ≥ 2 ^ 24) with
    | none => s
    | some e => flushWindow (flushSector s n e.sector none) n k

/-- What a LAUNCH does to an engine once controller mode is reached: HALTED cleared, buffers unwritten. What the
merge buffer holds for the window flushes before, and its entries are FREE for what waits (R128; DESIGN
CHOICE, log entry 187). -/
def engineFresh (s : State) (n : Nat) : State :=
  let s := flushWindow s n
    ((slice s n).merge.length + (slice s n).narrow.length + 3 * (slice s n).queue.length)
  let x := slice s n
  wr (setSlice s n { unwriteBuffers x with runsDone := 0, relaunch := false }) (engineP n)
    ENGINE_HALTED 0

/-- A LAUNCH asks a slice back to controller mode (R144). -/
def engineRelaunch (s : State) (n : Nat) : State :=
  let x := slice s n
  if x.mode = 0 then engineFresh s n
  else
    setSlice s n { x with relaunch := true, modeWord := 0,
                          mode := if x.mode = 1 then 3 else x.mode,
                          held := if x.mode = 2 then some 0 else none }

/-- The soft reset of an `ENGINE` page (R161): no effect outside controller mode. -/
def engineReset (s : State) (n : Nat) : State :=
  let x := slice s n
  if x.mode ≠ 0 then s
  else
    -- a poisoned sector stays so until a pass writes it (R155)
    let s := setSlice s n { x with bflags := allResults.foldl Flags.clear x.bflags }
    clearFields s (engineP n)
      [ENGINE_HALTED, ENGINE_LAST_TAG, ENGINE_DESC, ENGINE_MATRIX_BYTES_LO, ENGINE_MATRIX_BYTES_HI, ENGINE_BUSY_CYC_LO,
        ENGINE_BUSY_CYC_HI, ENGINE_PAUSE_CYC_LO, ENGINE_PAUSE_CYC_HI, ENGINE_MODE_CYC_LO,
        ENGINE_MODE_CYC_HI, HDR_INT_RAW]

/-- A GO that leaving mode waits for: it came ahead of the mode write. -/
def WinOp.early : WinOp → Bool
  | .go _ late _ => !late
  | .put _ _ _ => false

/-- A GO that engine mode has come for. -/
def WinOp.onTime : WinOp → WinOp
  | .go w _ who => .go w false who
  | .put off bytes who => .put off bytes who

/-- Whether leaving mode can end: nothing that was ahead of the mode write is left. -/
def canLeave (x : Slice) : Bool := x.mode == 3 && x.run.isNone && !x.queue.any WinOp.early

/-- Owed refresh is repaid: every layer catches up (R142, R158). -/
def repayRefresh (s : State) (n : Nat) : State :=
  wr (refreshIntervals s n (rd s (engineP n) ENGINE_OWED)) (engineP n) ENGINE_OWED 0

/-- GOs that waited for an engine mode that does not come meet R150, and the writes among them take
effect. -/
def voidGos (s : State) (n : Nat) : State :=
  let x := slice s n
  let gos := x.queue.filterMap (fun o => match o with
    | .go w _ _ => some w
    | .put _ _ _ => none)
  let s := setSlice s n { x with queue := x.queue.filter (fun o => !o.isGo) }
  let s := gos.foldl (fun s w => emptyRun s n (goTag w) 7 5) s
  drainPuts s n (slice s n).queue.length

/-- Controller mode is reached (R142, R144, R156): owed refresh is repaid and HALTED clears. A held mode
write of 1 begins entering, or is refused; where engine mode does not come, what waited for it ends, and
the mode word reads 0 (R140). A relaunch leaves nothing of the buffers. -/
def leaveDone (s : State) (n : Nat) : State :=
  let x := slice s n
  let p := engineP n
  let s := wr (repayRefresh s n) p ENGINE_HALTED 0
  let s := setSlice s n { slice s n with mode := 0, held := none }
  let s := if rd s p HDR_STATE = 3 then
      let s := wr s p HDR_STATE 0
      if rd s p HDR_PEND_ENABLE = 1 then wr (wr s p HDR_STATE 1) p HDR_PEND_ENABLE 0 else s
    else s
  if x.held = some 1 && rd s p HDR_STATE == 2 then
    beginEnter (if x.relaunch then engineFresh s n else s) n
  else
    let s := voidGos s n
    let s := setSlice s n { slice s n with modeWord := 0 }
    let s := if x.held = some 1 then modeRefused s n else s
    if x.relaunch then engineFresh s n else s

/-- Time counted in a 64-bit counter of an `ENGINE` page where it has run; how long is a free value
(log entry 3). -/
def engineTime (s : State) (n : Nat) (lo hi : Fld) (ran : Bool) : State :=
  if ran then
    let c := freeNat s
    bump64 c.2 (engineP n) lo hi c.1
  else s

/-- A tile is fenced: its engine's run stops, its result lines are poisoned, owed refresh is repaid, and
the slice returns to controller mode (R143), where HALTED clears (R156). -/
def engineFence (s : State) (n : Nat) : State :=
  let x := slice s n
  let s := engineTime s n ENGINE_BUSY_CYC_LO ENGINE_BUSY_CYC_HI x.run.isSome
  let s := engineTime s n ENGINE_MODE_CYC_LO ENGINE_MODE_CYC_HI (x.mode != 0)
  let s := wr (wr (repayRefresh s n) (engineP n) ENGINE_PAUSED 0) (engineP n) ENGINE_HALTED 0
  let y := match x.run with
    | none => slice s n
    | some r => (r.descs.drop r.next).foldl poisonLines (slice s n)
  setSlice s n { y with run := none, queue := [], mode := 0, modeWord := 0, held := none,
                        relaunch := false }

end Sys2Proof.Machine
end

