-- ==== Sys2Proof/Machine/RunOps.lean ====
section
/-!
DEFINITION. Machine/RunOps.lean: starting and stopping a tile's schedule (R62, R65, R94, R61),
credits (R367), and hops across a die (R33, R99).
-/
namespace Sys2Proof.Machine

/-! ### Credits -/

/-- The key of a route's destination queue among a tile's credits (R367). -/
def routeKey (r : Route) : Nat :=
  16 * r.tile + r.queue + (if r.remote then 2 ^ 15 * (1 + r.x + 256 * r.y) else 0)

/-- A credit is owed for the queue key 16 × tile + queue: to a sending tile, or to another package,
which it leaves for. -/
def owe (s : State) (sender key : Nat) : State :=
  if sender < 2048 then
    let t := tile s sender
    setTile s sender { t with owed := t.owed ++ [key] }
  else emit s (.lineCredit ((sender - 2048) % 256) ((sender - 2048) / 256) (key / 16) (key % 16))

/-- The lines of every inbound queue are discarded, and the credits they hold are returned. -/
def dropInbound (s : State) (n : Nat) : State :=
  let t := tile s n
  let cs := t.inq.flatMap (fun q => creditsOf n q.1 q.2.lines)
  cs.foldl (fun s c => owe s c.1 c.2) (setTile s n { t with inq := [] })

/-! ### Stopping (R62) -/

/-- Every channel halted: its commands are discarded. -/
def haltChannels (t : Tile) : Tile :=
  { t with chans := (List.range 8).map (fun c =>
      (c, { t.chan c with cmds := [], unit := [], stopped := true })) }

/-- Channels halted and queues emptied. -/
def quietTile (s : State) (n : Nat) : State :=
  let s := dropInbound s n
  setTile s n { haltChannels (tile s n) with outq := [] }

/-- Whether an agenda entry is a register write, an accumulator row or a store, which may or may
not have landed when the tile stops. -/
def Act.mayLand (a : Act) : Bool :=
  match a with
  | .v _ _ _ _ | .p _ _ _ | .s _ _ | .acw _ _ _ | .row _ _ | .store _ _ _ | .vldLand _ _ _ _ => true
  | _ => false

/-- The entries of an agenda in the order in which they would come about. -/
def insertDue (p : Pend) : List Pend → List Pend
  | [] => [p]
  | q :: qs =>
    if p.due < q.due || (p.due == q.due && !p.act.isRow && q.act.isRow) then p :: q :: qs
    else q :: insertDue p qs
def inOrder (ps : List Pend) : List Pend := ps.foldl (fun l p => insertDue p l) []

/-- Results in flight when a tile stops: each lands whole or not at all, as a free choice says. `u` is
the tile in which everything lands, from which a result takes the lines that it reads. -/
def landSome (s : State) (n : Nat) (u : Tile) : List Pend → State
  | [] => s
  | p :: ps =>
    let c := freeBool s
    let t := tile c.2 n
    let s := if p.act.mayLand && c.1 then
        setTile c.2 n (doAct { t with bufs := u.bufs, runs := u.runs } p)
      else c.2
    landSome s n (doAct u p) ps

/-- The tile stops in the next tile cycle (R62). -/
def stopTile (s : State) (n : Nat) : State :=
  let s := landSome s n (tile s n) (inOrder (tile s n).agenda)
  let t := tile s n
  quietTile (setTile s n { t with
    agenda := [], runs := [], bufs := [], resv := [], lands := [], hold := none, retry := [],
    frozen := false, misroute := false, fetchEnd := false, trapping := false, runState := 5 }) n

/-- A soft reset of a `TILE` page (R62). -/
def softResetTile (s : State) (n : Nat) : State :=
  if tileFenced s n then s
  else if (tile s n).runState = 2 then stopTile s n
  else quietTile s n

/-! ### LAUNCH (R65, R94, R61) -/

/-- The scalar registers at LAUNCH. -/
def launchRegs (args : List Nat) (pos id : Nat) : SMap Word :=
  (List.range 8).map (fun i => (i + 1, BitVec.ofNat 32 (args.getD i 0)))
    ++ [(30, BitVec.ofNat 32 pos), (31, BitVec.ofNat 32 id)]

/-- A tile takes the state that LAUNCH gives it and runs. -/
def startTile (s : State) (n pos : Nat) (args : List Nat) : State :=
  let s := dropInbound s n
  let t := tile s n
  setTile s n { t with
    s := launchRegs args pos n, p := [], active := none, shadow := none,
    pc := 0, cyc := 0, phase := 0, duty := dieDuty s (tileDie n),
    loops := [], pendLoop := none, doneLoops := [], delay := 0, redirect := none,
    fetchEnd := false, trapping := false, hold := none, retry := [], misroute := false,
    arrayFree := 0, wportFree := 0, runs := [], agenda := [], resv := [], lands := [], bufs := [],
    outq := [], chans := [], ev := [], evSrc := [], evColl := [],
    qPoison := 0, linesIn := 0, linesOut := 0, cmdCount := 0,
    runState := 2, frozen := false, freezeCause := 0, fpFlags := 0,
    runCyc := 0, frozenCyc := 0, slipCyc := [], slipEvt := [] }

/-! ### Hops across a die (R33, R99) -/

/-- Whether the router at a physical position of a die has failed. -/
def routerFailed (s : State) (die row col : Nat) : Bool :=
  bitOf (SMap.getD s.dawn.routers (16 * die + row) 0) col

/-- The distance of two numbers. -/
def gap (a b : Nat) : Nat := max a b - min a b

/-- Hops of a straight east–west pass in a row from column `a` to column `b`: a failed router
between them counts as two. -/
def ewHops (s : State) (die row a b : Nat) : Nat :=
  gap a b + ((List.range 32).filter (fun c =>
    min a b < c && c < max a b && routerFailed s die row c)).length

/-- Whether a straight north–south pass in a column from row `a` to row `b` enters no failed
router. -/
def nsClear (s : State) (die col a b : Nat) : Bool :=
  (List.range 16).all (fun r => !(min a b ≤ r && r ≤ max a b && routerFailed s die r col))

/-- Physical hops from one router to another along `ORDER` (0 east–west first), or none where the
path enters a failed router in a way that R33 forbids. -/
def pathHops (s : State) (die : Nat) (a b : Nat × Nat) (northFirst : Bool) : Option Nat :=
  if routerFailed s die a.1 a.2 || routerFailed s die b.1 b.2 then none
  else if northFirst then
    if a.1 ≠ b.1 && !nsClear s die a.2 a.1 b.1 then none
    else some (gap a.1 b.1 + ewHops s die b.1 a.2 b.2)
  else
    if a.1 ≠ b.1 && !nsClear s die b.2 a.1 b.1 then none
    else some (ewHops s die a.1 a.2 b.2 + gap a.1 b.1)

/-- The physical position of a logical tile. -/
def tilePos (s : State) (n : Nat) : Nat × Nat :=
  (tileRow n, physCol s (tileDie n) (tileRow n) (tileCol n))

/-- The module edge of a logical tile: the router in row 0 of the same logical column (R99). -/
def edgePos (s : State) (n : Nat) : Nat × Nat := (0, physCol s (tileDie n) 0 (tileCol n))

/-- Whether the part of a route's path on this package keeps its hop counts and R33: check 7 of
R115 for tile `n` and a route whose local destination is `dest`. -/
def routeOk (s : State) (n : Nat) (r : Route) (dest : Nat) : Bool :=
  let kind := bitsOf r.path 14 2
  let srcH := bitsOf r.path 8 6
  let dstH := bitsOf r.path 2 6
  let north := bitOf r.path 1
  let within (h : Option Nat) (lim : Nat) : Bool :=
    match h with
    | some x => x ≤ lim
    | none => false
  if kind = 0 then
    tileDie dest == tileDie n
      && within (pathHops s (tileDie n) (tilePos s n) (tilePos s dest) north) srcH
  else if kind = 1 then
    tileDie dest != tileDie n
      && within (pathHops s (tileDie n) (tilePos s n) (edgePos s n) north) srcH
      && within (pathHops s (tileDie dest) (edgePos s dest) (tilePos s dest) north) dstH
  else within (pathHops s (tileDie n) (tilePos s n) (edgePos s n) north) srcH

end Sys2Proof.Machine
end

