-- ==== Sys2Proof/Machine/CplOps.lean ====
section
/-!
DEFINITION. Machine/CplOps.lean: the completion rings and host events (R248, R249, R252 to R254,
R258), and the end of a command.
-/
namespace Sys2Proof.Machine

/-! ### Status codes (R253) -/

def stOk : Nat := 0x00
def stUncorr : Nat := 0x05
def stBadCmd : Nat := 0x06
def stHostDma : Nat := 0x07
def stImgFormat : Nat := 0x10
def stImgSignature : Nat := 0x11
def stImgLevel : Nat := 0x12
def stImgTiles : Nat := 0x13
def stImgFenced : Nat := 0x14
def stImgYield : Nat := 0x15
def stImgRoute : Nat := 0x16
def stImgLayout : Nat := 0x17
def stImgNone : Nat := 0x18
def stTrapped : Nat := 0x20
def stTileLost : Nat := 0x21
def stDieLost : Nat := 0x22
def stSlipTimeout : Nat := 0x23
def stTileFenced : Nat := 0x24
def stStopped : Nat := 0x25
def stCollFailed : Nat := 0x30
def stEvtTimeout : Nat := 0x31
def stRespareNone : Nat := 0x32
def stNotIdle : Nat := 0x33
def stAborted : Nat := 0x34

/-! ### The rings -/

/-- Entries of a ring whose size field holds `k`. -/
def ringEntries (k : Nat) : Nat := 2 ^ k

def cmdEntries (s : State) (d : Nat) : Nat := ringEntries (rd s (cmdprocP d) CMDPROC_CMD_SIZE)
def cplEntries (s : State) (d : Nat) : Nat := ringEntries (rd s (cmdprocP d) CMDPROC_CPL_SIZE)

/-- The host address of a completion-ring entry. -/
def cplAddr (s : State) (d i : Nat) : Nat :=
  (rd s (cmdprocP d) CMDPROC_CPL_BASE_LO + 2 ^ 32 * rd s (cmdprocP d) CMDPROC_CPL_BASE_HI + 16 * i)
    % 2 ^ 64
def cmdAddr (s : State) (d i : Nat) : Nat :=
  (rd s (cmdprocP d) CMDPROC_CMD_BASE_LO + 2 ^ 32 * rd s (cmdprocP d) CMDPROC_CMD_BASE_HI + 64 * i)
    % 2 ^ 64

/-- Whether the completion ring has no free entry (R249). -/
def cplFull (s : State) (d : Nat) : Bool :=
  (rd s (cmdprocP d) CMDPROC_CPL_TAIL + 1) % cplEntries s d == rd s (cmdprocP d) CMDPROC_CPL_HEAD

/-- A stall is counted once until `CPL_HEAD` moves (DEDUCED, log entry 21). -/
def countStall (s : State) (d : Nat) : State :=
  let x := proc s d
  if x.stalled then s else bump (setProc s d { x with stalled := true }) (cmdprocP d) CMDPROC_CPL_STALLS

/-- Vector 0 fires (R258). -/
def fireVector0 (s : State) (d : Nat) : State :=
  sendVector (setProc s d { proc s d with moderated := 0 }) d 0

/-- An entry of kind command is waiting: vector 0 fires at the count of `MODERATION`, or at once
for a count or a timer of 0, or a command with `IRQ` (R258). -/
def moderate (s : State) (d : Nat) (irq : Bool) : State :=
  let x := proc s d
  let c := rd s (cmdprocP d) CMDPROC_COUNT
  if irq || c = 0 || rd s (cmdprocP d) CMDPROC_TIMER_US = 0 || x.moderated + 1 ≥ c then fireVector0 s d
  else setProc s d { x with moderated := x.moderated + 1 }

/-- The block is OFF once nothing runs after a refused completion write (R248); one that drains is OFF
when its drain ends. -/
def brokenOff (s : State) (d : Nat) : State :=
  let x := proc s d
  if x.broken && x.running.isEmpty && rd s (cmdprocP d) HDR_STATE == 2 then
    wr s (cmdprocP d) HDR_STATE 0
  else s

/-- Host memory refused a request of a port (chapter 10). -/
def hostRefused (s : State) (port : Nat) : State :=
  raise (lastErr s (hostportP port) 7) (hostportP port) 3

/-- One entry is written at `CPL_TAIL`, or refused by host memory (R248, R252). -/
def writeEntry (s : State) (d : Nat) (e : CplEntry) : State :=
  let p := cmdprocP d
  let x := proc s d
  let i := rd s p CMDPROC_CPL_TAIL
  if x.refuse then
    let a := cplAddr s d i
    let s := setProc (hostRefused s d) d { x with broken := true, held := [] }
    brokenOff (raise (logErr s p 7 (a % 2 ^ 32) (a / 2 ^ 32) 0) p 2) d
  else
    let bytes := e.bytes.set 6 (BitVec.ofNat 8 (e.kind + 128 * x.phase))
    let j := (i + 1) % cplEntries s d
    let s := emit (wr s p CMDPROC_CPL_TAIL j) (.completion d i bytes)
    let s := if j = 0 then setProc s d { x with phase := 1 - x.phase } else s
    let s := raise s p 0
    let s := if cplFull s d then raise s p 3 else s
    if e.kind = 1 then sendVector (raise s p 1) d 1
    else if e.kind = 2 then deliver1 (wr s plazaP PLAZA_NOTICE_PEND 1 d) d 3
    else moderate s d e.irq

/-- An entry is posted, or waits for room behind those that wait (R248). -/
def postEntry (s : State) (d : Nat) (e : CplEntry) : State :=
  let x := proc s d
  if x.broken then s
  else if !x.held.isEmpty || cplFull s d then
    countStall (setProc s d { x with held := x.held ++ [e] }) d
  else writeEntry s d e

/-- Entries that wait are posted while there is room. -/
def postHeld (s : State) (d : Nat) : Nat → State
  | 0 => s
  | k + 1 =>
    let x := proc s d
    match x.held with
    | [] => s
    | e :: rest =>
      if x.broken then s
      else if cplFull s d then countStall s d
      else postHeld (writeEntry (setProc s d { x with held := rest }) d e) d k

/-- The 16 bytes of an entry, PHASE 0 (R252). -/
def cplBytes (tag status opcode kind data : Nat) : List Byte :=
  leBytes 4 tag ++ leBytes 1 status ++ leBytes 1 opcode ++ leBytes 1 kind ++ leBytes 1 0
    ++ leBytes 8 data

/-- A District notice (R257). -/
def postNotice (s : State) (d status data : Nat) : State :=
  postEntry s d ⟨cplBytes 0 status 0xFF 2 data, 2, false⟩

/-! ### The end of a command -/

/-- The completion of a command is counted and posted. -/
def complete (s : State) (d op : Nat) (h : CmdHdr) (status data : Nat) : State :=
  let p := cmdprocP d
  let s := if status = stOk then bump s p CMDPROC_CMDS_DONE else bump s p CMDPROC_CMDS_FAILED
  let s := if status = stBadCmd then lastErr s p 1
    else if status = stHostDma then lastErr s p 2 else s
  postEntry s d ⟨cplBytes h.tag status op 0 data, 0, h.irq⟩

/-- An error of R23 or R24 that a command completes with is counted and logged at its address (R29). -/
def refuseAt (s : State) (d a e : Nat) : State := if 1 ≤ e && e ≤ 4 then refuse s d a e else s

/-- The job of a sequence number. -/
def jobOf (s : State) (d seq : Nat) : Option Job := (proc s d).running.find? (fun j => j.seq == seq)

/-- A job leaves the list of those running. -/
def dropJob (s : State) (d seq : Nat) : State :=
  let x := proc s d
  setProc s d { x with running := x.running.filter (fun j => j.seq != seq) }

/-- A job is replaced by another state of it. -/
def setJob (s : State) (d : Nat) (j : Job) : State :=
  let x := proc s d
  setProc s d { x with running := x.running.map (fun k => if k.seq == j.seq then j else k) }

/-- A running job completes. -/
def finishJob (s : State) (d : Nat) (j : Job) (status data : Nat) : State :=
  let s := dropJob s d j.seq
  brokenOff (complete s d j.op j.hdr status data) d

/-- A running job completes with a status that may be an error of R23 or R24, at address `data` (R29,
R253). -/
def failJob (s : State) (d : Nat) (j : Job) (status data : Nat) : State :=
  finishJob (refuseAt s d data status) d j status data

/-- Whether a District is idle: no LAUNCH, collective, WAIT_EVENT or DMA command is in progress, nor a
collective that its tiles posted (R244). -/
def distIdle (s : State) (d : Nat) : Bool :=
  (proc s d).running.all (fun j => match j.work with
    | .respare _ _ => true
    | _ => false) && s.colls.all (fun c => c.dist != d)

/-! ### Host events (R254) -/

/-- WAIT_EVENT jobs whose counter suffices complete. -/
def pollWaits (s : State) (d : Nat) : State :=
  (proc s d).running.foldl (fun s j =>
    match j.work with
    | .waitEvt e c _ =>
      let v := rd s (districtP d) DISTRICT_HEVT e
      if v ≥ c then finishJob (wr s (districtP d) DISTRICT_HEVT (v - c) e) d j stOk 0 else s
    | _ => s) s

/-- A host event counter of a District gains 1 (R254). -/
def hostEvent (s : State) (d e : Nat) : State :=
  let p := districtP d
  let s := bump s p DISTRICT_HEVT 1 e
  let v := rd s p DISTRICT_HEVT e
  let s := if bitOf (rd s p DISTRICT_EVT_NOTIFY (e / 32)) (e % 32) then
      postEntry s d ⟨cplBytes 0 0 0xFF 1 (e + 2 ^ 32 * v), 1, false⟩
    else s
  pollWaits s d

/-! ### The end of a launch (R116) -/

/-- The District whose running launch holds a tile that has not ended under it, and the job. -/
def launchOf (s : State) (n : Nat) : Option (Nat × Job) :=
  (List.range 4).findSome? (fun d =>
    ((proc s d).running.find? (fun j => match j.work with
      | .launch _ im _ _ es => im.tiles.contains n && (SMap.find es (im.tiles.idxOf n)).isNone
      | _ => false)).map (fun j => (d, j)))

/-- The first position whose tile ended in run state `k`, with its trap cause. -/
def firstEnded (es : SMap (Nat × Nat)) (k : Nat) : Option (Nat × Nat) :=
  (es.find? (fun x => x.2.1 == k)).map (fun x => (x.1, x.2.2))

/-- A launch completes once every tile has ended (R116). -/
def launchPoll (s : State) (d : Nat) (j : Job) : State :=
  match j.work with
  | .launch _ im _ true es =>
    let ts := im.tiles
    if es.length < ts.length then s
    else match firstEnded es 4 with
      | some x => finishJob s d j stTrapped (ts.getD x.1 0 + 2 ^ 16 * x.1 + 2 ^ 32 * x.2)
      | none =>
        match firstEnded es 5 with
        | some x => finishJob s d j stStopped (ts.getD x.1 0 + 2 ^ 16 * x.1)
        | none => finishJob s d j stOk 0
  | _ => s

/-- A tile has completed, trapped or stopped: its launch keeps how, whatever becomes of the tile later. -/
def tileEnded (s : State) (n : Nat) : State :=
  match launchOf s n with
  | some (d, j) =>
    match j.work with
    | .launch slot im args true es =>
      let t := tile s n
      if t.runState = 2 then s
      else
        let es := SMap.put es (im.tiles.idxOf n) (t.runState, t.trapCause)
        let j := { j with work := .launch slot im args true es }
        launchPoll (setJob s d j) d j
    | _ => s
  | none => s

/-- The image slot of a launch. -/
def launchSlot (j : Job) : Option Nat :=
  match j.work with
  | .launch slot _ _ _ _ => some slot
  | _ => none

/-- Whether a launch has a tile that trapped or was stopped. -/
def launchBad (j : Job) : Bool :=
  match j.work with
  | .launch _ _ _ _ es => (firstEnded es 4).isSome || (firstEnded es 5).isSome
  | _ => false

/-- The command processor stops every other tile of a launch and completes it (R110). -/
def endLaunch (s : State) (d : Nat) (j : Job) (status data : Nat) : State :=
  match j.work with
  | .launch _ im _ _ es =>
    let s := im.tiles.zipIdx.foldl (fun s x =>
      if (SMap.find es x.2).isNone && (tile s x.1).runState = 2 then stopTile s x.1 else s) s
    finishJob s d j status data
  | _ => s

end Sys2Proof.Machine
end

