-- ==== Sys2Proof/Machine/LinkOps.lean ====
section
/-!
DEFINITION. Machine/LinkOps.lean: the link layer of the optical links: lanes, rounds and side units
(R194), flits and their codes (R195 to R197), link words (R198), go-back-N replay (R199, R200), and
identity words (R192).
-/
namespace Sys2Proof.Machine

def link (s : State) (l : Nat) : Link := SMap.getD s.links l {}
def setLink (s : State) (l : Nat) (x : Link) : State := { s with links := SMap.put s.links l x }
def crossing (s : State) (e : Nat) : Cross := SMap.getD s.crossings e {}
def setCrossing (s : State) (e : Nat) (x : Cross) : State :=
  { s with crossings := SMap.put s.crossings e x }

/-! ### Names of links -/

def isAlley (l : Nat) : Bool := l < 16
/-- The engine of a link. -/
def linkEngine (l : Nat) : Nat := if l < 16 then l / 4 else (l - 16) / 32
/-- The direction of an Alley, and the line of a Boulevard lane. -/
def linkDir (l : Nat) : Nat := l % 4
def linkLine (l : Nat) : Nat := (l - 16) % 32
def blvdLink (e k : Nat) : Nat := 16 + 32 * e + k

/-- The page that counts for a link. -/
def linkPage (l : Nat) : PageId := if isAlley l then alleyP l else blvdP (linkEngine l)

/-- The opposite direction: north and south, east and west. -/
def opposite (d : Nat) : Nat := (d + 2) % 4

/-- The package's Square port (R189). -/
def squarePort (s : State) (e : Nat) : Nat := rd s (blvdP e) BLVD_SQUARE_PORT

/-- The Square port that line `k` of a package at port `p` reaches, and that it hears (R188). -/
def peerOut (p k : Nat) : Nat := (p + k) % 32
def peerIn (p k : Nat) : Nat := (p + 32 - k % 32) % 32

/-- The link on which the peer that a link is received from is answered: an Alley itself; for
Boulevard line k, heard from port p − k, line 32 − k (R188). -/
def revLink (l : Nat) : Nat :=
  if isAlley l then l else blvdLink (linkEngine l) ((32 - linkLine l) % 32)

/-- Active lanes of an Alley. -/
def txWidth (s : State) (l : Nat) : Nat := popCount 32 (rd s (alleyP l) ALLEY_TX_LANES)
def rxWidth (s : State) (l : Nat) : Nat := popCount 32 (rd s (alleyP l) ALLEY_RX_LANES)

/-- Whether an Alley carries data in some direction: up, retraining or draining. -/
def alleyUp (s : State) (l : Nat) : Bool :=
  let st := rd s (alleyP l) ALLEY_LSTATE
  st == 2 || st == 3 || st == 4

/-- An Alley retrains: releases and grants wait (R185). -/
def alleyRetrains (s : State) (l : Nat) : Bool :=
  let st := rd s (alleyP l) ALLEY_LSTATE
  st == 3 || (st == 4 && ((link s l).txTrain || (link s l).rxTrain))

/-- An Alley whose last fibre is being released: it sends nothing new (R184). -/
def draining (s : State) (l : Nat) : Bool := isAlley l && rd s (alleyP l) ALLEY_LSTATE == 4

def lineState (s : State) (e k : Nat) : Nat := rd s (blvdP e) BLVD_LINE_STATE k
def lineDark (s : State) (e k : Nat) : Bool := bitOf (rd s (oeP e) OE_ELS_DARK) k

/-- Whether an engine's Boulevard is in service and configured (R189). -/
def blvdServes (s : State) (e : Nat) : Bool :=
  rd s (blvdP e) BLVD_UP == 1 && rd s (blvdP e) BLVD_CFG_VALID == 1

/-- Whether line `k` of an engine may be modulated with data: not the pilot, lit, and its bit of
`TX_ENABLE` set (R188, R189). -/
def lineMaySend (s : State) (e k : Nat) : Bool :=
  k != 0 && blvdServes s e && bitOf (rd s (blvdP e) BLVD_TX_ENABLE) k && !lineDark s e k

/-- Whether the transmit direction of a link is in service. Each direction runs on its own (R183,
R188): an Alley's while it has 4 lanes, a Boulevard line's once the peer's receiver has trained it. -/
def txUp (s : State) (l : Nat) : Bool :=
  (link s l).txOn
    && (if isAlley l then alleyUp s l else lineMaySend s (linkEngine l) (linkLine l))

/-- Whether the receive direction of a link is in service. -/
def rxUp (s : State) (l : Nat) : Bool :=
  if isAlley l then (link s l).rxOn && alleyUp s l
  else linkLine l != 0 && rd s (blvdP (linkEngine l)) BLVD_UP == 1
    && lineState s (linkEngine l) (linkLine l) == 2

/-- The mesh direction of an Alley, or 4 + the Square port of the peer a Boulevard lane reaches. -/
def linkPort (s : State) (l : Nat) : Nat :=
  if isAlley l then linkDir l else 4 + peerOut (squarePort s (linkEngine l)) (linkLine l)

/-- The mesh direction, or 4 + the Square port, of the peer that a link is received from. -/
def rxPort (s : State) (l : Nat) : Nat :=
  if isAlley l then linkDir l else 4 + peerIn (squarePort s (linkEngine l)) (linkLine l)

/-- The links of a port, one for each engine, and those of them that take new packets. -/
def portAll (s : State) (port : Nat) : List Nat :=
  if port < 4 then (List.range 4).map (fun e => 4 * e + port)
  else (List.range 4).map (fun e => blvdLink e ((port - 4 + 32 - squarePort s e) % 32))
def portLinks (s : State) (port : Nat) : List Nat :=
  (portAll s port).filter (fun l => txUp s l && !draining s l)

/-- The links of a port that new work goes to: those whose page is ON; where none is, any (R297; DESIGN
CHOICE, log entry 52). -/
def newLinks (s : State) (port : Nat) : List Nat :=
  let on := (portLinks s port).filter (fun l => rd s (linkPage l) HDR_STATE == 2)
  if on.isEmpty then portLinks s port else on

/-- The link that the hash of R183, weighted by width, or of R188 gives a flow. -/
def hashLink (s : State) (port flow : Nat) : Option Nat :=
  let ls := newLinks s port
  let ws := ls.map (fun l => if isAlley l then txWidth s l else 1)
  let total := ws.foldl (fun a b => a + b) 0
  let rec go (h : Nat) : List (Nat × Nat) → Option Nat
    | [] => ls.head?
    | (l, w) :: rest => if h < w then some l else go (h - w) rest
  if total = 0 then none else go (Config.flowHash flow % total) (ls.zip ws)

def flowKey (port flow : Nat) : Nat := 64 * flow + port

/-- Whether a flow keeps the link that it uses, so that its order is kept (R183, R188): the link takes
packets, or its flits are being handed over; after a handover, or when its page drains, until what it
was given has been acknowledged (R204, R297; DESIGN CHOICE, log entries 52 and 79). -/
def keepsLink (s : State) (port : Nat) (a : Nat × Bool) : Bool :=
  let x := link s a.1
  x.handing || (draining s a.1 && x.txOn)
    || ((portLinks s port).contains a.1
      && !((a.2 || !(newLinks s port).contains a.1) && x.retry.isEmpty && x.txq.isEmpty))

/-- The link of a port that a flow uses: the one it has, or else the one that the hash gives it. -/
def flowLink (s : State) (port flow : Nat) : Option Nat :=
  match SMap.find s.topo.flows (flowKey port flow) with
  | some a => if keepsLink s port a then some a.1 else hashLink s port flow
  | none => hashLink s port flow

/-- A flow is noted at the link that it uses. -/
def pinFlow (s : State) (port flow l : Nat) : State :=
  match SMap.find s.topo.flows (flowKey port flow) with
  | some a => if a.1 = l then s
    else { s with topo := { s.topo with flows := SMap.put s.topo.flows (flowKey port flow) (l, false) } }
  | none => { s with topo := { s.topo with flows := SMap.put s.topo.flows (flowKey port flow) (l, false) } }

/-! ### Flits (R195 to R197) -/

/-- The two check symbols of 62 bytes: the remainder of division by (x − 1)(x − α) = x² + 3x + 2. -/
def fecCheck (data : List Byte) : Nat × Nat :=
  data.foldl (fun r d =>
    let f := r.1 ^^^ d.toNat
    (r.2 ^^^ gfMul f 3, gfMul f 2)) (0, 0)

/-- Syndrome S_i of 64 symbols, byte 0 the highest-order. -/
def fecSyndrome (i : Nat) (bytes : List Byte) : Nat :=
  bytes.foldl (fun s b => gfMul s (gfPow i) ^^^ b.toNat) 0

/-- The flit after the code has corrected a single bad byte, and the byte that it corrected (R196). -/
def fecCorrect (bytes : List Byte) : List Byte × Option Nat :=
  let s0 := fecSyndrome 0 bytes
  let s1 := fecSyndrome 1 bytes
  if s0 = 0 then (bytes, none)
  else match (List.range 64).find? (fun j => s1 == gfMul s0 (gfPow (63 - j))) with
    | some j => (bytes.set j (bytes.getD j 0 ^^^ BitVec.ofNat 8 s0), some j)
    | none => (bytes, none)

/-- The link prefix of R197 for what this package sends. -/
def txPrefix (s : State) (l : Nat) : Nat :=
  let e := linkEngine l
  if isAlley l then e + 4 * linkDir l
  else
    let p := squarePort s e
    rd s (blvdP e) BLVD_SQUARE_GROUP + 2 ^ 12 * p + 2 ^ 17 * peerOut p (linkLine l)
      + 2 ^ 22 * e + 2 ^ 31

/-- The link prefix of R197 that the receiver of a link expects. -/
def rxPrefix (s : State) (l : Nat) : Nat :=
  let e := linkEngine l
  if isAlley l then e + 4 * opposite (linkDir l)
  else
    let p := squarePort s e
    rd s (blvdP e) BLVD_SQUARE_GROUP + 2 ^ 12 * peerIn p (linkLine l) + 2 ^ 17 * p
      + 2 ^ 22 * e + 2 ^ 31

/-- A flit from its payload and SEQ. -/
def makeFlit (pre seq : Nat) (payload : List Byte) : List Byte :=
  let body := payload ++ leBytes 2 seq
  let data := body ++ leBytes 4 (crc32 (leBytes 4 pre ++ body))
  let c := fecCheck data
  data ++ leBytes 1 c.1 ++ leBytes 1 c.2

/-- Whether a flit's CRC is good. -/
def flitGood (pre : Nat) (bytes : List Byte) : Bool :=
  leAt bytes 58 4 == crc32 (leBytes 4 pre ++ bytes.take 58)

/-- Data SEQs count modulo 65,535. -/
def seqNext (n : Nat) : Nat := (n + 1) % 65535

/-- The flits a retry buffer holds (R199). -/
def retryLimit (l : Nat) : Nat := if isAlley l then 1024 else 256

/-- The flits of a receive buffer (R198), which is the credit a link starts with. -/
def rxBuffer (l : Nat) : Nat := if isAlley l then 2048 else 128

/-! ### Lanes and rounds (R194) -/

/-- The active lanes of a link, in ascending order: those sent on and those received on. A Boulevard
lane is lane 0 of its link. -/
def txLanes (s : State) (l : Nat) : List Nat :=
  if isAlley l then bitList 32 (rd s (alleyP l) ALLEY_TX_LANES) else [0]
def rxLanes (s : State) (l : Nat) : List Nat :=
  if isAlley l then bitList 32 (rd s (alleyP l) ALLEY_RX_LANES) else [0]

/-- The lanes of an Alley change, at a round boundary. -/
def setTxLanes (s : State) (l m : Nat) : State :=
  setLink (wr s (alleyP l) ALLEY_TX_LANES m) l { link s l with txSlot := 0 }
def setRxLanes (s : State) (l m : Nat) : State :=
  setLink (wr s (alleyP l) ALLEY_RX_LANES m) l { link s l with rxSlot := 0 }

/-- Of `n` active lanes, the index of the one that unit `u` of the flit in place `slot` of its round
travels on. -/
def unitLane (n slot u : Nat) : Nat := (32 * slot + u) % n

/-- The units of a flit that travel on the `i`-th of `n` active lanes, in order. -/
def laneUnits (n slot i : Nat) (flit : List Byte) : List Nat :=
  ((List.range 32).filter (fun u => unitLane n slot u == i)).map (fun u => leAt flit (2 * u) 2)

/-- The units of a flit on each of `n` active lanes. -/
def stripe (n slot : Nat) (flit : List Byte) : List (List Nat) :=
  (List.range n).map (fun i => laneUnits n slot i flit)

/-- The flit whose units `n` active lanes carry. -/
def unstripe (n slot : Nat) (lanes : List (List Nat)) : List Byte :=
  (List.range 32).flatMap (fun u =>
    leBytes 2 ((lanes.getD (unitLane n slot u) []).getD (u / n) 0))

/-- A round's side units leave, that of the i-th active lane `k` being `unit i k`. -/
def sendRound (s : State) (l : Nat) (lanes : List Nat) (unit : Nat → Nat → Nat) : State :=
  let x := link s l
  setLink (emit s (.sides l x.round (lanes.zipIdx.map (fun k => (k.1, unit k.2 k.1)))))
    l { x with round := x.round + 1 }

/-- A side unit of a kind (0 link word, 1 identity, 2 training) with 14 bits of a word: the lowest
first (DESIGN CHOICE, log entry 141). -/
def sideUnit (kind word part : Nat) : Nat := 2 ^ 14 * kind + bitsOf word (14 * part) 14

/-- The word that four side units of a kind hold. -/
def sidesWord (kind : Nat) (x : Sides) : Option Nat :=
  let us := [x.a.toNat, x.b.toNat, x.c.toNat, x.d.toNat]
  if us.all (fun u => u / 2 ^ 14 == kind) then
    some (us.zipIdx.foldl (fun w u => w + 2 ^ (14 * u.2) * (u.1 % 2 ^ 14)) 0)
  else none

/-- A 56-bit word with its CRC-8 over the low 48 bits (R192, R198). -/
def withCheck (w : Nat) : Nat := w % 2 ^ 48 + 2 ^ 48 * crc8 (leBytes 6 w)
def checkGood (w : Nat) : Bool := w / 2 ^ 48 % 256 == crc8 (leBytes 6 (w % 2 ^ 48))

/-- The low 16 bits of the package's serial digest. -/
def ownTag (s : State) : Nat := leAt (digestBytes (sm3 (leBytes 8 (pkgSerial s)))) 0 2

/-- The identity word that the package sends on a lane (R192). -/
def ownIdentity (s : State) (l lane : Nat) : Nat :=
  let e := linkEngine l
  withCheck (ownTag s + 2 ^ 16 * e + (if isAlley l then
      2 ^ 18 * (4 * linkDir l + lane / 8) + 2 ^ 22 * (lane % 8)
    else 2 ^ 22 * linkLine l + 2 ^ 27 + 2 ^ 28 * squarePort s e))

/-- Every how many rounds a marker window comes. -/
def markerPeriod (l : Nat) : Nat := if isAlley l then 256 else 4096

/-- The link word that a link sends now: its message, and what the receiver `r` of the peer's direction
acknowledges and returns (R198). -/
def linkWordOf (x r : Link) : Nat :=
  let ack := (r.expect + 65534) % 65535
  let m := x.msg.getD (0, 0)
  withCheck (ack + 2 ^ 16 * ofBool r.any + 2 ^ 17 * ofBool (r.nak && r.nakDue) + 2 ^ 18 * min 63 (r.freed / 448)
    + 2 ^ 24 * m.1 + 2 ^ 28 * (m.2 % 2 ^ 20))

/-- A link's next link word is made, to be sent in parts; the credit that it returns is spent, and the `NAK` that
was due is in it (R199). -/
def makeWord (s : State) (l : Nat) : State :=
  let r := link s (revLink l)
  let w := linkWordOf (link s l) r
  let s := setLink s (revLink l) { r with
    freed := r.freed - 448 * min 63 (r.freed / 448), nakDue := false }
  setLink s l { link s l with word := w }

/-- Whether a link word begins in the round that a link has come to: it is none of a marker window, and on
a Boulevard lane a word takes four rounds. -/
def wordBegins (l : Nat) (x : Link) : Bool :=
  4 ≤ x.round % markerPeriod l && (isAlley l || x.round % 4 == 0)

/-- The side units of one round of a link in service: in a marker window a part of each lane's own identity
word; else the link word, whole on an Alley's four lowest active lanes, or its next part on a Boulevard
lane (R194). -/
def sendSides (s : State) (l : Nat) : State :=
  let k := (link s l).round % markerPeriod l
  if k < 4 then sendRound s l (txLanes s l) (fun _ i => sideUnit 1 (ownIdentity s l i) k)
  else
    let s := if wordBegins l (link s l) then makeWord s l else s
    let w := (link s l).word
    sendRound s l (txLanes s l) (fun i _ =>
      if isAlley l then if i < 4 then sideUnit 0 w i else 0 else sideUnit 0 w (k % 4))

/-- A link word leaves; the rest of the one before it, and a marker window where it is due, come first. -/
def sendLinkWord (s : State) (l : Nat) : State :=
  let s := (List.range 7).foldl (fun s _ => if wordBegins l (link s l) then s else sendSides s l) s
  (List.range (if isAlley l then 1 else 4)).foldl (fun s _ => sendSides s l) s

/-- A flit leaves, its units striped over the active lanes; a round of n lanes carries n flits, and its side
units leave with the last. -/
def sendFlit (s : State) (l seq : Nat) (payload : List Byte) : State :=
  let x := link s l
  let lanes := txLanes s l
  let slot := (x.txSlot + 1) % lanes.length
  let flit := makeFlit (txPrefix s l) seq payload
  let s := emit s (.flit l seq (lanes.zip (stripe lanes.length x.txSlot flit)))
  let s := setLink s l { x with txSlot := slot }
  if slot = 0 then sendSides s l else s

/-- The version pair of the link protocol, laid out as in `BLK_VER`: 1.0 in both (R348). -/
def linkVersions : Nat := 0x01000100

/-- Whether a partner's version pair, so laid out, has 1.0 in its range (R348). -/
def sharesVersion (v : Nat) : Bool := v % 2 ^ 16 ≤ 0x100 && 0x100 ≤ v / 2 ^ 16

/-- A training pattern with the version pair (R348; DESIGN CHOICE, log entry 181), and the identity words, on
lanes that train (R191, R200), four rounds of each; the link word that a Boulevard lane has begun ends
first. -/
def sendTraining (s : State) (l : Nat) (lanes : List Nat) : State :=
  let s := (List.range 3).foldl (fun s _ =>
    if isAlley l || (link s l).round % 4 == 0 then s else sendSides s l) s
  let s := (List.range 4).foldl (fun s j =>
    sendRound s l lanes (fun _ _ => sideUnit 2 linkVersions j)) s
  (List.range 4).foldl (fun s j =>
    sendRound s l lanes (fun _ k => sideUnit 1 (ownIdentity s l k) j)) s

/-! ### What waits to be sent (R199, R213) -/

/-- Whether flits leave on a link: its transmit direction is in service and does not retrain; and
whether new ones do. -/
def linkSends (s : State) (l : Nat) : Bool := txUp s l && !(link s l).txTrain
def linkRuns (s : State) (l : Nat) : Bool := linkSends s l && !draining s l

/-- The first `n` bytes of a stream of packets, what follows them, and whether they end inside a
packet. -/
def takeStream : Nat → List (List Byte) → List Byte × List (List Byte) × Bool
  | _, [] => ([], [], false)
  | n, p :: q =>
    if n = 0 then ([], p :: q, false)
    else if p.length ≤ n then
      let r := takeStream (n - p.length) q
      (p ++ r.1, r.2)
    else (p.take n, p.drop n :: q, true)

/-- Bytes filled up to whole payloads of 56 with zero bytes (DESIGN CHOICE, log entry 22). -/
def fillUp (bs : List Byte) : List Byte := bs ++ List.replicate ((56 - bs.length % 56) % 56) 0

/-- How many payloads a link's waiting packets make at most. -/
def pumpFuel (x : Link) : Nat := x.txq.flatten.length / 56 + 2

/-- Waiting packets are sent, end to end in the payloads, while credit is left; while the retry buffer
is full an idle flit goes out instead (R199). The payload with the last waiting byte is filled up. -/
def pumpLink (s : State) (l : Nat) : Nat → State
  | 0 => s
  | k + 1 =>
    let x := link s l
    if x.txq.isEmpty || !linkRuns s l then s
    else if x.retry.length ≥ retryLimit l then sendFlit s l 0xFFFF (List.replicate 56 0)
    else if x.credit = 0 then s
    else
      let r := takeStream 56 x.txq
      let pl := fillUp r.1
      let s := setLink s l { x with
        txq := r.2.1, mid := r.2.2, retry := x.retry ++ [(x.next, pl)], next := seqNext x.next,
        made := x.made + 1, credit := x.credit - 1 }
      let s := if isAlley l then bump64 s (alleyP l) ALLEY_FLITS_TX_LO ALLEY_FLITS_TX_HI
        else bump64 s (blvdP (linkEngine l)) BLVD_FLITS_TX_LO BLVD_FLITS_TX_HI
      pumpLink (sendFlit s l x.next pl) l k

/-- A packet is handed to a link, to follow what waits (R213). -/
def sendOnLink (s : State) (l : Nat) (bytes : List Byte) : State :=
  let x := link s l
  let x := { x with txq := x.txq ++ [bytes] }
  pumpLink (setLink s l x) l (pumpFuel x)

/-- The packet at the front of a link's delivered stream and what follows it; zero bytes between
packets are filler, since no packet's TYPE is 0. -/
def nextPacket (rx : List Byte) : Option (List Byte × List Byte) :=
  let rx := rx.dropWhile (fun b => b == 0)
  if rx.length < 16 then none
  else
    let ty := leAt rx 0 1 % 16
    let n := if ty = 2 || ty = 4 then 16 else 16 + 64 * (bitsOf (leAt rx 0 2) 4 6 + 1)
    if rx.length < n then none else some (rx.take n, rx.drop n)

/-- The length of the whole packets at the front of a stream. -/
def wholeLen : Nat → List Byte → Nat
  | 0, _ => 0
  | k + 1, rx => match nextPacket rx with
    | some (_, rest) => rx.length - rest.length + wholeLen k rest
    | none => 0

/-- The whole packets of a stream, and the beginning of a packet that follows them. -/
def splitStream (rx : List Byte) : List Byte × List Byte :=
  let n := wholeLen (rx.length / 16 + 1) rx
  (rx.take n, (rx.drop n).dropWhile (fun b => b == 0))

/-! ### Replay (R199, R200) -/

/-- An Alley shows that it retrains. -/
def showRetrain (s : State) (l : Nat) : State :=
  if isAlley l then
    let s := bump s (alleyP l) ALLEY_RETRAINS
    if rd s (alleyP l) ALLEY_LSTATE = 2 then wr s (alleyP l) ALLEY_LSTATE 3 else s
  else s

/-- The transmit direction of a link retrains: data stops, and a training pattern goes out on every
active lane. -/
def retrainTx (s : State) (l : Nat) : State :=
  let x := link s l
  if x.txTrain || !txUp s l then s
  else sendTraining (showRetrain (setLink s l { x with txTrain := true }) l) l (txLanes s l)

/-- The receive direction of a link retrains. -/
def retrainRx (s : State) (l : Nat) : State :=
  let x := link s l
  if x.rxTrain || !rxUp s l then s else showRetrain (setLink s l { x with rxTrain := true }) l

/-- Every unacknowledged flit is sent again, in order. -/
def resendAll (s : State) (l : Nat) : State :=
  let x := link s l
  let s := if isAlley l then
      bump64 s (alleyP l) ALLEY_REPLAY_FLITS_LO ALLEY_REPLAY_FLITS_HI x.retry.length
    else s
  x.retry.foldl (fun s f => sendFlit s l f.1 f.2) s

/-- A replay; the sixteenth within 40 µs makes the direction retrain. -/
def replayLink (s : State) (l : Nat) : State :=
  let x := link s l
  let p := linkPage l
  let recent := (s.dusk.us :: x.replays).filter (fun t => t + 40 > s.dusk.us)
  let s := bump (setLink s l { x with replays := recent.take 16, replaying := true }) p
    HDR_ERR_RETRY_COUNT
  if recent.length ≥ 16 then
    let s := setLink s l { link s l with replays := [] }
    retrainTx (if isAlley l then lastErr s p 1 else s) l
  else resendAll s l

/-- Acknowledged flits leave the retry buffer. -/
def ackLink (x : Link) (seq : Nat) : Link :=
  match x.retry.findIdx? (fun f => f.1 == seq) with
  | some i => { x with retry := x.retry.drop (i + 1), replaying := false }
  | none => x

/-! ### Link words (R198) and identity words (R192) -/

/-- A link word is sent on a link. A Boulevard line that may not be modulated sends none. -/
def sendWord (s : State) (l : Nat) : State :=
  if !isAlley l && !lineMaySend s (linkEngine l) (linkLine l) then s else sendLinkWord s l

/-- A message is put into every link word until it is answered or superseded. -/
def sendMsg (s : State) (l msg arg : Nat) : State :=
  sendWord (setLink s l { link s l with msg := some (msg, arg) }) l

/-- A message of a kind was answered, whatever its argument, or that of one argument: it is repeated no
more. -/
def clearMsg (s : State) (l msg : Nat) : State :=
  let x := link s l
  if x.msg.any (fun m => m.1 == msg) then setLink s l { x with msg := none } else s
def clearMsgOf (s : State) (l msg arg : Nat) : State :=
  let x := link s l
  if x.msg = some (msg, arg) then setLink s l { x with msg := none } else s

/-- The partner of an Alley is not known any more, until identity is confirmed anew (R192; DEDUCED, log entry
199). -/
def forgetPartner (s : State) (l : Nat) : State :=
  let p := alleyP l
  wr (wr (wr s p ALLEY_PARTNER_TAG 0) p ALLEY_PARTNER_ENGINE 0) p ALLEY_PARTNER_VALID 0

/-- Whether an identity word matches what lane `lane` of a link expects, apart from LINE; the pilot is
the engine's own word come back (R191). -/
def identOthers (s : State) (l lane w : Nat) : Bool :=
  let e := linkEngine l
  if isAlley l then
    bitsOf w 16 2 == e && bitsOf w 18 4 == 4 * opposite (linkDir l) + lane / 8 && !bitOf w 27
      && bitsOf w 28 5 == 0
      && (rd s (alleyP l) ALLEY_PARTNER_VALID == 0 || rd s (alleyP l) ALLEY_PARTNER_TAG == bitsOf w 0 16)
  else
    bitsOf w 16 2 == e && bitOf w 27 && bitsOf w 18 4 == 0
      && bitsOf w 28 5 == peerIn (squarePort s e) (linkLine l)
      && (linkLine l != 0 || bitsOf w 0 16 == ownTag s)

/-- The line that a lane of a link expects. -/
def identLine (l lane : Nat) : Nat := if isAlley l then lane % 8 else linkLine l

/-! ### Comb lines (R189, R190) -/

/-- Whether line `k` of an engine's Boulevard may lock: the Boulevard is in service and configured,
and the line's bit of `RX_ENABLE` is set; line 0 always may. -/
def lineMayLock (s : State) (e k : Nat) : Bool :=
  k == 0 || (blvdServes s e && bitOf (rd s (blvdP e) BLVD_RX_ENABLE) k)

/-- A line that is lit and may lock begins to; a line that may be modulated trains its peer, and the pilot
itself, whose words come back (R191). -/
def lockLine (s : State) (e k : Nat) : State :=
  let l := blvdLink e k
  let lock := lineState s e k == 0 && !lineDark s e k && lineMayLock s e k
  let s := if (lineMaySend s e k && !(link s l).txOn) || (k == 0 && lock) then sendTraining s l [0] else s
  if lock then wr s (blvdP e) BLVD_LINE_STATE 1 k else s

/-- Lines that can lock begin to. -/
def lockLines (s : State) (e : Nat) : State := (List.range 32).foldl (fun s k => lockLine s e k) s

/-- Dusk finds the lines of `mask` lit in its round's check: those that were dark or dropped are
locked and trained again (R190, R202). -/
def recheckLines (s : State) (e mask : Nat) : State :=
  if rd s (oeP e) HDR_STATE ≠ 2 then s
  else
    let dark := rd s (oeP e) OE_ELS_DARK
    let s := wr s (oeP e) OE_ELS_DARK ((List.range 32).foldl (fun m k =>
      if bitOf mask k then clearBit m k else m) dark)
    lockLines ((List.range 32).foldl (fun s k =>
      if bitOf mask k && lineState s e k == 3 then wr s (blvdP e) BLVD_LINE_STATE 0 k else s) s) e

end Sys2Proof.Machine
end

