-- ==== Sys2Proof/Machine/TopoOps.lean ====
section
/-!
DEFINITION. Machine/TopoOps.lean: ports and their states (R213, R218), Quarters and their checks
(R219, R220), routing between packages (R222), and packets (R214).
-/
namespace Sys2Proof.Machine

/-! ### Packets (R214) -/

def pktType (b : List Byte) : Nat := leAt b 0 1 % 16
def pktQuarter (b : List Byte) : Nat := leAt b 2 2
def pktDest (b : List Byte) : Nat × Nat := (leAt b 4 1, leAt b 5 1)
def pktSrc (b : List Byte) : Nat × Nat := (leAt b 6 1, leAt b 7 1)
def pktTarget (b : List Byte) : Nat := leAt b 8 4
def pktTag (b : List Byte) : Nat := leAt b 12 2
def pktInst (b : List Byte) : Nat := leAt b 14 1
def pktStripe (b : List Byte) : Nat := leAt b 15 1 % 8
def pktTile (b : List Byte) : Nat := pktTarget b % 2 ^ 11
def pktCtl (b : List Byte) : Nat := leAt b 15 1 / 8
def pktQueue (b : List Byte) : Nat := bitsOf (pktTarget b) 11 4
def pktEvent (b : List Byte) : Nat := bitsOf (pktTarget b) 11 3
def pktLines (b : List Byte) : Nat := bitsOf (leAt b 0 2) 4 6 + 1

/-- A LINE packet without its first line, and without its first `k` lines. -/
def cutLine (b : List Byte) : List Byte :=
  leBytes 2 (leAt b 0 2 - 16) ++ ((b.drop 2).take 14) ++ b.drop 80
def cutLines : Nat → List Byte → List Byte
  | 0, b => b
  | k + 1, b => cutLines k (cutLine b)

/-- The flow of a packet at a package that it comes to (R215): its source and destination packages, and its
destination tile, or its Quarter and its engine. -/
def pktFlow (b : List Byte) : Nat :=
  let ty := pktType b
  2 ^ 48 * (1 + leAt b 4 4)
    + (if ty = 1 || ty = 2 then pktTile b else 2 ^ 11 + pktStripe b + 8 * pktQuarter b)

/-- A packet header. -/
def packetHeader (ty lines quarter : Nat) (dest src : Nat × Nat) (target tag inst stripe ctl : Nat) :
    List Byte :=
  leBytes 2 (ty + 16 * (lines - 1)) ++ leBytes 2 quarter ++ leBytes 1 dest.1 ++ leBytes 1 dest.2
    ++ leBytes 1 src.1 ++ leBytes 1 src.2 ++ leBytes 4 target ++ leBytes 2 tag ++ leBytes 1 inst
    ++ leBytes 1 (stripe + 8 * ctl)

/-- The package's own coordinates. -/
def ownXY (s : State) : Nat × Nat := (rd s topoP TOPO_X, rd s topoP TOPO_Y)
def coordValid (s : State) : Bool := rd s topoP TOPO_COORD_VALID == 1

/-! ### Ports (R213, R218) -/

/-- The state of a port: 0–3 a mesh direction, 4 + k Square port k. -/
def portState (s : State) (port : Nat) : Nat :=
  if port < 4 then rd s topoP TOPO_PSTATE port else rd s topoP TOPO_SQ_STATE (port - 4)

def setPortState (s : State) (port st : Nat) : State :=
  if port < 4 then wr s topoP TOPO_PSTATE st port else wr s topoP TOPO_SQ_STATE st (port - 4)

def portPlanned (s : State) (port : Nat) : Bool :=
  if port < 4 then rd s topoP TOPO_PLANNED port == 1 else rd s topoP TOPO_SQ_PLANNED (port - 4) == 1

/-- Whether a port is usable (R213). -/
def portUsable (s : State) (port : Nat) : Bool :=
  portState s port == 3 && !(portLinks s port).isEmpty

/-- A port enters a state, with the interrupts and the code of R218 and R237. -/
def enterPort (s : State) (port st : Nat) : State :=
  let old := portState s port
  let s := setPortState s port st
  if st = 2 && old ≠ 2 then raise (lastErr s topoP 7) topoP 0
  else if st = 1 && old ≠ 1 then raise (lastErr s topoP 8) topoP 1
  else s

/-- A port that is absent: no beacon for 3 rounds (R218). -/
def portAbsent (s : State) (port : Nat) : State :=
  enterPort s port (if portPlanned s port then 1 else 0)

/-- A port that has no link up: DOWN where its entry is planned; any other keeps its state until it is
absent (R218). -/
def portBare (s : State) (port : Nat) : State :=
  if portPlanned s port then enterPort s port 1 else s

/-- The tag and coordinates that the plan expects at a port: a Square port compares the low 32
bits of the tag. -/
def planTag (s : State) (port : Nat) : Nat :=
  if port < 4 then rd s topoP TOPO_PLAN_TAG_LO port + 2 ^ 32 * rd s topoP TOPO_PLAN_TAG_HI port
  else rd s topoP TOPO_SQ_TAG (port - 4)
def planXY (s : State) (port : Nat) : Nat :=
  if port < 4 then rd s topoP TOPO_PLAN_XY port else rd s topoP TOPO_SQ_XY (port - 4)

/-- A beacon's line evaluated at a port (R216, R218). -/
def beaconAt (s : State) (port engine : Nat) (b : List Byte) : State :=
  let s := bump s topoP TOPO_BEACONS_RX
  let tag := leAt b 0 8
  let xy := leAt b 0x20 2
  let seen := if port < 4 then tag else tag % 2 ^ 32
  let s := if port < 4 then
      wr (wr (wr (wr s topoP TOPO_SEEN_TAG_LO (tag % 2 ^ 32) port) topoP TOPO_SEEN_TAG_HI
        (tag / 2 ^ 32) port) topoP TOPO_SEEN_XY xy port) topoP TOPO_SEEN_FLAGS (leAt b 0x22 1) port
    else s
  let t := s.topo
  let s := { s with topo := { t with silent := SMap.del t.silent port,
                                     fresh := (port :: t.fresh).eraseDups,
                                     heard := SMap.put t.heard port tag,
                                     -- the host's accept ends as the tag changes
                                     accepted := if SMap.find t.accepted port == some tag then t.accepted
                                       else SMap.del t.accepted port } }
  let groupOk := port < 4 || leAt b 0x24 2 % 2 ^ 12 == rd s (blvdP engine) BLVD_SQUARE_GROUP
  let planOk := portPlanned s port && seen == planTag s port && xy == planXY s port && groupOk
  if planOk then enterPort s port 3
  else if (SMap.find s.topo.accepted port).isSome && portState s port == 3 then s
  else
    let s := { s with topo := { s.topo with accepted := SMap.del s.topo.accepted port } }
    enterPort s port 2

/-- The host accepts a QUARANTINED port, until its neighbour's tag changes (R218). -/
def acceptPort (s : State) (port : Nat) : State :=
  if portState s port = 2 then
    setPortState { s with topo := { s.topo with
      accepted := SMap.put s.topo.accepted port (SMap.getD s.topo.heard port 0) } } port 3
  else s

/-! ### Quarters (R219, R220, R238) -/

/-- Whether a rectangle's corners are out of order: X0 > X1 or Y0 > Y1. -/
def rectEmpty (r : Nat) : Bool := bitsOf r 16 8 < bitsOf r 0 8 || bitsOf r 24 8 < bitsOf r 8 8

/-- Whether a Quarter entry is valid, and not held invalid by R238. -/
def quarterValid (s : State) (i : Nat) : Bool :=
  rd s topoP TOPO_VALID i == 1 && rd s topoP TOPO_QID i != 0 && !rectEmpty (rd s topoP TOPO_RECT i)

/-- The entry of a District: the lower-numbered of two (R238). -/
def quarterOf (s : State) (d : Nat) : Option Nat :=
  (List.range 4).find? (fun i => quarterValid s i && rd s topoP TOPO_DISTRICT i == d)

/-- Whether an entry is used: no lower-numbered one is its District's (R238). -/
def quarterUsed (s : State) (i : Nat) : Bool := quarterOf s (rd s topoP TOPO_DISTRICT i) == some i

/-- The entry in use with a Quarter id. -/
def quarterById (s : State) (q : Nat) : Option Nat :=
  (List.range 4).find? (fun i => quarterUsed s i && rd s topoP TOPO_QID i == q)

/-- Whether coordinates lie in an entry's rectangle. -/
def inRect (s : State) (i : Nat) (xy : Nat × Nat) : Bool :=
  let r := rd s topoP TOPO_RECT i
  bitsOf r 0 8 ≤ xy.1 && xy.1 ≤ bitsOf r 16 8 && bitsOf r 8 8 ≤ xy.2 && xy.2 ≤ bitsOf r 24 8

/-- A packet is dropped with a reason: counted, logged and reported (R220, R237). `port` is the
arrival port: 0–3, 4 Boulevard, 5 local. -/
def dropPacket (s : State) (port reason : Nat) (dest src : Nat × Nat) (quarter : Nat) : State :=
  let s := bump s topoP TOPO_DROPS 1 (reason - 1)
  let s := logErr s topoP reason (src.1 + 256 * src.2 + 2 ^ 16 * port) (dest.1 + 256 * dest.2)
    (reason + 2 ^ 16 * quarter)
  raise s topoP 3

/-- The Square port whose plan entry carries a destination and that is ACCEPTED (R222). -/
def squareTo (s : State) (dest : Nat × Nat) : Option Nat :=
  (List.range 32).find? (fun k =>
    rd s topoP TOPO_SQ_XY k == dest.1 + 256 * dest.2 && rd s topoP TOPO_SQ_STATE k == 3)

/-- The Square port of a package: its own, the one that packets to it take, or that of its plan entry. -/
def squareOf (s : State) (xy : Nat × Nat) : Option Nat :=
  if xy = ownXY s then some (squarePort s 0)
  else (squareTo s xy).orElse (fun _ => (List.range 32).find? (fun k =>
    rd s topoP TOPO_SQ_PLANNED k == 1 && rd s topoP TOPO_SQ_XY k == xy.1 + 256 * xy.2))

/-- Check 3 of R220: a destination lies inside an entry's rectangle and, for a Boulevard route, its
Square port in the entry's Square set; a destination that no Square port is known for fails check 4. -/
def insideQuarter (s : State) (i : Nat) (dest : Nat × Nat) (blvd : Bool) : Bool :=
  inRect s i dest && (!blvd || match squareOf s dest with
    | some k => bitOf (rd s topoP TOPO_SQUARE_SET i) k
    | none => true)

/-- The mesh port of dimension-order routing toward a destination (R222). -/
def meshTo (own dest : Nat × Nat) : Nat :=
  if dest.1 > own.1 then 1 else if dest.1 < own.1 then 3 else if dest.2 > own.2 then 0 else 2

/-- The link group of the bridge to a link's engine. -/
def bridgeGroup (l : Nat) : Nat := 4 + linkEngine l

/-- The port that a packet of this package takes toward a destination; none where it stays, or no Square
port leads there. -/
def portToward (s : State) (dest : Nat × Nat) (blvd : Bool) : Option Nat :=
  if dest = ownXY s then none
  else if blvd then (squareTo s dest).map (fun k => 4 + k)
  else some (meshTo (ownXY s) dest)

/-- Whether `TOPO` takes packets and beacons and sends them: its block is ON (R297; DESIGN CHOICE, log
entry 52). -/
def topoOn (s : State) : Bool := rd s topoP HDR_STATE == 2

/-- Whether what takes a port waits: for `TOPO`, or because the bridge to the engine of the link that its
flow takes holds it (R18). -/
def bridgeHeld (s : State) (port : Option Nat) (flow : Nat) : Bool :=
  !topoOn s || match port.bind (fun p => flowLink s p flow) with
  | some l => flowHeld s (bridgeGroup l) flow
  | none => false

/-- A packet leaves by a port: across the bridge, and on the link that its flow uses. -/
def departPacket (s : State) (port flow : Nat) (bytes : List Byte) : State :=
  match flowLink s port flow with
  | some l =>
    let r := crossData (pinFlow s port flow l) [bridgeGroup l] flow bytes
    sendOnLink (emit r.1 (.packet port r.2)) l r.2
  | none => emit s (.packet port bytes)

/-- The District that a packet of Quarter entry `i` is for. -/
def quarterDist (s : State) (i : Nat) : Nat := rd s topoP TOPO_DISTRICT i

/-- A packet for this package that came by `inP` is delivered: a LINE or SIG to a tile of the Quarter's
District (check 6 of R220), a packet of a collective to the collective engines. Answers whether it
was. -/
def deliverHere (s : State) (i inP : Nat) (b : List Byte) : State × Bool :=
  let ty := pktType b
  if ty = 1 || ty = 2 then
    if tileOwner s (pktTarget b % 2 ^ 11) = quarterDist s i then
      ({ s with meshIn := s.meshIn ++ [b] }, true)
    else (dropPacket s inP 3 (pktDest b) (pktSrc b) (pktQuarter b), false)
  else if ty = 3 || ty = 4 then ({ s with collIn := s.collIn ++ [b] }, true)
  else (s, false)

/-- What a District sends to a package, by the mesh or by a Boulevard: stamped, checked and routed
(R219 to R222); what is for this package is delivered here. Answers whether it left or was
delivered. `mk` makes the packet from its Quarter id. -/
def sendPacket (s : State) (d flow : Nat) (dest : Nat × Nat) (blvd : Bool)
    (mk : Nat → List Byte) : State × Bool :=
  match quarterOf s d with
  | none => (dropPacket s 5 6 dest (ownXY s) 0, false)
  | some i =>
    let q := rd s topoP TOPO_QID i
    if !coordValid s then (s, false)
    else if !insideQuarter s i dest blvd then (dropPacket s 5 2 dest (ownXY s) q, false)
    else if dest = ownXY s then deliverHere s i 5 (mk q)
    else match portToward s dest blvd with
      | none => (dropPacket s 5 4 dest (ownXY s) q, false)
      | some p =>
        if portUsable s p then (departPacket s p flow (mk q), true)
        else (dropPacket s 5 4 dest (ownXY s) q, false)

/-- A packet that is not a beacon arrives over port `port` (0–3 a mesh direction, 4 + k Square
port k): checked in the order of R220, then delivered locally, forwarded, or dropped. -/
def arrivePacket (s : State) (port flow : Nat) (b : List Byte) : State :=
  let dest := pktDest b
  let src := pktSrc b
  let q := pktQuarter b
  let inP := if port < 4 then port else 4
  let drop (r : Nat) : State := dropPacket s inP r dest src q
  if portState s port ≠ 3 then s
  else match quarterById s q with
    | none => drop 1
    | some i =>
      if !bitOf (rd s topoP TOPO_INGRESS inP) i then drop 1
      else if !insideQuarter s i dest (inP == 4) then drop 2
      else if dest = ownXY s then (deliverHere s i inP b).1
      else if inP = 4 then drop 5
      else if !coordValid s then s
      else
        let out := meshTo (ownXY s) dest
        if portUsable s out then departPacket s out flow b else drop 4

/-! ### Beacons (R216, R217) -/

/-- The 16-byte header and the line of the beacon that the package sends on a link. -/
def beaconFor (s : State) (l : Nat) : List Byte :=
  let port := linkPort s l
  let e := linkEngine l
  let flags := ofBool (coordValid s) + 2 * rd s (blvdP e) BLVD_CFG_VALID
    + 4 * ofBool (portState s port == 3)
  let sender := e + (if isAlley l then 4 * linkDir l else 16)
  let ids := (List.range 4).flatMap (fun i =>
    leBytes 2 (if quarterValid s i then rd s topoP TOPO_QID i else 0))
  packetHeader 5 1 0 (0, 0) (ownXY s) 0 0 0 0 0
    ++ digestBytes (sm3 (leBytes 8 (pkgSerial s)))
    ++ leBytes 1 (ownXY s).1 ++ leBytes 1 (ownXY s).2 ++ leBytes 1 flags ++ leBytes 1 sender
    ++ leBytes 2 (rd s (blvdP e) BLVD_SQUARE_GROUP) ++ leBytes 1 (squarePort s e) ++ leBytes 1 0
    ++ leBytes 2 (rd s topoP TOPO_TRAY_ID) ++ leBytes 1 (rd s topoP TOPO_TRAY_SLOT) ++ leBytes 1 0
    ++ ids ++ List.replicate 12 0

/-- A beacon is sent on a link that carries data. -/
def sendBeacon (s : State) (l : Nat) : State :=
  if topoOn s && txUp s l && !draining s l then
    let b := beaconFor s l
    sendOnLink (emit s (.packet (linkPort s l) b)) l b
  else s

/-- All links of the package. -/
def allLinks : List Nat := List.range (16 + 128)

/-- The round's beacons. -/
def sendBeacons (s : State) : State := allLinks.foldl sendBeacon s

/-- A round ends on a port: one without a beacon is counted, up to 3 (R217). -/
def countSilent (s : State) (port : Nat) : State :=
  let t := s.topo
  if t.fresh.contains port then { s with topo := { t with fresh := t.fresh.filter (· != port) } }
  else { s with topo := { t with
    silent := SMap.put t.silent port (min 3 (SMap.getD t.silent port 0 + 1)) } }

end Sys2Proof.Machine
end

