-- ==== Sys2Proof/Machine/CollOps.lean ====
section
/-!
DEFINITION. Machine/CollOps.lean: the collective engines: descriptors and members (R226, R227),
what each operation moves (R228, R229), instances (R230), their end (R232, R235), and hold (R234).
-/
namespace Sys2Proof.Machine

/-! ### Descriptors (R226) -/

structure CDesc where
  op : Nat
  dtype : Nat
  scope : Nat
  sum : Bool
  argAdd : Bool
  engines : Nat
  startMs : Nat
  first : Nat
  count : Nat
  src : Nat
  dst : Nat
  len : Nat
  status : Nat
  x0 : Nat
  y0 : Nat
  w : Nat
  h : Nat
  square : Nat
  tag : Nat
  root : Nat
  timeout : Nat
  deriving DecidableEq, Repr

def readCDesc (b : List Byte) : CDesc :=
  let m := leAt b 1 1
  { op := leAt b 0 1, dtype := m % 16, scope := bitsOf m 4 2, sum := bitOf m 6,
    argAdd := bitOf m 7, engines := leAt b 2 1, startMs := leAt b 3 1, first := leAt b 4 2,
    count := leAt b 6 2, src := leAt b 8 4, dst := leAt b 0x0C 4, len := leAt b 0x10 4,
    status := leAt b 0x14 4, x0 := leAt b 0x18 1, y0 := leAt b 0x19 1, w := leAt b 0x1A 1,
    h := leAt b 0x1B 1, square := leAt b 0x1C 4, tag := leAt b 0x20 2, root := leAt b 0x22 2,
    timeout := leAt b 0x24 4 }

def Coll.d (c : Coll) : CDesc := readCDesc c.desc

/-- The offset that `ARG_ADD` adds. -/
def Coll.shift (c : Coll) : Nat := if c.d.argAdd then 64 * c.arg else 0

/-- Whether an operation reduces, and whether it works by chunks of `LEN`/P. -/
def CDesc.reduces (d : CDesc) : Bool := d.op == 1 || d.op == 2
def CDesc.chunked (d : CDesc) : Bool := d.op == 1 || d.op == 2 || d.op == 5

/-- The engines of an instance, ascending. -/
def Coll.engs (c : Coll) : List Nat := (bitList 8 c.d.engines).map (fun i => 8 * c.dist + i)

/-- The engine of a block: round-robin over the selected ones (R226). -/
def Coll.engOf (c : Coll) (idx : Nat) : Nat :=
  let l := c.engs
  l.getD (idx % l.length) (8 * c.dist)

/-! ### Members and ranks (R227, R175) -/

/-- The ring of R175 for w columns and h rows, h even and w ≥ 2. -/
def snakeEven (w h : Nat) : List (Nat × Nat) :=
  (List.range w).map (fun x => (x, 0))
    ++ (List.range (h - 1)).flatMap (fun i =>
      let y := i + 1
      if y % 2 = 1 then (List.range (w - 1)).map (fun k => (w - 1 - k, y))
      else (List.range (w - 1)).map (fun k => (k + 1, y)))
    ++ (List.range (h - 1)).map (fun k => (0, h - 1 - k))

/-- The open snake. -/
def snakeOpen (w h : Nat) : List (Nat × Nat) :=
  (List.range h).flatMap (fun y =>
    (List.range w).map (fun x => (if y % 2 = 1 then w - 1 - x else x, y)))

/-- The positions of a rectangle in ring order. -/
def ringOf (w h : Nat) : List (Nat × Nat) :=
  if h % 2 = 0 && w ≥ 2 then snakeEven w h
  else if w % 2 = 0 && h ≥ 2 then (snakeEven h w).map (fun p => (p.2, p.1))
  else snakeOpen w h

/-- The number of ranks. -/
def CDesc.ranks (d : CDesc) : Nat :=
  if d.scope = 0 then 1 else if d.scope = 1 then d.w * d.h else popCount 32 d.square

/-- The coordinates of a rank. -/
def rankXY (s : State) (d : CDesc) (r : Nat) : Nat × Nat :=
  if d.scope = 1 then
    let p := (ringOf d.w d.h).getD r (0, 0)
    (d.x0 + p.1, d.y0 + p.2)
  else if d.scope = 2 then
    let k := (bitList 32 d.square).getD r 0
    if k = squarePort s 0 then ownXY s
    else
      let xy := rd s topoP TOPO_SQ_XY k
      (xy % 256, xy / 256)
  else ownXY s

/-- The rank that coordinates have, if any. -/
def rankAt (s : State) (d : CDesc) (xy : Nat × Nat) : Option Nat :=
  (List.range d.ranks).find? (fun r => rankXY s d r == xy)

def ownRank (s : State) (d : CDesc) : Nat :=
  if d.scope = 2 then ((bitList 32 d.square).idxOf? (squarePort s 0)).getD 0
  else (rankAt s d (ownXY s)).getD 0

/-- The ranks that a member receives from and sends to. -/
def CDesc.sources (d : CDesc) (r : Nat) : List Nat :=
  let p := d.ranks
  if p < 2 then []
  else if d.scope = 1 then (if d.op = 4 && r = d.root then [] else [(r + p - 1) % p])
  else if d.op = 4 then (if r = d.root then [] else [d.root])
  else (List.range p).filter (fun q => q != r)

def CDesc.dests (d : CDesc) (r : Nat) : List Nat :=
  let p := d.ranks
  if p < 2 then []
  else if d.scope = 1 then (if d.op = 4 && (r + 1) % p = d.root then [] else [(r + 1) % p])
  else if d.op = 4 then (if r = d.root then (List.range p).filter (fun q => q != r) else [])
  else (List.range p).filter (fun q => q != r)

/-! ### Blocks (R226 to R228) -/

/-- Bytes of a member tile's region that one chunk, or the whole source, takes. -/
def CDesc.seg (d : CDesc) : Nat := if d.chunked then d.len / d.ranks else d.len

/-- Bytes of the stream of one chunk over all member tiles. -/
def CDesc.stream (d : CDesc) : Nat := if d.sum then d.seg else d.count * d.seg

/-- Blocks of 4 KiB of a stream. -/
def CDesc.blocks (d : CDesc) : Nat := (d.stream + 4095) / 4096

/-- The size of block `k` of a stream. -/
def CDesc.blockLen (d : CDesc) (k : Nat) : Nat := min 4096 (d.stream - 4096 * k)

/-- How many block indices the destination takes, and which: the part q is idx div blocks. -/
def CDesc.parts (d : CDesc) : Nat := if d.op = 1 || d.op = 3 || d.op = 5 then d.ranks else 1

/-- Pieces of a block: member position, offset within its region's part, and length, each within
one tile. -/
def CDesc.pieces (d : CDesc) (k : Nat) : List (Nat × Nat × Nat) :=
  (List.range ((d.blockLen k + 63) / 64)).map (fun i =>
    let p := 4096 * k + 64 * i
    (p / d.seg, p % d.seg, min 64 (d.blockLen k - 64 * i)))

/-- What stops an access of a District's engine to a member's slice, as the status that its instance ends
with, and the error that the request completes with (R23, R143, R236): 0 nothing, 5 its die lost, 6
fenced (and any other refusal of R23; DESIGN CHOICE, log entry 142), 7 engine mode. -/
def collBlocked (s : State) (dist n off : Nat) : Nat × Nat :=
  let e := if off ≥ sliceBytes then errUnmapped else tileError s dist n
  if e = errFenced && dieFenced s (tileDie n) then (5, e)
  else if e ≠ 0 then (6, e)
  else if sliceBusy s n then (7, errBusy)
  else (0, 0)

/-- A slice access of engine `e` failed: its address stands in the engine's page (R239). -/
def collFailed (s : State) (e n off : Nat) : State :=
  let a := n * 2 ^ 29 + off
  wr (wr s (collP e) HDR_ERR_ADDR_LO (a % 2 ^ 32)) (collP e) HDR_ERR_ADDR_HI (a / 2 ^ 32 % 2 ^ 16)

/-- A request of engine `e` to a member's slice is refused, as R23 states. -/
def collRefused (s : State) (e n off code : Nat) : State :=
  collFailed (refuse s (e / 8) (n * 2 ^ 29 + off) code) e n off

/-- The error of a sector of a slice, keyed 2²⁴ × tile + sector. -/
def collErr (errs : SectorErrs) (n sec : Nat) : Option SectorErr := errAt errs (n * 2 ^ 24 + sec)

/-- The errors of a slice's sectors, keyed by sector. -/
def sliceErrs (errs : SectorErrs) (n : Nat) : SectorErrs :=
  (errs.filter (fun x => x.1 / 2 ^ 24 == n)).map (fun x => (x.1 % 2 ^ 24, x.2))

/-- Whole sectors that cover a span, read by a collective engine. -/
def collSectors (s : State) (n : Nat) (errs : SectorErrs) : List Nat → State × List Byte × Bool
  | [] => (s, [], true)
  | k :: ks =>
    let r := sliceSector s n k 3 (collErr errs n k)
    match r.2 with
    | .good b =>
      let q := collSectors r.1 n errs ks
      (q.1, b ++ q.2.1, q.2.2)
    | _ => (r.1, [], false)

/-- Bytes of a member's slice read by engine `e`, or the status that the instance ends with. Narrow
writes of the span that wait for an entry of the merge buffer are laid down first. -/
def collRead (s : State) (e n off len : Nat) (errs : SectorErrs) : State × Except Nat (List Byte) :=
  let b := collBlocked s (e / 8) n (off + len - 1)
  if b.1 ≠ 0 then (collRefused s e n off b.2, .error b.1)
  else
    let secs := spanSectors off len
    let x := slice s n
    let s := if secs.any (narrowAhead x) then
        flushAll s n (sliceErrs errs n) (x.merge.length + x.narrow.length)
      else s
    let r := collSectors s n errs secs
    if r.2.2 then
      let x := plazaData r.1 (16 + e) n ((r.2.1.drop (off % 32)).take len)
      (x.1, .ok x.2)
    else (collFailed r.1 e n off, .error 4)

/-- The bytes of a list of pieces, one after the other. -/
def collGather (s : State) (c : Coll) (e base : Nat) (errs : SectorErrs) :
    List (Nat × Nat × Nat) → State × Except Nat (List Byte)
  | [] => (s, .ok [])
  | (j, o, n) :: ps =>
    let r := collRead s e (c.members.getD j 0) (base + o) n errs
    match r.2 with
    | .error st => (r.1, .error st)
    | .ok b =>
      let q := collGather r.1 c e base errs ps
      match q.2 with
      | .error st => (q.1, .error st)
      | .ok bs => (q.1, .ok (b ++ bs))

/-- One addition in DTYPE of two elements (R229). -/
def collAdd (dtype a b : Nat) : Nat := ((if dtype = 0 then fp32 else bf16).addBits a b).1

/-- Elementwise addition of two byte strings. -/
def addBytes (dtype : Nat) (a b : List Byte) : List Byte :=
  let w := if dtype = 0 then 4 else 2
  (List.range (a.length / w)).flatMap (fun i =>
    leBytes w (collAdd dtype (leAt a (w * i) w) (leAt b (w * i) w)))

/-- The contributions of tiles `j`, `j` + 1, … added to an accumulated block (LOCAL SUM). -/
def collSumFrom (s : State) (c : Coll) (e base k : Nat) (errs : SectorErrs) (acc : List Byte) :
    Nat → Nat → State × Except Nat (List Byte)
  | 0, _ => (s, .ok acc)
  | m + 1, j =>
    let r := collGather s c e base errs ((c.d.pieces k).map (fun p => (j, p.2.1, p.2.2)))
    match r.2 with
    | .error st => (r.1, .error st)
    | .ok b => collSumFrom r.1 c e base k errs (addBytes c.d.dtype acc b) m (j + 1)

/-- This package's contribution to block `k` of part `q` of its source (R229). -/
def contribution (s : State) (c : Coll) (q k : Nat) (errs : SectorErrs) :
    State × Except Nat (List Byte) :=
  let d := c.d
  let base := d.src + c.shift + (if d.chunked then q * d.seg else 0)
  let e := c.engOf (q * d.blocks + k)
  if d.sum then
    let r := collGather s c e base errs ((d.pieces k).map (fun p => (0, p.2.1, p.2.2)))
    match r.2 with
    | .error st => (r.1, .error st)
    | .ok b => collSumFrom r.1 c e base k errs b (d.count - 1) 1
  else if d.op = 4 && d.scope = 0 then
    -- BROADCAST within the package: the root member's region, for every member
    collGather s c e base errs ((d.pieces k).map (fun p => (d.root, p.2.1, p.2.2)))
  else collGather s c e base errs (d.pieces k)

/-- A span written into a member's slice by engine `e`. -/
def collWrite (s : State) (e n off : Nat) (bytes : List Byte) : State × Nat :=
  let b := collBlocked s (e / 8) n (off + bytes.length - 1)
  if b.1 ≠ 0 then (collRefused s e n off b.2, b.1)
  else
    let x := plazaData s (16 + e) n bytes
    (sliceWriteBytes x.1 n off (bytes.length + 1) x.2, 0)

/-- Pieces written from a block's bytes: the status met, 0 for none. -/
def collScatter (s : State) (c : Coll) (e base : Nat) :
    List (Nat × Nat × Nat) → List Byte → State × Nat
  | [], _ => (s, 0)
  | (j, o, n) :: ps, bs =>
    let r := collWrite s e (c.members.getD j 0) (base + o) (bs.take n)
    if r.2 = 0 then collScatter r.1 c e base ps (bs.drop n) else r

/-- Block `k` of part `q` of the result written to the destination of every member it belongs to. -/
def collStore (s : State) (c : Coll) (q k : Nat) (bytes : List Byte) : State × Nat :=
  let d := c.d
  let e := c.engOf (q * d.blocks + k)
  let base := d.dst + c.shift
    + (if d.op = 1 || d.op = 5 then q * d.seg else if d.op = 3 then q * d.len else 0)
  if d.sum then
    (List.range d.count).foldl (fun r j =>
      if r.2 = 0 then collScatter r.1 c e base ((d.pieces k).map (fun p => (j, p.2.1, p.2.2))) bytes
      else r) (s, 0)
  else collScatter s c e base (d.pieces k) bytes

/-! ### Instances -/

def collOf (s : State) (key : Nat) : Option Coll := s.colls.find? (fun c => c.key == key)
def setColl (s : State) (c : Coll) : State :=
  { s with colls := s.colls.map (fun x => if x.key == c.key then c else x) }
def dropColl (s : State) (key : Nat) : State :=
  { s with colls := s.colls.filter (fun c => c.key != key) }

/-- Whether an instance is the first started one on each of its engines (R230). -/
def headOfLine (s : State) (c : Coll) : Bool :=
  (s.colls.filter (fun x => x.started && x.dist == c.dist && (x.d.engines &&& c.d.engines) != 0)).head?
    |>.any (fun x => x.key == c.key)

/-- Whether what an instance asks of its members' slices is held: one leaves engine mode (R143), or the link
group to its die holds the flow of one of the engines (R18). -/
def collHeld (s : State) (c : Coll) : Bool :=
  c.members.any (fun n => sliceHolds s n || c.engs.any (fun e => plazaHeld s (16 + e) n))

/-- Whether the ring of a rectangle is an open snake (R175): no side gives a closed one. -/
def openRing (w h : Nat) : Bool := !((h % 2 == 0 && w ≥ 2) || (w % 2 == 0 && h ≥ 2))

/-- Whether what goes to a rank takes a Boulevard: in `SCOPE` 2; and over the closing link of an open
snake, where both ends lie in one Square (R175). -/
def rankBlvd (s : State) (d : CDesc) (r : Nat) : Bool :=
  d.scope == 2 || (d.scope == 1 && d.ranks > 2 && openRing d.w d.h
    && (let own := ownRank s d
        (own == 0 && r + 1 == d.ranks) || (r == 0 && own + 1 == d.ranks))
    && (squareOf s (rankXY s d r)).isSome)

/-- The port toward a rank. -/
def rankPort (s : State) (d : CDesc) (r : Nat) : Option Nat :=
  let xy := rankXY s d r
  if d.scope = 2 then ((bitList 32 d.square)[r]?).map (fun k => 4 + k)
  else if rankBlvd s d r then (squareOf s xy).map (fun k => 4 + k)
  else some (meshTo (ownXY s) xy)

/-- The ports an instance uses. -/
def Coll.ports (s : State) (c : Coll) : List Nat :=
  let r := ownRank s c.d
  ((c.d.sources r ++ c.d.dests r).filterMap (rankPort s c.d)).eraseDups

/-- The flow from engine `e` to the engine of its place on the package at `dest` (R215). -/
def engFlow (e : Nat) (dest : Nat × Nat) : Nat := 2 ^ 40 + e + 32 * (dest.1 + 256 * dest.2)

/-- Whether the bridge toward a rank holds what one of an instance's engines sends there (R18). -/
def sendsHeld (s : State) (c : Coll) : Bool :=
  (c.d.dests (ownRank s c.d)).any (fun r =>
    c.engs.any (fun e => bridgeHeld s (rankPort s c.d r) (engFlow e (rankXY s c.d r))))

/-- Whether the engines work on an instance: started, first on each of its engines, with no request
held and not ended. -/
def collWorks (s : State) (c : Coll) : Bool :=
  c.started && c.ending.isNone && headOfLine s c && !collHeld s c && !sendsHeld s c

/-- How many flits of a link must be acknowledged until all that waits on it has been delivered. -/
def linkDue (x : Link) : Nat := x.made + (x.txq.flatten.length + 55) / 56

/-- Whether the flits up to a count have been acknowledged. -/
def linkPaid (s : State) (l due : Nat) : Bool :=
  let x := link s l
  due + x.retry.length ≤ x.made || (!txUp s l && !x.handing)

/-- What an instance sent to a rank is to be delivered before it completes (R235). -/
def oweTo (s : State) (key port flow : Nat) : State :=
  match collOf s key, SMap.find s.topo.flows (flowKey port flow) with
  | some c, some a => setColl s { c with owed := SMap.put c.owed a.1 (linkDue (link s a.1)) }
  | _, _ => s

/-- A packet of engine `e` of an instance to a rank. A dropped one is told to nobody (R220). -/
def sendRank (s : State) (c : Coll) (e r : Nat) (mk : Nat → List Byte) : State :=
  let dest := rankXY s c.d r
  let t := sendPacket s c.dist (engFlow e dest) dest (rankBlvd s c.d r) mk
  match rankPort s c.d r with
  | some p => if t.2 then oweTo t.1 c.key p (engFlow e dest) else t.1
  | none => t.1

/-- A control packet to a rank, of the instance's first engine, whose number it carries so that it takes the
flow of that engine at every package on its way (R215; DESIGN CHOICE, log entry 184). -/
def sendCtl (s : State) (c : Coll) (r ctl target : Nat) : State :=
  sendRank s c (c.engOf 0) r (fun q =>
    packetHeader 4 1 q (rankXY s c.d r) (ownXY s) target c.d.tag (c.count % 256) (c.engOf 0 % 8) ctl)

/-- How many members' slices a block's bytes are read from, or written to: each of them under LOCAL SUM. -/
def Coll.copies (c : Coll) : Nat := if c.d.sum then c.d.count else 1

/-- The count of bytes in or out on the engine of a block. -/
def countBytes (s : State) (c : Coll) (idx n : Nat) (isIn : Bool) : State :=
  let p := collP (c.engOf idx)
  if isIn then bump64 s p COLL_BYTES_IN_LO COLL_BYTES_IN_HI n
  else bump64 s p COLL_BYTES_OUT_LO COLL_BYTES_OUT_HI n

/-- Whether a wait ends: members on another package make the increment's class OPT (R109). -/
def Coll.cls (c : Coll) : Cause := if c.d.ranks > 1 then causeOpt else causeD2d

/-- The status line (R232). -/
def statusBytes (c : Coll) (status cause ox oy : Nat) : List Byte :=
  leBytes 1 status ++ leBytes 1 cause ++ leBytes 2 c.d.tag ++ leBytes 4 c.count ++ leBytes 4 c.arg
    ++ leBytes 1 ox ++ leBytes 1 oy ++ List.replicate 50 0

/-- One ABORT to every member that one hop reaches over a usable port (R235). -/
def sendWave (s : State) (c : Coll) (target : Nat) : State :=
  let d := c.d
  let own := ownXY s
  let rs := (List.range d.ranks).filter (fun r =>
    let xy := rankXY s d r
    xy != own && (d.scope == 2 || gap xy.1 own.1 + gap xy.2 own.2 == 1)
      && match rankPort s d r with
        | some p => portUsable s p
        | none => false)
  rs.foldl (fun s r => sendCtl s c r 3 target) s

/-- A member's counter gains 1 at the end of an instance. -/
def collEvent (s : State) (c : Coll) (p : Nat × Nat × Nat) : State :=
  match c.members[p.1 - c.d.first]? with
  | none => s
  | some n =>
    let t := tile s n
    setTile s n { t.addEv p.2.1 c.cls with evColl := t.evColl.erase p.2.1 }

/-- An instance that has ended: status lines, counters, events or the command's completion, and the
wave (R232, R235, R236, R239). `origin` is none when it ended locally. -/
def collClose (s : State) (c : Coll) (status cause : Nat) (origin : Option (Nat × Nat)) : State :=
  let o := origin.getD (ownXY s)
  let target := status + 256 * cause + 2 ^ 16 * o.1 + 2 ^ 24 * o.2
  let s := dropColl s c.key
  let line := statusBytes c status cause o.1 o.2
  let s := c.members.foldl (fun s n =>
    let r := collWrite s (c.engOf 0) n c.d.status line
    if r.2 = 0 then countBytes r.1 c 0 line.length false else r.1) s
  let s := c.posts.foldl (fun s p => collEvent s c p) s
  let s := match c.job with
    | none => s
    | some seq =>
      match jobOf s c.dist seq with
      | some j => if status = 0 then finishJob s c.dist j stOk 0
        else finishJob s c.dist j stCollFailed (status + 256 * cause)
      | none => s
  let s := c.engs.foldl (fun s e =>
    let p := collP e
    let s := wr s p COLL_LAST_STATUS status
    if status = 0 then bump s p COLL_DONE_OK
    else
      let s := wr (lastErr (bump s p COLL_DONE_FAIL) p status) p HDR_ERR_SYNDROME
        (status + 256 * cause + 2 ^ 16 * c.d.tag)
      let s := raise s p 0
      let s := if cause = 1 && origin.isNone then raise s p 1 else s
      let s := if status = 2 || status = 3 then raise s p 2 else s
      if status = 8 || status = 9 then raise s p 3 else s) s
  if status = 0 then s
  else
    let s := if origin.isSome then s
      else c.engs.foldl (fun s e => bump s (collP e) COLL_WAVES_SENT) s
    sendWave s c target

/-- An instance ends, with the first status that it meets; while a member's slice leaves engine mode,
its status line is held and the end with it (R143). -/
def collEnd (s : State) (key status cause : Nat) (origin : Option (Nat × Nat)) : State :=
  match collOf s key with
  | none => s
  | some c =>
    if c.ending.isSome then s
    else if collHeld s c then setColl s { c with ending := some (status, cause, origin) }
    else collClose s c status cause origin

/-- An instance whose end was held ends where it can. -/
def collLateEnd (s : State) (key : Nat) : State :=
  match collOf s key with
  | none => s
  | some c => match c.ending with
    | some e => if collHeld s c then s else collClose s c e.1 e.2.1 e.2.2
    | none => s

/-- A block sent to a rank, or kept until its READY arrives. -/
def sendBlk (s : State) (c : Coll) (b : Blk) : State :=
  if !c.ready.contains b.rank || !collWorks s c then
    setColl s { c with out := c.out ++ [b] }
  else
    let s := sendRank s c (c.engOf b.idx) b.rank (fun q =>
      packetHeader 3 (max 1 (b.bytes.length / 64)) q (rankXY s c.d b.rank) (ownXY s) b.idx c.d.tag
        (c.count % 256) (c.engOf b.idx % 8) 0 ++ b.bytes)
    countBytes s c b.idx b.bytes.length false

/-- A block sent, by instance key. -/
def sendBlkK (s : State) (key : Nat) (b : Blk) : State :=
  match collOf s key with
  | none => s
  | some c => sendBlk s c b

/-- The result is whole: every part's blocks are written, nothing waits to be sent, the first data has
gone to every rank it is due to, and all that was sent has been delivered (R235). -/
def collWhole (s : State) (c : Coll) : Bool :=
  c.written.length == c.d.parts * c.d.blocks && c.out.isEmpty
    && (c.d.dests (ownRank s c.d)).all (fun r => c.sent.contains r)
    && c.owed.all (fun o => linkPaid s o.1 o.2)

/-- The instance completes OK once its result is whole (R235). -/
def collCheck (s : State) (key : Nat) : State :=
  match collOf s key with
  | none => s
  | some c => if collWorks s c && collWhole s c then collEnd s key 0 0 none else s

/-- A result block is written and marked, or the instance ends with the status met. -/
def collFinish (s : State) (key q k : Nat) (bytes : List Byte) : State :=
  match collOf s key with
  | none => s
  | some c =>
    let r := collStore s c q k bytes
    if r.2 ≠ 0 then collEnd r.1 key r.2 0 none
    else
      let idx := q * c.d.blocks + k
      let s := countBytes (setColl r.1 { c with written := c.written ++ [idx] }) c idx
        (bytes.length * c.copies) false
      collCheck s key

/-- The parts whose blocks a member sends to a rank first of all. -/
def firstParts (d : CDesc) (own r : Nat) : List Nat :=
  let p := d.ranks
  if d.scope = 1 then
    if d.op = 1 || d.op = 2 then [(own + p - 1) % p]
    else if d.op = 3 then [own]
    else if d.op = 4 then (if own = d.root then [0] else [])
    else [0]
  else if d.chunked then [r]
  else if d.op = 3 then [own]
  else [0]

/-- The member's own data for one rank, sent block by block. -/
def sendFirst (s : State) (key r : Nat) (errs : SectorErrs) : State :=
  match collOf s key with
  | none => s
  | some c =>
    let d := c.d
    let s := setColl s { c with sent := c.sent ++ [r] }
    let ids := (firstParts d (ownRank s d) r).flatMap (fun q =>
      (List.range d.blocks).map (fun k => (q, k)))
    ids.foldl (fun s qk =>
      match collOf s key with
      | none => s
      | some c =>
        let b := contribution s c qk.1 qk.2 errs
        match b.2 with
        | .error e => collEnd b.1 key e 0 none
        | .ok bytes =>
          sendBlkK (countBytes b.1 c (qk.1 * d.blocks + qk.2) (bytes.length * c.copies) true) key
            ⟨r, qk.1 * d.blocks + qk.2, bytes⟩) s

/-- What an instance at the head of its engines can send is sent. -/
def collPump (s : State) (key : Nat) (errs : SectorErrs) : State :=
  match collOf s key with
  | none => s
  | some c =>
    if !collWorks s c then s
    else
      let rs := (c.d.dests (ownRank s c.d)).filter (fun r => c.ready.contains r && !c.sent.contains r)
      let s := rs.foldl (fun s r => sendFirst s key r errs) s
      match collOf s key with
      | none => s
      | some c =>
        let go := c.out.filter (fun b => c.ready.contains b.rank)
        let s := setColl s { c with out := c.out.filter (fun b => !c.ready.contains b.rank) }
        collCheck (go.foldl (fun s b => sendBlkK s key b) s) key

/-- What every instance can send is sent, in the order in which they started; ends that were held and
whole results are seen to. -/
def collPumpAll (s : State) (errs : SectorErrs) : State :=
  s.colls.foldl (fun s c => collPump (collLateEnd s c.key) c.key errs) s

/-! ### Hold (R234) -/

/-- Whether a link of a port is replaying, retraining or handing over, in either direction between the
package and the peer. -/
def linkRecovers (s : State) (l : Nat) : Bool :=
  let x := link s l
  let r := link s (revLink l)
  x.txTrain || x.replaying || x.handing || r.rxTrain || r.nak || r.taking

/-- Whether an instance is in retry hold. -/
def inHold (s : State) (c : Coll) : Bool :=
  c.started && !c.exhausted && (!c.holds.isEmpty ||
    (c.ports s).any (fun p => (portAll s p).any (linkRecovers s)))

/-- The time that the engines of an instance have been in hold is a free value. -/
def countHold (s : State) (c : Coll) : State :=
  let r := freeNat s
  c.engs.foldl (fun s e => bump64 s (collP e) COLL_HOLD_CYC_LO COLL_HOLD_CYC_HI r.1) r.2

/-- The first hold of an instance is counted, with the time that it lasts until it ends or a HOLD of it is due
(R239). -/
def noteHold (s : State) (key : Nat) : State :=
  match collOf s key with
  | none => s
  | some c =>
    if inHold s c && !c.everHeld then
      c.engs.foldl (fun s e => bump s (collP e) HDR_ERR_RETRY_COUNT)
        (countHold (setColl s { c with everHeld := true }) c)
    else s

/-- All instances are looked at for hold, after a link event. -/
def noteHolds (s : State) : State := s.colls.foldl (fun s c => noteHold s c.key) s

/-! ### Checks at start (R230) -/

/-- Whether two spans of a slice overlap. -/
def overlap (a n b m : Nat) : Bool := a < b + m && b < a + n

/-- Bytes a member's destination region takes. -/
def CDesc.dstLen (d : CDesc) : Nat :=
  if d.op = 2 then d.seg else if d.op = 3 then d.ranks * d.len else d.len

/-- Every field rule of R226 to R228, the regions, and the Quarter (R227). -/
def collValid (s : State) (c : Coll) : Bool :=
  let d := c.d
  let q := quarterOf s c.dist
  1 ≤ d.op && d.op ≤ 6 && (!d.reduces || d.dtype < 2) && d.engines != 0
    && (c.desc.drop 0x28).all (fun b => b == 0) && c.desc.length == 64
    && d.count ≥ 1 && d.count ≤ 1920 && c.members.length == d.count
    && d.len % 64 == 0 && d.ranks ≥ 1 && (!d.chunked || d.len % (64 * d.ranks) == 0)
    && d.status % 64 == 0 && (!d.sum || d.reduces)
    && (if d.scope = 0 then d.op == 1 || d.op == 4
        else if d.scope = 1 then
          d.op != 5 && (d.op != 6 || d.ranks ≥ 2)
            && (rankAt s d (ownXY s)).isSome
            && match q with
              | some i => inRect s i (d.x0, d.y0) && inRect s i (d.x0 + d.w - 1, d.y0 + d.h - 1)
              | none => false
        else if d.scope = 2 then
          d.op != 6 && bitOf d.square (squarePort s 0)
            && match q with
              | some i => (rd s topoP TOPO_SQUARE_SET i &&& d.square) == d.square
              | none => false
        else false)
    && (d.op != 4 || d.root < (if d.scope = 0 then d.count else d.ranks))
    && d.src + c.shift + d.len ≤ sliceBytes && d.dst + c.shift + d.dstLen ≤ sliceBytes
    && d.status + 64 ≤ sliceBytes
    && !overlap (d.src + c.shift) d.len (d.dst + c.shift) d.dstLen

/-- Whether every local member has posted. -/
def collPosted (c : Coll) : Bool := c.job.isSome || c.posts.length == c.d.count

/-- Started instances on an engine. -/
def engQueue (s : State) (e : Nat) : Nat :=
  (s.colls.filter (fun c => c.started && c.engs.contains e)).length

/-- The arguments that an instance's members have posted. -/
def Coll.args (c : Coll) : List Nat := c.posts.map (fun p => p.2.2)

/-- An instance with the next count of its tag (R230). -/
def Coll.counted (s : State) (c : Coll) : Coll :=
  { c with
    started := true
    count := SMap.getD s.collCounts (c.dist * 2 ^ 16 + c.d.tag) 0
    arg := if c.job.isSome then c.arg else c.args.headD 0 }

/-- Whether a control packet that came early is for a counted instance. -/
def EarlyCtl.isFor (x : EarlyCtl) (c : Coll) : Bool :=
  x.dist == c.dist && x.tag == c.d.tag && x.inst == c.count % 256

/-- An instance takes the next count of its tag, and the control packets that came before it; instances stand
in the order in which they do. -/
def takeCount (s : State) (c : Coll) : State :=
  let k := c.counted s
  { s with
    colls := (s.colls.filter (fun x => x.key != c.key)) ++ [k]
    collCounts := SMap.put s.collCounts (c.dist * 2 ^ 16 + c.d.tag) (k.count + 1)
    early := s.early.filter (fun x => !x.isFor k) }

/-- An instance starts: counted, checked, and READY sent (R230, R235, R236). -/
def collStart (s : State) (key : Nat) (errs : SectorErrs) : State :=
  match collOf s key with
  | none => s
  | some w =>
    let c := w.counted s
    let args := c.args
    let early : List EarlyCtl := s.early.filter (fun x => x.isFor c)
    let s := takeCount s w
    match early.find? (fun x => x.abort) with
    | some x => collEnd s key (x.val % 256) (x.val / 256 % 256)
        (some (x.val / 2 ^ 16 % 256, x.val / 2 ^ 24 % 256))
    | none =>
      if !collValid s c then collEnd s key 8 0 none
      else if args.any (fun a => a != args.headD 0) then collEnd s key 9 0 none
      else if (c.ports s).any (fun p => !portUsable s p) then collEnd s key 1 1 none
      else
        let c : Coll := { c with ready :=
          (early.filterMap (fun x => rankAt s c.d (x.val % 256, x.val / 256))).eraseDups }
        let s := noteHold (setColl s c) key
        let s := (c.d.sources (ownRank s c.d)).foldl (fun s r => sendCtl s c r 1 0) s
        collPump s key errs

/-! ### Arrivals -/

/-- The running instance that a packet names. -/
def collOfPacket (s : State) (dist : Nat) (b : List Byte) : Option Coll :=
  s.colls.find? (fun c => c.started && c.ending.isNone && c.dist == dist && c.d.tag == pktTag b
    && c.count % 256 == pktInst b)

/-- Whether a data packet can be taken: its instance's engines work on it, or it has ended (R230,
R143). -/
def dataTaken (s : State) (b : List Byte) : Bool :=
  pktType b == 3 && match (s.colls.find? (fun c => c.started && c.d.tag == pktTag b
      && c.count % 256 == pktInst b && (quarterById s (pktQuarter b)).map (quarterDist s) == some c.dist)) with
    | some c => c.ending.isSome || collWorks s c
    | none => true

/-- Whether a packet is for an instance that has not started here yet. -/
def instAhead (s : State) (dist : Nat) (b : List Byte) : Bool :=
  let n := SMap.getD s.collCounts (dist * 2 ^ 16 + pktTag b) 0
  (pktInst b + 256 - n % 256) % 256 < 128

/-- The District that a packet's Quarter names. -/
def packetDist (s : State) (b : List Byte) : Option Nat :=
  (quarterById s (pktQuarter b)).map (quarterDist s)

/-- A control packet that comes before its instance is kept. -/
def keepEarly (s : State) (dist : Nat) (b : List Byte) (abort : Bool) (val : Nat) : State :=
  if instAhead s dist b then
    { s with early := s.early ++ [⟨dist, pktTag b, pktInst b, abort, val⟩] }
  else s

/-- The rank of a packet's source in the collective table's entry: of a running instance, or of
the one not yet started whose tag it carries. -/
def sourceRank (s : State) (c : Coll) (b : List Byte) : Option Nat := rankAt s c.d (pktSrc b)

/-- READY arrives (R230). -/
def collReady (s : State) (b : List Byte) (errs : SectorErrs) : State :=
  match packetDist s b with
  | none => s
  | some dist =>
    match collOfPacket s dist b with
    | some c =>
      match sourceRank s c b with
      | some r => collPump (setColl s { c with ready := (c.ready ++ [r]).eraseDups }) c.key errs
      | none => s
    | none => keepEarly s dist b false ((pktSrc b).1 + 256 * (pktSrc b).2)

/-- An ABORT arrives (R235). -/
def collAbortIn (s : State) (b : List Byte) : State :=
  match packetDist s b with
  | none => s
  | some dist =>
    let t := pktTarget b
    match collOfPacket s dist b with
    | some c => collEnd s c.key (t % 256) (t / 256 % 256) (some (t / 2 ^ 16 % 256, t / 2 ^ 24 % 256))
    | none => keepEarly s dist b true t

/-- A data block arrives over the ring: added to, forwarded or written (R228, R229). -/
def ringArrive (s : State) (c : Coll) (idx : Nat) (bytes : List Byte) (errs : SectorErrs) : State :=
  let d := c.d
  let p := d.ranks
  let own := ownRank s d
  let nxt := (own + 1) % p
  let q := idx / d.blocks
  let k := idx % d.blocks
  let n := SMap.getD c.seen idx 0
  let s := setColl s { c with seen := SMap.put c.seen idx (n + 1) }
  if d.reduces && n = 0 && own ≠ (q + 1) % p then
    -- a partial sum: this member's contribution is added
    let r := contribution s c q k errs
    match r.2 with
    | .error e => collEnd r.1 c.key e 0 none
    | .ok mine =>
      let v := addBytes d.dtype bytes mine
      let s := countBytes r.1 c idx (mine.length * c.copies) true
      if own = q then
        let s := if d.op = 1 then sendBlkK s c.key ⟨nxt, idx, v⟩ else s
        collFinish s c.key (if d.op = 1 then q else 0) k v
      else sendBlkK s c.key ⟨nxt, idx, v⟩
  else
    let last := (d.op = 1 && nxt = q) || (d.op = 3 && nxt = q) || (d.op = 4 && nxt = d.root) || d.op = 6
    let s := if last then s else sendBlkK s c.key ⟨nxt, idx, bytes⟩
    collFinish s c.key (if d.op = 1 || d.op = 3 then q else 0) k bytes

/-- A COLL_DATA packet arrives: its block is folded, kept for folding, or written. -/
def collData (s : State) (b : List Byte) (errs : SectorErrs) : State :=
  match packetDist s b with
  | none => s
  | some dist =>
    match collOfPacket s dist b with
    | none => s
    | some c =>
      match sourceRank s c b with
      | none => s
      | some r =>
        let d := c.d
        let idx := pktTarget b
        let bytes := b.drop 16
        let s := countBytes s c idx bytes.length true
        if d.scope = 1 then ringArrive s c idx bytes errs
        else
          let q := idx / d.blocks
          let k := idx % d.blocks
          if d.reduces && q = ownRank s d then
            setColl s { c with got := c.got ++ [⟨r, idx, bytes⟩] }
          else if d.op = 5 then collFinish s c.key r k bytes
          else collFinish s c.key q k bytes

/-! ### Folds (R229) -/

/-- The block indices that an instance folds or copies from what it holds itself. -/
def foldable (s : State) (c : Coll) (idx : Nat) : Bool :=
  let d := c.d
  let own := ownRank s d
  let q := idx / d.blocks
  let k := idx % d.blocks
  let doneIdx := if d.op = 2 || d.op = 4 || d.op = 6 then k else idx
  !c.written.contains doneIdx && k < d.blocks && collWorks s c &&
    (if d.ranks = 1 then q == 0 && d.op != 6
     else if d.scope = 2 && d.reduces then
       q == own && (List.range d.ranks).all (fun r =>
         r == own || c.got.any (fun b => b.rank == r && b.idx == idx))
     else if d.op = 3 || d.op = 5 then q == own
     else d.op = 4 && own = d.root && q == 0)

/-- The copies of a block added in the order of R229: rank c + 1 first, the owner c last. -/
def foldCopies (c : Coll) (idx own : Nat) (mine : List Byte) : List Byte :=
  let p := c.d.ranks
  let copy (r : Nat) : List Byte :=
    if r = own then mine
    else ((c.got.find? (fun b => b.rank == r && b.idx == idx)).map Blk.bytes).getD []
  (List.range (p - 1)).foldl (fun v i => addBytes c.d.dtype v (copy ((own + 2 + i) % p)))
    (copy ((own + 1) % p))

/-- One block folded by its owner, written, and sent on where the operation gathers. -/
def collFold (s : State) (key idx : Nat) (errs : SectorErrs) : State :=
  match collOf s key with
  | none => s
  | some c =>
    if !foldable s c idx then s
    else
      let d := c.d
      let own := ownRank s d
      let q := idx / d.blocks
      let k := idx % d.blocks
      let r := contribution s c q k errs
      match r.2 with
      | .error e => collEnd r.1 key e 0 none
      | .ok mine =>
        let v := if d.ranks > 1 && d.reduces then foldCopies c idx own mine else mine
        let s := countBytes r.1 c idx (mine.length * c.copies) true
        let s := setColl s { c with got := c.got.filter (fun b => b.idx != idx) }
        let s := if d.scope = 2 && d.op = 1 && d.ranks > 1 then
            (d.dests own).foldl (fun s x => sendBlkK s key ⟨x, idx, v⟩) s
          else s
        collFinish s key (if d.op = 2 || d.op = 4 then 0 else q) k v

/-! ### Posts (R230) -/

/-- An instance that waits for posts and that a position has not posted, else a new one. -/
def postInstance (s : State) (dist slot pos : Nat) (desc : List Byte) (members : List Nat) :
    State × Nat :=
  match s.colls.find? (fun c => !c.started && c.dist == dist && c.slot == slot && c.desc == desc
      && c.job.isNone && c.posts.all (fun p => p.1 != pos)) with
  | some c => (s, c.key)
  | none =>
    ({ s with nextColl := s.nextColl + 1,
              colls := s.colls ++ [{ key := s.nextColl, dist, desc, slot, members }] }, s.nextColl)

/-- The local members of a descriptor among an image's tiles. -/
def membersOf (d : CDesc) (tiles : List Nat) : List Nat := (tiles.drop d.first).take d.count

/-- Whether a position lies in a descriptor's member range. -/
def CDesc.inRange (d : CDesc) (pos : Nat) : Bool := d.first ≤ pos && pos < d.first + d.count

/-- A post reaches the Plaza: an instance takes it, or it is ignored and counted (R230); or a host event counter
gains 1 (R254). The argument of a post and the number of a counter cross the link group of the tile's die
(R289). -/
def postArrive (s : State) (n : Nat) : Post → State
  | .coll dist slot pos e arg desc members =>
    let d := readCDesc desc
    let x := plazaNat s 8 n 4 arg
    if !d.inRange pos then
      bump x.1 (collP (8 * dist + (bitList 8 d.engines).headD 0)) COLL_BAD_POSTS
    else
      let r := postInstance x.1 dist slot pos desc members
      match collOf r.1 r.2 with
      | none => r.1
      | some c => setColl r.1 { c with posts := c.posts ++ [(pos, e, x.2)] }
  | .hevt e =>
    let x := plazaNat s 8 n 1 e
    if tileOwner s n < 4 then hostEvent x.1 (tileOwner s n) x.2 else x.1

/-- Tile `n` posts to the Plaza: what it posts waits while the link group of its die holds it (R18), behind
what waits already. -/
def tilePost (s : State) (n : Nat) (p : Post) : State :=
  if plazaHeld s 8 n || s.dawn.posts.any (fun x => x.1 == n) then
    { s with dawn := { s.dawn with posts := s.dawn.posts ++ [(n, p)] } }
  else postArrive s n p

/-- Posts that waited go on where they can, in their order. -/
def postsGoOn (s : State) : State :=
  s.dawn.posts.foldl (fun s x => tilePost s x.1 x.2) { s with dawn := { s.dawn with posts := [] } }

/-- A tile posts an entry of its image's collective table (NX.COLL, R230). A post from outside the member range
leaves its event counter alone. -/
def collPost (s : State) (n entry e arg : Nat) : State :=
  match launchOf s n with
  | none => s
  | some (dist, j) =>
    match j.work with
    | .launch slot im _ _ _ =>
      match im.colls[entry]? with
      | none => s
      | some desc =>
        let d := readCDesc desc
        let pos := (im.tiles.idxOf? n).getD 0
        let t := tile s n
        let s := if d.inRange pos then setTile s n { t with evColl := t.evColl ++ [e] } else s
        tilePost s n (.coll dist slot pos e arg desc (membersOf d im.tiles))
    | _ => s

/-! ### Ends -/

/-- An instance that has all its posts ends. One that waits for room takes its count first, so that the next
of its tag goes on matching that of the other members (DEDUCED, log entry 185). -/
def collStop (s : State) (key status cause : Nat) : State :=
  match collOf s key with
  | none => s
  | some c =>
    if c.started then collEnd s key status cause none
    else if collPosted c then collEnd (takeCount s c) key status cause none
    else s

/-- Instances that satisfy `p` end with a status, and those queued behind them go on. One that waits for
posts is not queued, and stays. -/
def collEndAll (s : State) (p : Coll → Bool) (status cause : Nat) : State :=
  collPumpAll ((s.colls.filter p).foldl (fun s c => collStop s c.key status cause) s) []

/-- Posts of the launches of a District that no instance has started with, those of image slot `slot` or of
every one, are gone with their launch: no member is left to complete them (log entry 185). -/
def dropPosts (s : State) (d : Nat) (slot : Option Nat) : State :=
  let of (k : Nat) : Bool := slot.all (fun x => x == k)
  { s with
    colls := s.colls.filter (fun c => !(c.dist == d && of c.slot && !c.started && !collPosted c))
    dawn := { s.dawn with posts := s.dawn.posts.filter (fun x => match x.2 with
      | .coll dist k _ _ _ _ _ => !(dist == d && of k)
      | .hevt _ => true) } }

/-- A launch of a District, that of image slot `slot` or every one, ends by a trap, a stop or the slip limit:
every instance that is queued or runs on the District's engines ends ABORTED, cause host abort, with a wave
(R236). -/
def abortColls (s : State) (d : Nat) (slot : Option Nat) : State :=
  collEndAll (dropPosts s d slot) (fun c => c.dist == d) 1 2

/-- A port lost its last link: the instances that use it end ABORTED, cause PATH_LOST (R236). -/
def collPathLost (s : State) (port : Nat) : State :=
  let hit := s.colls.filter (fun c => c.started && (c.ports s).contains port)
  hit.foldl (fun s c => collEnd s c.key 1 1 none) s

/-! ### Links going down (R203 to R205) -/

/-- Flows leave a link: the next packet of each is hashed again. -/
def freeFlows (s : State) (l : Nat) : State :=
  { s with topo := { s.topo with flows := s.topo.flows.filter (fun f => f.2.1 != l) } }

/-- Flits of a downed link are discarded (R204). -/
def discardFlits (s : State) (l : Nat) : State :=
  let p := linkPage l
  let x := link s l
  let n := x.retry.length
  let s := freeFlows (setLink s l { x with retry := [], txq := [], mid := false, handing := false }) l
  let s := bump s p (if isAlley l then ALLEY_DISCARDED else BLVD_DISCARDED) n
  if n = 0 then s else raise (lastErr s p 5) p 3

/-- The receive direction of a link went down. Its receiver names the last SEQ that it delivered, on
the reverse direction of a surviving link from the same peer, if there is one; what is handed over goes
on there (R204). -/
def rxFell (s : State) (l : Nat) : State :=
  let x := link s l
  let rx := splitStream x.rx
  let s := setLink s l { x with rx := rx.1 }
  match (portLinks s (rxPort s l)).filter (fun r => revLink r != l && rxUp s (revLink r)) with
  | r :: _ =>
    let lastSeq := if x.any then (x.expect + 65534) % 65535 else 65534
    let y := link s (revLink r)
    let s := setLink s (revLink r) { y with
      joins := rx.2, foreign := y.foreign + rx.2.length, taking := true }
    noteHolds (sendMsg s r 9 (linkEngine l + 4 * lastSeq))
  | [] => s

/-- A port has lost its last link: what the retry buffers of its downed links held is discarded
(R204). -/
def portLost (s : State) (l port : Nat) : State :=
  let s := ((portAll s port).filter (fun m => m == l || (link s m).handing)).foldl discardFlits s
  let lost := portState s port == 3
  let s := if lost then raise s topoP 2 else s
  portBare (collPathLost s port) port

/-- The transmit direction of a link went down: its flits wait for the receiver's HANDOVER, or its
port is lost. -/
def txFell (s : State) (l : Nat) : State :=
  let port := linkPort s l
  if (portLinks s port).isEmpty then portLost s l port
  else
    let s := setLink s l { link s l with handing := true }
    noteHolds (if isAlley l then bump (lastErr s (alleyP l) 4) (alleyP l) ALLEY_HANDOVERS else s)

/-- A direction of a link stops; an Alley's waits for a RETRAIN or a grant (R203). -/
def stopTx (s : State) (l : Nat) : State :=
  let s := setLink s l { link s l with
    txOn := false, txDead := true, txTrain := false, txAll := false, txLost := [], replaying := false }
  if isAlley l then wr s (alleyP l) ALLEY_TX_LANES 0 else s

/-- The receive direction stops; `st` is the state that a Boulevard line enters. -/
def stopRx (s : State) (l st : Nat) : State :=
  let s := setLink s l { link s l with
    rxOn := false, rxDead := true, rxTrain := false, rxAll := false, rxLost := [], good := [],
    relocks := [], searched := [], nak := false, taking := false }
  if isAlley l then forgetPartner (wr s (alleyP l) ALLEY_RX_LANES 0) l
  else wr s (blvdP (linkEngine l)) BLVD_LINE_STATE st (linkLine l)

/-- Directions of links go down together: the transmit directions `ts`, and the receive directions
`rs`, each with the state that a Boulevard line enters. -/
def dirsDown (s : State) (ts : List Nat) (rs : List (Nat × Nat)) : State :=
  let fellT := ts.filter (txUp s)
  let fellR := (rs.map Prod.fst).filter (rxUp s)
  let s := ts.foldl stopTx s
  let s := rs.foldl (fun s r => stopRx s r.1 r.2) s
  let s := ((fellT ++ fellR).filter isAlley).foldl (fun s l =>
    raise (lastErr s (alleyP l) 3) (alleyP l) 2) s
  fellT.foldl txFell (fellR.foldl rxFell s)

/-- Both directions of links go down together. -/
def linksDown (s : State) (ls : List (Nat × Nat)) : State := dirsDown s (ls.map Prod.fst) ls

/-- Both directions of a link go down; `st` is the state that the link enters: an Alley's LSTATE, or a
line's state. -/
def linkDown (s : State) (l st : Nat) : State :=
  let s := linksDown s [(l, st)]
  if isAlley l then wr s (alleyP l) ALLEY_LSTATE st else s

/-- What was owed on a link is owed on the one that its flits were handed over to. -/
def moveOwed (s : State) (down survivor : Nat) : State :=
  let due := linkDue (link s survivor)
  { s with colls := s.colls.map (fun c =>
      if (SMap.find c.owed down).isSome then
        { c with owed := SMap.put (SMap.del c.owed down) survivor due }
      else c) }

/-- What of a link's stream has not been delivered: the flits `left`, and the packets that wait. -/
def undelivered (x : Link) (left : List (Nat × List Byte)) : List (List Byte) :=
  let rest := left.flatMap Prod.snd
  if x.mid then [rest ++ x.txq.headD []] ++ x.txq.tail else [rest] ++ x.txq

/-- The sender of a downed link resends on a surviving one what the partner had not delivered, ahead of
what waits there (R204). It begins at the end of a packet, after a payload of zero bytes, which no
packet holds there (DESIGN CHOICE, log entry 79). -/
def handOver (s : State) (down survivor lastSeq : Nat) : State :=
  let x := link s down
  let left := match x.retry.findIdx? (fun f => f.1 == lastSeq) with
    | some i => x.retry.drop (i + 1)
    | none => x.retry
  let y := link s survivor
  let s := setLink s down { x with retry := [], txq := [], mid := false, handing := false }
  let moved := undelivered x left
  let first := if y.mid then [fillUp (y.txq.headD [])] else []
  let after := if y.mid then y.txq.tail else y.txq
  let y := { y with txq := first ++ [List.replicate 56 0] ++ moved ++ after }
  let s := setLink s survivor y
  let s := if moved.flatten.isEmpty then freeFlows s down
    else
      let s := moveOwed s down survivor
      { s with topo := { s.topo with flows := s.topo.flows.map (fun f =>
        if f.2.1 = down then (f.1, (survivor, true)) else f) } }
  pumpLink s survivor (pumpFuel y)

end Sys2Proof.Machine
end

