-- ==== Sys2Proof/Machine/PageOps.lean ====
section
/-!
DEFINITION. Machine/PageOps.lean: who may reach which register page, the checks of a register
access, its refusal, and the effect of a plain write (R302, R336 to R344, R246).
-/
namespace Sys2Proof.Machine

/-! ### The package's condition -/

/-- VDD_AON is up and the Midnight latch is clear. -/
def aonRuns (s : State) : Bool := s.dawn.aon && rd s thermP THERM_MIDNIGHT == 0

/-- Dusk runs its rounds: its block is ON (R297; DESIGN CHOICE, log entry 52). -/
def duskRuns (s : State) : Bool := aonRuns s && rd s duskP HDR_STATE == 2

/-- The sensors are sampled and judged: `THERM` is ON (R297; DESIGN CHOICE, log entry 52). -/
def thermOn (s : State) : Bool := rd s thermP HDR_STATE == 2
def sensorsRun (s : State) : Bool := duskRuns s && thermOn s

/-- The Plaza is out of reset: PWRGOOD is high and the Midnight latch is clear (R282). -/
def plazaUp (s : State) : Bool := s.dawn.aon && s.dawn.pwrgood && rd s thermP THERM_MIDNIGHT == 0

/-- Dawn has ended (R302). -/
def dawnOver (s : State) : Bool := rd s dawnP DAWN_STAGE == 15

/-- The package is awake: neither entering, in, nor leaving Twilight. -/
def awake (s : State) : Bool := rd s duskP DUSK_TW_STATE == 0

/-- A wake arrives (R283): 1 doorbell, 2 `TW_EXIT`, 3 watch. In Twilight exit begins; during entry
the first wake is held. -/
def wake (s : State) (cause : Nat) : State :=
  let p := duskP
  if rd s p DUSK_TW_STATE = 2 then wr (wr s p DUSK_TW_STATE 3) p DUSK_WAKE_CAUSE cause
  else if rd s p DUSK_TW_STATE = 1 && rd s p DUSK_WAKE_PENDING == 0 then
    wr { s with dusk := { s.dusk with wake := cause } } p DUSK_WAKE_PENDING 1
  else s

/-- A host port's link is trained. -/
def portUp (s : State) (i : Nat) : Bool := rd s (hostportP i) HOSTPORT_LINK_UP == 1

/-- The rails of a die are up: PWRGOOD is high, or the last round found all of them in range. -/
def dieRails (s : State) (d : Nat) : Bool := s.dawn.pwrgood || bitsOf s.dusk.railsIn (16 * d) 16 == 2 ^ 16 - 1

/-! ### Access (R302, R342, R343) -/

/-- Whether the SMBus port finds a page unmapped: until stage 1 ends, and while the Midnight latch is
set, only `DUSK` and `THERM` answer (R344, R354). -/
def smbHides (s : State) (p : PageId) : Bool :=
  (rd s dawnP DAWN_STAGE < 2 || rd s thermP THERM_MIDNIGHT == 1) && p.kind != .dusk && p.kind != .therm

/-- Whether requester `req` may see a page: a host function (R342), or the SMBus port, 4, which
reaches the package and die pages (R344). -/
def pageVisible (s : State) (req : Nat) (p : PageId) : Bool :=
  if req = 4 then !p.kind.perTile
  else if req = ownerPort s then true
  else match p.kind with
    | .plaza | .sec | .pkgsw => true
    | .hostport | .district | .cmdproc => p.inst == req
    | .coll => p.inst / 8 == req
    | .tile | .slice | .engine | .mover => tileOwner s p.inst == req
    | .dawn | .bist | .fuse => !dawnOver s
    | _ => false

/-- What a function reaches before Dawn ends (R302). -/
def dawnReach (s : State) (req : Nat) (p : PageId) : Bool :=
  match p.kind with
  | .dawn | .bist | .fuse => true
  | .plaza => req == ownerPort s
  | _ => false

/-- The first error of a register access of `size` bytes at BAR0 offset `o`, or 0. -/
def regError (s : State) (req o size : Nat) : Nat :=
  if req < 4 && !dawnOver s && !((pageAt o).any (fun p => dawnReach s req p)) then errBusy
  else match pageAt o with
    | none => errUnmapped
    | some p =>
      if (req == 4 && smbHides s p) || (p.kind.perTile && !tileExists s p.inst) then errUnmapped
      else if !((size == 4 && o % 4 == 0) || (size == 8 && o % 8 == 0)) then errAccess
      else if !pageVisible s req p then errAccess
      else if p.kind.perTile && dieFenced s (tileDie p.inst) then errFenced
      else 0

/-- A refused access of a host function is logged in its port's page (R246). -/
def portRefused (s : State) (req addr code : Nat) (write : Bool) : State :=
  let p := hostportP req
  let s := bump s p (if write then HOSTPORT_WIN_WR_REFUSED else HOSTPORT_WIN_RD_REFUSED)
  let s := logErr s p code (addr % 2 ^ 32) (addr / 2 ^ 32 % 2 ^ 16) (code + 256 * ofBool write)
  raise s p 0

/-- A refused register access. -/
def regRefused (s : State) (req o code : Nat) (write : Bool) : State :=
  let s := portRefused s req (regBase + o) code write
  if write then s else emit s (.completerAbort req)

/-- The byte offset within its page of the register that holds entry `i` of a field. -/
def fldOff (f : Fld) (i : Nat := 0) : Nat :=
  (8 * f.off + f.lo + i / f.cnt2 * f.str + i % f.cnt2 * f.str2) / 32 * 4

/-! ### Fields of a register -/

/-- The fields of a page, the header's first. -/
def allFields (k : PageKind) : List Fld := hdrFields ++ k.fields

/-- The fields with a place in the register at byte offset `off` of a page, with the entry. -/
def fieldsAt (k : PageKind) (off : Nat) : List (Fld × Nat) :=
  (allFields k).flatMap (fun f =>
    if f.cnt = 1 then (if fldOff f 0 == off then [(f, 0)] else [])
    else ((List.range f.cnt).filter (fun i => fldOff f i == off)).map (fun i => (f, i)))

/-- The bit of its register at which an entry of a field begins. -/
def fldBit (f : Fld) (i : Nat) : Nat :=
  (8 * f.off + f.lo + i / f.cnt2 * f.str + i % f.cnt2 * f.str2) % 32

/-- What a write of `v` to the register that holds entry `i` of a field gives it. -/
def fldVal (v : Nat) (f : Fld) (i : Nat := 0) : Nat := v / 2 ^ fldBit f i % 2 ^ f.wid

/-- Whether a page's `LOCK` is set. -/
def locked (s : State) (p : PageId) : Bool := rd s p HDR_LOCK == 1

/-- Whether a write of `v` to the register at `off` would give a field that is the owning host's alone
another value, and comes from another function; while `LOCK` is set the field takes no write at all
(R342; DEDUCED, log entry 56). -/
def ownerOnly (s : State) (req : Nat) (p : PageId) (off v : Nat) : Bool :=
  req != ownerPort s && (fieldsAt p.kind off).any (fun x =>
    [SLICE_REFRESH_FLOOR, SEC_ATT_PKG].contains x.1 && !(x.1.acc == .rwl && locked s p)
      && fldVal v x.1 x.2 != rd s p x.1 x.2)

/-! ### Who may write (R337, R342) -/

/-- The registers of page `p` that function `req`, which sees the page, writes: the owning host every one but
those of `PLAZA`, of which it writes `INT_EOI`, and `BLK_CTRL`, whose `ENABLE` ignores writes (R342); a District's
host its own, and of `PLAZA` its own `INT_EOI` alone (DEDUCED, log entry 197). A write of `DIST_GLB` that R29 drops
is dropped there. -/
def writesReg (s : State) (req : Nat) (p : PageId) (off : Nat) : Bool :=
  let owner := req == ownerPort s
  match p.kind with
  | .plaza => off == 0x130 + 4 * req || (owner && (off == 8 || (0x130 ≤ off && off < 0x140)))
  | .sec => owner || (0x300 + 0x40 * req ≤ off && off < 0x340 + 0x40 * req)
  | .pkgsw => owner || (List.range 4).any (fun d =>
      fldOff PKGSW_DIST_GLB_BASE d == off || fldOff PKGSW_DIST_GLB_SIZE d == off)
  | .hostport => owner || off < 0x100
  | .district => owner || off < 0x100 || (0x110 ≤ off && off < 0x170) || (0x400 ≤ off && off < 0x800)
  | .dawn | .bist | .fuse => owner
  | _ => true

/-- Whether a write of function `req`, which sees page `p`, at `off` of it is not refused: the function writes
that register, or the register holds nothing that takes a write, so that the write is ignored (R337). -/
def mayWrite (s : State) (req : Nat) (p : PageId) (off : Nat) : Bool :=
  req != 4 && (writesReg s req p off || (fieldsAt p.kind off).all (fun x => x.1.acc == .ro))

/-- The first error of a write, in R343's order: ERR_FENCED comes after the ERR_ACCESS of R342. -/
def writeErr (e : Nat) (may : Bool) : Nat :=
  if (e = 0 || e = errFenced) && !may then errAccess else e

/-- A register access that row-specific writes share: whether the port can send it, and its first
error. `none`: the port cannot send it, so nothing happens. -/
def writeError (s : State) (req : Nat) (p : PageId) (off : Nat) : Option Nat :=
  if !plazaUp s || !portUp s req then none
  else some (writeErr (regError s req (p.base + off) 4) (mayWrite s req p off))

/-- A write with a behaviour of its own: refused under its checks, or `act`. -/
def guardedWrite (s : State) (req : Nat) (p : PageId) (off : Nat) (act : State → State) : State :=
  match writeError s req p off with
  | none => s
  | some 0 => act s
  | some e => regRefused s req (p.base + off) e true

/-- A write to the register of field `f`, entry `i`. -/
def fieldWrite (s : State) (req : Nat) (p : PageId) (f : Fld) (i : Nat) (act : State → State) :
    State :=
  guardedWrite s req p (fldOff f i) act

/-- A soft reset of a page waits while its block starts or drains (R298). -/
def resetOrWait (s : State) (p : PageId) (act : State → State) : State :=
  let st := rd s p HDR_STATE
  if st = 1 || st = 3 then { s with resetWaits := SMap.put s.resetWaits p.base 1 } else act s

end Sys2Proof.Machine
end

