-- ==== Sys2Proof/Machine/DmaOps.lean ====
section
/-!
DEFINITION. Machine/DmaOps.lean: what a host's data does in device memory: the sectors of WRITE_MEM,
READ_MEM and FILL (R251, R23, R24, R130, R143), reads of tile SRAM from outside (R365), writes to a
command window that are not acknowledged at once (R149), and the accesses of the access windows (R246,
R247).
-/
namespace Sys2Proof.Machine

/-- The key under which a host command waits at a command window; movers use 8 × tile + channel,
below 15,360. -/
def jobKey (d seq : Nat) : Nat := 15360 + 8 * seq + d
/-- The key of a host's window writes. -/
def hostKey (d : Nat) : Nat := 15360 + 4 + d % 4

/-- Commands whose data a window has acknowledged meanwhile complete. -/
def pollAcks (s : State) : State :=
  (List.range 4).foldl (fun s d =>
    (proc s d).running.foldl (fun s j => match j.work with
      | .ack who status data _ _ => if waitsAtWindow s who then s else finishJob s d j status data
      | _ => s) s) s

/-! ### Tile SRAM from outside (R24, R365) -/

/-- Bytes of a tile's SRAM window; instruction SRAM begins at 0x18_0000. -/
def sramRead (s : State) (n off len : Nat) : List Byte :=
  let t := tile s n
  if off < 0x180000 then memBytes t.data off len else memBytes t.code (off - 0x180000) len

def sramWrite (s : State) (n off : Nat) (bytes : List Byte) : State :=
  let t := tile s n
  setTile s n (if off < 0x180000 then t.storeData off bytes else t.storeCode (off - 0x180000) bytes)

/-- The bank that holds a byte of the window: 0–23 data (R35), 24–25 instruction (R38). -/
def windowBank (off : Nat) : Nat :=
  if off < 0x180000 then sramBank off else 24 + (off - 0x180000) / 0x10000

/-- A read of a line from outside meets bad parity, as `h` says; the second read fails too when
`lasting`, and the line then fails until something writes it (R290, R365). -/
def sramParity (s : State) (n : Nat) (h : ParHit) (lasting : Bool) : State :=
  let p := tileP n
  let s := logErr s p (if lasting then 7 else 1) (h.line % 2 ^ 21 + 2 ^ 31 * ofBool lasting)
    (h.bank % 32 + 2 ^ 8 * (h.byte % 64) + 2 ^ 16 * 4) (h.count % 128)
  if lasting then raise (setTile s n (markBad (tile s n) [h])) p 2 else bump s p HDR_ERR_RETRY_COUNT

/-- The bad parity that a read of the line at window offset `off` meets: what the line met before where
it has failed for good, and whether the second read fails too. -/
def lineParity (t : Tile) (off : Nat) (err : Option SectorErr) : Option (ParHit × Bool) :=
  let b := windowBank off
  match SMap.find t.bad (badKey b (off / 64 * 64)) with
  | some h => some (h, true)
  | none => err.map (fun e =>
    let bytes := e.first.map Prod.fst
    ({ slot := 5, bundle := 0, bank := b, line := off / 64 * 64, byte := bytes.headD 0,
       count := bytes.length }, !e.second.isEmpty))

/-! ### One piece of a request: bytes within one sector, or one line of tile SRAM -/

/-- What a piece of a host request comes to. -/
inductive Piece where
  | ok (bytes : List Byte)
  /-- the slice or the window holds the request -/
  | held
  /-- a code of R23 or R24 -/
  | err (code : Nat)
  /-- uncorrectable, unwritten or poisoned data, or lasting parity -/
  | bad
  deriving DecidableEq, Repr

/-- Bytes that District `d` has read at tile `n` have come. -/
def pieceCome (s : State) (d n : Nat) (b : List Byte) : State × Piece :=
  let r := plazaData s d n b
  (r.1, .ok r.2)

/-- A read of `len` bytes at `a`, within one piece, for District `d`. -/
def pieceRead (s : State) (d a len : Nat) (err : Option SectorErr) : State × Piece :=
  match resolve s d a with
  | .error e => (refuse s d a e, .err e)
  | .ok (.reg _) => (refuse s d a errAccess, .err errAccess)
  | .ok (.slice n o) =>
    if sliceBusy s n then (refuse s d a errBusy, .err errBusy)
    else if readHeld s n (o / 32) 1 || plazaHeld s d n then (s, .held)
    else
      let r := sliceSector s n (o / 32) 2 err
      match r.2 with
      | .good b => pieceCome r.1 d n ((b.drop (o % 32)).take len)
      | _ => (r.1, .bad)
  | .ok (.sram n o) =>
    if (tile s n).runState = 2 then (refuse s d a errBusy, .err errBusy)
    else if plazaHeld s d n then (s, .held)
    else match lineParity (tile s n) o err with
      | none => pieceCome s d n (sramRead s n o len)
      | some (h, lasting) =>
        let t := sramParity s n h lasting
        if lasting then (t, .bad) else pieceCome t d n (sramRead s n o len)
  | .ok (.win n o) =>
    let r := winSectorRead s n (o / 32 * 32) 2 err
    match if plazaHeld s d n then none else r.2 with
    | none => (s, .held)
    | some (.good b) => pieceCome r.1 d n ((b.drop (o % 32)).take len)
    | some _ => (r.1, .bad)

/-- A write of bytes at `a`, within one piece, for District `d`; `who` is told when a window or the merge
buffer acknowledges it. -/
def pieceWrite (s : State) (d a : Nat) (bytes : List Byte) (who : Nat) : State × Piece :=
  match resolve s d a with
  | .error e => (refuse s d a e, .err e)
  | .ok (.reg _) => (refuse s d a errAccess, .err errAccess)
  | .ok (.slice n o) =>
    if sliceBusy s n then (refuse s d a errBusy, .err errBusy)
    else if sliceHolds s n || plazaHeld s d n then (s, .held)
    else
      let x := plazaData s d n bytes
      if bytes.length = 32 then (sliceWriteSector x.1 n (o / 32) x.2, .ok [])
      else (gather x.1 n ⟨o / 32, o % 32, x.2, some who⟩, .ok [])
  | .ok (.sram n o) =>
    if (tile s n).runState = 2 then (refuse s d a errBusy, .err errBusy)
    else if plazaHeld s d n then (s, .held)
    else
      let x := plazaData s d n bytes
      (sramWrite x.1 n o x.2, .ok [])
  | .ok (.win n o) =>
    if plazaHeld s d n then (s, .held)
    else
      let x := plazaData s d n bytes
      let r := winWrite x.1 n o x.2 (some who)
      match r.2 with
      | .access => (refuse r.1 d a errAccess, .err errAccess)
      | _ => (r.1, .ok [])

/-- A line that FILL writes: slices only (R80, R251). -/
def pieceFill (s : State) (d a : Nat) (bytes : List Byte) : State × Piece :=
  match resolve s d a with
  | .error e => (refuse s d a e, .err e)
  | .ok (.slice n o) =>
    if sliceBusy s n then (refuse s d a errBusy, .err errBusy)
    else if sliceHolds s n || plazaHeld s d n then (s, .held)
    else
      let x := plazaData s d n bytes
      (sliceWriteSectors x.1 n (o / 32) 2 x.2, .ok [])
  | .ok _ => (refuse s d a errAccess, .err errAccess)

/-! ### Whole transfers -/

/-- The bytes of a transfer that its next piece takes: up to the end of a sector, or of a line of tile
SRAM (R365). -/
def pieceLen (a left : Nat) : Nat :=
  let u := if sramBase ≤ a && a < sramEnd then 64 else 32
  min (u - a % u) left

/-- How a transfer ended: held (nothing has happened), or the status, its data, and bytes read. -/
abbrev Moved3 := Option (Nat × Nat × List Byte)

/-- READ_MEM's pieces, up to the first that fails; `i` numbers them. -/
def dmaRead (s : State) (d : Nat) (errs : SectorErrs) (i a : Nat) :
    Nat → Nat → State × Moved3
  | 0, _ => (s, some (stOk, 0, []))
  | k + 1, left =>
    if left = 0 then (s, some (stOk, 0, []))
    else
      let m := pieceLen a left
      let r := pieceRead s d a m (errAt errs i)
      match r.2 with
      | .held => (s, none)
      | .err e => (r.1, some (e, a % 2 ^ 48, []))
      | .bad => (r.1, some (stUncorr, a % 2 ^ 48, []))
      | .ok b =>
        let q := dmaRead r.1 d errs (i + 1) (a + m) k (left - m)
        (q.1, q.2.map (fun x => (x.1, x.2.1, b ++ x.2.2)))

/-- WRITE_MEM's pieces. -/
def dmaWrite (s : State) (d who a : Nat) : Nat → List Byte → State × Moved3
  | 0, _ => (s, some (stOk, 0, []))
  | k + 1, bytes =>
    if bytes.isEmpty then (s, some (stOk, 0, []))
    else
      let m := pieceLen a bytes.length
      let r := pieceWrite s d a (bytes.take m) who
      match r.2 with
      | .held => (s, none)
      | .err e => (r.1, some (e, a % 2 ^ 48, []))
      | .bad => (r.1, some (stUncorr, a % 2 ^ 48, []))
      | .ok _ => dmaWrite r.1 d who (a + m) k (bytes.drop m)

/-- FILL's lines. -/
def dmaFill (s : State) (d pattern a : Nat) : Nat → State × Moved3
  | 0 => (s, some (stOk, 0, []))
  | k + 1 =>
    let r := pieceFill s d a ((List.range 8).flatMap (fun _ => leBytes 8 pattern))
    match r.2 with
    | .held => (s, none)
    | .err e => (r.1, some (e, a % 2 ^ 48, []))
    | .bad => (r.1, some (stUncorr, a % 2 ^ 48, []))
    | .ok _ => dmaFill r.1 d pattern (a + 64) k

/-- Data bytes that a port received, and sent. -/
def bytesIn (s : State) (port n : Nat) : State :=
  bump64 s (hostportP port) HOSTPORT_BYTES_IN_LO HOSTPORT_BYTES_IN_HI n
def bytesOut (s : State) (port n : Nat) : State :=
  bump64 s (hostportP port) HOSTPORT_BYTES_OUT_LO HOSTPORT_BYTES_OUT_HI n

/-- The end of a memory command of `len` bytes at `dev`: it completes, or waits for a window's
acknowledgement. -/
def dmaEnd (s : State) (d : Nat) (j : Job) (dev len status data : Nat) : State :=
  let who := jobKey d j.seq
  if waitsAtWindow s who then setJob s d { j with work := .ack who status data dev len }
  else finishJob s d j status data

/-- A memory command moves its data (R251). `data` is what host memory returned, `takes` the bytes
it accepts. A command that meets a held slice or window has not come to its end, and one whose data
waits for an acknowledgement ends once that has come. -/
def dmaRun (s : State) (d : Nat) (j : Job) (data : List Byte) (takes : Nat) (errs : SectorErrs) :
    State :=
  match j.work with
  | .dma host dev len pattern =>
    if j.op = 1 then
      let got := data.take len
      let r := dmaWrite s d (jobKey d j.seq) dev (got.length + 1) got
      match r.2 with
      | none => s
      | some x =>
        let t := bytesIn r.1 d got.length
        if x.1 ≠ stOk then dmaEnd t d j dev len x.1 x.2.1
        else if got.length < len then dmaEnd (hostRefused t d) d j dev len stHostDma got.length
        else dmaEnd t d j dev len stOk 0
    else if j.op = 2 then
      let r := dmaRead s d errs 0 dev (len + 1) len
      match r.2 with
      | none => s
      | some x =>
        let out := x.2.2.take takes
        let t := bytesOut (if out.isEmpty then r.1 else emit r.1 (.hostWrite d host out)) d out.length
        if out.length < x.2.2.length then
          dmaEnd (hostRefused t d) d j dev len stHostDma out.length
        else dmaEnd t d j dev len x.1 x.2.1
    else
      let r := dmaFill s d pattern dev (len / 64)
      match r.2 with
      | none => s
      | some x => dmaEnd r.1 d j dev len x.1 x.2.1
  | .ack _ _ _ _ _ => pollAcks s
  | _ => s

/-! ### Access windows (R246, R247) -/

/-- A window access is refused (R246). -/
def windowRefused (s : State) (d a code : Nat) (write : Bool) : State :=
  let s := portRefused s d a code write
  if write then s else emit s (.completerAbort d)

/-- The tile whose slice or window an address names. -/
def addrTile (s : State) (d a : Nat) : Option Nat :=
  match decodeAddr s d a with
  | some (.slice n _) | some (.win n _) => some n
  | _ => none

/-- A read waits for earlier writes of its function to the same slice (R247). -/
def writesWaitAt (s : State) (d a : Nat) : Bool :=
  match addrTile s d a with
  | some n => (slice s n).waits (hostKey d)
  | none => false

/-- A poisoned completion is sent (R130). -/
def poisonedCpl (s : State) (p : Nat) : State :=
  let h := hostportP p
  emit (bump (lastErr s h 5) h HOSTPORT_POISONED_CPL) (.readData p [] true)

/-- A read is answered, poisoned or aborted; none where it must wait. -/
def hostLoad (s : State) (q : HostReq) : Option State :=
  if writesWaitAt s q.port q.addr then none
  else
    let r := dmaRead s q.port q.errs 0 q.addr (q.len + 1) q.len
    r.2.map (fun x =>
      if x.1 = stOk then bytesOut (emit r.1 (.readData q.port x.2.2 false)) q.port x.2.2.length
      else if x.1 = stUncorr then poisonedCpl r.1 q.port
      else windowRefused r.1 q.port x.2.1 x.1 false)

/-- A write is applied up to the first byte that is refused; none where it must wait. -/
def hostStore (s : State) (q : HostReq) : Option State :=
  let r := dmaWrite s q.port (hostKey q.port) q.addr (q.bytes.length + 1) q.bytes
  r.2.map (fun x =>
    let t := bytesIn r.1 q.port q.bytes.length
    if x.1 = stOk then t else windowRefused t q.port x.2.1 x.1 true)

/-- Window accesses are carried out in their order; one that must wait is kept, and so is what a
function sends behind a write that waits: nothing passes it (R247). -/
def serve (s : State) : List HostReq → State
  | [] => s
  | q :: qs =>
    let late := s.hostHeld.any (fun h => h.port == q.port && h.write)
    match if late then none else if q.write then hostStore s q else hostLoad s q with
    | some t => serve t qs
    | none => serve { s with hostHeld := s.hostHeld ++ [q] } qs

/-- A write through a window of function `f` has not been acknowledged. -/
def writesWait (s : State) (f : Nat) : Bool :=
  waitsAtWindow s (hostKey f) || s.hostHeld.any (fun h => h.port == f && h.write)

/-- Doorbells whose functions have had every window write acknowledged wait no more (R247). -/
def pollBells (s : State) : State :=
  (List.range 4).foldl (fun s d =>
    let x := proc s d
    if x.rang.isEmpty then s else setProc s d { x with rang := x.rang.filter (writesWait s) }) s

/-- What waited at slices and windows is looked at again: host commands, window accesses, and commands that
a doorbell made visible. -/
def pollHost (s : State) : State :=
  let s := pollAcks s
  pollBells (serve { s with hostHeld := [] } s.hostHeld)

/-- Commands that a doorbell made visible wait for the window writes that its function issued before it: the
command processor fetches nothing (R247). -/
def hostWaits (s : State) (d : Nat) : Bool := (proc s d).rang.any (writesWait s)

end Sys2Proof.Machine
end

