-- ==== Sys2Proof/Machine/PowerOps.lean ====
section
/-!
DEFINITION. Machine/PowerOps.lean: operating points (R260, R261), phase hints (R271), the event log
and the ledger (R284 to R286), sensors (R276, R277, R281), levels (R279, R280), and the cuts under
the cap (R272).
-/
namespace Sys2Proof.Machine

/-! ### The event log (R286) -/

/-- One entry of Dusk's event log. -/
def logEvent (s : State) (code domain arg value : Nat) : State :=
  let p := pwrP
  let i := rd s p PWR_EVT_WR
  let s := wr s p PWR_LOG_CODE code i
  let s := wr s p PWR_LOG_DOMAIN domain i
  let s := wr s p PWR_LOG_ARG arg i
  let s := wr s p PWR_LOG_ROUND (rd s duskP DUSK_ROUND_LO) i
  let s := wr s p PWR_LOG_STEP s.dusk.step i
  let s := wr s p PWR_LOG_VALUE value i
  let s := wr s p PWR_EVT_WR ((i + 1) % 64)
  let s := wr s p PWR_EVT_COUNT ((rd s p PWR_EVT_COUNT + 1) % 2 ^ 32)
  raise s p 3

/-! ### Operating points (R260, R261, R352) -/

/-- The clock of an operating point, in units of 10 MHz. -/
def opClock (k : Nat) : Nat := [60, 80, 95, 110, 125, 140].getD k 60

/-- VDD_T of an operating point, in mV. -/
def opVolt (k : Nat) : Nat := [550, 580, 620, 670, 720, 780].getD k 550

/-- The operating point and the pacing duty of a throughput ceiling (R261). -/
def deriveOp (target c : Nat) : Nat × Nat :=
  let ft := opClock target
  let k := ((List.range (target + 1)).find? (fun k => opClock k * 16 ≥ c * ft)).getD target
  (k, max 1 (c * ft / opClock k))

/-- The lowest and the highest of a list of numbers. -/
def minNat (l : List Nat) (z : Nat) : Nat := l.foldl min z

/-- The duty at a point that is held (R261). -/
def heldDuty (target c held : Nat) : Nat := max 1 (min 16 (c * opClock target / opClock held))

/-- A regulator frame (R352). -/
def vrFrame (s : State) (die mv : Nat) : State :=
  emit (setDom s die { dom s die with vrSent := true, vrSet := mv }) (.vrFrame (die * 2 ^ 14 + mv % 2 ^ 12))

/-- The clock of a die moves to a point, which is its applied one (R261). -/
def opMoves (s : State) (d k : Nat) : State :=
  logEvent (raise (wr s pwrP PWR_OP_APPLIED k d) pwrP 2) 3 d k 0

/-- A step to a neighbouring operating point begins: lowering moves the clock first and then the voltage,
raising ramps the voltage first (R261). -/
def beginOpStep (s : State) (d next goal : Nat) : State :=
  let lower := next < dieOp s d
  let s := setDom s d { dom s d with opStep := some next, opNext := some goal }
  let s := wr s pwrP PWR_OP_CHANGING 1 d
  vrFrame (if lower then opMoves s d next else s) d (opVolt next)

/-- The point one step from `a` toward `b`. -/
def stepToward (a b : Nat) : Nat := if a < b then a + 1 else if b < a then a - 1 else a

/-- The point a die is at, or on its way to. -/
def opGoal (s : State) (d : Nat) : Nat :=
  let x := dom s d
  if x.opStep.isSome then x.opNext.getD (dieOp s d) else dieOp s d

/-- Whether `PWR` begins steps: its block is ON (R297; DESIGN CHOICE, log entry 52). -/
def pwrOn (s : State) : Bool := rd s pwrP HDR_STATE == 2

/-- A die is asked to go to point `k`; a step in progress is waited for. -/
def requestOp (s : State) (d k : Nat) : State :=
  let x := dom s d
  if !pwrOn s then s
  else if x.opStep.isSome then setDom s d { x with opNext := some k }
  else if dieOp s d = k then s
  else beginOpStep s d (stepToward (dieOp s d) k) k

/-- The throughput ceilings of TJ and TD of a die (R279 to R281). -/
def tjUsed (s : State) (d : Nat) : Nat :=
  min (if d < 4 then 15 else 7) (rd s thermP THERM_TJ_LEVEL d + rd s thermP THERM_TJ_GUARD d)
def tdUsed (s : State) (d : Nat) : Nat :=
  min 22 (rd s thermP THERM_TD_LEVEL d + rd s thermP THERM_TD_GUARD d)
def tjCeiling (s : State) (d : Nat) : Nat := 16 - tjUsed s d
def tdCeiling (s : State) (d : Nat) : Nat := 16 - (tdUsed s d - 7)
def tdShape (s : State) (d : Nat) : Nat := min (tdUsed s d) 7

/-- The points of the last 10 rounds, where a round ends with point `k`, or gives it in place of the one
given before. -/
def givePoint (l : List Nat) (k : Nat) (round : Bool) : List Nat :=
  (k :: if round then l else l.tail).take 10

/-- The highest point that each of the last 10 rounds gave, or one above it (R261). -/
def raiseTo (x : Dom) : Nat := if x.given.length < 10 then 0 else minNat x.given 5

/-- Dusk turns a die's tightest throughput ceiling into a point and a duty (R261). `round` says
that a round ends with it; else it replaces what the round has given. A die that may not move to its point
is held at the one it has. -/
def applyCeiling (s : State) (d c : Nat) (round : Bool) : State :=
  let target := rd s pwrP PWR_OP_TARGET d
  let r := deriveOp target c
  let s := wr s pwrP PWR_CEILING c d
  let cur := opGoal s d
  let x := dom s d
  let s := setDom s d { x with
    duskDuty := if r.1 ≤ cur && pwrOn s then r.2 else heldDuty target c cur
    given := givePoint x.given r.1 round }
  if r.1 < cur then requestOp s d r.1 else s

/-- The ceiling of a die is worked out again; the one that its average duty gave in the last round stands until
the next (R261, R272; DEDUCED, log entry 198). -/
def reapply (s : State) (d : Nat) : State :=
  if d < 4 then applyCeiling s d (min (min (tjCeiling s d) (tdCeiling s d)) (dom s d).avgCeil) false else s

/-! ### Phase hints (R271) -/

/-- The registers that show a die's hints. -/
def showHints (s : State) (d : Nat) : State :=
  let x := dom s d
  let s := wr s pwrP PWR_PENDING (x.hints.foldl (fun m h => setBit m h.cls) 0) d
  wr s pwrP PWR_ACTIVE (match x.active with | some c => 2 ^ c | none => 0) d

/-- A class becomes the die's active class: its power is to be measured 100 µs later (R270), and its
pre-ramp is held (R271). -/
def activate (s : State) (d cls : Nat) : State :=
  let x := dom s d
  let us := s.dusk.us
  showHints (setDom s d { x with
    hints := x.hints.filter (fun h => h.cls != cls)
    active := some cls
    lastHint := us
    samples := x.samples ++ [(cls, us + 100)]
    ramps := x.ramps.map (fun r => if r.cls = cls && r.hold.isNone then { r with hold := some us } else r)
    }) d

/-- The die power of the last step, in W. -/
def lastPower (s : State) (d : Nat) : Nat :=
  match (dom s d).powers with
  | p :: _ => p
  | [] => rd s pwrP PWR_DIE_POWER_W d

/-- A hint arrives at a die: class and lead in µs. -/
def postHint (s : State) (d cls lead : Nat) : State :=
  if lead = 0 then activate s d cls
  else
    let x := dom s d
    let now := s.dusk.us
    let ts := now + lead
    let rise := rd s pwrP PWR_CLASS_POWER (4 * d + cls) - lastPower s d
    let ramp : Option Nat :=
      if rise = 0 then none else some (max now (ts - (rise * 10 + 7) / 8))
    let hs := match x.hints.find? (fun h => h.cls == cls) with
      | some h => if h.start ≤ ts then x.hints
        else x.hints.map (fun k => if k.cls == cls then ⟨cls, ts, ramp⟩ else k)
      | none => x.hints ++ [⟨cls, ts, ramp⟩]
    showHints (setDom s d { x with hints := hs }) d

/-! ### Shaping (R264) -/

/-- Rate of a shaping level, in forty-eighths. -/
def shapeRate (l : Nat) : Nat := [48, 36, 24, 18, 12, 9, 8, 6].getD l 6
def shapeDiv (l : Nat) : Nat := if l < 2 then 0 else if l < 4 then 1 else 2
def shapeSkip (l : Nat) : Nat := [0, 4, 0, 4, 0, 4, 3, 2].getD l 2

/-! ### Sensors (R275 to R277) -/

/-- A reading as the signed number it stands for. -/
def reading (s : State) (ch : Nat) : Int := toSigned 16 (rd s thermP THERM_READING ch)

/-- Neighbours in a grid of `w` columns and `h` rows whose channels begin at `base`. -/
def gridNeighbours (base w h g : Nat) : List Nat :=
  (List.range (w * h)).filterMap (fun k =>
    if k ≠ g && gap (k / w) (g / w) ≤ 1 && gap (k % w) (g % w) ≤ 1 then some (base + k) else none)

/-- The neighbours of a temperature channel (R277). -/
def neighbours (ch : Nat) : List Nat :=
  if ch < 448 then
    let n := ch / 112
    let g := ch % 112
    if g < 64 then gridNeighbours (112 * n) 8 8 g
    else
      let l := (g - 64) / 4
      let q := (g - 64) % 4
      let at' (l q : Nat) : Nat := 112 * n + 64 + 4 * l + q
      (if l > 0 then [at' (l - 1) q] else []) ++ (if l < 11 then [at' (l + 1) q] else [])
        ++ (if q > 0 then [at' l (q - 1)] else []) ++ (if q < 3 then [at' l (q + 1)] else [])
  else gridNeighbours (ch / 16 * 16) 4 4 (ch % 16)

/-- Numbers in rising order. -/
def insertInt (x : Int) : List Int → List Int
  | [] => [x]
  | y :: ys => if x ≤ y then x :: y :: ys else y :: insertInt x ys
def sortInts : List Int → List Int
  | [] => []
  | x :: xs => insertInt x (sortInts xs)

/-- Twice the median of a list. -/
def median2 (l : List Int) : Int :=
  let v := sortInts l
  let n := v.length
  if n % 2 = 1 then 2 * v.getD (n / 2) 0 else v.getD (n / 2 - 1) 0 + v.getD (n / 2) 0

/-- The highest of a list of numbers. -/
def maxInt : List Int → Int
  | [] => 0
  | [x] => x
  | x :: xs => max x (maxInt xs)
def minInt : List Int → Int
  | [] => 0
  | [x] => x
  | x :: xs => min x (minInt xs)

/-- A temperature channel is suspect-low. -/
def suspectLow (s : State) (ch : Nat) : Bool := bitOf (rd s thermP THERM_SUSPECT_LOW (ch / 32)) (ch % 32)
def highSuspect (s : State) (ch : Nat) : Bool :=
  bitOf (rd s thermP THERM_HIGH_SUSPECT (ch / 32)) (ch % 32)

/-- The neighbours of a channel agree: their values lie within 4 °C (R277). -/
def neighboursAgree (s : State) (ch : Nat) : Bool :=
  let ns := (neighbours ch).map (reading s)
  maxInt ns - minInt ns ≤ 64

/-- Whether the value of a channel is replaced: it is suspect-low, and its neighbours agree (R277). -/
def replaced (s : State) (ch : Nat) : Bool := suspectLow s ch && neighboursAgree s ch

/-- The value of a channel that every decision uses: its neighbours' highest where it is
replaced (R277), also when its own reading is higher by then (R117; DESIGN CHOICE, log entry 196). -/
def used (s : State) (ch : Nat) : Int :=
  if replaced s ch then maxInt ((neighbours ch).map (reading s)) else reading s ch

/-- How a channel stands against its neighbours' median: 0 low by more than 12 °C, 1 within, 2 high
by more than 12 °C, 3 its neighbours disagree. -/
def standing (s : State) (ch : Nat) : Nat :=
  let ns := (neighbours ch).map (reading s)
  let m := median2 ns
  let f := 2 * reading s ch
  if f + 384 < m then (if neighboursAgree s ch then 0 else 3)
  else if f > m + 384 then (if neighboursAgree s ch then 2 else 3)
  else 1

/-- The channels of the logic sensors of a domain, of a quarter-die's DRAM sensors, of a die's. -/
def logicChannels (d : Nat) : List Nat :=
  if d < 4 then (List.range 64).map (fun g => 112 * d + g) else (List.range 16).map (fun g => 512 + g)
def qdChannels (d q : Nat) : List Nat := (List.range 12).map (fun l => 112 * d + 64 + 4 * l + q)
def dramChannels (d : Nat) : List Nat := (List.range 48).map (fun k => 112 * d + 64 + k)

/-- The hottest value of a list of channels, in sixteenths of a degree. -/
def hottest (s : State) (chs : List Nat) : Int := maxInt (chs.map (used s))

/-- The DRAM temperature of quarter-die `q` of die `d` (R117). -/
def qdTemp (s : State) (d q : Nat) : Int := hottest s (qdChannels d q)

/-- The DRAM temperature of the slice of tile `n`, and whether it is above 105 °C (R117, R134). -/
def sliceTemp (s : State) (n : Nat) : Int := qdTemp s (tileDie n) (tileQdie n % 4)
def overTemp (s : State) (n : Nat) : Bool := sliceTemp s n > 105 * 16

/-- The hottest quarter-die of a die (R280). -/
def tdTemp (s : State) (d : Nat) : Int := maxInt ((List.range 4).map (qdTemp s d))

/-- Whole degrees of a temperature: rounded down, below 0 reading 0, above 255 reading 255 (log entry
169). -/
def wholeDeg (t : Int) : Nat := min 255 (t / 16).toNat

/-! ### Refresh (R131, R133, R134) -/

/-- The rate of a temperature: 0 1×, 1 2×, 2 4×. -/
def bandOf (t : Int) : Nat := if t ≤ 85 * 16 then 0 else if t ≤ 95 * 16 then 1 else 2

/-- Whether a temperature is 2 °C or more below the lower edge of a rate's band. -/
def belowBand (rate : Nat) (t : Int) : Bool :=
  (rate == 1 && t ≤ 83 * 16) || (rate == 2 && t ≤ 93 * 16)

/-- The rate of quarter-die `q` of the package, and of a slice with its floor. -/
def qdRate (s : State) (q : Nat) : Nat := SMap.getD s.dusk.rate q 0
def sliceRate (s : State) (n : Nat) : Nat :=
  min 2 (max (qdRate s (tileQdie n)) (rd s (sliceP n) SLICE_REFRESH_FLOOR))

/-- The existing tiles of a quarter-die. -/
def qdTiles (s : State) (q : Nat) : List Nat :=
  (List.range 120).filterMap (fun i => if tileExists s (120 * q + i) then some (120 * q + i) else none)

/-- A quarter-die's rate changes; the slices whose own rate changes report it (R133). -/
def setRate (s : State) (q rate : Nat) : State :=
  let old := s
  let s := { s with dusk := { s.dusk with rate := SMap.put s.dusk.rate q rate,
                                          fall := SMap.del s.dusk.fall q } }
  (qdTiles s q).foldl (fun s n =>
    if sliceRate old n = sliceRate s n then s else raise s (sliceP n) 4) s

/-! ### Bindings and the ledger (R284, R285) -/

/-- One reason of a domain for one step: whether it binds. -/
def ledgerStep (s : State) (d r : Nat) (binds : Bool) : State :=
  let x := dom s d
  let i := 8 * d + r
  let was := SMap.find x.bound r
  let logged := r == 0 || r == 2 || r == 3 || r == 6 || r == 7
  if binds then
    let n := was.getD 0 + 1
    let s := setDom s d { x with bound := SMap.put x.bound r n }
    let v := rd s pwrP PWR_LEDGER_TOTAL_US_LO i + 2 ^ 32 * rd s pwrP PWR_LEDGER_TOTAL_US_HI i + 1
    let s := wr (wr s pwrP PWR_LEDGER_TOTAL_US_LO v i) pwrP PWR_LEDGER_TOTAL_US_HI (v / 2 ^ 32) i
    if was.isSome then s
    else
      let s := bump s pwrP PWR_LEDGER_ENTRIES 1 i
      if logged then logEvent s 1 d r 0 else s
  else match was with
    | none => s
    | some n =>
      let s := setDom s d { x with bound := SMap.del x.bound r }
      let s := wr s pwrP PWR_LEDGER_LAST_US (min 0xFFFFFFFF n) i
      if logged then logEvent s 2 d r (n % 2 ^ 32) else s

/-- What a `HOST_DUTY` or `EXT_DUTY` field stands for. -/
def dutyField (v : Nat) : Nat := if v = 0 then 1 else min v 16

def extActive (s : State) : Bool := rd s pwrP PWR_EXT_ACTIVE == 1

/-- The duty ceilings of a die: Dusk's, current, slew, EXT, HOST. -/
def dutyCeilings (s : State) (d : Nat) : List Nat :=
  let x := dom s d
  [x.duskDuty, x.iccCeil, x.slewDuty, dutyField (rd s pwrP PWR_HOST_DUTY d)]
    ++ (if extActive s then [dutyField (rd s pwrP PWR_EXT_DUTY d)] else [])

def hostLevel (s : State) (d : Nat) : Nat :=
  if d < 4 then rd s pwrP PWR_HOST_SHAPE d else rd s pwrP PWR_HOST_COLL_SHAPE
def extLevel (s : State) (d : Nat) : Nat :=
  if !extActive s then 0 else if d < 4 then rd s pwrP PWR_EXT_SHAPE d else rd s pwrP PWR_EXT_COLL_SHAPE
def heatLevel (s : State) (d : Nat) : Nat := if d < 4 then tdShape s d else tjUsed s d

/-- The shaping levels that the reasons ask for in a domain. -/
def shapeLevels (s : State) (d : Nat) : List Nat :=
  [heatLevel s d, (dom s d).capShape, (dom s d).slewShape, extLevel s d, hostLevel s d]

def maxNat (l : List Nat) : Nat := l.foldl max 0

/-- The applied level and duty of a domain. -/
def appliedLevel (s : State) (d : Nat) : Nat :=
  if d < 4 then rd s pwrP PWR_ENG_LEVEL d else rd s pwrP PWR_COLL_LEVEL
def appliedDuty (s : State) (d : Nat) : Nat := if d < 4 then dieDuty s d else 16

/-- Whether a reason binds in a domain: its value is the applied one, and that is below unthrottled (R284).
The throughput ceilings of TJ and TD stand for the point and duty that R261 gives the lower of them. -/
def reasonBinds (s : State) (d r : Nat) : Bool :=
  let x := dom s d
  let duty := appliedDuty s d
  let lvl := appliedLevel s d
  let byDuty (v : Nat) : Bool := d < 4 && v == duty && duty < 16
  let byLvl (v : Nat) : Bool := v == lvl && lvl > 0
  let byCeil (c : Nat) : Bool := d < 4 && c == rd s pwrP PWR_CEILING d && c < 16
    && x.duskDuty == duty && (duty < 16 || dieOp s d < rd s pwrP PWR_OP_TARGET d)
  let capIcc := rd s pwrP PWR_ICC_CAP d < (max 1 (min 25 (rd s pwrP PWR_ICC_RAIL d)))
  match r with
  | 0 => (capIcc && byDuty x.iccCeil) || byLvl x.capShape
  | 1 => !capIcc && byDuty x.iccCeil
  | 2 => if d < 4 then byCeil (tjCeiling s d) else byLvl (tjUsed s d)
  | 3 => d < 4 && (byCeil (tdCeiling s d) || byLvl (tdShape s d))
  | 4 => (d < 4 && duty < minNat (dutyCeilings s d) 16) || lvl > maxNat (shapeLevels s d)
  | 5 => byDuty x.slewDuty || byLvl x.slewShape
  | 6 => extActive s && (byDuty (dutyField (rd s pwrP PWR_EXT_DUTY d)) || byLvl (extLevel s d))
  | _ => byDuty (dutyField (rd s pwrP PWR_HOST_DUTY d)) || byLvl (hostLevel s d)

/-- The bindings of a domain in one step. -/
def bindStep (s : State) (d : Nat) : State :=
  let bs := (List.range 8).filter (fun r => reasonBinds s d r)
  let s := (List.range 8).foldl (fun s r => ledgerStep s d r (bs.contains r)) s
  let m := bs.foldl setBit 0
  if d < 4 then wr s pwrP PWR_BINDING m d else wr s pwrP PWR_COLL_BINDING m

/-! ### The cut under the cap (R272) -/

/-- Tiles of a die give up to `mw` mW: the state, and what is still to give. -/
def cutTiles (s : State) (d mw avgIcc : Nat) : State × Nat :=
  if mw = 0 then (s, 0)
  else
    let step := 16 * opVolt (dieOp s d)
    let base := min (rd s pwrP PWR_ICC_CAP d) (max 1 (avgIcc / 16))
    let want := (mw + step - 1) / step
    let give := min want (base - 1)
    (wr s pwrP PWR_ICC_CAP (base - give) d, mw - give * step)

/-- What a group gives that goes from level `l` to level `m`, where it drew `p` mW at level `k`. -/
def levelGives (p k l m : Nat) : Nat := p * (shapeRate l - shapeRate m) / shapeRate k

/-- An engine or collective group of `p` mW gives up to `mw` mW. -/
def cutGroup (s : State) (d mw p : Nat) : State × Nat :=
  if mw = 0 then (s, 0)
  else
    let k := appliedLevel s d
    let l := max (dom s d).capShape k
    let m := ((List.range 8).find? (fun m => m ≥ l && levelGives p k l m ≥ mw)).getD 7
    (setDom s d { dom s d with capShape := m }, mw - levelGives p k l m)

/-- Some die's active class is H3: the collective group is protected (R270). -/
def collGuarded (s : State) : Bool := (List.range 4).any (fun d => (dom s d).active == some 3)

/-- A die domain gives its share; what is left passes on. In an array-heavy phase the collective group, of
`collMw` mW, is cut before the die's tiles (R270), unless another die's phase protects it. -/
def cutDie (s : State) (d mw tileMw engMw avgIcc collMw : Nat) : State × Nat :=
  match (dom s d).active with
  | some 0 =>
    let r := cutGroup s d mw engMw
    let r := if collGuarded s then r else cutGroup r.1 4 r.2 collMw
    cutTiles r.1 d r.2 avgIcc
  | some 1 =>
    let r := cutTiles s d mw avgIcc
    cutGroup r.1 d r.2 engMw
  | _ =>
    let total := max 1 (tileMw + engMw)
    let r := cutTiles s d (mw * tileMw / total) avgIcc
    let q := cutGroup r.1 d (mw - mw * tileMw / total + r.2) engMw
    cutTiles q.1 d q.2 avgIcc

/-- The host's limit on a die's current, in steps of 16 A. -/
def iccRail (s : State) (d : Nat) : Nat := max 1 (min 25 (rd s pwrP PWR_ICC_RAIL d))

/-- Whether the tiles of a die, or the group of a domain, are cut under the cap. -/
def tilesCut (s : State) (d : Nat) : Bool := rd s pwrP PWR_ICC_CAP d < iccRail s d
def groupCut (s : State) (d : Nat) : Bool := (dom s d).capShape > 0

/-- The group of a domain is released by one level. -/
def releaseGroup (s : State) (d : Nat) : State :=
  let x := dom s d
  setDom s d { x with capShape := x.capShape - 1 }

/-- The tiles of a die are released by one step; an allotment that reaches the host's limit is removed. -/
def easeTiles (s : State) (d : Nat) : State :=
  let c := rd s pwrP PWR_ICC_CAP d + 1
  wr s pwrP PWR_ICC_CAP (if c ≥ iccRail s d then 25 else c) d

/-- A die domain is released by one step: what was cut last comes first, as R270 orders the cut for the
active class (R272). -/
def easeDie (s : State) (d : Nat) : State :=
  match (dom s d).active with
  | some 0 =>
    if tilesCut s d then easeTiles s d
    else if !collGuarded s && groupCut s 4 then s
    else releaseGroup s d
  | some 1 => if groupCut s d then releaseGroup s d else easeTiles s d
  | _ => easeTiles (releaseGroup s d) d

/-- The tiles of a die in an array-heavy phase are cut, so that the collective group was cut before them
(R270). -/
def collWaits (s : State) : Bool :=
  (List.range 4).any (fun d => (dom s d).active == some 0 && tilesCut s d)

/-- A round at least 5 % below the cap (R272). A protected collective group was cut last, so the dies
wait until it is released (DEDUCED, log entry 151). -/
def easeRound (s : State) : State :=
  if collGuarded s && groupCut s 4 then releaseGroup s 4
  else
    let t := (List.range 4).foldl easeDie s
    if collWaits s then t else releaseGroup t 4

/-- Whether every actuator of every domain is at its floor and pad is off (R273). -/
def allFloors (s : State) : Bool :=
  (List.range 4).all (fun d => !dieUp s d ||
    (dieOp s d == 0 && dieDuty s d == 1 && rd s pwrP PWR_ENG_LEVEL d == 7 && rd s pwrP PWR_PAD_W d == 0))
    && rd s pwrP PWR_COLL_LEVEL == 7

/-! ### Raw interrupts (R294, R341) -/

/-- A field of `THERM` with entries 0 to `n` − 1 is not 0. -/
def thermShows (s : State) (f : Fld) (n : Nat) : Bool := (List.range n).any (fun i => rd s thermP f i != 0)

/-- The interrupt bits of a page whose condition is present: `BELOW_MIN`, `CPL_STALL`, `ELS_LOST`,
`HTR_LIMIT`, `CAP_UNATTAINABLE`, `EXT_ASSERTED`, `RAIL_OOR`, `SENSOR_SUSPECT`, `HIGH_SUSPECT`, `RATE_GUARD`,
`TD_OVERTEMP`, `TRIP_DEGRADED`, `OVERTEMP` of a slice, `FENCED` of a tile and `DIE_FENCED` of a die (R294;
DEDUCED, log entry 36). -/
def presentBits (s : State) (p : PageId) : Nat :=
  match p.kind with
  | .d2d => if rd s p D2D_BELOW_MIN = 1 then 8 else 0
  | .cmdproc => if cplFull s p.inst then 8 else 0
  | .oe => (if rd s p OE_ELS_DARK = 0xFFFFFFFF then 4 else 0) + 8 * rd s p OE_HTR_LIMIT
  | .pwr => rd s p PWR_CAP_UNATTAINABLE + 2 * rd s p PWR_EXT_ACTIVE
  | .dusk => if (List.range 3).any (fun i => rd s p DUSK_RAIL_OOR i != 0) then 1 else 0
  | .therm =>
    ofBool (thermShows s THERM_SUSPECT_LOW 20) + 2 * ofBool (thermShows s THERM_HIGH_SUSPECT 20)
      + 4 * ofBool (thermShows s THERM_TJ_GUARD_ON 5 || thermShows s THERM_TD_GUARD_ON 4)
      + 8 * ofBool ((List.range 4).any (fun d => dieUp s d && tdTemp s d > 105 * 16))
      + 16 * ofBool (thermShows s THERM_TRIP_DEGRADED 4)
  | .slice => 8 * ofBool (overTemp s p.inst)
  | .tile => 8 * rd s p HDR_FENCED
  | .cdie => rd s p HDR_FENCED
  | _ => 0

/-- Bits of `INT_RAW` are cleared; those of them whose condition is present are raised again. -/
def clearRaw (s : State) (p : PageId) (v : Nat) : State :=
  let raw := rd s p HDR_INT_RAW
  let s := if p.kind = .pkgsw && bitOf v 0 then { s with refusalHeld := false } else s
  deliver (wr s p HDR_INT_RAW ((raw &&& (2 ^ 32 - 1 - v % 2 ^ 32)) ||| (raw &&& v &&& presentBits s p)))

end Sys2Proof.Machine
end

