-- ==== Sys2Proof/Machine/TileRun.lean ====
section
/-!
DEFINITION. Machine/TileRun.lean: one tile's cycle within the package: what an issue asks of the
world outside the tile, channels that halt (R81, R92), lasting parity errors (R366), and the end of
a tile (R89, R91, R236).
-/
namespace Sys2Proof.Machine

/-! ### Effects outside the tile -/

/-- What an issue of tile `n` asks of the package. -/
def applyEff (s : State) (n : Nat) (e : Eff) : State :=
  match e with
  | .credit sender key => owe s sender key
  | .coll entry ev arg => collPost s n entry ev arg
  | .hevt ev => tilePost s n (.hevt ev)
  | .phase cls lead => postHint s (tileDie n) cls lead

/-- A tile's cycle takes effect in the package. -/
def applyTile (s : State) (n : Nat) (r : Tile × List Eff) : State :=
  r.2.foldl (fun s e => applyEff s n e) (setTile s n r.1)

/-- The duty that a tile takes at its next c = 0. -/
def tileDuty (s : State) (n : Nat) : Nat := dieDuty s (tileDie n)

/-- The tile after the bits that flip unseen have flipped (R289). -/
def upsetTile (t : Tile) (e : CycleErrs) : Tile := e.upsets.foldl Tile.upset t

/-- One cycle of a running tile that is no pacing cycle (R95): the next bundle's, or one in which
issued work goes on after the tile has stopped fetching. A bundle that waits is no matter of it. -/
def bundleIssue (s : State) (n : Nat) (e : CycleErrs) : State :=
  let t := upsetTile (tile s n) e
  if !t.ready || t.hold.isSome then s
  else if t.fetchEnd then
    setTile s n { drainCycle t (tileDuty s n) with
      retry := e.hits ++ badHits t (agendaReads t t.agenda) }
  else applyTile s n (bundleCycle t n (tileDuty s n) (t.bundleAt t.pc) e.hits)

/-- As `bundleIssue`, for a bundle that stands in place of the one fetched. -/
def slotIssue (s : State) (n : Nat) (i : Bundle) : State :=
  let t := tile s n
  if !t.ready || t.hold.isSome || t.fetchEnd then s
  else applyTile s n (bundleCycle t n (tileDuty s n) i [])

/-- A bundle that waits is looked at again (R97). -/
def waitRelease (s : State) (n : Nat) (e : CycleErrs) : State :=
  let t := upsetTile (tile s n) e
  if !t.ready then s
  else match t.hold with
    | none => s
    | some h => applyTile s n (waitCycle t n (tileDuty s n) h e.hits)

/-- A pacing cycle (R107). After the tile has stopped fetching, nothing is counted (R61). -/
def pacingCycle (s : State) (n : Nat) : State :=
  let t := tile s n
  if t.runState == 2 && t.retry.isEmpty && isPacing t.duty t.phase then
    let t := if t.fetchEnd then t else t.countFrozen causePace
    setTile s n (t.tick (tileDuty s n))
  else s

/-! ### Channels -/

/-- The internal address of a byte of tile `n`'s SRAM. -/
def sramAddrOf (n off : Nat) : Nat := sramBase + 2 ^ 21 * n + off

/-- A channel halts with an error code at the line of internal address `a`: `keep` are the commands
ahead of the failing one, which go on, and `lost` the failing one and those accepted after it, which
are discarded (R81, R92). -/
def haltChan (s : State) (n c code a : Nat) (keep lost : List MCmd) : State :=
  let t := tile s n
  let ch := t.chan c
  let t := t.setChan c { ch with
    cmds := keep, unit := if keep.isEmpty then [] else ch.unit, dropped := ch.dropped ++ lost,
    stopped := true, err := code }
  let t := match lost with
    | m :: _ => if m.op = 1 || m.op = 4 then { t with qPoison := setBit t.qPoison m.queue } else t
    | [] => t
  let p := moverP n
  let s := logErr (setTile s n t) p code (a % 2 ^ 32) (a / 2 ^ 32 % 2 ^ 16) (code + 256 * c)
  let s := raise s p 0
  if code = 8 then raise s p 1 else s

/-! ### Parity (R60, R108, R290, R366) -/

/-- The requester code of `ERR_ADDR_HI` for a slot. Every read of the SM slot is the stream mover's,
that of a vector load or store among them, and those of the VX slot are the vector unit's (DESIGN
CHOICE, log entry 133). -/
def parRequester (h : ParHit) : Nat :=
  if h.slot = 5 then 0 else if h.slot = 0 then 1 else if h.slot = 1 then 2 else 3

/-- A parity error is logged in the `TILE` page (R60). -/
def logParity (s : State) (n code : Nat) (h : ParHit) (lasting : Bool) : State :=
  logErr s (tileP n) code (h.line % 2 ^ 21 + 2 ^ 31 * ofBool lasting)
    (h.bank % 32 + 2 ^ 8 * (h.byte % 64) + 2 ^ 16 * parRequester h) (h.count % 128)

/-- The six frozen cycles of a retry (R108). -/
def retryCycles (duty : Nat) : Nat → Tile → Tile
  | 0, t => t
  | k + 1, t =>
    let t := if t.fetchEnd then t else t.countFrozen causePar
    retryCycles duty k (t.tick duty)

/-- `k` free words. -/
def freeWords (s : State) : Nat → List Word × State
  | 0 => ([], s)
  | k + 1 =>
    let r := freeWord s
    let q := freeWords r.2 k
    (r.1 :: q.1, q.2)

/-- `k` free bytes. -/
def freeBytes (s : State) : Nat → List Byte × State
  | 0 => ([], s)
  | k + 1 =>
    let q := freeBytes { s with fresh := s.fresh + 1 } k
    (Config.freeByte s.fresh :: q.1, q.2)

/-- A result that depends on a read that failed: whatever the read returned, it is a free value
(R366). -/
def freeAct (s : State) (p : Pend) : Pend × State :=
  match p.act with
  | .v n mask lanes _ =>
    let r := freeWords s lanes.length
    let f := freeNat r.2
    ({ p with act := .v n mask r.1 (f.1 % 32) }, f.2)
  | .p n mask _ =>
    let f := freeNat s
    ({ p with act := .p n mask (f.1 % 2 ^ 64) }, f.2)
  | .s n _ =>
    let r := freeWord s
    ({ p with act := .s n r.1 }, r.2)
  | .acw bank row vals =>
    let r := freeWords s vals.length
    ({ p with act := .acw bank row r.1 }, r.2)
  | .store a bytes src =>
    let r := freeBytes s bytes.length
    ({ p with act := .store a r.1 src }, r.2)
  | .push o bytes src =>
    let r := freeBytes s bytes.length
    ({ p with act := .push o r.1 src }, r.2)
  | _ => (p, s)

/-- The agenda with the results that satisfy `f` freed. -/
def freeAgenda (f : Pend → Bool) : State → List Pend → List Pend × State
  | s, [] => ([], s)
  | s, p :: ps =>
    let r := if f p then freeAct s p else (p, s)
    let q := freeAgenda f r.2 ps
    (r.1 :: q.1, q.2)

/-- Whether an entry of the agenda takes its value from the line of a failed read: every result of a VX
instruction, and a line that the SM slot copies. -/
def takesLine (h : ParHit) (p : Pend) : Bool :=
  p.bundle == h.bundle && p.slot == h.slot && match p.act with
    | .v _ _ _ _ | .p _ _ _ | .s _ _ | .acw _ _ _ => h.slot == 1
    | .store _ _ src | .push _ _ src => src == some (badKey h.bank h.line)
    | _ => false

/-- What a VX instruction, or a copy of the SM slot, is to write of a failed read: where a loop has its
bundle in flight more than once, the last one read. -/
def freeCopies (s : State) (n : Nat) (h : ParHit) : State :=
  let a := (tile s n).agenda
  let last := ((a.filter (takesLine h)).map Pend.due).foldl max 0
  let r := freeAgenda (fun p => takesLine h p && p.due == last) s a
  setTile r.2 n { tile r.2 n with agenda := r.1 }

/-- A list with the elements from `off` on replaced by those of `l`, where it holds so many. -/
def putPart {α : Type} (l : List α) (off : Nat) (x : List α) : List α :=
  if off + x.length ≤ l.length then l.take off ++ x ++ l.drop (off + x.length) else l

/-- The line buffer of a run or a load that holds the line of a failed read, the newest first: its run or
load, and the place of the line in it. -/
def lineBuf (t : Tile) (h : ParHit) : Option Nat :=
  let off := h.line / 64 * 64
  let at' (id k : Nat) : Option Nat :=
    if (SMap.find t.bufs (1024 * id + k)).isSome then some (1024 * id + k) else none
  let found := t.agenda.filterMap (fun p =>
    if p.bundle ≠ h.bundle || p.slot ≠ h.slot then none
    else match p.act with
      | .row run _ => (t.runs.find? (fun r => r.id == run)).bind (fun r =>
          if r.src ≤ off then at' run ((off - r.src) / 64) else none)
      | .vldLand id _ lmask a =>
        if a ≤ off then ((bitList 4 lmask)[(off - a) / 64]?).bind (at' id) else none
      | _ => none)
  found.foldl (fun m k => max m (some k)) none

/-- The newest run of the bundle of a failed read. -/
def runOf (t : Tile) (h : ParHit) : Option Nat :=
  (t.agenda.filterMap (fun p =>
    if p.bundle ≠ h.bundle || p.slot ≠ h.slot then none
    else match p.act with
      | .row run _ => some run
      | _ => none)).foldl (fun m k => max m (some k)) none

/-- What the array and the weight port have taken from the line of a failed read holds the free bytes
`b`: scales, or a part of the block that is being loaded. -/
def freeTaken (t : Tile) (h : ParHit) (b : List Byte) : Tile :=
  let off := h.line / 64 * 64
  match runOf t h with
  | some run =>
    { t with runs := t.runs.map (fun r =>
        if r.id == run && h.bank == 28 && 256 * r.vs ≤ off then
          { r with scales := putPart r.scales (off - 256 * r.vs) b } else r) }
  | none =>
    { t with shadow := t.shadow.map (fun w =>
        if h.bank = 28 then
          if 256 * w.vs ≤ off then { w with scales := putPart w.scales (off - 256 * w.vs) b } else w
        else if w.src ≤ off then { w with bytes := putPart w.bytes (off - w.src) b } else w) }

/-- Half a row of an accumulator that an add-mode result has just written depends on a failed read. -/
def freeRow (s : State) (n : Nat) (h : ParHit) : State :=
  let w := freeWords s 16
  let f := freeNat w.2
  let t := tile f.2 n
  let row := h.line / 128
  let vals := putPart (t.accRow (h.bank - 26) row) (16 * (h.line % 128 / 64)) w.1
  setTile f.2 n ((t.setAccRow (h.bank - 26) row vals).raiseFlags (f.1 % 32))

/-- What depends on a read that failed for good is written with whatever the read returned, a free
value; the instruction's other results run to completion (R366). -/
def freeResults (s : State) (n : Nat) (h : ParHit) : State :=
  let s := freeCopies s n h
  if h.slot = 0 && (h.bank = 26 || h.bank = 27) then freeRow s n h
  else
    let r := freeBytes s 64
    let t := tile r.2 n
    match if h.bank = 28 then none else lineBuf t h with
    | some k => setTile r.2 n { t with bufs := SMap.put t.bufs k r.1 }
    | none => if h.slot = 0 then setTile r.2 n (freeTaken t h r.1) else s

/-- Reads that failed for good trap (R366): `h` is the one that is reported. A tile that has trapped
already keeps what it reports. -/
def parityTrap (s : State) (n : Nat) (hs : List ParHit) (h : ParHit) : State :=
  let s := (hs.filter (fun x => x.slot != 5)).foldl (fun s x => freeResults s n x) s
  let t := tile s n
  if t.trapping then s
  else setTile s n { t with
    trapBundle := h.bundle % 4096
    trapSlots := if h.slot = 5 then 0 else slotBit h.slot
    trapCause := if h.slot = 5 then trapParityFetch else trapParityOperand
    fetchEnd := true, trapping := true, hold := none, frozen := false }

/-- The place of a failing read in the order of R290: the fetch, the read ports, then reads of an
accumulator. -/
def hitRank (h : ParHit) : Nat :=
  if h.slot = 5 then 0 else if h.bank = 26 || h.bank = 27 then 6 else 1 + h.port

/-- The first of a list of reads in the order of R290. -/
def firstHit : List ParHit → Option ParHit
  | [] => none
  | h :: hs =>
    match firstHit hs with
    | none => some h
    | some g => if hitRank h ≤ hitRank g then some h else some g

/-- The last-error code of a read that failed for good (R290). -/
def parCode (h : ParHit) : Nat := if h.slot = 5 then 2 else if h.chan.isSome then 4 else 3

/-- The descriptor read of an SM.CH has failed for good: the command, which its channel was to accept
next, is discarded, and the channel halts behind the commands it has accepted (R81, R290). Its queue
and operation are those that the line held (DESIGN CHOICE, log entry 135). -/
def haltDesc (s : State) (n c : Nat) (h : ParHit) : State :=
  let t := tile s n
  let lost := t.agenda.filterMap (fun p => match p.act with
    | .accept k m => if k = c then some m else none
    | _ => none)
  let s := setTile s n { t with agenda := t.agenda.filter (fun p => match p.act with
    | .accept k _ => k != c
    | _ => true) }
  haltChan s n c 6 (sramAddrOf n h.line) (t.chan c).cmds lost

/-- Reads of a retry have failed again, and `h` is logged (R290). Channels of failing descriptors
halt, and the tile traps for any other read. -/
def parityLasting (s : State) (n : Nat) (hs : List ParHit) (h : ParHit) : State :=
  let s := raise (logParity s n ((hs.map parCode).foldl min 4) h true) (tileP n) 2
  let s := setTile s n (markBad (tile s n) hs)
  let s := hs.foldl (fun s x => match x.chan with
    | some c => haltDesc s n c x
    | none => s) s
  let ops := hs.filter (fun x => x.chan.isNone)
  match firstHit ops with
  | some r => parityTrap s n ops r
  | none => s

/-- The sixth frozen cycle of a parity retry repeats its reads (R108, R290): those at the places
`fails` fail again, as do those of lines that have failed for good before. The retry counts in the
`TILE` page where every read is good (DESIGN CHOICE, log entry 135), and each good descriptor read in
the `MOVER` page. -/
def parityRetry (s : State) (n : Nat) (fails : List Nat) : State :=
  let t := tile s n
  let again (x : ParHit × Nat) : Bool :=
    fails.contains x.2 || (SMap.find t.bad (badKey x.1.bank x.1.line)).isSome
  let bad := (t.retry.zipIdx.filter again).map Prod.fst
  let good := (t.retry.zipIdx.filter (fun x => !again x)).map Prod.fst
  match firstHit t.retry with
  | none => s
  | some h =>
    let s := setTile s n { retryCycles (tileDuty s n) 6 t with retry := [] }
    let s := (good.filter (fun x => x.chan.isSome)).foldl
      (fun s _ => bump s (moverP n) HDR_ERR_RETRY_COUNT) s
    match firstHit bad with
    | none => bump (logParity s n 1 h false) (tileP n) HDR_ERR_RETRY_COUNT
    | some b => parityLasting s n bad b

/-! ### Results (R67, R45) -/

/-- The earliest cycle at which an entry that satisfies `f` is due. -/
def firstDueOf (t : Tile) (f : Act → Bool) : Option Nat := firstDue (t.agenda.filter (fun p => f p.act))

/-- Entries due before cycle `c` come about in the order of their cycles. -/
def settleTo (c : Nat) : Nat → Tile → Tile
  | 0, t => t
  | k + 1, t =>
    match firstDue t.agenda with
    | none => t
    | some d => if d < c then settleTo c k (comeDue { t with cyc := max d t.cyc } d) else t

/-- Results of one kind land. Once the tile has stopped fetching, its cycles pass without bundles,
so that the earliest such result comes about with all that is due before it. -/
def resultLand (s : State) (n : Nat) (f : Act → Bool) : State :=
  let t := tile s n
  if t.runState != 2 || !t.retry.isEmpty || t.readsBad then s
  else if t.fetchEnd then
    match firstDueOf t f with
    | none => s
    | some c =>
      let t := settleTo c (2 * t.agenda.length) t
      let t := comeAbout { t with cyc := max c t.cyc } (fun p => p.due ≤ c && !p.act.isRow)
      setTile s n (comeAbout t (fun p => p.due ≤ c && f p.act))
  else
    setTile s n (comeAbout t (fun p => f p.act && (p.due < t.cyc || (p.due == t.cyc && !p.act.isRow))))

/-! ### The end of a tile (R89, R91, R236) -/

/-- A tile has ended; when that ends its launch by a trap or a stop, the District's collectives end
ABORTED (R236). -/
def endOfTile (s : State) (n : Nat) : State :=
  match launchOf s n with
  | none => s
  | some (d, j) =>
    let t := tile s n
    let bad := launchBad j || t.runState == 4 || t.runState == 5
    let s := tileEnded s n
    if bad && (jobOf s d j.seq).isNone then abortColls s d (launchSlot j) else s

/-- Whether the earliest of a tile's commands and sends that drain outbound queue `o` is `m`. -/
def drainsNow (t : Tile) (m : MCmd) : Bool :=
  earliest (t.orderCmds.filter (fun k => k.drains m.queue)) == some m
    && !((t.outQ m.queue).sends.any (fun x => x.seq < m.seq))

/-- Whether channel `c` of a tile has something that it can do now. -/
def chanMoves (t : Tile) (c : Nat) : Bool :=
  match (t.chan c).cmds with
  | [] => false
  | m :: _ =>
    m.bad != 0 || !m.unfinished || m.op == 3
      || ((m.op == 1 || m.op == 4) && (t.inQ m.queue).lines.length < 16
        && t.feeder m.queue == some m)
      || (m.op == 2 && !(t.outQ m.queue).lines.isEmpty && drainsNow t m)

/-- Whether a send of outbound queue `o` can hand a line to the router. -/
def sendMoves (t : Tile) (o : Nat) : Bool :=
  match (t.outQ o).sends with
  | [] => false
  | x :: _ =>
    !(t.outQ o).lines.isEmpty
      && !t.drainedBefore o x.seq && SMap.getD t.credits (routeKey x.route) 0 < 16

/-- Nothing of a tile's issued work can go on by itself. Lines that lack only a credit, and a READ that waits
on a full queue, do not hold a trap up: they may go on after it has settled (R91; log entry 163). -/
def tileQuiet (t : Tile) : Bool :=
  t.agenda.isEmpty && (List.range 8).all (fun c => !chanMoves t c)
    && (List.range 16).all (fun o => !sendMoves t o) && t.sigs.isEmpty

/-- A trap has settled (R91). -/
def trapSettled (s : State) (n : Nat) : State :=
  let t := tile s n
  if t.runState != 2 || !t.trapping || !t.retry.isEmpty || t.readsBad then s
  else
    let t := settle t
    let s := setTile s n t
    if !tileQuiet t then s
    else
      let s := setTile s n { t with runState := 4, trapping := false }
      let s := if t.trapCause = trapParityFetch || t.trapCause = trapParityOperand then s
        else lastErr s (tileP n) 5
      endOfTile (raise s (tileP n) 0) n

/-- Whether all that R89 asks for holds. A send counts as handed to the router once its last line is taken
(DESIGN CHOICE, log entry 190). -/
def tileDone (t : Tile) : Bool :=
  t.agenda.isEmpty && (List.range 8).all (fun c => (t.chan c).cmds.isEmpty && !(t.chan c).stopped)
    && (List.range 16).all (fun o => (t.outQ o).lines.isEmpty && (t.outQ o).sends.isEmpty)

/-- The schedule on a tile reaches its end (R89). -/
def tileComplete (s : State) (n : Nat) : State :=
  let t := tile s n
  if t.runState != 2 || !t.fetchEnd || t.trapping || !t.retry.isEmpty || t.readsBad then s
  else
    let t := settle t
    let s := setTile s n t
    if tileDone t then
      endOfTile (raise (setTile s n { t with runState := 3, fetchEnd := false }) (tileP n) 1) n
    else s

/-- Whether a tile's wait is one that the slip limit runs on (R110): not where its NX.WAIT waits for a collective
that is outstanding, whatever else of the bundle waits (DESIGN CHOICE, log entry 194). -/
def slipRuns (t : Tile) : Bool :=
  match t.hold with
  | none => false
  | some h => !h.passed && match h.slots.nx with
    | .wait e sb => !(t.evColl.contains e && t.evc e < (t.sreg sb).toNat)
    | _ => true

/-- The limit of a tile's image has passed in one wait freeze (R110). -/
def slipTimeout (s : State) (n : Nat) : State :=
  match launchOf s n with
  | none => s
  | some (d, j) =>
    match j.work with
    | .launch _ im _ _ _ =>
      let t := tile s n
      if im.slipUs = 0 || t.runState != 2 || !slipRuns t then s
      else abortColls (endLaunch s d j stSlipTimeout n) d (launchSlot j)
    | _ => s

end Sys2Proof.Machine
end

