-- ==== Sys2Proof/Machine/MoverOps.lean ====
section
/-!
DEFINITION. Machine/MoverOps.lean: what a stream-mover channel does with the lines of its command
(R80 to R83, R23, R143, R155).
-/
namespace Sys2Proof.Machine

/-- The requester code of a stream mover of tile `n` at slice `m` (R138). -/
def moverReq (n m : Nat) : Nat := if n = m then 0 else 1

/-- The address of line `k` of a command. -/
def lineAddr (m : MCmd) (k : Nat) : Nat := m.addr + k / m.rowLines * m.stride + 64 * (k % m.rowLines)

/-- What a line's move comes to. -/
inductive LineRes where
  /-- moved; for a read, the bytes -/
  | done (bytes : List Byte)
  /-- the slice or the window holds the request -/
  | held
  | fail (code : Nat)
  deriving DecidableEq, Repr

/-- The target of a mover request of tile `n`: slice or window, else the error: one of R23 before that of
the descriptor, and that before one of R24 (R80; DESIGN CHOICE, log entry 165). -/
def moverTarget (s : State) (n a : Nat) (fillOnly : Bool) : Except Nat Target :=
  let d := tileOwner s n
  match resolve s d a with
  | .error e => .error e
  | .ok (.slice m o) => .ok (.slice m o)
  | .ok (.win m o) => if fillOnly then .error 8 else .ok (.win m o)
  | .ok (.sram m _) =>
    .error (if fillOnly then 8 else if m ≠ n && (tile s m).runState = 2 then errBusy else errAccess)
  | .ok _ => .error (if fillOnly then 8 else errAccess)

/-- A refused request of tile `n` is counted in the `PKGSW` page; a bad descriptor is not. -/
def moverRefused (s : State) (n a code : Nat) : State :=
  if code ≤ 4 then refuse s (tileOwner s n) a code else s

/-- The flow of tile `n` to the slice or window of tile `m`, whether a link group holds it, and bytes of
it that cross. -/
def storeFlow (n m : Nat) : Nat := n + 2 ^ 11 * m
def storeHeld (s : State) (n m : Nat) : Bool :=
  crossHeld s (dieGroups (tileDie n) (tileDie m)) (storeFlow n m)
def storeData (s : State) (n m : Nat) (b : List Byte) : State × List Byte :=
  crossData s (dieGroups (tileDie n) (tileDie m)) (storeFlow n m) b

/-- Bytes that tile `n` has read from tile `m` have come. -/
def lineRead (s : State) (n m : Nat) (b : List Byte) : State × LineRes :=
  let r := storeData s n m b
  (r.1, .done r.2)

/-- One line read by tile `n`. `k` is the index of its first sector within the transfer. -/
def readLine (s : State) (n a : Nat) (errs : SectorErrs) (k : Nat) : State × LineRes :=
  match moverTarget s n a false with
  | .error e => (moverRefused s n a e, .fail e)
  | .ok (.slice m o) =>
    if sliceBusy s m then (moverRefused s n a errBusy, .fail errBusy)
    else if readHeld s m (o / 32) 2 || storeHeld s n m then (s, .held)
    else
      let r := sliceSectors s m (o / 32) (moverReq n m) errs k 2
      if r.2.2 then lineRead r.1 n m r.2.1 else (r.1, .fail 5)
  | .ok (.win m o) =>
    let r := winSectorRead s m o (moverReq n m) (errAt errs k)
    match if storeHeld s n m then none else r.2 with
    | none => (s, .held)
    | some .poisoned => (r.1, .fail 7)
    | some .bad => (r.1, .fail 5)
    | some (.good b) =>
      let q := winSectorRead r.1 m (o + 32) (moverReq n m) (errAt errs (k + 1))
      match q.2 with
      | none => (s, .held)
      | some .poisoned => (q.1, .fail 7)
      | some .bad => (q.1, .fail 5)
      | some (.good b') => lineRead q.1 n m (b ++ b')
  | .ok _ => (s, .fail errAccess)

/-- One line written by tile `n`, for channel `c`. -/
def writeLine (s : State) (n c a : Nat) (bytes : List Byte) (fillOnly : Bool) : State × LineRes :=
  match moverTarget s n a fillOnly with
  | .error e => (moverRefused s n a e, .fail e)
  | .ok (.slice m o) =>
    if sliceBusy s m then (moverRefused s n a errBusy, .fail errBusy)
    else if sliceHolds s m || storeHeld s n m then (s, .held)
    else
      let x := storeData s n m bytes
      (sliceWriteSectors x.1 m (o / 32) 2 x.2, .done [])
  | .ok (.win m o) =>
    if storeHeld s n m then (s, .held)
    else
      let x := storeData s n m bytes
      let r := winWrite x.1 m o x.2 (some (8 * n + c))
      match r.2 with
      | .access => (moverRefused r.1 n a errAccess, .fail errAccess)
      | _ => (r.1, .done [])
  | .ok _ => (s, .fail errAccess)

/-! ### One line of a command -/

/-- The head command of channel `c`. -/
def headCmd (s : State) (n c : Nat) : Option MCmd := (tile s n).chan c |>.cmds.head?

/-- The head command has moved one more line. -/
def stepCmd (s : State) (n c : Nat) : State :=
  let t := tile s n
  let ch := t.chan c
  match ch.cmds with
  | [] => s
  | m :: rest => setTile s n (t.setChan c { ch with cmds := { m with moved := m.moved + 1 } :: rest })

/-- A line enters an inbound queue. -/
def enqueue (s : State) (n q : Nat) (bytes : List Byte) (cls : Cause) (src : Option Nat) : State :=
  let t := tile s n
  let x := t.inQ q
  setTile s n { t.setInQ q { x with lines := x.lines ++ [⟨bytes, src⟩], last := some cls } with
    linesIn := (t.linesIn + 1) % 2 ^ 64 }

/-- A line has left an outbound queue, or has been written by FILL. -/
def countOut (s : State) (n : Nat) : State :=
  let t := tile s n
  setTile s n { t with linesOut := (t.linesOut + 1) % 2 ^ 64 }

/-- The first line of an outbound queue is taken by a drainer of class `cls`. -/
def dequeue (s : State) (n o : Nat) (cls : Cause) : State :=
  let t := tile s n
  let x := t.outQ o
  countOut (setTile s n (t.setOutQ o { x with lines := x.lines.drop 1, last := some cls })) n

/-- The rows of one unit of a TREAD, read in order: the lines read, or what stopped it. -/
def readUnit (s : State) (n base stride : Nat) (errs : SectorErrs) (r : Nat) :
    Nat → State × List (List Byte) × LineRes × Nat
  | 0 => (s, [], .done [], 0)
  | k + 1 =>
    let a := base + r * stride
    let x := readLine s n a errs (2 * r)
    match x.2 with
    | .done b =>
      let q := readUnit x.1 n base stride errs (r + 1) k
      (q.1, b :: q.2.1, q.2.2.1, q.2.2.2)
    | z => (x.1, [], z, a)

/-- The result lines of a unit: line c holds element c of each row (R80). -/
def unitResult (esz : Nat) (rows : List (List Byte)) : List (List Byte) :=
  let w := 2 ^ esz
  (List.range (64 / w)).map (fun c => rows.flatMap (fun b => (b.drop (w * c)).take w))

/-- The first byte of the unit that holds result line `k`. -/
def unitAddr (m : MCmd) (k : Nat) : Nat :=
  let u := k / m.unitLines
  m.addr + u / m.rowLines * (m.unitLines * m.stride) + 64 * (u % m.rowLines)

/-- What a step of a channel did: moved a line, could not, or the channel halted. -/
inductive Moved where
  | yes | no | halted
  deriving DecidableEq, Repr

/-- The channel halts at the line of its head command at internal address `a` (R81). -/
def haltHead (s : State) (n c code a : Nat) : State :=
  haltChan s n c code a [] ((tile s n).chan c).cmds

/-- A mover whose block is not ON starts no command (R297). -/
def moverIdle (s : State) (n : Nat) (m : MCmd) : Bool := m.moved == 0 && rd s (moverP n) HDR_STATE != 2

/-- The next line of the head command of channel `c` of tile `n`, whatever its operation. A descriptor that does
not do halts the channel with its `ADDR` as the line's address (DESIGN CHOICE, log entry 192). A TREAD starts in
the tile's own slice, and its rows are read where `ROW_STRIDE` takes them (DESIGN CHOICE, log entry
164). -/
def moveLine (s : State) (n c : Nat) (errs : SectorErrs) (k : Nat) : State × Moved :=
  let t := tile s n
  match headCmd s n c with
  | none => (s, .no)
  | some m =>
    if moverIdle s n m then (s, .no)
    else if m.bad ≠ 0 then (haltHead s n c m.bad m.addr, .halted)
    else if !m.unfinished then (s, .no)
    else if m.op = 1 then
      if (t.inQ m.queue).lines.length ≥ 16 || t.feeder m.queue != some m then (s, .no)
      else
        let a := lineAddr m m.moved
        let r := readLine s n a errs k
        match r.2 with
        | .held => (s, .no)
        | .fail e => (haltHead r.1 n c e a, .halted)
        | .done b => (stepCmd (enqueue r.1 n m.queue b (m.cls n) none) n c, .yes)
    else if m.op = 2 then
      match (t.outQ m.queue).lines with
      | [] => (s, .no)
      | b :: _ =>
        if !drainsNow t m then (s, .no)
        else
          let a := lineAddr m m.moved
          let r := writeLine s n c a b false
          match r.2 with
          | .held => (s, .no)
          | .fail e => (haltHead r.1 n c e a, .halted)
          | .done _ => (stepCmd (dequeue r.1 n m.queue (m.cls n)) n c, .yes)
    else if m.op = 3 then
      let a := lineAddr m m.moved
      let r := writeLine s n c a ((List.range 8).flatMap (fun _ => leBytes 8 m.pattern)) true
      match r.2 with
      | .held => (s, .no)
      | .fail e => (haltHead r.1 n c e a, .halted)
      | .done _ => (stepCmd (countOut r.1 n) n c, .yes)
    else
      if !(m.addr < sliceEnd && m.addr / 2 ^ 29 == n) then (haltHead s n c 8 m.addr, .halted)
      else if (t.inQ m.queue).lines.length ≥ 16 || t.feeder m.queue != some m then (s, .no)
      else
        let base := unitAddr m m.moved
        let r := if m.moved % m.unitLines = 0 then
            let u := readUnit s n base m.stride errs 0 m.unitLines
            match u.2.2.1 with
            | .done _ => (u.1, unitResult m.esz u.2.1, LineRes.done [], 0)
            | z => (u.1, [], z, u.2.2.2)
          else (s, (t.chan c).unit, LineRes.done [], 0)
        match r.2.2.1 with
        | .held => (s, .no)
        | .fail e => (haltHead r.1 n c e r.2.2.2, .halted)
        | .done _ =>
          let s := enqueue r.1 n m.queue (r.2.1.headD (List.replicate 64 0)) (m.cls n) none
          let t := tile s n
          (stepCmd (setTile s n (t.setChan c { t.chan c with unit := r.2.1.drop 1 })) n c, .yes)

/-- Up to `k` more lines of the head command. `i` counts the lines of this transfer. -/
def moveLines (s : State) (n c : Nat) (errs : SectorErrs) (i : Nat) : Nat → State
  | 0 => s
  | k + 1 =>
    let r := moveLine s n c errs (2 * i)
    if r.2 = .yes then moveLines r.1 n c errs (i + 1) k else r.1

/-- The lines of a command of operation `op`; nothing where the channel's command is another. -/
def moverStep (s : State) (n c op lines : Nat) (errs : SectorErrs) : State :=
  match headCmd s n c with
  | some m => if m.op = op then moveLines s n c errs 0 lines else s
  | none => s

/-- A channel's next line fails, and the channel halts; nothing where it does not (R81). -/
def moverHalt (s : State) (n c : Nat) (errs : SectorErrs) : State :=
  let r := moveLine s n c errs 0
  if r.2 = .halted then r.1 else s

/-- A channel's head command completes: its lines have been moved, and no window holds one back
(R83, R149). -/
def moverDone (s : State) (n c : Nat) : State :=
  let t := tile s n
  let ch := t.chan c
  match ch.cmds with
  | [] => s
  | m :: rest =>
    if m.bad ≠ 0 || m.unfinished || waitsAtWindow s (8 * n + c) then s
    else setTile s n (t.setChan c { ch with cmds := rest })

end Sys2Proof.Machine
end

