-- ==== Sys2Proof/Machine/MeshOps.lean ====
section
/-!
DEFINITION. Machine/MeshOps.lean: lines and signals between tiles (R82, R84, R85, R215, R367).
-/
namespace Sys2Proof.Machine

/-- Whether a tile takes lines and signals: it exists and neither it nor its die is fenced. -/
def meshTakes (s : State) (n : Nat) : Bool :=
  tileExists s n && !tileFenced s n && !dieFenced s (tileDie n)

/-- The class of what tile `a` sends to tile `b` of this package. -/
def meshClass (a b : Nat) : Cause := if tileDie a = tileDie b then causeNoc else causeD2d

/-- The flow of a tile to a destination (R215). -/
def tileFlow (n : Nat) (r : Route) : Nat := n + 2 ^ 11 * r.tile + 2 ^ 22 * (r.x + 256 * r.y)

/-- Whether a tile holds a signal to the same destination that was sent before `seq`. -/
def sigAhead (t : Tile) (r : Route) (seq : Nat) : Bool :=
  t.sigs.any (fun g => g.seq < seq && g.route.tile == r.tile && g.route.remote == r.remote
    && (!r.remote || (g.route.x == r.x && g.route.y == r.y)))

/-- Whether a line for queue `q` of tile `n` would take a place in it, and whether it finds one. -/
def lineWanted (s : State) (n q : Nat) : Bool :=
  meshTakes s n && (tile s n).runState != 0 && bitOf (tile s n).qMesh q
def lineFits (s : State) (n q : Nat) : Bool :=
  !lineWanted s n q || ((tile s n).inQ q).lines.length < 16

/-- A line for a queue that is not mesh-fed has reached a running tile (R82): the trap is taken at the
bundle that is fetched next, or, after CT.END, at the one that would be (DESIGN CHOICE, log entry
136). -/
def misrouted (t : Tile) : Tile :=
  if !t.fetchEnd then { t with misroute := true }
  else if t.trapping then t
  else takeTrap t t.pc [(trapMisroute, 0)]

/-- A line reaches queue `q` of tile `n` (R82): queued, a MESH_MISROUTE, or discarded. Answers
whether it takes a place in the queue. -/
def lineInto (s : State) (n q : Nat) (bytes : List Byte) (cls : Cause) (src : Option Nat) :
    State × Bool :=
  if lineWanted s n q then (enqueue s n q bytes cls src, true)
  else if meshTakes s n && (tile s n).runState = 2 then (setTile s n (misrouted (tile s n)), false)
  else (s, false)

/-- The link groups that what tile `n` sends along a route crosses on this package. -/
def routeGroups (n : Nat) (r : Route) : List Nat :=
  if r.remote then [tileDie n] else dieGroups (tileDie n) (tileDie r.tile)

/-- Whether a link group holds what tile `n` sends along a route (R18). -/
def routeHeld (s : State) (n : Nat) (r : Route) : Bool :=
  crossHeld s (routeGroups n r) (tileFlow n r)
    || (r.remote && bridgeHeld s (portToward s (r.x, r.y) (bitsOf r.path 14 2 == 3)) (tileFlow n r))

/-- What tile `n` sends along a route has its modules (R17). -/
def routeFlow (s : State) (n : Nat) (r : Route) : State :=
  crossFlow s (routeGroups n r) (tileFlow n r)

/-- `k` credits of tile `n` are in use along a route (R367). -/
def useCredits (s : State) (n : Nat) (r : Route) (k : Nat) : State :=
  let t := tile s n
  setTile s n { t with
    credits := SMap.put t.credits (routeKey r) (SMap.getD t.credits (routeKey r) 0 + k) }

/-- The credits that tile `n` has left along a route. -/
def creditsLeft (t : Tile) (r : Route) : Nat := 16 - SMap.getD t.credits (routeKey r) 0

/-- The head send of outbound queue `o` has sent `k` lines. -/
def takeLines (s : State) (n o k : Nat) : State :=
  let t := tile s n
  let x := t.outQ o
  match x.sends with
  | [] => s
  | g :: rest =>
    let sends := if g.left ≤ k then rest else { g with left := g.left - k } :: rest
    setTile s n { t.setOutQ o { x with
      lines := x.lines.drop k, sends := sends, last := some (sendClass g.route.path) } with
      linesOut := (t.linesOut + k) % 2 ^ 64 }

/-- Whether the head send of outbound queue `o` may hand a line to the router: nothing issued before
it drains the queue, no signal to its tile is ahead of it, it has credit, and no link group holds its
flow. -/
def sendReady (s : State) (n o : Nat) (g : Send) : Bool :=
  let t := tile s n
  !t.drainedBefore o g.seq && !sigAhead t g.route g.seq && creditsLeft t g.route > 0
    && !routeHeld s n g.route

/-- A line of the head send of outbound queue `o` of tile `n` crosses to a tile of this package. -/
def sendLocal (s : State) (n o : Nat) (g : Send) : State :=
  let m := g.route.tile
  let q := g.route.queue
  match ((tile s n).outQ o).lines with
  | [] => s
  | b :: _ =>
    if !lineFits s m q then s
    else
      let x := crossData s (routeGroups n g.route) (tileFlow n g.route) b
      let r := lineInto (takeLines x.1 n o 1) m q x.2 (meshClass n m) (some n)
      if r.2 then useCredits r.1 n g.route 1 else r.1

/-- Whether two routes lead to one queue of another package. -/
def sameFar (a b : Route) : Bool :=
  a.remote && b.remote && a.x == b.x && a.y == b.y && a.tile == b.tile && a.queue == b.queue

/-- An outbound queue of tile `n` whose head send can add a line to a packet for the queue that route
`r` leads to: queue `o` first. -/
def packFrom (s : State) (n o : Nat) (r : Route) : Option Nat :=
  (o :: List.range 16).find? (fun k =>
    match ((tile s n).outQ k).sends with
    | [] => false
    | g :: _ => sameFar g.route r && !((tile s n).outQ k).lines.isEmpty && sendReady s n k g)

/-- Up to `k` lines of a flow that are already waiting are taken from their outbound queues, in order,
while credit is left (R215, R367). -/
def packLines (s : State) (n o : Nat) (r : Route) : Nat → State × List (List Byte)
  | 0 => (s, [])
  | k + 1 =>
    match packFrom s n o r with
    | none => (s, [])
    | some i =>
      let b := ((tile s n).outQ i).lines.headD []
      let q := packLines (useCredits (takeLines s n i 1) n r 1) n o r k
      (q.1, b :: q.2)

/-- Waiting lines of the flow of the head send leave for another package in one packet (R215). Lines
that no port takes hold no credit (log entry 17). -/
def sendRemote (s : State) (n o lines : Nat) (g : Send) : State :=
  let r := g.route
  let p := packLines (routeFlow s n r) n o r (min lines 64)
  let k := p.2.length
  if k = 0 then s
  else
    let dest := (r.x, r.y)
    let x := crossData p.1 (routeGroups n r) (tileFlow n r) p.2.flatten
    let q := sendPacket x.1 (tileOwner s n) (tileFlow n r) dest (bitsOf r.path 14 2 == 3) (fun q =>
      packetHeader 1 k q dest (ownXY s) (r.tile + 2 ^ 11 * r.queue) 0 0 0 0 ++ x.2)
    if q.2 then q.1
    else
      let t := tile q.1 n
      setTile q.1 n { t with
        credits := SMap.put t.credits (routeKey r) (SMap.getD t.credits (routeKey r) 0 - k) }

/-- The head send of an outbound queue goes on. -/
def sendLines (s : State) (n o lines : Nat) : State :=
  match ((tile s n).outQ o).sends with
  | [] => s
  | g :: _ =>
    if !sendReady s n o g then s
    else if g.route.remote then sendRemote s n o lines g
    else sendLocal s n o g

/-- The head send of an outbound queue goes on, its first line in die-to-die flits whose corruption passes
their CRC-32: nothing finds it (R289). Nothing happens where the line crosses no link group, or cannot
go. -/
def sendCorrupted (s : State) (n o lines : Nat) (flips : List (Nat × Nat)) : State :=
  let x := (tile s n).outQ o
  match x.sends, x.lines with
  | g :: _, b :: bs =>
    let t := sendLines (setTile s n ((tile s n).setOutQ o { x with lines := flipBytes b flips :: bs })) n o lines
    if !(routeGroups n g.route).isEmpty && ((tile t n).outQ o).lines.length < x.lines.length then t else s
  | _, _ => s

/-! ### From other packages -/

/-- The place of the first waiting packet for a tile. -/
def meshInAt (s : State) (n : Nat) : Option Nat := s.meshIn.findIdx? (fun b => pktTile b == n)

/-- The first line of the first waiting packet for tile `n` arrives; the credit of one that takes no
place goes back at once (log entry 17). -/
def remoteLine (s : State) (n : Nat) : State :=
  match meshInAt s n with
  | none => s
  | some i =>
    let b := s.meshIn.getD i []
    if pktType b ≠ 1 || flowHeld s (tileDie n) (pktFlow b) then s
    else if !lineFits s n (pktQueue b) then s
    else
      let x := crossData s [tileDie n] (pktFlow b) ((b.drop 16).take 64)
      let s : State := { x.1 with
        meshIn := if pktLines b ≤ 1 then s.meshIn.eraseIdx i else s.meshIn.set i (cutLine b) }
      let src := 2048 + (pktSrc b).1 + 256 * (pktSrc b).2
      let r := lineInto s n (pktQueue b) x.2 causeOpt (some src)
      if r.2 then r.1 else owe r.1 src (16 * n + pktQueue b)

/-- The first waiting packet for tile `n` is a signal, and arrives. -/
def remoteSig (s : State) (n : Nat) : State :=
  match meshInAt s n with
  | none => s
  | some i =>
    let b := s.meshIn.getD i []
    if pktType b ≠ 2 || flowHeld s (tileDie n) (pktFlow b) then s
    else
      let x := crossNat s [tileDie n] (pktFlow b) 1 (pktEvent b)
      let s : State := { x.1 with meshIn := s.meshIn.eraseIdx i }
      if meshTakes s n then setTile s n ((tile s n).addEv (x.2 % 8) causeOpt) else s

/-- The `k`-th signal that tile `n` has handed to its router reaches its destination (R84, R85). Signals and
lines to one tile keep the order in which the router starts them, so that a signal may pass lines of an
earlier send that have not been handed over (DESIGN CHOICE, log entry 166). -/
def sendSig (s : State) (n k : Nat) : State :=
  let t := tile s n
  match t.sigs[k]? with
  | none => s
  | some g =>
    if sigAhead t g.route g.seq || routeHeld s n g.route then s
    else
      let x := crossNat (setTile s n { t with sigs := t.sigs.eraseIdx k })
        (routeGroups n g.route) (tileFlow n g.route) 1 (g.route.queue % 8)
      let s := x.1
      let e := x.2 % 8
      if g.route.remote then
        let dest := (g.route.x, g.route.y)
        (sendPacket s (tileOwner s n) (tileFlow n g.route) dest (bitsOf g.route.path 14 2 == 3)
          (fun q => packetHeader 2 1 q dest (ownXY s) (g.route.tile + 2 ^ 11 * e) 0 0 0 0)).1
      else if meshTakes s g.route.tile then
        setTile s g.route.tile ((tile s g.route.tile).addEv e (meshClass n g.route.tile))
      else s

/-- The key of a queue of another package among a tile's credits. -/
def farKey (f : FarQueue) : Nat := 16 * f.tile + f.queue + 2 ^ 15 * (1 + f.x + 256 * f.y)

/-- The flow of the credits that a tile's queue key sends back to tile `n`, and whether a link group holds
it (R18). -/
def creditFlow (n key : Nat) : Nat := 2 ^ 45 + n + 2 ^ 11 * (key / 16)
def creditHeld (s : State) (n key : Nat) : Bool :=
  crossHeld s (dieGroups (tileDie (key / 16)) (tileDie n)) (creditFlow n key)

/-- A credit comes back to tile `n` (R367): the oldest that a tile of this package owes it and that no link
group holds, or one of queue `far` of another package. The specification gives no packet that carries the
latter (log entry 16). -/
def creditBack (s : State) (n : Nat) (far : Option FarQueue) : State :=
  let t := tile s n
  let back (k : Nat) : SMap Nat := SMap.put t.credits k (SMap.getD t.credits k 0 - 1)
  match far with
  | some f =>
    if plazaUp s && tileExists s n && !plazaHeld s 9 n then
      setTile (plazaCross s 9 n) n { t with credits := back (farKey f) }
    else s
  | none =>
    match t.owed.find? (fun k => !creditHeld s n k) with
    | some k =>
      setTile (crossFlow s (dieGroups (tileDie (k / 16)) (tileDie n)) (creditFlow n k)) n
        { t with owed := t.owed.erase k, credits := back k }
    | none => s

end Sys2Proof.Machine
end

