-- ==== Sys2Proof/Machine/DistOps.lean ====
section
/-!
DEFINITION. Machine/DistOps.lean: what changes whole Districts, tiles and dies: launches that start
(R116, R144), image slots, work that is stopped (R243, R369), scrubbing (R245), and the fencing of a
tile (R295, R296) and of a compute die (R20, R21, R257).
-/
namespace Sys2Proof.Machine

/-! ### Image slots -/

/-- The image of slot `k` of District `d`. -/
def imageAt (s : State) (d k : Nat) : Option Image := SMap.find s.images (16 * d + k)

/-- Slots of District `d` whose image satisfies `p` become empty. -/
def emptySlots (s : State) (d : Nat) (p : Image → Bool) : State :=
  { s with images := s.images.filter (fun kv => !(kv.1 / 16 == d && p kv.2)) }

/-- Slots of every District whose image names a tile that satisfies `p` become empty. -/
def emptyNaming (s : State) (p : Nat → Bool) : State :=
  { s with images := s.images.filter (fun kv => !kv.2.tiles.any p) }

/-! ### Launches (R116, R144) -/

/-- The tiles of a launch start, once every slice has returned to controller mode and no link group holds
what goes to a tile (R18); a tile whose block is not ON takes no new work, and the launch waits for it (R297;
DESIGN CHOICE, log entry 52). -/
def startLaunch (s : State) (d : Nat) (j : Job) : State :=
  match j.work with
  | .launch slot im args false es =>
    if im.tiles.all (fun n =>
        !(slice s n).relaunch && rd s (tileP n) HDR_STATE == 2 && !plazaHeld s d n) then
      let s := im.tiles.zipIdx.foldl (fun s x =>
        let a := plazaData s d x.1 (args.flatMap (leBytes 4))
        startTile a.1 x.1 x.2 ((List.range 8).map (fun i => leAt a.2 (4 * i) 4))) s
      setJob s d { j with work := .launch slot im args true es }
    else s
  | _ => s

/-- Launches that wait for their slices are looked at again. -/
def pollLaunches (s : State) : State :=
  (List.range 4).foldl (fun s d =>
    (proc s d).running.foldl (fun s j => startLaunch s d j) s) s

/-- Whether a tile belongs to a launch that has not completed. -/
def inLaunch (s : State) (n : Nat) : Bool := (launchOf s n).isSome

/-- Whether a District has a launched schedule that has not completed. -/
def distLaunched (s : State) (d : Nat) : Bool :=
  (proc s d).running.any (fun j => match j.work with
    | .launch _ _ _ _ _ => true
    | _ => false)

/-- A launched tile stops as a `TILE` soft reset stops it. -/
def haltTile (s : State) (n : Nat) : State := if (tile s n).runState = 2 then stopTile s n else s

/-- The tiles of every launch of a District stop (R62). -/
def stopLaunches (s : State) (d : Nat) : State :=
  (proc s d).running.foldl (fun s j => match j.work with
    | .launch _ im _ _ _ => im.tiles.foldl haltTile s
    | _ => s) s

/-! ### A District's work stopped (R243, R369) -/

/-- Every command of a District that has started ends without a completion, its launches' tiles
stop, and its collectives end ABORTED, cause host abort, with a wave. -/
def stopDistrict (s : State) (d : Nat) : State :=
  let s := stopLaunches s d
  let s := setProc s d { proc s d with running := [] }
  let s := abortColls s d none
  wr s (cmdprocP d) CMDPROC_BLOCKED 0

/-- What a port reset leaves of the `CMDPROC` page: reset values, but for counters marked RS. A soft
reset that waited has its effect with it, as the page turns OFF (R298). Sequence numbers go on, so that
no write that a window still holds for an old command concerns a new one. -/
def clearProc (s : State) (d : Nat) : State :=
  let p := cmdprocP d
  let fs := [CMDPROC_CMD_BASE_LO, CMDPROC_CMD_BASE_HI, CMDPROC_CMD_SIZE, CMDPROC_CMD_HEAD,
    CMDPROC_CPL_BASE_LO, CMDPROC_CPL_BASE_HI, CMDPROC_CPL_SIZE, CMDPROC_CPL_TAIL, CMDPROC_CPL_HEAD,
    CMDPROC_COUNT, CMDPROC_TIMER_US, CMDPROC_CMD_VER, CMDPROC_BLOCKED, HDR_ENABLE, HDR_STATE,
    HDR_PEND_ENABLE, HDR_INT_RAW, HDR_INT_ENABLE, HDR_LAST_ERR, HDR_ERR_ADDR_LO, HDR_ERR_ADDR_HI,
    HDR_ERR_SYNDROME]
  let s : State := { s with resetWaits := SMap.del s.resetWaits p.base }
  deliver (setProc (fs.foldl (fun s f => wr s p f (fieldReset p f)) s) d
    { nextSeq := (proc s d).nextSeq })

/-- A host port reset (R243). -/
def resetProc (s : State) (d : Nat) : State := clearProc (stopDistrict s d) d

/-! ### Scrubbing (R245) and the like -/

/-- A tile's slice and its command window hold nothing that can be read. -/
def unwriteSlice (s : State) (n : Nat) : State :=
  let x := slice s n
  setSlice s n { unwriteBuffers x with flags := {}, merge := [], narrow := [] }

/-- A tile is scrubbed: SRAM zeroed, so that no line of it fails any longer, slice and window unwritten,
routes, `Q_MESH`, event counters and sticky flags cleared. -/
def scrubTile (s : State) (n : Nat) : State :=
  let t := tile s n
  unwriteSlice (setTile s n { t.written (fun k => k < 2 ^ 15) with
    data := [], code := [], routes := [], qMesh := 0, ev := [], evSrc := [], fpFlags := 0,
    qPoison := 0 }) n

/-! ### Fencing a tile (R295, R296) -/

/-- The physical place of a logical tile: die × 512 + row × 32 + column. -/
def physKey (s : State) (n : Nat) : Nat :=
  tileDie n * 512 + tileRow n * 32 + physCol s (tileDie n) (tileRow n) (tileCol n)

/-- Whether any route of a tile has a path that the failed routers forbid (R33, R296). -/
def routesBroken (s : State) (n : Nat) : Bool :=
  let t := tile s n
  t.routes.any (fun kv =>
    bitOf kv.2 63 &&
      let r : Route := ⟨bitsOf kv.2 0 11, bitsOf kv.2 12 4, bitOf kv.2 16, bitsOf kv.2 24 8,
        bitsOf kv.2 32 8, bitsOf kv.2 40 16⟩
      -- the hop limits are of no account here, so both fields stand at their largest value
      !routeOk s n { r with path := putBits (putBits r.path 8 6 63) 2 6 63 } r.tile)

/-- A running launch that `p` names ends TILE_LOST with the fenced tile, and its collectives. -/
def loseLaunches (s : State) (n : Nat) (p : List Nat → Bool) : State :=
  (List.range 4).foldl (fun s d =>
    (proc s d).running.foldl (fun s j => match j.work with
      | .launch slot im _ _ _ =>
        if p im.tiles then
          collEndAll (dropPosts (endLaunch s d j stTileLost n) d (some slot))
            (fun c => c.dist == d && c.slot == slot) 1 2
        else s
      | _ => s) s) s

/-- A RESPARE of a row in which a tile is fenced meanwhile completes RESPARE_NONE (R296). -/
def voidRespare (s : State) (n : Nat) : State :=
  (List.range 4).foldl (fun s d =>
    (proc s d).running.foldl (fun s j => match j.work with
      | .respare die row =>
        if die = tileDie n && row = tileRow n then finishJob s d j stRespareNone 0 else s
      | _ => s) s) s

/-- Who waits at a slice or its window for an acknowledgement, with the address of the write. -/
def waiters (x : Slice) (n : Nat) : List (Nat × Nat) :=
  let win := winBase + 2 ^ 20 * n
  x.queue.filterMap (fun o => match o with
      | .go _ _ who => who.map (fun w => (w, win + 0xFFF40))
      | .put off _ who => who.map (fun w => (w, win + off)))
    ++ x.narrow.filterMap (fun o => o.who.map (fun w =>
      (w, if o.sector < 2 ^ 24 then 2 ^ 29 * n + 32 * o.sector + o.lo
        else win + 32 * (o.sector - 2 ^ 24) + o.lo)))

/-- A slice without the writes of requester `who` that wait at it or at its window. -/
def Slice.forget (x : Slice) (who : Nat) : Slice :=
  { x with queue := x.queue.filter (fun o => o.who != some who),
           narrow := x.narrow.filter (fun w => w.who != some who) }

/-- A write that waited at a fenced tile completes with ERR_FENCED, for each requester in its own way
(R296). -/
def failWaiter (s : State) (w : Nat × Nat) : State :=
  let k := (w.1 - 15360) % 8
  if w.1 < 15360 then
    let n := w.1 / 8
    if ((tile s n).chan (w.1 % 8)).cmds.isEmpty then s
    else haltHead (moverRefused s n w.2 errFenced) n (w.1 % 8) errFenced w.2
  else if k < 4 then
    match jobOf s k ((w.1 - 15360) / 8) with
    | some j => match j.work with
      | .ack who _ _ dev len =>
        setJob (refuse s k w.2 errFenced) k { j with work := .ack who errFenced (w.2 % 2 ^ 48) dev len }
      | _ => s
    | none => s
  else windowRefused (refuse s (k - 4) w.2 errFenced) (k - 4) w.2 errFenced true

/-- A tile's `TILE` page and its parts are those of a fenced tile (R296). -/
def fenceFirst (s : State) (n : Nat) : State :=
  let p := tileP n
  let ws := waiters (slice s n) n
  let s := lastErr (wr (wr s p HDR_FENCED 1) p HDR_STATE 0) p 6
  let s := raise s p 3
  let s := bump s (cdieP (tileDie n)) CDIE_TILES_FENCED
  let s : State := { s with dawn := { s.dawn with fenced := s.dawn.fenced ++ [physKey s n] } }
  let s := if tileOwner s n < 4 then raise s (districtP (tileOwner s n)) 2 else s
  let s := engineFence s n
  let s := setSlice s n { slice s n with narrow := [] }
  let s := ws.foldl failWaiter s
  let s := collEndAll s (fun c => c.started && c.members.contains n) 6 0
  quietTile (loseLaunches (voidRespare s n) n (fun ts => ts.contains n)) n

/-- A slice is lost: refresh stops, and its data is gone (R295). -/
def loseSlice (s : State) (n : Nat) : State :=
  let s := unwriteSlice s n
  setSlice s n { slice s n with mem := [], portLost := true }

/-- A request that a tile's mover has outstanding at tile `m`'s slice or window may go through the router
of tile `n`: one of the two is on its die. The manual gives no path of a request, so that it is a free
choice whether it does (DESIGN CHOICE, log entry 171). -/
def loseRequest (s : State) (n m : Nat) (w : Nat × Nat) : State :=
  let k := w.1 / 8
  if w.1 < 15360 && k ≠ m && (tileDie k == tileDie n || tileDie m == tileDie n) then
    let c := freeBool s
    if c.1 then failWaiter (setSlice c.2 m ((slice c.2 m).forget w.1)) w else c.2
  else s

/-- Whether what goes between tile `k` and another tile, or its module edge, may pass the router of tile `n`
straight along its row. At a module edge that is row 0, where the columns of two rows differ (R99). -/
def besideRow (n k : Nat) (edge : Bool) : Bool :=
  tileDie k == tileDie n && (tileRow k == tileRow n || (edge && tileRow n == 0))

/-- Whether a line of an inbound queue of tile `m` may have come through the router of tile `n`: straight
along its row from a tile of this package, or on any way on its die from another package, which does not
see a path that the router breaks. -/
def passedRow (n m : Nat) (l : Line) : Bool :=
  match l.src with
  | some k =>
    if k < 1920 then
      let edge := tileDie k != tileDie m
      besideRow n k edge || besideRow n m edge
    else tileDie m == tileDie n
  | none => false

/-- The newest lines of an inbound queue of tile `m` that were inside the router of tile `n`, as many as a
free value says, are lost with their credits (R296; DESIGN CHOICE, log entry 171). -/
def loseLines (s : State) (n m q : Nat) : State :=
  let x := (tile s m).inQ q
  let c := freeNat s
  let k := min (c.1 % 17) (x.lines.reverse.takeWhile (passedRow n m)).length
  if k = 0 then c.2
  else setTile c.2 m ((tile c.2 m).setInQ q { x with lines := x.lines.take (x.lines.length - k) })

/-- The next lines that outbound queue `o` of tile `k` sends to another package, as many as a free value says,
were inside the router of tile `n`: they are lost with their credits. -/
def loseSent (s : State) (n k o : Nat) : State :=
  let x := (tile s k).outQ o
  match x.sends with
  | g :: _ =>
    if besideRow n k true && g.route.remote && sendReady s k o g then
      let c := freeNat s
      let m := min (c.1 % 17) (min g.left (min x.lines.length (creditsLeft (tile s k) g.route)))
      if m = 0 then c.2 else useCredits (takeLines c.2 k o m) k g.route m
    else s
  | [] => s

/-- What a router carried when it failed: requests through it complete ERR_FENCED, and the lines inside it
are lost (R296). -/
def loseThrough (s : State) (n : Nat) : State :=
  let s := s.slices.foldl (fun s x => (waiters x.2 x.1).foldl (fun s w => loseRequest s n x.1 w) s) s
  let s := s.tiles.foldl (fun s t => t.2.inq.foldl (fun s q => loseLines s n t.1 q.1) s) s
  s.tiles.foldl (fun s t => t.2.outq.foldl (fun s q => loseSent s n t.1 q.1) s) s

/-- A router is marked failed: launches whose routes it breaks end TILE_LOST (R33), and what it carried is
lost (R296). -/
def loseRouter (s : State) (n : Nat) : State :=
  let i := 16 * tileDie n + tileRow n
  let m := setBit (SMap.getD s.dawn.routers i 0) (physKey s n % 32)
  let s := wr { s with dawn := { s.dawn with routers := SMap.put s.dawn.routers i m } }
    bistP BIST_ROUTER_FAILED m i
  loseThrough (loseLaunches s n (fun ts => ts.any (fun m => routesBroken s m))) n

/-- A tile is fenced (R295, R296). `router` says whether its router is marked failed, `lost` whether its
slice is lost; either may befall a tile that is fenced already. -/
def fenceTile (s : State) (n : Nat) (router lost : Bool) : State :=
  if !tileExists s n || dieFenced s (tileDie n) then s
  else
    let s := if tileFenced s n then s else fenceFirst s n
    let s := if lost then loseSlice s n else s
    let s := if router then loseRouter s n else s
    collPumpAll (pollHost s) []

/-! ### Fencing a compute die (R20, R21, R257) -/

/-- Whether a byte of device memory lies on a die: its slice, SRAM or window, or in a District's
interleaved space a slice there. -/
def addrDie (s : State) (d a : Nat) : Option Nat :=
  match decodeAddr s d a with
  | some (.slice n _) | some (.sram n _) | some (.win n _) => some (tileDie n)
  | _ => none

/-- The first address of a span of device memory, by granules of 4 KiB, whose die satisfies `p`. -/
def firstOnDie (s : State) (d : Nat) (p : Option Nat → Bool) : Nat → Nat → Nat → Option Nat
  | 0, _, _ => none
  | k + 1, a, left =>
    if left = 0 then none
    else if p (addrDie s d a) then some a
    else
      let m := min left (4096 - a % 4096)
      firstOnDie s d p k (a + m) (left - m)

/-- How a memory command that covers a span ends when a die is lost: DIE_LOST; but a WRITE_MEM or FILL
over the die and over others completes ERR_FENCED, with the first address on the lost die (R21). -/
def spanLostEnd (s : State) (d die op dev len : Nat) : Nat × Nat :=
  let k := len / 4096 + 2
  match firstOnDie s d (fun x => x == some die) k dev len,
      firstOnDie s d (fun x => x != some die && x.isSome) k dev len with
  | some a, some _ => if op = 2 then (stDieLost, die) else (errFenced, a % 2 ^ 48)
  | _, _ => (stDieLost, die)

/-- A started command ends as a die is lost (R257). A LOAD_IMAGE ends so once its image has come, which
says whether it spans the die (R21; DEDUCED, log entry 97). -/
def dieLostEnd (s : State) (d die : Nat) (j : Job) : State :=
  let e := match j.work with
    | .dma _ dev len _ | .ack _ _ _ dev len => spanLostEnd s d die j.op dev len
    | _ => (stDieLost, die)
  match j.work with
  | .load _ size _ => setJob s d { j with work := .loadLost size die }
  | .loadLost _ _ => s
  | _ => failJob s d j e.1 e.2

/-- A District that includes a quarter-die of a die loses it: its started commands complete DIE_LOST, its
tiles elsewhere stop. A quarter-die that is being scrubbed belongs to none (R245). -/
def distLosesDie (s : State) (die d : Nat) : State :=
  if bitsOf (qdieMask s d) (4 * die) 4 = 0 then s
  else
    let s := stopLaunches (raise s (districtP d) 1) d
    let s := (proc s d).running.foldl (fun s j => dieLostEnd s d die j) s
    let s := collEndAll s (fun c => c.dist == d && c.members.any (fun n => tileDie n == die)) 5 0
    postNotice (abortColls s d none) d stDieLost die

/-- The contents of a die are gone, and what its tiles had posted. -/
def loseDie (s : State) (die : Nat) : State :=
  { s with tiles := s.tiles.filter (fun kv => tileDie kv.1 != die),
           slices := s.slices.filter (fun kv => tileDie kv.1 != die),
           dawn := { s.dawn with posts := s.dawn.posts.filter (fun x => tileDie x.1 != die) } }

/-! ### The yield digest (R316) -/

/-- The two words of a row: all ones where the die was held or fenced during Dawn. -/
def yieldRow (s : State) (die row : Nat) : List Byte :=
  if bitOf s.dawn.mapDies die && !bitOf s.dawn.lost die then
    leBytes 4 (badMask s die row) ++ leBytes 4 (rd s bistP BIST_ROUTER_FAILED (16 * die + row))
  else List.replicate 8 0xFF

/-- The yield digest of the present map. -/
def yieldDigest (s : State) : Nat :=
  sm3 ((List.range 4).flatMap (fun d => (List.range 16).flatMap (yieldRow s d)))

/-- The digest is published. -/
def setDigest (s : State) : State :=
  let y := yieldDigest s
  (List.range 8).foldl (fun s i => wr s dawnP DAWN_YIELD_DIGEST (digestWord y i) i)
    { s with dawn := { s.dawn with digest := y } }

/-- `NUMBERING_CHANGED`: set once the digest differs from that of the record (R317; DEDUCED, log entry 183). -/
def compareDigest (s : State) : State :=
  match s.dawn.record with
  | none => s
  | some b =>
    if digestBytes s.dawn.digest = (b.drop 0x20).take 32 || rd s dawnP DAWN_NUMBERING_CHANGED == 1 then s
    else raise (wr s dawnP DAWN_NUMBERING_CHANGED 1) dawnP 4

/-- A die is fenced during Dawn: its rows are all ones in the digest from then on, which is compared again
(R316, R317; DEDUCED, log entry 183). -/
def loseMap (s : State) (die : Nat) : State :=
  if dawnOver s then s
  else
    let s : State := { s with dawn := { s.dawn with lost := setBit s.dawn.lost die } }
    if s.dawn.mapFormed then compareDigest (setDigest s) else s

/-- A compute die is fenced, with its cause (R20). -/
def fenceDie (s : State) (die cause : Nat) : State :=
  if dieFenced s die then s
  else
    let p := cdieP die
    let s := wr (wr s p HDR_FENCED 1) p HDR_STATE 0
    let s := wr (wr s p CDIE_FENCE_CAUSE cause) p CDIE_FENCE_ROUND (rd s duskP DUSK_ROUND_LO)
    let s := loseMap (raise (raise s p 0) pkgswP 2) die
    let s := (List.range 4).foldl (fun s d => distLosesDie s die d) s
    let ws := s.slices.flatMap (fun kv => if tileDie kv.1 = die then waiters kv.2 kv.1 else [])
    let s := ws.foldl failWaiter (deliver (loseDie s die))
    collPumpAll (pollHost s) []

/-- Every Alley and Boulevard lane of an engine goes down, all together: none is handed to another of
the same engine. -/
def engineDark (s : State) (e : Nat) : State :=
  let as := (List.range 4).map (fun k => 4 * e + k)
  let ls := (as.filter (fun l => rd s (alleyP l) ALLEY_LSTATE != 0)).map (fun l => (l, 5))
  let bs := (List.range 32).map (fun k => (blvdLink e k, 0))
  let s := linksDown s (ls ++ bs)
  let s := ls.foldl (fun s l => wr s (alleyP l.1) ALLEY_LSTATE 5) s
  wr (wr s (blvdP e) BLVD_UP 0) (blvdP e) BLVD_PILOT_LOCKED 0

/-- An engine's lasers go off. -/
def lasersOff (s : State) (e : Nat) : State := wr s (oeP e) OE_DFB_OK 0

/-- An optical engine is fenced: its Alley and Boulevard links go down (R21). -/
def fenceOe (s : State) (e cause : Nat) : State :=
  let p := oeP e
  if rd s p HDR_FENCED = 1 then s
  else
    let s := wr (wr (wr s p HDR_FENCED 1) p HDR_STATE 0) p HDR_LAST_ERR cause
    let s := raise s pkgswP 2
    lasersOff (engineDark s e) e

end Sys2Proof.Machine
end

