-- ==== Sys2Proof/Machine/ImageOps.lean ====
section
/-!
DEFINITION. Machine/ImageOps.lean: schedule images: the header (R112), the tile table (R113), the
checks of LOAD_IMAGE (R111, R115, R327, R329), and what a load writes.
-/
namespace Sys2Proof.Machine

/-! ### Signatures (R327 to R329) -/

/-- The fields of a signature block: public key bytes, key, r and s. -/
def sigPubBytes (b : List Byte) : List Byte := (b.drop 8).take 64
def sigPub (b : List Byte) : Nat × Nat := (beNat ((b.drop 8).take 32), beNat ((b.drop 0x28).take 32))
def sigR (b : List Byte) : Nat := beNat ((b.drop 0x48).take 32)
def sigS (b : List Byte) : Nat := beNat ((b.drop 0x68).take 32)

/-- Whether a 136-byte signature block is well formed, is by a key of digest `key`, and signs `m`
under an identifier. -/
def sigOk (b : List Byte) (key : Nat) (ident m : List Byte) : Bool :=
  b.length == 136 && leAt b 0 2 == 1 && (b.drop 2).take 6 == List.replicate 6 0
    && sm3 (sigPubBytes b) == key && sm2Verify ident (sigPub b) m (sigR b) (sigS b)

/-- The bytes of an ASCII identifier. -/
def ascii (s : List Nat) : List Byte := s.map (BitVec.ofNat 8)
/-- "WX1-IMG", "WX1-FW", "WX1-SVC", "WX1-ATT" and "WX1-ID". -/
def idImg : List Byte := ascii [0x57, 0x58, 0x31, 0x2D, 0x49, 0x4D, 0x47]
def idFw : List Byte := ascii [0x57, 0x58, 0x31, 0x2D, 0x46, 0x57]
def idSvc : List Byte := ascii [0x57, 0x58, 0x31, 0x2D, 0x53, 0x56, 0x43]
def idAtt : List Byte := ascii [0x57, 0x58, 0x31, 0x2D, 0x41, 0x54, 0x54]
def idId : List Byte := ascii [0x57, 0x58, 0x31, 0x2D, 0x49, 0x44]

/-- Bytes with `n` of them from `at'` on taken as zero. -/
def zeroBytes (b : List Byte) (at' n : Nat) : List Byte :=
  b.take at' ++ List.replicate (min n (b.length - at')) 0 ++ b.drop (at' + n)

/-! ### The header and the tile table (R112, R113) -/

/-- A section of `n` bytes at `off` lies within an image of `size` bytes, on a 64-byte boundary. -/
def sectionOk (off n size : Nat) : Bool := off % 64 == 0 && off + n ≤ size

def imgFlag (b : List Byte) (i : Nat) : Bool := bitOf (leAt b 6 2) i
def imgTiles (b : List Byte) : Nat := leAt b 0x0E 2
def imgQdies (b : List Byte) : Nat := leAt b 0x18 2
def imgColls (b : List Byte) : Nat := leAt b 0x30 2
def imgSig (b : List Byte) : List Byte := (b.drop (leAt b 0x34 4)).take (leAt b 0x38 4)

/-- Entry `j` of the tile table. -/
def tileEntry (b : List Byte) (j : Nat) : List Byte := (b.drop (leAt b 0x28 4 + 32 * j)).take 32

def entQslot (e : List Byte) : Nat := leAt e 0 1
def entPos (e : List Byte) : Nat := leAt e 1 1
def entBundles (e : List Byte) : Nat := leAt e 2 2

/-- The 64 route entries of a tile. -/
def entRoutes (b e : List Byte) : List Nat :=
  let off := leAt e 0x14 4
  if off = 0 then [] else (List.range 64).map (fun i => leAt b (off + 8 * i) 8)

/-- A valid route entry passes check 1 of R115 among `n` tiles. -/
def routeFormOk (v n : Nat) : Bool :=
  !bitOf v 63 ||
    let path := bitsOf v 40 16
    let kind := bitsOf path 14 2
    let remote := bitOf v 16
    bitsOf v 11 1 == 0 && bitsOf v 17 7 == 0 && bitsOf v 56 7 == 0 && !bitOf path 0
      && (remote == (kind ≥ 2)) && (remote || bitsOf v 0 11 < n)

/-- An entry of the tile table meets R113. -/
def entryOk (b e : List Byte) : Bool :=
  let size := b.length
  entQslot e < imgQdies b && entPos e < 120 && 1 ≤ entBundles e && entBundles e ≤ 4096
    && sectionOk (leAt e 4 4) (32 * entBundles e) size
    && leAt e 0xC 4 % 64 == 0 && leAt e 0x10 4 % 64 == 0 && leAt e 0x10 4 + leAt e 0xC 4 ≤ 0x180000
    && (leAt e 8 4 == 0) == (leAt e 0xC 4 == 0)
    && (leAt e 8 4 == 0 || sectionOk (leAt e 8 4) (leAt e 0xC 4) size)
    && (leAt e 0x14 4 == 0 || sectionOk (leAt e 0x14 4) 512 size)
    && (e.drop 0x1A).all (fun x => x == 0)
    && (entRoutes b e).all (fun v => routeFormOk v (imgTiles b))

/-- Check 1 of R115 on the bytes of a transfer of `size` bytes. -/
def imageFormOk (b : List Byte) (size : Nat) : Bool :=
  let es := (List.range (imgTiles b)).map (tileEntry b)
  b.length == size && size ≥ 256
    && b.take 4 == ascii [0x57, 0x58, 0x53, 0x49] && leAt b 4 2 == 256 && leAt b 0x10 8 == size
    && leAt b 6 2 / 16 == 0 && leAt b 0x32 2 == 0 && leAt b 0x3C 4 == 0
    && ((b.drop 0x84).take 124).all (fun x => x == 0)
    && leAt b 0xC 1 ≤ 5 && leAt b 0xD 1 ≤ 50 && leAt b 0x1A 2 ≤ 50
    && 1 ≤ imgTiles b && imgTiles b ≤ 1920 && 1 ≤ imgQdies b && imgQdies b ≤ 16 && imgColls b ≤ 64
    && leAt b 0x26 2 ≤ 384
    && (imgFlag b 3 || (leAt b 0x20 2 == 0 && leAt b 0x22 2 == 0))
    && sectionOk (leAt b 0x28 4) (32 * imgTiles b) size
    && (if imgColls b = 0 then leAt b 0x2C 4 == 0
        else sectionOk (leAt b 0x2C 4) (64 * imgColls b) size)
    && leAt b 0x38 4 ≤ size
    && (if imgFlag b 0 then sectionOk (leAt b 0x34 4) (leAt b 0x38 4) size else leAt b 0x34 4 == 0)
    && es.all (entryOk b)
    && (es.map (fun e => (entQslot e, entPos e))).eraseDups.length == es.length

/-- The digest of an image: its `IMAGE_DIGEST` and its signature taken as zero (R112). -/
def imageDigest (b : List Byte) : Nat :=
  let z := zeroBytes b 0x60 32
  sm3 (if imgFlag b 0 then zeroBytes z (leAt b 0x34 4) (leAt b 0x38 4) else z)

/-- The District's key digest as the `SEC` page holds it. -/
def imgKeyDigest (s : State) (d : Nat) : Nat :=
  beNat ((List.range 8).flatMap (fun i => leBytes 4 (rd s secP SEC_IMG_KEY_DIGEST (8 * d + i))))

/-- Check 2 of R115 (R329). -/
def imageSigned (s : State) (d : Nat) (b : List Byte) : Bool :=
  rd s (districtP d) DISTRICT_SIGN_REQUIRED == 0 ||
    (imgFlag b 0 && leAt b 0x38 4 == 136
      && digestBytes (imageDigest b) == (b.drop 0x60).take 32
      && sigOk (imgSig b) (imgKeyDigest s d) idImg (digestBytes (imageDigest b)))

/-- The agreed contract level, as major × 256 + minor (R111): the highest of 3.0 to 3.1 in range. -/
def agreedLevel (b : List Byte) : Option Nat :=
  let lo := 256 * leAt b 9 1 + leAt b 8 1
  let hi := 256 * leAt b 0xB 1 + leAt b 0xA 1
  ([0x301, 0x300].filter (fun v => lo ≤ v && v ≤ hi)).head?

/-- The logical tiles of an image in a District, in position order. -/
def placeTiles (s : State) (d : Nat) (b : List Byte) : List Nat :=
  let qs := bitList 16 (qdieMask s d)
  (List.range (imgTiles b)).map (fun j =>
    let e := tileEntry b j
    qs.getD (entQslot e) 16 * 120 + entPos e)

/-- A route entry as it is loaded: with `REMOTE` clear, its destination is the placed tile. -/
def placeRoute (ts : List Nat) (v : Nat) : Nat :=
  if bitOf v 63 && !bitOf v 16 then putBits v 0 11 (ts.getD (bitsOf v 0 11) 0) else v

/-- Check 7 of R115 for one tile. -/
def tileRoutesOk (s : State) (ts : List Nat) (b : List Byte) (j : Nat) : Bool :=
  (entRoutes b (tileEntry b j)).all (fun v =>
    !bitOf v 63 ||
      let r := routeOf (placeRoute ts v)
      routeOk s (ts.getD j 0) r (if r.remote then ts.getD j 0 else r.tile))

/-- The address of a refusal that names a tile: the base of its SRAM window (DESIGN CHOICE, log entry
147). -/
def tileAddr (n : Nat) : Nat := sramBase + 2 ^ 21 * n

/-- The first failure of R115, with its `DATA`. -/
def imageCheck (s : State) (d : Nat) (b : List Byte) (size : Nat) : Option (Nat × Nat) :=
  if !imageFormOk b size then some (stImgFormat, 0)
  else if !imageSigned s d b then some (stImgSignature, 0)
  else if (agreedLevel b).isNone then some (stImgLevel, 0)
  else
    let ts := placeTiles s d b
    if (bitList 16 (qdieMask s d)).length < imgQdies b || ts.any (fun n => !tileExists s n) then
      some (stImgTiles, 0)
    else match ts.find? (fun n => dieFenced s (tileDie n) || tileFenced s n) with
      | some n =>
        -- a tile on a lost die is refused as R257 states, a fenced tile as R115 states
        if dieFenced s (tileDie n) then some (errFenced, tileAddr n)
        else some (stImgFenced, n)
      | none =>
        let y := (b.drop 0x40).take 32
        if !(y.all (fun x => x == 0)) && y != digestBytes s.dawn.digest then some (stImgYield, 0)
        else match (List.range ts.length).find? (fun j => !tileRoutesOk s ts b j) with
          | some j => some (stImgRoute, ts.getD j 0)
          | none =>
            if imgFlag b 3 && !(leAt b 0x20 2 == rd s pkgswP PKGSW_DIST_GLB_BASE d
                && leAt b 0x22 2 == rd s pkgswP PKGSW_DIST_GLB_SIZE d) then some (stImgLayout, 0)
            else (ts.find? (fun n => (tile s n).runState == 2)).map (fun n => (errBusy, tileAddr n))

/-- One tile takes its part of an image (R115). -/
def loadTile (s : State) (ts : List Nat) (b : List Byte) (minor j : Nat) : State :=
  let n := ts.getD j 0
  let e := tileEntry b j
  let t := tile s n
  let code := (b.drop (leAt e 4 4)).take (32 * entBundles e)
  let data := (b.drop (leAt e 8 4)).take (leAt e 0xC 4)
  let routes := (entRoutes b e).map (placeRoute ts)
  setTile s n { (t.storeCode 0 code).storeData (leAt e 0x10 4) data with
    bundles := entBundles e
    minor := minor
    qMesh := leAt e 0x18 2
    routes := (List.range 64).foldl (fun m i =>
      if routes.getD i 0 = 0 then SMap.del m i else SMap.put m i (routes.getD i 0)) t.routes
    runState := 1 }

/-- The image's record in its slot. -/
def imageRecord (s : State) (d : Nat) (b : List Byte) : Image :=
  let lim := leAt b 0x1C 4
  { tiles := placeTiles s d b
    colls := (List.range (imgColls b)).map (fun i => (b.drop (leAt b 0x2C 4 + 64 * i)).take 64)
    digest := imageDigest b
    verified := rd s (districtP d) DISTRICT_SIGN_REQUIRED == 1
    yield := s.dawn.digest
    slipUs := if lim = 0 then 0 else max lim 1000 }

/-- How a LOAD_IMAGE ends that was running when a die was lost: ERR_FENCED where its image spans the die
and others, DIE_LOST else (R21, R257). -/
def loadLostEnd (s : State) (d die size : Nat) (b : List Byte) : Nat × Nat :=
  let ts := if imageFormOk b size then placeTiles s d b else []
  match ts.find? (fun n => tileDie n == die), ts.find? (fun n => tileDie n != die) with
  | some n, some _ => (errFenced, tileAddr n)
  | _, _ => (stDieLost, die)

/-- A LOAD_IMAGE whose bytes have come from host memory ends (R115, R251); not while a link group holds what
goes to one of its tiles (R18). -/
def loadEnd (s : State) (d : Nat) (j : Job) (data : List Byte) : State :=
  match j.work with
  | .load _ size slot =>
    let b := data.take size
    if b.length = size && (imageCheck s d b size).isNone && (placeTiles s d b).any (plazaHeld s d) then s
    else
    let s := bytesIn s d b.length
    if b.length < size then finishJob (hostRefused s d) d j stHostDma b.length
    else match imageCheck s d b size with
      | some x => failJob s d j x.1 x.2
      | none =>
        let ts := placeTiles s d b
        let s := ts.foldl (fun s n => plazaCross s d n) s
        let lvl := (agreedLevel b).getD 0x300
        let im := imageRecord s d b
        let s := emptySlots s d (fun i => i.tiles.any (fun n => ts.contains n))
        let s := (List.range ts.length).foldl (fun s j => loadTile s ts b (lvl % 256) j) s
        let s : State := { s with images := SMap.put s.images (16 * d + slot) im }
        finishJob s d j stOk lvl
  | .loadLost size die =>
    let b := data.take size
    let e := loadLostEnd s d die size b
    failJob (bytesIn s d b.length) d j e.1 e.2
  | _ => s

end Sys2Proof.Machine
end

