-- ==== Sys2Proof/Machine/YieldOps.lean ====
section
/-!
DEFINITION. Machine/YieldOps.lean: the hop count H of a die (R99), and the sparing of one row again (R255, R317).
-/
namespace Sys2Proof.Machine

/-! ### The hop count H (R99) -/

/-- The edge hop count of a logical tile: the shorter of the two orders a route may take, or 0 where
failed routers forbid both (DEDUCED, log entry 23). -/
def edgeHops (s : State) (n : Nat) : Nat :=
  let f (north : Bool) : Option Nat := pathHops s (tileDie n) (tilePos s n) (edgePos s n) north
  match f true, f false with
  | some a, some b => min a b
  | some a, none => a
  | none, some b => b
  | none, none => 0

/-- H of a die: 15 plus the most bad tiles of a row, at least 2, or the largest edge hop count. -/
def dieHops (s : State) (die : Nat) : Nat :=
  let worst := (List.range 16).foldl (fun m r => max m (badCount s die r)) 2
  (dieTiles s die).foldl (fun m n => max m (edgeHops s n)) (15 + worst)

/-! ### Sparing a row again (R255) -/

/-- The logical tile of a column of a row. -/
def rowTile (die row l : Nat) : Nat := 480 * die + 30 * row + l

/-- Spares tested in ascending order until `need` are good: the failing ones among those tested, or
none where too few are good. `fails` says which columns fail their self-test. -/
def takeSpares (fails : Nat) : Nat → List Nat → Option (List Nat)
  | 0, _ => some []
  | _ + 1, [] => none
  | k + 1, c :: cs =>
    if bitOf fails c then (takeSpares fails (k + 1) cs).map (fun l => c :: l)
    else takeSpares fails k cs

/-- The columns that a RESPARE of a row counts as bad, or none where it never could keep the row's
length. -/
def respareBad (s : State) (die row fails : Nat) : Option (List Nat) :=
  let n := rowTiles s die row
  let good := goodCols s die row
  let lost := ((List.range n).filter (fun l => tileFenced s (rowTile die row l))).map
    (fun l => good.getD l l)
  (takeSpares fails lost.length (good.drop n)).map (fun bad => lost ++ bad)

/-- The bit number in BAR0 at which the register group of a tile begins. -/
def groupBit (n : Nat) : Nat := 8 * (tileP n).base
/-- The length of a register group in bits. -/
def groupLen : Nat := 8 * 0x4000

/-- What a row's tiles hold moves with the physical tiles: `from' l` is the old logical column of
what stands at logical column `l` now, and none for a spare that comes in. `LOCK` stays with the logical
page, since only a Plaza reset clears it (R339; log entry 98). -/
def moveRow (s : State) (die row n : Nat) (from' : Nat → Option Nat) : State :=
  let t0 := rowTile die row 0
  let inRow (k : Nat) : Bool := groupBit t0 ≤ k && k < groupBit (t0 + 30)
  let old := s
  let s : State := { s with
    regs := s.regs.filter (fun kv => !inRow kv.1)
    tiles := s.tiles.filter (fun kv => !(t0 ≤ kv.1 && kv.1 < t0 + 30))
    slices := s.slices.filter (fun kv => !(t0 ≤ kv.1 && kv.1 < t0 + 30)) }
  let lock (s : State) (l : Nat) : State :=
    [tileP (t0 + l), sliceP (t0 + l), engineP (t0 + l), moverP (t0 + l)].foldl (fun s p =>
      wr s p HDR_LOCK (rd old p HDR_LOCK)) s
  let s := (List.range n).foldl (fun s l =>
    match from' l with
    | none => s
    | some m =>
      let a := groupBit (t0 + m)
      let b := groupBit (t0 + l)
      let mine := old.regs.filter (fun kv => a ≤ kv.1 && kv.1 < a + groupLen)
      let s : State := { s with
        regs := mine.foldl (fun r kv => SMap.put r (kv.1 - a + b) kv.2) s.regs }
      let s := match SMap.find old.tiles (t0 + m) with
        | some t => setTile s (t0 + l) t
        | none => s
      match SMap.find old.slices (t0 + m) with
      | some x => setSlice s (t0 + l) x
      | none => s) s
  (List.range 30).foldl lock s

/-- A RESPARE of a row comes about with the columns `bad` counted bad. -/
def respareRow (s : State) (die row : Nat) (bad : List Nat) : State :=
  let i := 16 * die + row
  let n := rowTiles s die row
  let before := goodCols s die row
  let s := wr s bistP BIST_LATE_BAD (bad.foldl setBit (rd s bistP BIST_LATE_BAD i)) i
  let after := goodCols s die row
  let s := moveRow s die row n (fun l => (before.take n).idxOf? (after.getD l 32))
  let s := (List.range n).foldl (fun s l => unwriteSlice s (rowTile die row l)) s
  let s := emptyNaming s (fun t => rowTile die row 0 ≤ t && t < rowTile die row 30)
  let old := s.dawn.digest
  let s := setDigest s
  deliver (if s.dawn.digest = old then s else raise s dawnP 8)

/-- A running RESPARE ends: OK with the row spared again, or RESPARE_NONE with nothing changed. -/
def respareEnd (s : State) (d : Nat) (j : Job) (fails : Nat) : State :=
  match j.work with
  | .respare die row =>
    match respareBad s die row fails with
    | none => finishJob s d j stRespareNone 0
    | some bad => finishJob (respareRow s die row bad) d j stOk 0
  | _ => s

end Sys2Proof.Machine
end

