-- ==== Sys2Proof/Machine/DawnOps.lean ====
section
/-!
DEFINITION. Machine/DawnOps.lean: what Dawn is made of: the Plaza's reset (R11, R335), the fuses as
read (R320, R326), the firmware bundle and the Dawn record (R304 to R311), the results log and soft
repair (R313, R314), and the end of a stage (R300, R303).
-/
namespace Sys2Proof.Machine

/-! ### Fuses as read -/

/-- The life-cycle state of a copy: the highest state whose fuse is blown. -/
def stateOf (x : Nat) : Nat :=
  if bitOf x 3 then 4 else if bitOf x 2 then 3 else if bitOf x 1 then 2 else if bitOf x 0 then 1 else 0

/-- `LC_STATE`: 0 BLANK, 1 MANUFACTURE, 2 FIELD, 3 RETURN, 4 SCRAP. -/
def lcState (s : State) : Nat := stateOf (maj3 s.sensed.c0.state s.sensed.c1.state s.sensed.c2.state)
def fuseVariant (s : State) : Nat := maj3 s.sensed.c0.variant s.sensed.c1.variant s.sensed.c2.variant
/-- The power limit in W, and the ceiling of the operating point. -/
def fuseLimit (s : State) : Nat := bitsOf (fuseVariant s) 7 16
def fuseMaxOp (s : State) : Nat := bitsOf (fuseVariant s) 4 3
/-- The key digests, word i at bits [32i+31:32i]; and as the SM3 digest they stand for. -/
def fuseFwKey (s : State) : Nat := maj3 s.sensed.c0.fwKey s.sensed.c1.fwKey s.sensed.c2.fwKey
def fuseSvcKey (s : State) : Nat := maj3 s.sensed.c0.svcKey s.sensed.c1.svcKey s.sensed.c2.svcKey
def asDigest (words : Nat) : Nat := beNat (leBytes 32 words)
/-- The SM3 digest of the serial number, and its first 8 bytes, the serial tag. -/
def serialDigest (s : State) : Nat := sm3 (leBytes 8 (pkgSerial s))
def serialTag (s : State) : Nat := leAt (digestBytes (serialDigest s)) 0 8

/-- The identity fields of a copy: serial, seed, keys, VARIANT, MAX_OP, LIMIT_W and state. -/
def FuseCopy.identity (c : FuseCopy) : List Nat :=
  [c.serial, c.seed, c.fwKey, c.svcKey, bitsOf c.variant 0 4, bitsOf c.variant 4 3,
    bitsOf c.variant 7 16, c.state]

/-- Fields whose copies do not all agree, and fields without a majority. -/
def fuseDisagree (f : Fuses) : Nat :=
  ((List.range 8).filter (fun i =>
    let a := f.c0.identity.getD i 0
    let b := f.c1.identity.getD i 0
    let c := f.c2.identity.getD i 0
    !(a == b && b == c))).length
def fuseNoMajority (f : Fuses) : Bool :=
  (List.range 8).any (fun i =>
    let a := f.c0.identity.getD i 0
    let b := f.c1.identity.getD i 0
    let c := f.c2.identity.getD i 0
    a != b && b != c && a != c)

/-- The identity private key (R326). The seed's bytes are taken most significant first (DESIGN CHOICE,
log entry 25). -/
def identityKey (s : State) : Nat :=
  sm2Kdf (beBytes 32 (maj3 s.sensed.c0.seed s.sensed.c1.seed s.sensed.c2.seed) ++ idId) 320
    % (sm2n - 1) + 1

/-- `CHALLENGE` takes a fresh random value (R323). -/
def freshChallenge (s : State) : State :=
  (List.range 8).foldl (fun s i =>
    let r := freeWord s
    wr r.2 secP SEC_CHALLENGE r.1.toNat i) s

/-! ### The Plaza's reset (R11, R335) -/

/-- The bits of the Midnight latch and of what it names. -/
def latchBit (k : Nat) : Bool := 0x6154 ≤ k / 8 && k / 8 < 0x6158

/-- Register bits of the always-on domain that a Plaza reset keeps: Dusk's round count, the Midnight
latch, what Dusk has measured, and the accepted level of THROTTLE_N (R353; DEDUCED, log entry 26). -/
def keptByReset (k : Nat) : Bool :=
  let o := k / 8
  k == 8 * 0x5108 + 1 || latchBit k || (0x1100 ≤ o && o < 0x1108) || (0x1120 ≤ o && o < 0x112C)
    || (0x6200 ≤ o && o < 0x6280) || (0x6400 ≤ o && o < 0x68E0)

/-- What Dusk keeps of a domain: the level that its regulator holds. -/
def keptDom (x : Dom) : Dom := { vrSet := x.vrSet }

/-- The package after a reset of the Plaza: nothing is kept but fuses, the always-on domain with its SMBus
port, the levels of pins, and the commands that wait. The rails count as good while no round has found one out
of range. -/
def plazaReset (s : State) : State :=
  let u := s.dusk
  { State.reset with
    pending := s.pending
    sent := s.sent
    fresh := s.fresh
    regs := s.regs.filter (fun kv => keptByReset kv.1)
    latches := s.latches.filter (fun kv => kv.1 % 8 == 4)
    smbOffset := s.smbOffset
    fuses := s.fuses
    sensed := s.fuses
    dawn := { aon := s.dawn.aon, pwrgood := s.dawn.pwrgood, perst := s.dawn.perst,
              railsGood := s.dawn.railsGood && u.inRange ≥ 2, ownerSel := s.dawn.ownerSel }
    dusk := { us := u.us, step := u.step, low := u.low, ok := u.ok, high := u.high, oor := u.oor,
              railsIn := u.railsIn, inRange := u.inRange, raw := u.raw,
              dom := u.dom.map (fun kv => (kv.1, keptDom kv.2)) } }

/-! ### Halting, and the end of a stage (R300, R303) -/

def stage (s : State) : Nat := rd s dawnP DAWN_STAGE
def dawnHalted (s : State) : Bool := rd s dawnP DAWN_HALTED == 1

/-- Dawn is in a stage, not halted. -/
def inStage (s : State) (k : Nat) : Bool := plazaUp s && stage s == k && !dawnHalted s

def haltDawn (s : State) (code : Nat) : State :=
  raise (lastErr (wr (wr s dawnP DAWN_HALTED 1) dawnP DAWN_HALT_CODE code) dawnP 3) dawnP 3

/-- The time a stage has taken is a free value. -/
def stageTime (s : State) (k : Nat) : State :=
  let r := freeNat s
  wr r.2 dawnP DAWN_STAGE_US r.1 k

/-- The stage after `k` begins. -/
def nextStage (s : State) (k : Nat) : State :=
  let s := wr (stageTime s k) dawnP DAWN_STAGE (k + 1)
  { s with dawn := { s.dawn with waves := 0 } }

/-- The dies that take part. -/
def upDies (s : State) : List Nat := (List.range 4).filter (dieUp s)
def upOes (s : State) : List Nat := (List.range 4).filter (oeUp s)

/-- The far side of a link group takes part. -/
def groupUp (s : State) (g : Nat) : Bool := if g < 4 then dieUp s g else oeUp s (g - 4)

/-- The present stage ends where what it waits for has come about, and Dawn halts where no compute
die remains. -/
def dawnAdvance (s : State) : State :=
  let k := stage s
  if !plazaUp s || dawnHalted s then s
  else if k = 3 then
    if s.dawn.nextDie < 4 then s
    else if (upDies s).isEmpty then haltDawn s 0x13
    else nextStage { s with dawn := { s.dawn with released := s.dawn.released ||| 0xF0 } } 3
  else if k < 4 || k > 8 then s
  else if (upDies s).isEmpty then haltDawn s 0x13
  else if k = 4 then
    if (List.range 8).all (fun g => bitOf s.dawn.groups g || !groupUp s g) then nextStage s 4 else s
  else if k = 5 then
    if (upDies s).all (fun d => bitOf s.dawn.ports d) then nextStage s 5 else s
  else s

/-- Stage 1: the fuses are sensed, the identity is derived, and stage 2 begins. -/
def stageOne (s : State) : State :=
  let f := s.fuses
  let s : State := { s with sensed := f }
  let s := wr (stageTime s 0) dawnP DAWN_STAGE 1
  let n := fuseDisagree f
  let s := if n = 0 then s else lastErr (bump s fuseP HDR_ERR_CORR_COUNT n) fuseP 1
  if fuseNoMajority f then haltDawn (lastErr (wr s fuseP FUSE_SENSE_FAIL 1) fuseP 2) 0x11
  else
    let s := wr s fuseP FUSE_SENSED 1
    let t := serialTag s
    let s := wr (wr s fuseP FUSE_SERIAL_TAG_LO t) fuseP FUSE_SERIAL_TAG_HI (t / 2 ^ 32)
    let s := (List.range 4).foldl (fun s p => wr s (hostportP p) HOSTPORT_OWNER_SEL (ownerPort s) p) s
    let s := wr s pwrP PWR_PWR_CAP_W (fuseLimit s)
    let s := (List.range 4).foldl (fun s d => wr s pwrP PWR_OP_TARGET (fuseMaxOp s) d) s
    if lcState s = 4 then haltDawn s 0x12
    else
      let s := freshChallenge s
      let s : State := if lcState s = 0 then s
        else wr { s with sec := { s.sec with key := some (identityKey s) } } secP SEC_ID_READY 1
      nextStage s 1

/-- The Plaza leaves reset once PWRGOOD is high and every rail is good. -/
def leaveReset (s : State) : State :=
  if plazaUp s && s.dawn.railsGood && stage s = 0 && !dawnHalted s then stageOne s else s

/-! ### The firmware bundle (R304, R305, R328) -/

/-- Check 2 of R304 on the bytes of a bundle. -/
def bundleFormOk (b : List Byte) (size : Nat) : Bool :=
  size ≤ 2 ^ 24 && size ≥ 128 && leAt b 8 4 == size && b.take 4 == ascii [0x57, 0x58, 0x46, 0x42]
    && leAt b 4 2 == 128 && leAt b 6 2 == 0 && leAt b 0x18 8 == 0
    && ((b.drop 0x40).take 64).all (fun x => x == 0)

/-- Check 3: the digest and the signature. -/
def bundleSigned (s : State) (b : List Byte) : Bool :=
  let off := leAt b 0x10 4
  let len := leAt b 0x14 4
  let dig := sm3 (zeroBytes (zeroBytes b 0x20 32) off len)
  len == 136 && off + len ≤ b.length && digestBytes dig == (b.drop 0x20).take 32
    && sigOk ((b.drop off).take len) (asDigest (fuseFwKey s)) idFw (digestBytes dig)

/-- Check 4: the highest version of 1.0 to 1.2 in the bundle's range. -/
def bundleVersion (b : List Byte) : Option Nat :=
  [0x102, 0x101, 0x100].find? (fun v => leAt b 0x0C 2 ≤ v && v ≤ leAt b 0x0E 2)

/-- `FW_REJECT` of a bundle, or 0. `got` is what host memory returned. -/
def bundleReject (s : State) (got : List Byte) : Nat :=
  let size := rd s dawnP DAWN_FW_SIZE
  let b := got.take size
  if b.length < size then 5
  else if !bundleFormOk b size then 1
  else if lcState s ≠ 0 && !bundleSigned s b then 2
  else if (bundleVersion b).isNone then 3
  else 0

/-- Host memory refused a DMA of Dawn: 1 bundle, 2 record in, 3 record out. -/
def dawnDma (s : State) (a which : Nat) : State :=
  let s := hostRefused s (ownerPort s)
  wr (wr (wr s dawnP HDR_ERR_ADDR_LO (a % 2 ^ 32)) dawnP HDR_ERR_ADDR_HI (a / 2 ^ 32 % 2 ^ 32))
    dawnP HDR_ERR_SYNDROME which

/-! ### The Dawn record (R306 to R310) -/

/-- One entry of a record's section table. -/
structure Section where
  type : Nat
  inst : Nat
  off : Nat
  len : Nat
  spare : Nat
  deriving DecidableEq, Repr

def readSection (b : List Byte) (i : Nat) : Section :=
  let o := 128 + 16 * i
  ⟨leAt b o 2, leAt b (o + 2) 2, leAt b (o + 4) 4, leAt b (o + 8) 4, leAt b (o + 12) 4⟩

def recCount (b : List Byte) : Nat := leAt b 0x0C 2
def recSections (b : List Byte) : List Section := (List.range (recCount b)).map (readSection b)

/-- The digest of a record (R306). -/
def recordDigest (s : State) (b : List Byte) : Nat :=
  sm3 (digestBytes (serialDigest s) ++ zeroBytes b 0x40 32)

/-- `REC_REJECT` of a record, or 0 (R309). -/
def recordReject (s : State) (got : List Byte) : Nat :=
  let size := rd s dawnP DAWN_REC_SIZE
  let b := got.take size
  if size > 2 ^ 20 then 1
  else if b.length < size then 5
  else if !(size ≥ 128 && b.take 4 == ascii [0x57, 0x58, 0x44, 0x52] && leAt b 6 2 == 128
      && leAt b 8 4 == size && recCount b ≤ 64 && 128 + 16 * recCount b ≤ size
      && (recSections b).all (fun x => x.off + x.len ≤ size)) then 1
  else if leAt b 4 2 / 256 ≠ 1 then 2
  else if leAt b 0x10 8 ≠ serialTag s then 3
  else if digestBytes (recordDigest s b) ≠ (b.drop 0x40).take 32 then 4
  else 0

/-- The entries of a section, `w` bytes each. -/
def sectionEntries (b : List Byte) (x : Section) (w : Nat) : List Nat :=
  (List.range (x.len / w)).map (fun i => leAt b (x.off + w * i) w)

/-- A section that is ignored whole (R309). -/
def sectionIgnored (b : List Byte) (fwIf : Nat) (x : Section) : Bool :=
  let lim := if x.type = 1 then 8 else if x.type = 0x0A then 1 else 4
  x.type = 0 || x.type > 0x0A || x.inst ≥ lim || x.spare ≠ 0
    || (x.type ≤ 7 && leAt b 0x0E 2 / 256 ≠ fwIf / 256)
    || (x.type = 6 && (sectionEntries b x 1).any (fun e => bitsOf e 4 3 ≠ 0))
    || (x.type = 8 && (x.len % 4 ≠ 0 || (sectionEntries b x 4).any (fun e =>
        bitsOf e 9 4 ≥ 12 || e / 2 ^ 28 ≠ 0)))
    || (x.type = 9 && (x.len % 4 ≠ 0 || (sectionEntries b x 4).any (fun e =>
        bitsOf e 9 5 ≥ 26 || e / 2 ^ 24 ≠ 0)))
    || (x.type = 0x0A && (x.len % 2 ≠ 0 || (sectionEntries b x 2).any (fun e => e / 2 ^ 11 ≠ 0)))

/-- The sections of the accepted record of a type that are not ignored. -/
def keptSections (s : State) (type : Nat) : List Section :=
  match s.dawn.record with
  | none => []
  | some b => ((recSections b).zipIdx.filter (fun x =>
      x.1.type == type && !s.dawn.ignored.contains x.2)).map Prod.fst

/-- The entries of the kept sections of a type and instance. -/
def recordEntries (s : State) (type inst w : Nat) : List Nat :=
  match s.dawn.record with
  | none => []
  | some b => ((keptSections s type).filter (fun x => x.inst == inst)).flatMap
      (fun x => sectionEntries b x w)

/-- A supplied record is checked and kept, or rejected (R309). -/
def takeRecord (s : State) (got : List Byte) : State :=
  let size := rd s dawnP DAWN_REC_SIZE
  if size = 0 then s
  else
    let e := recordReject s got
    if e ≠ 0 then
      let s := if e = 5 then
          dawnDma s (rd s dawnP DAWN_REC_ADDR_LO + 2 ^ 32 * rd s dawnP DAWN_REC_ADDR_HI + got.length) 2
        else s
      raise (lastErr (wr (wr s dawnP DAWN_REC_STATUS 2) dawnP DAWN_REC_REJECT e) dawnP 2) dawnP 7
    else
      let b := got.take size
      let v := rd s dawnP DAWN_FW_IF_VER
      let ig := ((recSections b).zipIdx.filter (fun x => sectionIgnored b v x.1)).map Prod.snd
      let s : State := { s with
        dawn := { s.dawn with record := some b, ignored := ig }
        sec := { s.sec with recDigest := recordDigest s b } }
      wr (wr s dawnP DAWN_REC_STATUS (if ig.isEmpty then 1 else 3)) dawnP DAWN_SECTIONS_IGNORED
        (min 255 ig.length)

/-- A component of kind `k`, of instance `inst`, ends its training: restored where the record holds
it and its test passes, else trained in full (R308). One section instance is one component
(DESIGN CHOICE, log entry 27). -/
def trained (s : State) (k inst : Nat) (ok : Bool) : State :=
  if ok && (keptSections s (k + 1)).any (fun x => x.inst == inst) then
    bump s dawnP DAWN_DAWN_RESTORED 1 k
  else bump s dawnP DAWN_DAWN_RETRAINED 1 k

/-! ### The results log (R314) -/

/-- A failure that BIST finds. `loc` is word 1, `count` word 2 and `us` word 3. -/
def logBist (s : State) (die row col kind : Nat) (repaired : Bool) (loc count us : Nat) : State :=
  let fb := ofBool (bitOf (fuseBad s die row) col)
  let w0 := die + 4 * row + 2 ^ 6 * col + 2 ^ 11 * kind + 2 ^ 15 * ofBool repaired + 2 ^ 16 * fb
  let n := rd s bistP BIST_LOG_COUNT
  if n ≥ 4096 then raise (lastErr (bump s bistP BIST_LOG_LOST) bistP 4) bistP 3
  else
    let s : State := { s with dawn := { s.dawn with log := (w0, loc, count, us) :: s.dawn.log } }
    let s := wr s bistP BIST_LOG_COUNT (n + 1)
    wr (wr (wr s bistP HDR_ERR_ADDR_LO w0) bistP HDR_ERR_ADDR_HI loc) bistP HDR_ERR_SYNDROME count

/-- BIST counts a physical tile bad. -/
def bistBad (s : State) (die row col : Nat) : State :=
  let i := 16 * die + row
  wr s bistP BIST_BIST_BAD (setBit (rd s bistP BIST_BIST_BAD i) col) i

/-- A unit is beyond repair. -/
def beyondRepair (s : State) (die row col : Nat) : State :=
  raise (lastErr (bistBad s die row col) bistP 2) bistP 1

/-! ### Soft repair (R313) -/

/-- The key of a bank: DRAM by layer and bank, SRAM by bank. -/
def bankKey (kind die row col bank : Nat) : Nat :=
  (((kind * 4 + die) * 16 + row) * 32 + col) * 64 + bank

/-- Spares of a bank: 64 rows of DRAM, 4 lines of SRAM. -/
def bankSpares (kind : Nat) : Nat := if kind = 8 then 64 else 4

/-- A row or line is remapped to the next spare of its bank, if one is free; the repair takes the place of
one whose spare has failed. -/
def useSpare (s : State) (kind die entry : Nat) : Option State :=
  let row := bitsOf entry 0 4
  let col := bitsOf entry 4 5
  let bank := if kind = 8 then bitsOf entry 9 6 else bitsOf entry 9 5
  let k := bankKey kind die row col bank
  let n := SMap.getD s.dawn.spares k 0
  if n ≥ bankSpares kind then none
  else
    let s : State := { s with dawn := { s.dawn with
      spares := SMap.put s.dawn.spares k (n + 1)
      repairs := s.dawn.repairs.filter (fun r => r != ⟨kind, die, entry⟩) ++ [⟨kind, die, entry⟩] } }
    let s := bump s bistP (if kind = 8 then BIST_REPAIRS_DRAM else BIST_REPAIRS_SRAM)
    some (bump s bistP HDR_ERR_CORR_COUNT)

/-- A record's repairs of a die are applied before the test of their stage. -/
def recordRepairs (s : State) (kind die : Nat) : State :=
  (recordEntries s kind die 4).foldl (fun s e =>
    match useSpare s kind die e with
    | some t => t
    | none => beyondRepair s die (bitsOf e 0 4) (bitsOf e 4 5)) s

/-! ### Emission (R311) -/

/-- The bad-tile entries of a record that is emitted. -/
def badEntries (s : State) : List Nat :=
  (List.range 64).flatMap (fun i =>
    let die := i / 16
    let row := i % 16
    let late := rd s bistP BIST_RECORD_BAD i ||| rd s bistP BIST_LATE_BAD i
    ((List.range 32).filter (fun c =>
      bitOf late c || s.dawn.fenced.contains (die * 512 + row * 32 + c))).map
        (fun c => die + 4 * row + 2 ^ 6 * c))

/-- The Alley allocation of the engines, in the `TARGET` format of the `CROSSING` page (R307). -/
def allocSections (s : State) : List (Nat × Nat × List Byte) :=
  (upOes s).map (fun e =>
    (6, e, (List.range 8).flatMap (fun w => leBytes 1 (rd s (crossingP e) CROSSING_CURRENT w))))

/-- The phase tables of the engines: an entry of 64 bits for each cell, its codes for bar and then those for
cross, each pair laid out as in the `CROSSING` page (DESIGN CHOICE, log entry 144). -/
def phaseSections (s : State) : List (Nat × Nat × List Byte) :=
  (upOes s).filterMap (fun e =>
    let c := (crossing s e).cal
    if c.isEmpty then none
    else some (4, e, (List.range 768).flatMap (fun k => leBytes 2 (SMap.getD c k 0))))

/-- The sections of a record that is emitted. `trained` are the training sections whose values the firmware
alone holds (log entry 27); the phase tables and the Alley allocation are the present ones. -/
def emitSections (s : State) (trained : List (Nat × Nat × List Byte)) :
    List (Nat × Nat × List Byte) :=
  let reps (kind die : Nat) : List Byte :=
    ((s.dawn.repairs.filter (fun r => r.kind == kind && r.die == die)).map Repair.entry).flatMap (leBytes 4)
  let rep (kind : Nat) : List (Nat × Nat × List Byte) :=
    ((List.range 4).map (fun d => (kind, d, reps kind d))).filter (fun x => !x.2.2.isEmpty)
  let bad := (badEntries s).flatMap (leBytes 2)
  trained ++ phaseSections s ++ allocSections s ++ rep 8 ++ rep 9
    ++ (if bad.isEmpty then [] else [(0x0A, 0, bad)])

/-- The bytes of a new record. -/
def emitRecord (s : State) (trained : List (Nat × Nat × List Byte)) : List Byte :=
  let xs := emitSections s trained
  let base := 128 + 16 * xs.length
  let offs := (xs.foldl (fun (r : List Nat × Nat) x => (r.1 ++ [r.2], r.2 + x.2.2.length)) ([], base)).1
  let table := (xs.zip offs).flatMap (fun x =>
    leBytes 2 x.1.1 ++ leBytes 2 x.1.2.1 ++ leBytes 4 x.2 ++ leBytes 4 x.1.2.2.length ++ leBytes 4 0)
  let body := table ++ xs.flatMap (fun x => x.2.2)
  let head (dig : List Byte) : List Byte :=
    ascii [0x57, 0x58, 0x44, 0x52] ++ leBytes 2 0x100 ++ leBytes 2 128 ++ leBytes 4 (128 + body.length)
      ++ leBytes 2 xs.length ++ leBytes 2 (rd s dawnP DAWN_FW_IF_VER) ++ leBytes 8 (serialTag s)
      ++ List.replicate 8 0 ++ digestBytes s.dawn.digest ++ dig ++ List.replicate 32 0
  let zero := head (List.replicate 32 0) ++ body
  head (digestBytes (recordDigest s zero)) ++ body

/-- An emission begins: with `OUT_ADDR` set and the owning port trained; one in progress is kept. -/
def beginEmit (s : State) (trained : List (Nat × Nat × List Byte)) : State :=
  if s.dawn.emit.isSome
      || (rd s dawnP DAWN_OUT_ADDR_LO == 0 && rd s dawnP DAWN_OUT_ADDR_HI == 0)
      || !portUp s (ownerPort s) then s
  else { s with dawn := { s.dawn with emit := some (emitRecord s trained) } }

/-- An emission fails. -/
def emitFailed (s : State) : State := raise (lastErr s dawnP 4) dawnP 7

/-- The emission in progress ends: host memory accepts `takes` bytes. A record above the 1 MiB of R306
is not written either (DEDUCED, log entry 182). -/
def endEmit (s : State) (takes : Nat) : State :=
  match s.dawn.emit with
  | none => s
  | some b =>
    let s : State := { s with dawn := { s.dawn with emit := none } }
    let a := rd s dawnP DAWN_OUT_ADDR_LO + 2 ^ 32 * rd s dawnP DAWN_OUT_ADDR_HI
    let p := ownerPort s
    if b.length > min (2 ^ 20) (rd s dawnP DAWN_OUT_MAX) then emitFailed (wr s dawnP DAWN_REC_REJECT 6)
    else
      let got := b.take takes
      let s := bytesOut (if got.isEmpty then s else emit s (.hostWrite p a got)) p got.length
      if got.length < b.length then emitFailed (dawnDma s (a + got.length) 3)
      else raise (wr s dawnP DAWN_OUT_SIZE b.length) dawnP 6

end Sys2Proof.Machine
end

