-- ==== Sys2Proof/Machine/D2D.lean ====
section
/-!
DEFINITION. Machine/D2D.lean: the die-to-die link groups in service (R17 to R19), and the loss of a
compute die or of an optical engine (R20, R21).
-/
namespace Sys2Proof.Machine

/-! ### Modules -/

/-- The usable-module minimum of a link group. -/
def groupMin (g : Nat) : Nat := if g < 4 then 16 else 6

/-- Usable modules (R19): once the group has trained, those that are not disabled. -/
def usableModules (s : State) (g : Nat) : Nat :=
  if bitOf s.dawn.groups g then
    ((List.range (groupModules g)).filter (fun m => modState s g m != 2)).length
  else 0

/-- Whether a group is trained, its far side is not fenced, and its block is not OFF (R297; DESIGN CHOICE, log
entry 52). -/
def groupRuns (s : State) (g : Nat) : Bool :=
  plazaUp s && groupUp s g && bitOf s.dawn.groups g && rd s (d2dP g) HDR_STATE != 0

/-- The far side of a group is fenced, with a cause of the `CDIE` page. -/
def fenceGroup (s : State) (g cause : Nat) : State :=
  let s := wr s (d2dP g) D2D_RATE 0
  dawnAdvance (if g < 4 then fenceDie s g cause else fenceOe s (g - 4) 6)

/-- The usable count is checked after a change (R19). -/
def checkUsable (s : State) (g : Nat) : State :=
  let p := d2dP g
  if usableModules s g < groupMin g && rd s p D2D_BELOW_MIN == 0 then
    let s := raise (lastErr (wr s p D2D_BELOW_MIN 1) p 6) p 3
    fenceGroup s g 3
  else s

/-- What the flows of a module that has come back, or that are at other modules now, had waiting goes on. -/
def flowsGoOn (s : State) : State := collPumpAll (postsGoOn (pollLaunches (pollHost s))) []

/-- A module is disabled. The flows that were assigned to it are hashed again over the modules that
remain (R17). What it had not delivered stands at the head of each flow's queue and goes first, over
the new module, so that nothing is lost and nothing newer overtakes it. -/
def disableModule (s : State) (g m : Nat) : State :=
  let p := d2dP g
  let s := rehash (wr s p D2D_STATE 2 m) g m
  flowsGoOn (checkUsable (raise (lastErr s p 2) p 2) g)

/-! ### Rows -/

/-- The flit of a CRC error is replayed (R18). -/
def d2dReplay (s : State) (g m : Nat) : State :=
  bump (bump s (d2dP g) HDR_ERR_RETRY_COUNT) (d2dP g) D2D_CRC_REPLAYS 1 m

/-- The next transfer over a module has bits of its bytes changed, and nothing finds it (R289; DESIGN CHOICE, log
entry 126). -/
def d2dUnseen (s : State) (g m : Nat) (flips : List (Nat × Nat)) : State :=
  { s with dawn := { s.dawn with flips := SMap.put s.dawn.flips (32 * g + m) flips } }

/-- `D2D_FLIT_CRC_ERROR` (R18): the error is found and the flit replayed, or it passes the CRC-32 (R289). -/
def execD2dFlitCrcError (g : GroupId) (m : Fin 24) (flips : List (Nat × Nat)) (s : State) :
    Host.Outcome State Fault Refusal :=
  .next (if groupRuns s g && m.val < groupModules g && modState s g m != 2 then
    (if flips.isEmpty then d2dReplay s g m else d2dUnseen s g m flips) else s)

/-- A lane of a module fails in direction `dir` (0 from the Plaza, 1 to it). `halfFree` says whether
a half of the module is free of failed lanes. A module at x32 is disabled by any failed lane, since
it never returns to x64 (DEDUCED, log entry 28). -/
def laneFail (s : State) (g m dir lane : Nat) (halfFree : Bool) : State :=
  let p := d2dP g
  let s := lastErr (wr s p HDR_ERR_ADDR_LO (m + 2 ^ 8 * lane + 2 ^ 15 * dir)) p 1
  let f := if dir = 0 then D2D_REPAIR_TX_USED else D2D_REPAIR_RX_USED
  let used := rd s p f m
  if modHalf s g m then disableModule s g m
  else if used < 4 then
    raise (bump (wr (wr s p f (used + 1) m) p D2D_STATE 3 m) p HDR_ERR_CORR_COUNT) p 0
  else if halfFree then
    let s : State := { s with dawn := { s.dawn with half := SMap.put s.dawn.half (32 * g + m) 1 } }
    raise (wr s p D2D_STATE 3 m) p 1
  else disableModule s g m

/-- `D2D_LANE_FAIL` (R18). -/
def execD2dLaneFail (g : GroupId) (m : Fin 24) (dir : Bool) (lane : Fin 68) (halfFree : Bool)
    (s : State) : Host.Outcome State Fault Refusal :=
  .next (if groupRuns s g && m.val < groupModules g && modState s g m != 2 then
    laneFail s g m (ofBool dir) lane halfFree else s)

/-- `D2D_MODULE_RETRAINED` (R18, R19): the module returns, or its retraining fails. -/
def execD2dModuleRetrained (g : GroupId) (m : Fin 24) (ok : Bool) (s : State) :
    Host.Outcome State Fault Refusal :=
  .next (if groupRuns s g && m.val < groupModules g && modState s g m == 3 then
      if ok then flowsGoOn (wr s (d2dP g) D2D_STATE (ofBool (modHalf s g m)) m) else disableModule s g m
    else s)

/-! ### Losing a die or an engine (R20, R21) -/

/-- The watchdog finds the far side of a group lost: the group's last-error code, and the cause. -/
def farSideLost (s : State) (g code cause : Nat) : State :=
  let p := d2dP g
  fenceGroup (raise (lastErr s p code) p 4) g cause

/-- A released compute die that is not fenced is lost. -/
def dieLost (s : State) (d code cause : Nat) : State :=
  if plazaUp s && dieUp s d then farSideLost s d code cause else s

/-- `DIE_HEARTBEAT_LOST`: 8 consecutive heartbeats are missed. -/
def execDieHeartbeatLost (d : DieId) (s : State) : Host.Outcome State Fault Refusal :=
  .next (if plazaUp s && dieUp s d then dieLost (wr s (d2dP d) D2D_HB_MISSED 8) d 3 1 else s)

/-- `DIE_RESET_SIGNALLED`. -/
def execDieResetSignalled (d : DieId) (s : State) : Host.Outcome State Fault Refusal :=
  .next (dieLost s d 4 2)

/-- `DIE_CLOCK_LOSS`. -/
def execDieClockLoss (d : DieId) (s : State) : Host.Outcome State Fault Refusal :=
  .next (dieLost s d 7 5)

/-- `OE_HEARTBEAT_LOST`: an optical engine is watched the same way; `why` is 0 missed heartbeats,
1 its reset signalled, 2 its clock lost. -/
def execOeHeartbeatLost (e : OeId) (why : Fin 3) (s : State) : Host.Outcome State Fault Refusal :=
  .next (if plazaUp s && oeUp s e then
      let s := if why.val = 0 then wr s (d2dP (4 + e)) D2D_HB_MISSED 8 else s
      farSideLost s (4 + e) ([3, 4, 7].getD why 3) 0
    else s)

end Sys2Proof.Machine
end

