-- ==== Sys2Proof/Machine/CommandOps.lean ====
section
/-!
DEFINITION. Machine/CommandOps.lean: the commands of the command ring: their entries (R251), when the
next may start (R247, R248, R250), what each does when it starts, and the indices that the host
writes (R249).
-/
namespace Sys2Proof.Machine

/-! ### Entries (R251) -/

/-- A command with its operands. -/
inductive Cmd where
  | nop
  /-- WRITE_MEM 1, READ_MEM 2 or FILL 3 -/
  | mem (op host dev len pattern : Nat)
  | load (host size slot : Nat)
  | launch (slot : Nat) (args : List Nat)
  | wait (event count timeout : Nat)
  | signal (tile counter : Nat)
  | coll (desc arg slot : Nat)
  | hint (cls lead dies : Nat)
  | respare (die row : Nat)
  | fence (tile : Nat)
  | other (op : Nat)
  deriving DecidableEq, Repr

/-- The opcode of a command. -/
def Cmd.op : Cmd → Nat
  | .nop => 0
  | .mem op _ _ _ _ => op
  | .load _ _ _ => 4
  | .launch _ _ => 5
  | .wait _ _ _ => 6
  | .signal _ _ => 7
  | .coll _ _ _ => 8
  | .hint _ _ _ => 9
  | .respare _ _ => 0x0A
  | .fence _ => 0x0B
  | .other op => op

/-- The bytes of an entry that hold operands. -/
def opBytes : Nat → List (Nat × Nat)
  | 1 => [(8, 8), (0x10, 8), (0x18, 8)]
  | 2 => [(8, 8), (0x10, 8), (0x18, 8)]
  | 3 => [(0x10, 8), (0x18, 8), (0x20, 8)]
  | 4 => [(8, 8), (0x10, 8), (0x18, 1)]
  | 5 => [(8, 1), (0x20, 32)]
  | 6 => [(8, 1), (0x0C, 4), (0x10, 4)]
  | 7 => [(8, 2), (0x0A, 1)]
  | 8 => [(8, 8), (0x10, 4), (0x14, 1)]
  | 9 => [(8, 1), (0x0A, 2), (0x0C, 1)]
  | 0x0A => [(8, 1), (9, 1)]
  | 0x0B => [(8, 2)]
  | _ => []

/-- Every reserved byte and bit of an entry is zero. -/
def reservedZero (b : List Byte) : Bool :=
  let used := [(0, 2), (4, 4)] ++ opBytes (leAt b 0 1)
  leAt b 1 1 < 4 && (List.range 64).all (fun i =>
    used.any (fun u => u.1 ≤ i && i < u.1 + u.2) || leAt b i 1 == 0)

/-- The operands of an entry. -/
def readCmd (b : List Byte) : Cmd :=
  match leAt b 0 1 with
  | 0 => .nop
  | 1 => .mem 1 (leAt b 8 8) (leAt b 0x10 8) (leAt b 0x18 8) 0
  | 2 => .mem 2 (leAt b 8 8) (leAt b 0x10 8) (leAt b 0x18 8) 0
  | 3 => .mem 3 0 (leAt b 0x10 8) (leAt b 0x18 8) (leAt b 0x20 8)
  | 4 => .load (leAt b 8 8) (leAt b 0x10 8) (leAt b 0x18 1)
  | 5 => .launch (leAt b 8 1) ((List.range 8).map (fun i => leAt b (0x20 + 4 * i) 4))
  | 6 => .wait (leAt b 8 1) (leAt b 0x0C 4) (leAt b 0x10 4)
  | 7 => .signal (leAt b 8 2) (leAt b 0x0A 1)
  | 8 => .coll (leAt b 8 8) (leAt b 0x10 4) (leAt b 0x14 1)
  | 9 => .hint (leAt b 8 1) (leAt b 0x0A 2) (leAt b 0x0C 1)
  | 0x0A => .respare (leAt b 8 1) (leAt b 9 1)
  | 0x0B => .fence (leAt b 8 2)
  | n => .other n

/-- The header of an entry. -/
def readHdr (b : List Byte) : CmdHdr :=
  ⟨bitOf (leAt b 1 1) 0, bitOf (leAt b 1 1) 1, leAt b 4 4⟩

/-- A command's operands fit the fields of its entry; no entry spells any other. -/
def Cmd.fits : Cmd → Bool
  | .nop => true
  | .mem _ h a l p => h < 2 ^ 64 && a < 2 ^ 64 && l < 2 ^ 64 && p < 2 ^ 64
  | .load h z k => h < 2 ^ 64 && z < 2 ^ 64 && k < 256
  | .launch k xs => k < 256 && xs.length == 8 && xs.all (fun x => x < 2 ^ 32)
  | .wait e c t => e < 256 && c < 2 ^ 32 && t < 2 ^ 32
  | .signal t c => t < 2 ^ 16 && c < 256
  | .coll a x k => a < 2 ^ 64 && x < 2 ^ 32 && k < 256
  | .hint c l m => c < 256 && l < 2 ^ 16 && m < 256
  | .respare d r => d < 256 && r < 256
  | .fence t => t < 2 ^ 16
  | .other n => n < 256

/-- A command's opcode is one of the table's and its operands lie in their ranges (R251). -/
def Cmd.ranges : Cmd → Bool
  | .nop => true
  | .mem op _ a l _ => 1 ≤ l && l < 2 ^ 40 && (op != 3 || (a % 64 == 0 && l % 64 == 0))
  | .load _ _ k => k < 16
  | .launch k _ => k < 16
  | .wait _ _ _ => true
  | .signal _ c => c < 8
  | .coll _ _ k => k < 16
  | .hint c l m => c < 4 && l < 4096 && m < 16
  | .respare d r => d < 4 && r < 16
  | .fence _ => true
  | .other _ => false

/-! ### When the next command may start -/

/-- The tail of the command ring, and its head. -/
def cmdTail (s : State) (d : Nat) : Nat := (proc s d).tail
def cmdHead (s : State) (d : Nat) : Nat := rd s (cmdprocP d) CMDPROC_CMD_HEAD

/-- A WAIT_EVENT, RESPARE or FENCE that runs holds back every later command. -/
def holdsBack (s : State) (d : Nat) : Bool :=
  (proc s d).running.any (fun j => j.op == 6 || j.op == 0x0A || j.op == 0x0B)

/-- Memory commands and launches that run. -/
def memRunning (s : State) (d : Nat) : Nat :=
  ((proc s d).running.filter (fun j => 1 ≤ j.op && j.op ≤ 3)).length
def launchesRunning (s : State) (d : Nat) : Nat :=
  ((proc s d).running.filter (fun j => j.op == 5)).length

/-- The command processor of District `d` looks at its ring: it and the District are ON, awake, and the ring
holds a command that waits for no window write (R247). -/
def fetches (s : State) (d : Nat) : Bool :=
  plazaUp s && dawnOver s && awake s && portUp s d && rd s (cmdprocP d) HDR_STATE == 2
    && rd s (districtP d) HDR_STATE == 2 && !(proc s d).broken && cmdHead s d != cmdTail s d && !holdsBack s d
    && !hostWaits s d

/-- The completion ring has no free entry for a command to start with. -/
def cplStalled (s : State) (d : Nat) : Bool := !(proc s d).held.isEmpty || cplFull s d

/-- A command acts as a barrier (R250). -/
def isBarrier (h : CmdHdr) (c : Cmd) : Bool :=
  h.barrier || c.op == 6 || c.op == 0x0A || c.op == 0x0B

/-- A command finds a limit reached. -/
def atLimit (s : State) (d : Nat) (c : Cmd) : Bool :=
  (1 ≤ c.op && c.op ≤ 3 && memRunning s d ≥ 8) || (c.op == 5 && launchesRunning s d ≥ 16)

/-! ### What a command does when it starts -/

/-- A command is in progress. -/
def addJob (s : State) (d op : Nat) (h : CmdHdr) (w : Work) : State :=
  let x := proc s d
  setProc s d { x with running := x.running ++ [⟨x.nextSeq, op, h, w⟩], nextSeq := x.nextSeq + 1 }

/-- A tile of a launch whose slices are still returning to controller mode: it counts as running
(DEDUCED, log entry 137). -/
def aboutToRun (s : State) (n : Nat) : Bool :=
  (launchOf s n).any (fun x => match x.2.work with
    | .launch _ _ _ started _ => !started
    | _ => false)

/-- LAUNCH is refused with a status, or not (R116, R144, R257). Of several reasons ERR_BUSY comes first, then a
lost die, a fenced tile and IMG_YIELD (DESIGN CHOICE, log entry 195). -/
def launchRefusal (s : State) (d slot : Nat) : Option (Nat × Nat) :=
  match imageAt s d slot with
  | none => some (stImgNone, 0)
  | some im =>
    match im.tiles.find? (fun n => (tile s n).runState == 2 || aboutToRun s n) with
    | some n => some (errBusy, tileAddr n)
    | none => match im.tiles.find? (fun n => dieFenced s (tileDie n)) with
      | some n => some (errFenced, tileAddr n)
      | none =>
        match im.tiles.find? (fun n => tileFenced s n) with
        | some n => some (stTileFenced, n)
        | none => if im.yield ≠ s.dawn.digest then some (stImgYield, 0) else none

/-- The collective tags of an image. -/
def imageTags (im : Image) : List Nat := im.colls.map (fun b => (readCDesc b).tag)

/-- Whether a launch that runs has a tag in its image's collective table. -/
def tagRuns (s : State) (d tag : Nat) : Bool :=
  (proc s d).running.any (fun j => match j.work with
    | .launch _ im _ _ _ => (imageTags im).contains tag
    | _ => false)

/-- The instance counts of a District's collective tags begin again at LAUNCH (R230): those of the image, and
those that no other launch that runs has in its table (DEDUCED, log entry 186). -/
def clearCounts (s : State) (d : Nat) (im : Image) : State :=
  { s with collCounts := s.collCounts.filter (fun kv =>
      kv.1 / 2 ^ 16 != d || (tagRuns s d (kv.1 % 2 ^ 16) && !(imageTags im).contains (kv.1 % 2 ^ 16))) }

/-- LAUNCH starts: the slices are asked for controller mode, and the tiles start when all have it. -/
def launchStart (s : State) (d : Nat) (h : CmdHdr) (slot : Nat) (args : List Nat) : State :=
  match launchRefusal s d slot, imageAt s d slot with
  | some e, _ => complete (refuseAt s d e.2 e.1) d 5 h e.1 e.2
  | none, none => s
  | none, some im =>
    let s := dropPosts (clearCounts s d im) d (some slot)
    let s := pollHost (im.tiles.foldl engineRelaunch s)
    pollLaunches (addJob s d 5 h (.launch slot im args false []))

/-- The first error of R23 for a command that names a tile; `anyTile`: it may name any District's. -/
def tileNamed (s : State) (d n : Nat) (anyTile : Bool) : Nat :=
  if !tileExists s n then errUnmapped
  else if !anyTile && tileOwner s n ≠ d then errAccess
  else 0

/-- A command that names a tile completes with an error of R23, which `PKGSW` logs at the tile's SRAM
(R29; DESIGN CHOICE, log entry 147). -/
def namedRefused (s : State) (d op : Nat) (h : CmdHdr) (n e : Nat) : State :=
  complete (refuse s d (tileAddr (n % 2 ^ 11)) e) d op h e (n % 2 ^ 11)

/-- SIGNAL_EVENT (R254). -/
def signalStart (s : State) (d : Nat) (h : CmdHdr) (n c : Nat) : State :=
  let e := tileNamed s d n false
  if e ≠ 0 then namedRefused s d 7 h n e
  else if dieFenced s (tileDie n) || tileFenced s n then namedRefused s d 7 h n errFenced
  else
    let x := plazaNat s d n 1 c
    complete (setTile x.1 n ((tile s n).addEv (x.2 % 8) causeD2d)) d 7 h stOk 0

/-- FENCE (R256). -/
def fenceStart (s : State) (d : Nat) (h : CmdHdr) (n : Nat) : State :=
  let e := tileNamed s d n (d == ownerPort s)
  if e ≠ 0 then namedRefused s d 0x0B h n e
  else if dieFenced s (tileDie n) then namedRefused s d 0x0B h n errFenced
  else complete (fenceTile s n false false) d 0x0B h stOk 0

/-- PHASE_HINT (R251, R271): only dies that hold a quarter-die of the District. One of them that is lost makes
it complete ERR_FENCED, and it acts on none (R257); the address that fails is the SRAM window of the
District's first tile on that die (DESIGN CHOICE, log entry 147). -/
def hintStart (s : State) (d : Nat) (h : CmdHdr) (cls lead dies : Nat) : State :=
  let mine := (List.range 4).filter (fun k => bitOf dies k && bitsOf (qdieMask s d) (4 * k) 4 != 0)
  match mine.find? (dieFenced s) with
  | some k =>
    let a := tileAddr (120 * (4 * k + (bitList 4 (bitsOf (qdieMask s d) (4 * k) 4)).headD 0))
    complete (refuseAt s d a errFenced) d 9 h errFenced a
  | none => complete ((mine.filter (dieUp s)).foldl (fun s k => postHint s k cls lead) s) d 9 h stOk 0

/-- RESPARE (R255): refused, or in progress until its self-tests have ended. A row of a die that the
package has not mapped lies in no District: ERR_ACCESS (DEDUCED, log entry 148). The address that fails is
the SRAM window of the row's first tile (DESIGN CHOICE, log entry 147). -/
def respareStart (s : State) (d : Nat) (h : CmdHdr) (die row : Nat) : State :=
  let holder := qdieOwner s (4 * die + row / 4)
  let a := tileAddr (480 * die + 30 * row)
  let refused (e : Nat) : State := complete (refuseAt s d a e) d 0x0A h e a
  if (holder ≠ d && d ≠ ownerPort s) || !dieMapped s die then refused errAccess
  else if dieFenced s die then refused errFenced
  else if holder < 4 && !distIdle s holder then complete s d 0x0A h stNotIdle 0
  else addJob s d 0x0A h (.respare die row)

/-- COLLECTIVE (R251): its descriptor has been read from host memory, or not. One with a member on a lost
die completes ERR_FENCED (R257). -/
def collectiveStart (s : State) (d : Nat) (h : CmdHdr) (slot arg : Nat) (desc : Option (List Byte)) :
    State :=
  match desc, imageAt s d slot with
  | none, _ => complete (hostRefused s d) d 8 h stHostDma 0
  | some _, none => complete s d 8 h stImgNone 0
  | some b, some im =>
    let members := membersOf (readCDesc b) im.tiles
    let s := bytesIn s d b.length
    match members.find? (fun n => dieFenced s (tileDie n)) with
    | some n => complete (refuseAt s d (tileAddr n) errFenced) d 8 h errFenced (tileAddr n)
    | none =>
      let c : Coll := {
        key := s.nextColl
        dist := d
        desc := b
        slot := slot
        members := members
        job := some (proc s d).nextSeq
        arg := arg }
      addJob { s with nextColl := s.nextColl + 1, colls := s.colls ++ [c] } d 8 h (.coll c.key)

/-- A command starts. `desc` is what a COLLECTIVE reads as its descriptor. -/
def startCmd (s : State) (d : Nat) (h : CmdHdr) (c : Cmd) (desc : Option (List Byte)) : State :=
  if !c.ranges then complete s d c.op h stBadCmd 0
  else match c with
    | .nop => complete s d 0 h stOk 0
    | .mem op host dev len pattern => addJob s d op h (.dma host dev len pattern)
    | .load host size slot => addJob s d 4 h (.load host size slot)
    | .launch slot args => launchStart s d h slot args
    | .wait e n t => pollWaits (addJob s d 6 h (.waitEvt e n t)) d
    | .signal n k => signalStart s d h n k
    | .coll _ arg slot => collectiveStart s d h slot arg desc
    | .hint cls lead dies => hintStart s d h cls lead dies
    | .respare die row => respareStart s d h die row
    | .fence n => fenceStart s d h n
    | .other op => complete s d op h stBadCmd 0

/-- Something that the command processor does while host memory accepts, or refuses, completion
entries (R248). It goes on so for the entries that later commands without such an operand post
(DESIGN CHOICE, log entry 149). -/
def withRefuse (s : State) (d : Nat) (refused : Bool) (act : State → State) : State :=
  act (setProc s d { proc s d with refuse := refused })

/-- The next entry of the ring is taken. -/
def takeEntry (s : State) (d : Nat) : State :=
  wr (wr s (cmdprocP d) CMDPROC_BLOCKED 0) (cmdprocP d) CMDPROC_CMD_HEAD
    ((cmdHead s d + 1) % cmdEntries s d)

/-- A SIGNAL_EVENT, or a LAUNCH that is not refused, waits while the link group to one of its tiles holds the
flow (R18). -/
def signalHeld (s : State) (d : Nat) (c : Cmd) : Bool :=
  match c with
  | .signal n _ => tileNamed s d n false == 0 && plazaHeld s d n
  | .launch slot _ => (launchRefusal s d slot).isNone
    && (imageAt s d slot).any (fun im => im.tiles.any (plazaHeld s d))
  | _ => false

/-- The next command starts where it may (R250); a barrier that waits shows in `BLOCKED`. -/
def startNext (s : State) (d : Nat) (h : CmdHdr) (c : Cmd) (desc : Option (List Byte))
    (refused : Bool) : State :=
  if !fetches s d then s
  else if cplStalled s d then countStall s d
  else if atLimit s d c || signalHeld s d c then s
  else if isBarrier h c && !(proc s d).running.isEmpty then wr s (cmdprocP d) CMDPROC_BLOCKED 1
  else withRefuse (takeEntry s d) d refused (fun s => startCmd s d h c desc)

/-- The ring read fails: the block turns OFF with code 0x03 (R248). -/
def ringReadFailed (s : State) (d : Nat) : State :=
  let p := cmdprocP d
  let a := cmdAddr s d (cmdHead s d)
  let s := wr (wr s p HDR_STATE 0) p HDR_ENABLE 0
  raise (logErr s p 3 (a % 2 ^ 32) (a / 2 ^ 32) 0) p 2

/-- The next entry is fetched: its 64 bytes, or none where host memory refuses the read. -/
def fetchNext (s : State) (d : Nat) (entry : Option (List Byte)) (desc : Option (List Byte))
    (refused : Bool) : State :=
  match entry with
  | none =>
    if fetches s d && !cplStalled s d then ringReadFailed (hostRefused s d) d else s
  | some b =>
    let c := readCmd b
    startNext s d (readHdr b) (if reservedZero b then c else .other c.op) desc refused

/-! ### The host's indices (R249) -/

/-- The distance from index `a` forward to `b` in a ring of `n` entries. -/
def ringDist (a b n : Nat) : Nat := (b + n - a % n) % n

/-- CMD_DOORBELL, rung by function `req`: the new tail, or refused with code 0x05; and a wake (R283). -/
def doorbell (s : State) (req d v : Nat) : State :=
  let n := cmdEntries s d
  let x := proc s d
  let s := wake s 1
  if v ≥ n || ringDist (cmdHead s d) v n < ringDist (cmdHead s d) x.tail n then
    raise (lastErr s (cmdprocP d) 5) (cmdprocP d) 2
  else
    let x := proc s d
    setProc s d { x with tail := v, rang := if writesWait s req then req :: x.rang else x.rang }

/-- CPL_HEAD: the new head, or refused with code 0x06; entries that wait are then posted. -/
def cplHead (s : State) (d v : Nat) : State :=
  let n := cplEntries s d
  let p := cmdprocP d
  let old := rd s p CMDPROC_CPL_HEAD
  if v ≥ n || ringDist old v n > ringDist old (rd s p CMDPROC_CPL_TAIL) n then
    raise (lastErr s p 6) p 2
  else if v = old then s
  else
    let s := setProc (wr s p CMDPROC_CPL_HEAD v) d { proc s d with stalled := false }
    postHeld s d (proc s d).held.length

/-! ### The soft reset of a command processor (R369) -/

/-- Every visible command that has not completed completes ABORTED, in ring order: those that run,
then those not yet fetched, whose entries are `entries`. -/
def abortAll (s : State) (d : Nat) (entries : List (List Byte)) : State :=
  let s := stopLaunches s d
  let js := (proc s d).running
  let s := js.foldl (fun s j => finishJob s d j stAborted 0) s
  let s := abortColls s d none
  let n := cmdEntries s d
  let left := ringDist (cmdHead s d) (cmdTail s d) n
  let s := (List.range left).foldl (fun s i =>
    let b := entries.getD i []
    complete s d (leAt b 0 1) (readHdr b) stAborted 0) s
  wr (wr s (cmdprocP d) CMDPROC_CMD_HEAD (cmdTail s d)) (cmdprocP d) CMDPROC_BLOCKED 0

end Sys2Proof.Machine
end

