-- ==== Sys2Proof/Machine/Host.lean ====
section
/-!
DEFINITION. Machine/Host.lean: host ports, their links and windows, and the assignment of
quarter-dies (R240 to R249).
-/
namespace Sys2Proof.Machine

/-! ### Ports and links -/

/-- `FW_STATE` becomes waiting (R304). -/
def fwWaiting (s : State) : State := raise (wr s dawnP DAWN_FW_STATE 1) dawnP 0

/-- A reset of a host port (R243): its District's command processor, the latches of its function, and
a fetch of the firmware bundle that it was serving (R303). The function's MSI-X table is masked
again (PRESUMED, log entry 24), so that a summary that is nonzero pends there until the host unmasks it
(R347), and window accesses of it that wait are dropped (DESIGN CHOICE, log entry 150). -/
def portReset (s : State) (p : Nat) : State :=
  let s := resetProc s p
  let s : State := { s with
    msix := s.msix.filter (fun kv => kv.1 / 8 != p)
    hostHeld := s.hostHeld.filter (fun q => q.port != p)
    pba := SMap.del s.pba p
    latches := s.latches.filter (fun kv => kv.1 % 8 != p) }
  let s := [2, 3, 4].foldl (fun s v => deliver1 s p v) s
  if p = ownerPort s && rd s dawnP DAWN_STAGE == 2 && rd s dawnP DAWN_FW_STATE == 2 then fwWaiting s
  else s

/-- `HOST_LINK_TRAINED` (R241, R240): at rate `gen` and width `width`; `flit` says whether the host offers
Flit mode, which 64 GT/s always uses. -/
def linkTrained (s : State) (p gen width : Nat) (flit : Bool) : State :=
  let h := hostportP p
  let s := wr (wr (wr (wr s h HOSTPORT_LINK_GEN gen) h HOSTPORT_WIDTH width) h HOSTPORT_LINK_UP 1)
    h HOSTPORT_FLIT_MODE (ofBool (flit || gen == 6))
  let s := if width < 16 || gen < 6 then raise s h 2 else s
  if rd s dawnP DAWN_STAGE = 2 && rd s dawnP DAWN_FW_STATE == 0 then fwWaiting s else s

def execHostLinkTrained (p : PortId) (gen : Fin 7) (width : Fin 17) (flit : Bool) (s : State) :
    Host.Outcome State Fault Refusal :=
  if gen.val = 0 || !([1, 2, 4, 8, 16].contains width.val) then .fault (.malformed "HOST_LINK_TRAINED")
  else .next (if plazaUp s && rd s dawnP DAWN_STAGE ≥ 2
      && !bitOf s.dawn.perst p && gen.val ≤ rd s (hostportP p) HOSTPORT_MAX_GEN then linkTrained s p gen width flit
    else s)

/-- The link of a port leaves the trained state. -/
def hostLinkDown (s : State) (p : Nat) : State :=
  let h := hostportP p
  let s := wr (wr (wr (wr s h HOSTPORT_LINK_GEN 0) h HOSTPORT_WIDTH 0) h HOSTPORT_LINK_UP 0)
    h HOSTPORT_FLIT_MODE 0
  raise (lastErr s h 6) h 1

/-- `HOST_LINK_DOWN`. -/
def execHostLinkDown (p : PortId) (s : State) : Host.Outcome State Fault Refusal :=
  .next (if plazaUp s && portUp s p then hostLinkDown s p else s)

/-- PERST_N of a port goes low and holds the port in reset, its link down, until it goes high (R353; log
entry 180). -/
def perstFalls (s : State) (p : Nat) : State :=
  let s : State := { s with dawn := { s.dawn with perst := setBit s.dawn.perst p } }
  if plazaUp s then portReset (if portUp s p then hostLinkDown s p else s) p else s

/-- `HOST_PORT_RESET` (R243): PERST_N, a hot reset or a Function Level Reset; the last two come over the
port's link. -/
def execHostPortReset (p : PortId) (k : PortReset) (s : State) : Host.Outcome State Fault Refusal :=
  .next (match k with
    | .perstLow => perstFalls s p
    | .perstHigh => { s with dawn := { s.dawn with perst := clearBit s.dawn.perst p } }
    | .hot => if plazaUp s && portUp s p then portReset s p else s
    | .flr => if plazaUp s && portUp s p then portReset s p else s)

/-! ### Quarter-dies (R244, R245) -/

/-- The quarter-dies that other Districts' masks hold. -/
def otherMasks (s : State) (d : Nat) : Nat :=
  (List.range 4).foldl (fun m e => if e = d then m else m ||| rd s (districtP e) DISTRICT_QDIE_MASK) 0

/-- A quarter-die leaves a District and is scrubbed. -/
def beginScrub (s : State) (d q : Nat) : State :=
  let s := emptySlots s d (fun im => im.tiles.any (fun n => tileQdie n == q))
  let x : Scrub := { qdie := q, old := d, was := (qdTiles s q).filter (tileFenced s) }
  wr { s with scrubs := s.scrubs.filter (fun x => x.qdie != q) ++ [x] } (districtP d)
    DISTRICT_SCRUBBING 1

/-- A write of `QDIE_MASK`: applied, or dropped with `CFG_REJECTED`. -/
def maskWrite (s : State) (d v : Nat) : State :=
  let p := districtP d
  let old := rd s p DISTRICT_QDIE_MASK
  let new := v % 2 ^ 16
  if locked s p || new = old then s
  else if (new &&& otherMasks s d) != 0 || !distIdle s d then raise s p 3
  else
    let gone := (List.range 16).filter (fun q => bitOf old q && !bitOf new q
      && s.scrubs.all (fun x => x.qdie != q))
    raise (gone.foldl (fun s q => beginScrub s d q) (wr s p DISTRICT_QDIE_MASK new)) p 0

/-- `QDIE_MASK_WRITE` (R244). -/
def execQdieMaskWrite (req : PortId) (d : DistId) (value : Nat) (s : State) :
    Host.Outcome State Fault Refusal :=
  .next (fieldWrite s req (districtP d) DISTRICT_QDIE_MASK 0 (fun s => maskWrite s d value))

/-- The scrub of a quarter-die ends: its tiles are clean, all but those fenced meanwhile, and it joins
the District whose mask holds it (R245, R296). -/
def scrubDone (s : State) (q : Nat) : State :=
  match s.scrubs.find? (fun x => x.qdie == q) with
  | none => s
  | some x =>
    let ts := (qdTiles s q).filter (fun n =>
      (!tileFenced s n || x.was.contains n) && !dieFenced s (tileDie n))
    let s := ts.foldl scrubTile s
    let s : State := { s with scrubs := s.scrubs.filter (fun y => y.qdie != q) }
    let s := wr s (districtP x.old) DISTRICT_SCRUBBING (ofBool (s.scrubs.any (fun y => y.old == x.old)))
    raise s (districtP x.old) 4

/-- `QDIE_SCRUB_DONE` (R245). -/
def execQdieScrubDone (q : Fin 16) (s : State) : Host.Outcome State Fault Refusal :=
  .next (if plazaUp s then scrubDone s q else s)

/-! ### Windows (R246, R247) -/

/-- The internal address of a BAR2 offset for a District. -/
def windowAddr (s : State) (d off : Nat) : Nat :=
  let p := districtP d
  let w := off / 2 ^ 28
  rd s p DISTRICT_WIN_BASE_LO w * 2 ^ 20 + rd s p DISTRICT_WIN_BASE_HI w * 2 ^ 32 + off % 2 ^ 28

/-- The error that stops an access before its address is looked at. A port whose page is not ON takes no new
access (R297; the code is a DESIGN CHOICE, log entry 176). -/
def windowGate (s : State) (d off : Nat) : Nat :=
  if !dawnOver s then errBusy
  else if rd s (hostportP d) HDR_STATE ≠ 2 then errAccess
  else if rd s (districtP d) DISTRICT_WIN_EN (off / 2 ^ 28) = 0 then errAccess
  else 0

/-- A window access: refused at once, or carried out in its turn (R143, R246, R247). -/
def windowAccess (s : State) (d off : Nat) (q : HostReq) : State :=
  let g := windowGate s d off
  let q : HostReq := { q with port := d, addr := windowAddr s d off }
  if g ≠ 0 then windowRefused s d q.addr g q.write else serve s [q]

/-- One request of at most `max` bytes, within 4 KiB (R240). -/
def oneRequest (max off len : Nat) : Bool := 0 < len && len ≤ max && off % 4096 + len ≤ 4096

/-- A port takes BAR accesses: its link is trained and the package is awake. -/
def barOpen (s : State) (p : Nat) : Bool := plazaUp s && portUp s p && awake s

/-- `WINDOW_READ` (R246): `errs` is what the pieces read meet. -/
def execWindowRead (p : PortId) (off : Fin 2147483648) (len : Nat) (errs : SectorErrs) (s : State) :
    Host.Outcome State Fault Refusal :=
  if !oneRequest 4096 off len then .fault (.malformed "WINDOW_READ")
  else .next (if barOpen s p then
      windowAccess s p off { port := p, addr := 0, len := len, errs := errs }
    else s)

/-- `WINDOW_WRITE` (R246). -/
def execWindowWrite (p : PortId) (off : Fin 2147483648) (bytes : List Byte) (s : State) :
    Host.Outcome State Fault Refusal :=
  if !oneRequest 512 off bytes.length then .fault (.malformed "WINDOW_WRITE")
  else .next (if barOpen s p then
      windowAccess s p off { port := p, addr := 0, len := bytes.length, write := true, bytes := bytes }
    else s)

/-! ### The host's ring indices (R249) -/

/-- `CMD_DOORBELL`. -/
def execCmdDoorbell (req : PortId) (d : DistId) (value : Nat) (s : State) :
    Host.Outcome State Fault Refusal :=
  .next (fieldWrite s req (cmdprocP d) CMDPROC_CMD_DOORBELL 0 (fun s => doorbell s req d (value % 2 ^ 16)))

/-- `CPL_HEAD_WRITE`: `refused` as for a command's row. -/
def execCplHeadWrite (req : PortId) (d : DistId) (value : Nat) (refused : Bool) (s : State) :
    Host.Outcome State Fault Refusal :=
  .next (fieldWrite s req (cmdprocP d) CMDPROC_CPL_HEAD 0 (fun s =>
    withRefuse s d refused (fun s => cplHead s d (value % 2 ^ 16))))

end Sys2Proof.Machine
end

