-- ==== Sys2Proof/Machine/Power.lean ====
section
/-!
DEFINITION. Machine/Power.lean: Dusk's round, the governors' step, throttling and hints
(chapter 11).
-/
namespace Sys2Proof.Machine

/-! ### Configuration -/

/-- `PWR_CAP_WRITE` (R262, R6): the cap, clamped to the variant's limit; a raised cap clears
`CAP_UNATTAINABLE` (R273). -/
def capWrite (s : State) (v : Nat) : State :=
  let p := pwrP
  let v := v % 2 ^ 16
  let lim := bitsOf (maj3 s.sensed.c0.variant s.sensed.c1.variant s.sensed.c2.variant) 7 16
  let old := rd s p PWR_PWR_CAP_W
  let s := wr s p PWR_PWR_CAP_W (min v lim)
  let s := if v > lim then raise (lastErr s p 2) p 4 else s
  if rd s p PWR_CAP_UNATTAINABLE = 1 && min v lim > old then
    let s : State := { s with dusk := { s.dusk with overCap := 0 } }
    logEvent (wr s p PWR_CAP_UNATTAINABLE 0) 5 0xFF 0 0
  else s

def execPwrCapWrite (req : PortId) (value : Nat) (s : State) : Host.Outcome State Fault Refusal :=
  .next (fieldWrite s req pwrP PWR_PWR_CAP_W 0 (fun s => capWrite s value))

/-- The fused ceiling on operating points. -/
def maxOp (s : State) : Nat :=
  bitsOf (maj3 s.sensed.c0.variant s.sensed.c1.variant s.sensed.c2.variant) 4 3

/-- `OP_TARGET_WRITE` (R260, R6): the target, clamped to the fused ceiling. -/
def opTargetWrite (s : State) (d v : Nat) : State :=
  let v := v % 8
  let s := wr s pwrP PWR_OP_TARGET (min v (maxOp s)) d
  if v > maxOp s then raise (lastErr s pwrP 3) pwrP 4 else s

def execOpTargetWrite (req : PortId) (d : DieId) (value : Nat) (s : State) :
    Host.Outcome State Fault Refusal :=
  .next (fieldWrite s req pwrP PWR_OP_TARGET d (fun s => opTargetWrite s d value))

/-! ### The round (R275) -/

/-- The raw value of a channel. -/
def rawOf (raw : List (Nat × Int)) (ch : Nat) (prev : Int) : Int :=
  match raw.find? (fun r => r.1 == ch) with
  | some r => r.2
  | none => prev

/-- Every channel is sampled, and its reading filtered, but a rail's (R275, R276). -/
def sampleRound (s : State) (raw : List (Nat × Int)) : State :=
  (List.range 624).foldl (fun s ch =>
    let prev := reading s ch
    let r := rawOf raw ch prev
    let f := if ch ≥ 528 then r else max r ((prev + r) / 2)
    let s : State := { s with dusk := { s.dusk with raw := SMap.put s.dusk.raw ch (ofSigned 16 r) } }
    wr s thermP THERM_READING (ofSigned 16 f) ch) s

/-- No round has ended yet. -/
def firstRound (s : State) : Bool := rd s duskP DUSK_ROUND_LO == 0 && rd s duskP DUSK_ROUND_HI == 0

/-- A count of rounds that goes on, up to `lim`, or starts again. -/
def countTo (m : SMap Nat) (k lim : Nat) (on : Bool) : SMap Nat :=
  if on then SMap.put m k (min lim (SMap.getD m k 0 + 1)) else SMap.del m k

/-- The cross-check of R277 counts its rounds. -/
def crossCheck (s : State) : State :=
  (List.range 528).foldl (fun s ch =>
    let st := standing s ch
    let k := s.dusk
    { s with dusk := { k with
      low := countTo k.low ch 3 (st == 0)
      high := countTo k.high ch 10 (st == 2)
      ok := countTo k.ok ch 10 (st == 1 && suspectLow s ch) } }) s

/-- The nominal level of a rail channel, in mV (R350): for VDD_T that of the applied operating point (R278);
until the Plaza has sent a setpoint, what the regulator holds: the last setpoint sent, or 670 mV (R351,
R353; DEDUCED, log entry 111). -/
def railNominal (s : State) (i : Nat) : Nat :=
  if i < 64 then
    let k := i % 16
    let d := i / 16
    if k < 8 then (if (dom s d).vrSent then opVolt (dieOp s d) else (dom s d).vrSet) else if k < 12 then 750 else 1050
  else if i < 70 then 850 else if i < 76 then 1200 else if i < 78 then 800 else if i < 80 then 1800
  else if i % 4 < 2 then 1000 else 3300

/-- Whether a rail reading lies outside ±5 % of its nominal level. -/
def railOut (nominal : Nat) (v : Int) : Bool := 20 * v < 19 * nominal || 20 * v > 21 * nominal

/-- The step of R351's order in which a rail channel rises. -/
def railStep (i : Nat) : Nat :=
  if i < 64 then (if i % 16 < 8 then 4 else 3) else if i < 76 then 2 else if i < 80 then 1 else 5

/-- A rail reads within ±5 %. -/
def railReads (s : State) (i : Nat) : Bool := !railOut (railNominal s i) (reading s (528 + i))

/-- Whether Dusk finds a rail in range. One that has just risen counts as out of range while a rail of a
step before its own is missing (R351). -/
def railIn (s : State) (i : Nat) : Bool :=
  railReads s i && (bitOf s.dusk.railsIn i
    || (List.range 96).all (fun j => railStep i ≤ railStep j || railReads s j))

/-- A round judges the rails, and counts the rounds in a row with every rail in range; before the Plaza
leaves reset, one rail out of range makes the rails not good (R300). -/
def railsRound (s : State) : State :=
  let m := maskOf 96 (railIn s)
  if m = 2 ^ 96 - 1 then { s with dusk := { s.dusk with railsIn := m, inRange := min 2 (s.dusk.inRange + 1) } }
  else
    { s with
      dusk := { s.dusk with railsIn := m, inRange := 0 }
      dawn := { s.dawn with railsGood := s.dawn.railsGood && rd s dawnP DAWN_STAGE != 0 } }

/-- The rounds that a rail is out of range are counted (R278), up to the 100 of R303. -/
def railCheck (s : State) : State :=
  (List.range 96).foldl (fun s i =>
    let out := !bitOf s.dusk.railsIn i
    let s := { s with dusk := { s.dusk with oor := countTo s.dusk.oor i 100 out } }
    if out then s
    else
      let w := rd s duskP DUSK_RAIL_OOR (i / 32)
      wr s duskP DUSK_RAIL_OOR (clearBit w (i % 32)) (i / 32)) (railsRound s)

/-- The change of a level by R279's table, with the reason's thresholds in sixteenths. -/
def levelUp (t hi lo : Int) : Nat := if t ≥ hi then 2 else if t ≥ lo then 1 else 0

/-- The guard of a reason at a round's end: engaged, count, and what happened (1 engaged, 2
disengaged). `rise` is the largest rise of its sensors, `t` their hottest value (R281). -/
def guardRound (on : Bool) (g : Nat) (rise t lo : Int) : Bool × Nat × Nat :=
  if on then
    if rise < 32 then (false, g, 2) else (true, min 15 (g + 1), 0)
  else if rise > 128 then (true, min 15 (g + 1), 1)
  else (false, if t < lo then g - 1 else g, 0)

/-- The largest rise of a list of channels since the round before. -/
def largestRise (old s : State) (chs : List Nat) : Int :=
  maxInt (chs.map (fun c => reading s c - reading old c))

/-- What a guard's event reports. -/
def guardEvent (s : State) (d what arg : Nat) : State :=
  if what = 1 then logEvent (raise (lastErr s thermP 3) thermP 2) 9 d arg 0
  else if what = 2 then logEvent s 0xA d arg 0
  else s

/-- TJ of a domain at a round's end (R279, R281). -/
def tjRound (old s : State) (d : Nat) : State :=
  let chs := logicChannels d
  let t := hottest s chs
  let lim := if d < 4 then 15 else 7
  let p := thermP
  let n := rd s p THERM_TJ_LEVEL d
  let m := min lim (n + levelUp t (108 * 16) (103 * 16))
  let x := dom s d
  let s := setDom s d { x with coolJ := if t < 101 * 16 then min 3 (x.coolJ + 1) else 0 }
  let s := wr (wr s p THERM_TJ_MAX (wholeDeg t) d) p THERM_TJ_LEVEL m d
  let s := if n = 0 && m > 0 then raise s p 5 else s
  let g := guardRound (rd s p THERM_TJ_GUARD_ON d == 1) (rd s p THERM_TJ_GUARD d)
    (if firstRound old then 0 else largestRise old s chs) t (103 * 16)
  guardEvent (wr (wr s p THERM_TJ_GUARD_ON (ofBool g.1) d) p THERM_TJ_GUARD g.2.1 d) d g.2.2 0

/-- TD of a die at a round's end (R280, R281). -/
def tdRound (old s : State) (d : Nat) : State :=
  let chs := dramChannels d
  let t := tdTemp s d
  let p := thermP
  let n := rd s p THERM_TD_LEVEL d
  let x := dom s d
  let hot := t > 105 * 16 || (x.hotD && t > 103 * 16)
  let m := if hot then 22 else min 22 (n + levelUp t (102 * 16) (98 * 16))
  let s := setDom s d { x with
    hotD := hot
    coolD := if !hot && t < 96 * 16 then min 3 (x.coolD + 1) else 0 }
  let s := wr (wr s p THERM_TD_MAX (wholeDeg t) d) p THERM_TD_LEVEL m d
  let s := if n = 0 && m > 0 then raise s p 6 else s
  let s := if t > 105 * 16 && tdTemp old d ≤ 105 * 16 then raise (lastErr s p 4) p 3 else s
  let g := guardRound (rd s p THERM_TD_GUARD_ON d == 1) (rd s p THERM_TD_GUARD d)
    (if firstRound old then 0 else largestRise old s chs) t (98 * 16)
  guardEvent (wr (wr s p THERM_TD_GUARD_ON (ofBool g.1) d) p THERM_TD_GUARD g.2.1 d) d g.2.2 1

/-- The refresh of a quarter-die at a round's end (R131, R133, R134). -/
def refreshRound (old s : State) (q : Nat) : State :=
  let d := q / 4
  let t := qdTemp s d (q % 4)
  let rate := qdRate s q
  let s := wr s thermP THERM_QD_TEMP (wholeDeg t) q
  let s := if t > 105 * 16 && qdTemp old d (q % 4) ≤ 105 * 16 then
      (qdTiles s q).foldl (fun s n => raise (lastErr s (sliceP n) 7) (sliceP n) 3) s
    else s
  if bandOf t > rate then setRate s q (bandOf t)
  else { s with dusk := { s.dusk with fall := countTo s.dusk.fall q 4 (belowBand rate t) } }

/-- A crossing of an enabled watch (R283). -/
def watchRound (old s : State) (w : Nat) : State :=
  let p := duskP
  let ch := rd s p DUSK_CHANNEL w
  let lvl := toSigned 16 (rd s p DUSK_LEVEL w)
  let above := rd s p DUSK_ABOVE w == 1
  let is (s : State) : Bool := if above then reading s ch > lvl else reading s ch < lvl
  if rd s p DUSK_WATCH_EN w = 1 && ch < 624 && is s && !is old then
    wake (raise (lastErr s p 2) p 1) 3
  else s

/-- The cap in force. -/
def capInForce (s : State) : Nat := max 300 (rd s pwrP PWR_PWR_CAP_W)

/-- Die domains give their shares, `share d` each, and what those before them could not: the state, and
what is still to give. -/
def cutDies (s : State) (ds : List RoundDom) (share : Nat → Nat) (carry : Nat) : State × Nat :=
  (List.range 4).foldl (fun (r : State × Nat) d =>
    let x := (ds[d]?).getD ⟨0, 0, 0, 0, 16⟩
    cutDie r.1 d (share d + r.2) x.tileMw x.engMw x.avgIcc
      (1000 * ((ds[4]?).map RoundDom.power).getD 0)) (s, carry)

/-- The cut of R272 for an excess of `mw` mW: in proportion to the domains' power. What a domain cannot
give at its floor passes to the next, the collective group's rest to the dies. -/
def cutRound (s : State) (mw : Nat) (ds : List RoundDom) : State :=
  let pw (d : Nat) : Nat := ((ds[d]?).map RoundDom.power).getD 0
  let parts := if collGuarded s then [0, 1, 2, 3] else [0, 1, 2, 3, 4]
  let total := max 1 (parts.foldl (fun a d => a + pw d) 0)
  let r := cutDies s ds (fun d => mw * pw d / total) 0
  let r := cutDies r.1 ds (fun _ => 0) r.2
  let coll := if collGuarded s then 0 else mw * pw 4 / total
  let r := cutGroup r.1 4 (coll + r.2) (1000 * pw 4)
  (cutDies r.1 ds (fun _ => 0) r.2).1

/-- The cap at a round's end (R272, R273). -/
def capRound (s : State) (r : RoundIn) : State :=
  let cap := capInForce s
  let p := pwrP
  let s := wr s p PWR_PKG_POWER_W r.power
  let s := (List.range 4).foldl (fun s d =>
    wr s p PWR_DIE_POWER_W (((r.doms[d]?).map RoundDom.power).getD 0) d) s
  if r.power > cap then
    let s := { s with dusk := { s.dusk with
      overCap := if allFloors s then min 2 (s.dusk.overCap + 1) else 0 } }
    cutRound s (1000 * (r.power - cap)) r.doms
  else
    let s := { s with dusk := { s.dusk with overCap := 0 } }
    let s := if rd s p PWR_CAP_UNATTAINABLE = 1 then logEvent (wr s p PWR_CAP_UNATTAINABLE 0) 5 0xFF 0 0
      else s
    if 20 * (cap - r.power) ≥ cap then easeRound s else s

/-- The ceiling that a die's average duty over a round gives, in sixteenths of its target's clock: 16 where
it is not below the duty that the die holds (R272). -/
def avgCeiling (s : State) (d avgDuty : Nat) : Nat :=
  if avgDuty < (dom s d).duskDuty then
    min 16 (max 1 (avgDuty * opClock (dieOp s d) / opClock (rd s pwrP PWR_OP_TARGET d)))
  else 16

/-- The operating point of a die at a round's end (R261, R272). -/
def opRound (s : State) (d avgDuty : Nat) : State :=
  let a := avgCeiling s d avgDuty
  applyCeiling (setDom s d { dom s d with avgCeil := a }) d (min (min (tjCeiling s d) (tdCeiling s d)) a) true

/-- The domains that are in use: dies that are up, and the collective group once Dawn has ended. -/
def liveDomain (s : State) (d : Nat) : Bool := if d < 4 then dieUp s d else plazaUp s

/-- What Dusk decides about heat. -/
def heatRound (old s : State) : State :=
  let s := ((List.range 5).filter (liveDomain s)).foldl (tjRound old) s
  let s := ((List.range 4).filter (dieUp s)).foldl (tdRound old) s
  ((List.range 16).filter (fun q => dieUp s (q / 4))).foldl (refreshRound old) s

/-- What Dusk decides from the sensors of a round. -/
def senseRound (old s : State) : State :=
  let s := if (List.range 528).any (replaced s) then bump s thermP HDR_ERR_CORR_COUNT else s
  let s := heatRound old (railCheck (crossCheck s))
  let s := (List.range 4).foldl (fun s e => wr s (oeP e) OE_ENGINE_TEMP
    (wholeDeg (hottest s ((List.range 16).map (fun g => 448 + 16 * e + g))))) s
  (List.range 4).foldl (watchRound old) s

/-- A round of beacons, where `TOPO` is ON (R217, R192). -/
def beaconRound (s : State) (lines : List (Fin 4 × BitVec 32)) : State :=
  if !topoOn s then s
  else
    let s := lines.foldl (fun s x => recheckLines s x.1 x.2.toNat) s
    (List.range 36).foldl countSilent (sendBeacons s)

/-- `DUSK_ROUND` (R275). While `THERM` is not ON no sensor is sampled. -/
def duskRound (s : State) (r : RoundIn) : State :=
  let old := s
  let s := if thermOn s then sampleRound s r.raw else s
  let s := bump64 s duskP DUSK_ROUND_LO DUSK_ROUND_HI
  let s := { s with dusk := { s.dusk with step := 0 } }
  let s := if thermOn s then senseRound old s else s
  let s := r.inner.foldl (fun s i => bump s (sliceP i.1) SLICE_INNER_CORR i.2) s
  let s := if plazaUp s then
      let s := capRound s r
      let s := ((List.range 4).filter (dieUp s)).foldl (fun s d =>
        opRound s d (((r.doms[d]?).map RoundDom.avgDuty).getD 16)) s
      beaconRound s r.lines
    else s
  if rd s duskP DUSK_TW_STATE = 2 then bump s duskP DUSK_TW_MS else s

/-- Whether the readings of a round name channels and slices that exist. -/
def roundOk (r : RoundIn) : Bool :=
  r.raw.all (fun x => x.1 < 624) && r.doms.length == 5 && r.inner.all (fun x => x.1 < 1920)

def execDuskRound (r : RoundIn) (s : State) : Host.Outcome State Fault Refusal :=
  if !roundOk r then .fault (.malformed "DUSK_ROUND")
  else if duskRuns s then .next (duskRound s r) else .next s

/-! ### Sensors and rails (R277, R278) -/

/-- What `THERM` holds of the last sensor event, an event of R277 (DEDUCED, log entry 152): the channel
and its raw reading (R287). -/
def sensorEvent (s : State) (ch : Nat) : State :=
  wr (wr s thermP HDR_ERR_ADDR_LO ch) thermP HDR_ERR_SYNDROME (SMap.getD s.dusk.raw ch 0)

def setSuspect (s : State) (f : Fld) (ch : Nat) (on : Bool) : State :=
  let w := rd s thermP f (ch / 32)
  wr s thermP f (if on then setBit w (ch % 32) else clearBit w (ch % 32)) (ch / 32)

/-- `SENSOR_SUSPECT_LOW` (R277): 3 rounds more than 12 °C below agreeing neighbours. -/
def execSensorSuspectLow (ch : Fin 528) (s : State) : Host.Outcome State Fault Refusal :=
  if sensorsRun s && SMap.getD s.dusk.low ch 0 ≥ 3 && !suspectLow s ch then
    let s := setSuspect s THERM_SUSPECT_LOW ch true
    .next (logEvent (raise (lastErr (sensorEvent s ch) thermP 1) thermP 0) 6 0xFF 0 ch)
  else .next s

/-- `SENSOR_RECOVERED` (R277): 10 rounds within 12 °C of the median. -/
def execSensorRecovered (ch : Fin 528) (s : State) : Host.Outcome State Fault Refusal :=
  if sensorsRun s && SMap.getD s.dusk.ok ch 0 ≥ 10 && suspectLow s ch then
    let s := { s with dusk := { s.dusk with ok := SMap.del s.dusk.ok ch } }
    .next (logEvent (sensorEvent (setSuspect s THERM_SUSPECT_LOW ch false) ch) 8 0xFF 0 ch)
  else .next s

/-- `SENSOR_HIGH_SUSPECT` (R277): 10 rounds more than 12 °C above agreeing neighbours. -/
def execSensorHighSuspect (ch : Fin 528) (s : State) : Host.Outcome State Fault Refusal :=
  if sensorsRun s && SMap.getD s.dusk.high ch 0 ≥ 10 && !highSuspect s ch then
    let s := setSuspect s THERM_HIGH_SUSPECT ch true
    .next (logEvent (raise (lastErr (sensorEvent s ch) thermP 2) thermP 1) 7 0xFF 0 ch)
  else .next s

/-- `RAIL_OUT_OF_RANGE` (R278): 2 rounds outside ±5 %. -/
def execRailOutOfRange (ch : Fin 96) (s : State) : Host.Outcome State Fault Refusal :=
  let i := ch.val
  let w := rd s duskP DUSK_RAIL_OOR (i / 32)
  if sensorsRun s && SMap.getD s.dusk.oor i 0 ≥ 2 && !bitOf w (i % 32) then
    let s := wr s duskP DUSK_RAIL_OOR (setBit w (i % 32)) (i / 32)
    .next (logEvent (raise (lastErr s duskP 1) duskP 0) 0xD 0xFF 0 (528 + i))
  else .next s

/-! ### Levels, refresh and operating points -/

/-- `TEMP_LEVEL_RELEASE` (R279, R280): 3 rounds below the release threshold. -/
def tempRelease (s : State) (d : Nat) (td : Bool) : State :=
  let x := dom s d
  if td then
    if d < 4 && x.coolD ≥ 3 then
      reapply (wr (setDom s d { x with coolD := 0 }) thermP THERM_TD_LEVEL
        (rd s thermP THERM_TD_LEVEL d - 1) d) d
    else s
  else if x.coolJ ≥ 3 then
    reapply (wr (setDom s d { x with coolJ := 0 }) thermP THERM_TJ_LEVEL
      (rd s thermP THERM_TJ_LEVEL d - 1) d) d
  else s

def execTempLevelRelease (d : Fin 5) (td : Bool) (s : State) : Host.Outcome State Fault Refusal :=
  if sensorsRun s then .next (tempRelease s d td) else .next s

/-- `REFRESH_RATE_FALL` (R133): 4 rounds at least 2 °C below the band. -/
def execRefreshRateFall (q : Fin 16) (s : State) : Host.Outcome State Fault Refusal :=
  if sensorsRun s && SMap.getD s.dusk.fall q 0 ≥ 4 then .next (setRate s q (qdRate s q - 1)) else .next s

/-- `OP_RAISE_QUALIFIED` (R261): a higher point for 10 rounds. -/
def execOpRaiseQualified (d : DieId) (s : State) : Host.Outcome State Fault Refusal :=
  let x := dom s d
  let k := raiseTo x
  if plazaUp s && pwrOn s && opGoal s d < k then
    let c := rd s pwrP PWR_CEILING d
    let target := rd s pwrP PWR_OP_TARGET d
    .next (requestOp (setDom s d { x with duskDuty := heldDuty target c k }) d k)
  else .next s

/-- `OP_STEP_DONE` (R261, R40): one step of clock and voltage ends; the clock of a raise moves now. The next
step toward the point asked for begins, unless `PWR` is not ON. -/
def opStepDone (s : State) (d : Nat) : State :=
  let x := dom s d
  match x.opStep with
  | none => s
  | some k =>
    let s := setDom s d { x with opStep := none, opNext := none }
    let s := wr s pwrP PWR_OP_CHANGING 0 d
    let s := if dieOp s d = k then s else opMoves s d k
    let goal := x.opNext.getD k
    if goal = k || !pwrOn s then s else beginOpStep s d (stepToward k goal) goal

def execOpStepDone (d : DieId) (s : State) : Host.Outcome State Fault Refusal :=
  if plazaUp s then .next (opStepDone s d) else .next s

/-- `CAP_UNATTAINABLE` (R273): 2 rounds above the cap with every actuator at its floor. -/
def execCapUnattainable (s : State) : Host.Outcome State Fault Refusal :=
  if plazaUp s && s.dusk.overCap ≥ 2 && rd s pwrP PWR_CAP_UNATTAINABLE == 0 then
    .next (logEvent (raise (lastErr (wr s pwrP PWR_CAP_UNATTAINABLE 1) pwrP 1) pwrP 0) 4 0xFF 0 0)
  else .next s

/-! ### The governors (R265 to R268) -/

/-- One step of the droop limiter (R265). -/
def moveToward (now goal : Nat) : Nat := stepToward now goal

/-- Whether a step power exceeds the lowest of the last 100 µs by more than 80 W. -/
def steps80 (p : Nat) (last : List Nat) : Bool := !last.isEmpty && p > minNat last p + 80

/-- The power that a pre-ramp asks for: 0.8 W/µs from the power at its start toward that of its class,
held from the phase's start on (R271). -/
def Ramp.power (r : Ramp) (us : Nat) : Nat := min r.goal (r.base + 8 * (r.hold.getD us - r.start) / 10)

/-- A pre-ramp is over 100 µs after its phase's start. -/
def Ramp.over (r : Ramp) (us : Nat) : Bool := r.hold.any (fun t => t + 100 ≤ us)

/-- The share of the cap that pad leaves a die within: in proportion to its power in the last round
(DESIGN CHOICE, log entry 153). -/
def capShare (s : State) (d : Nat) : Nat :=
  let all := rd s pwrP PWR_PKG_POWER_W
  if all = 0 then capInForce s else capInForce s * rd s pwrP PWR_DIE_POWER_W d / all

/-- The die current limit in A (R266). -/
def iccLimit (s : State) (d : Nat) : Nat := 16 * min (iccRail s d) (max 1 (rd s pwrP PWR_ICC_CAP d))

/-- A part of a whole in 2⁻¹⁶, at least, and at most. -/
def partUp (a b : Nat) : Nat := if b = 0 then 0 else min 65536 ((65536 * a + b - 1) / b)
def partDown (a b : Nat) : Nat := if b = 0 then 65536 else min 65536 (65536 * a / b)

/-- The power of a domain's pad in the step just ended; a cap that has been lowered limits it at once
(R267, R273). -/
def padPower (s : State) (d : Nat) (g : GovIn) : Nat :=
  if d < 4 then min ((dom s d).padFrac * g.room / 65536) (capShare s d - g.work) else 0

/-- The power at most that pad may bring a die to: below every reason's ceiling, the current limit and the
die's share of the cap (R267). -/
def padLimit (s : State) (d : Nat) (g : GovIn) (power slew : Nat) : Nat :=
  let v := opVolt (dieOp s d)
  let icc := (1000 * power + iccLimit s d * v - g.icc * v) / 1000
  minNat [slew, icc, capShare s d] g.limit

/-- The pad fraction for the next step (R267, R268, R271): die power cannot fall below the highest of the
last 100 µs minus 80 W though every unit went idle, and follows the pre-ramps. -/
def padNext (s : State) (d : Nat) (g : GovIn) (powers : List Nat) (ramps : List Ramp) (limit : Nat) :
    Nat :=
  let ramp := maxNat (ramps.map (fun r => r.power s.dusk.us))
  let want := max (partUp (maxNat powers - 80 - g.idle) g.full) (partUp (ramp - g.work) g.room)
  if d < 4 then min want (min (partDown (limit - g.work) g.room) (partDown (limit - g.idle) g.full)) else 0

/-- What the domain would draw unthrottled: its class's power where a hinted phase starts, else the step's
own, taken as proportional to the applied duty and rate (DESIGN CHOICE, log entry 113). -/
def slewPower (s : State) (d : Nat) (g : GovIn) (now full : Nat) : Nat :=
  match (dom s d).active with
  | some c => if s.dusk.us = (dom s d).lastHint then rd s pwrP PWR_CLASS_POWER (4 * d + c)
    else g.work * full / now
  | none => g.work * full / now

/-- The slew ceiling on duty and its shaping level: they keep power at or below `w` (R268). -/
def slewDutyOf (p w : Nat) : Nat := if p ≤ w then 16 else max 1 (16 * w / p)
def slewShapeOf (p w : Nat) : Nat :=
  ((List.range 8).find? (fun l => shapeRate l * p ≤ 48 * w)).getD 7

/-- Classes whose phase began 100 µs ago take the step's power (R270). -/
def sampleClasses (s : State) (d power : Nat) : State :=
  let x := dom s d
  let us := s.dusk.us
  let s := (x.samples.filter (fun c => c.2 ≤ us)).foldl (fun s c =>
    wr s pwrP PWR_CLASS_POWER power (4 * d + c.1)) s
  setDom s d { x with samples := x.samples.filter (fun c => c.2 > us) }

/-- What a governor measures in one step is recorded, and its current ceiling, slew ceilings and pad are
set for the next (R265 to R270). -/
def measureStep (s : State) (d : Nat) (g : GovIn) : State :=
  let x := dom s d
  let us := s.dusk.us
  let pad := padPower s d g
  let power := g.work + pad
  -- an unannounced rise is counted once (R269)
  let hinted := x.active.isSome && us ≤ x.lastHint + 100
  let fresh := steps80 power x.powers && !hinted && !(match x.powers with
    | p :: rest => steps80 p rest
    | [] => false)
  let s := if d < 4 && fresh then bump s pwrP PWR_UNHINTED_STEPS 1 d else s
  let powers := (power :: x.powers).take 100
  let slew := minNat powers power + 80
  let ramps := x.ramps.filter (fun r => !r.over us)
  let uj := x.padUj + pad
  let s := setDom s d { x with
    powers := powers
    iccCeil := if g.icc > iccLimit s d then max 1 (x.iccCeil - 1) else x.iccCeil
    iccLow := if g.icc + 16 ≤ iccLimit s d then min 8 (x.iccLow + 1) else 0
    slewDuty := if d < 4 then slewDutyOf (slewPower s d g (appliedDuty s d) 16) slew else 16
    slewShape := if d < 4 then
      slewShapeOf (slewPower s d g (shapeRate (appliedLevel s d)) 48) slew else 0
    padUj := uj % 1000
    padFrac := padNext s d g powers ramps (padLimit s d g power slew)
    ramps := ramps }
  if d < 4 then
    let s := wr (wr s pwrP PWR_ICC_NOW g.icc d) pwrP PWR_PAD_W pad d
    sampleClasses (bump s pwrP PWR_PAD_MJ (uj / 1000) d) d power
  else s

/-- A domain's applied duty and level move, and its bindings are recorded (R265, R284). -/
def actStep (s : State) (d : Nat) : State :=
  let lvl := moveToward (appliedLevel s d) (maxNat (shapeLevels s d))
  let s := if d < 4 then
      let duty := moveToward (dieDuty s d) (minNat (dutyCeilings s d) 16)
      wr (wr s pwrP PWR_DUTY duty d) pwrP PWR_ENG_LEVEL lvl d
    else wr s pwrP PWR_COLL_LEVEL lvl
  bindStep s d

/-- The optical engines on a die's edge of the package: C0 and C2 lie to the north. -/
def edgeEngines (d : Nat) : List Nat := if d % 2 = 0 then [0, 1] else [2, 3]

/-- By how much a pre-ramp has lowered the heater power of each engine on the die's edge: by a share of a
free value for the whole step, as the ramp has gone (R271; log entry 178). -/
def rampHeat (r : Ramp) (us : Nat) : Nat :=
  if r.goal ≤ r.base then 0 else Config.heaterDrop (r.goal - r.base) * (r.power us - r.base) / (r.goal - r.base)

/-- What the pre-ramps of the dies on its edge take from an engine's heater power. -/
def heaterFeed (s : State) (e : Nat) : Nat :=
  ((List.range 4).filter (fun d => (edgeEngines d).contains e)).foldl (fun a d =>
    (dom s d).ramps.foldl (fun a r => a + rampHeat r s.dusk.us) a) 0

/-- The heaters of an optical engine (R207): the power that they draw but for the feed-forward, and whether
they are at their limit. -/
def heaterStep (s : State) (e : Nat) (h : Nat × Bool) : State :=
  let p := oeP e
  let was := rd s p OE_HTR_LIMIT == 1
  let s := wr (wr s p OE_HTR_POWER (h.1 - heaterFeed s e)) p OE_HTR_LIMIT (ofBool h.2)
  if h.2 && !was then raise (lastErr s p 5) p 3 else s

/-- `GOVERNOR_STEP` (R265): one microsecond of every governor. -/
def governorStep (s : State) (gs : List GovIn) (htr : List (Nat × Bool)) : State :=
  let s := ((List.range 5).filter (liveDomain s)).foldl (fun s d =>
    match gs[d]? with
    | some g => actStep (measureStep s d g) d
    | none => s) s
  let s := htr.zipIdx.foldl (fun s h => heaterStep s h.2 h.1) s
  { s with dusk := { s.dusk with us := s.dusk.us + 1, step := min 999 (s.dusk.step + 1) } }

def execGovernorStep (doms : List GovIn) (htr : List (Nat × Bool)) (s : State) :
    Host.Outcome State Fault Refusal :=
  if doms.length ≠ 5 || htr.length > 4 then .fault (.malformed "GOVERNOR_STEP")
  else if aonRuns s then .next (governorStep s doms htr) else .next s

/-- `ICC_CEILING_RISE` (R266): 8 steps at least 16 A below the limit. -/
def execIccCeilingRise (d : DieId) (s : State) : Host.Outcome State Fault Refusal :=
  let x := dom s d
  if x.iccLow ≥ 8 then
    .next (setDom s d { x with iccLow := 0, iccCeil := min 16 (x.iccCeil + 1) })
  else .next s

/-- `THROTTLE_N_ASSERT` (R274): 2 low samples. The pin works while the Plaza is in reset and while the
Midnight latch is set (R353). -/
def execThrottleNAssert (s : State) : Host.Outcome State Fault Refusal :=
  if s.dawn.aon && !extActive s then .next (raise (wr s pwrP PWR_EXT_ACTIVE 1) pwrP 1) else .next s

/-- `THROTTLE_N_RELEASE` (R274): 2 high samples. -/
def execThrottleNRelease (s : State) : Host.Outcome State Fault Refusal :=
  .next (wr s pwrP PWR_EXT_ACTIVE 0)

/-! ### Hints (R271) -/

/-- A pre-ramp begins: pad takes the die toward its class's power, which the optical engines on its edge
are told (R271). -/
def startRamp (s : State) (d cls : Nat) : State :=
  let x := dom s d
  let p := lastPower s d
  let goal := rd s pwrP PWR_CLASS_POWER (4 * d + cls)
  setDom s d { x with
    ramps := x.ramps.filter (fun r => r.cls != cls) ++
      [{ cls := cls, start := s.dusk.us, base := p, goal := max p goal }]
    hints := x.hints.map (fun k => if k.cls == cls then { k with ramp := none } else k) }

/-- `PRERAMP_START`: a pending hint's pre-ramp time has come. -/
def execPrerampStart (d : DieId) (cls : Fin 4) (s : State) : Host.Outcome State Fault Refusal :=
  match (dom s d).hints.find? (fun h => h.cls == cls.val) with
  | some h => .next (if h.ramp.any (fun t => t ≤ s.dusk.us) then startRamp s d cls else s)
  | none => .next s

/-- `HINT_START`: a pending hint's class becomes the active one. -/
def execHintStart (d : DieId) (cls : Fin 4) (s : State) : Host.Outcome State Fault Refusal :=
  match (dom s d).hints.find? (fun h => h.cls == cls.val) with
  | some h => if h.start ≤ s.dusk.us then .next (activate s d cls) else .next s
  | none => .next s

/-- `HINT_EXPIRE`: 10 ms without a hint. -/
def execHintExpire (d : DieId) (s : State) : Host.Outcome State Fault Refusal :=
  let x := dom s d
  if x.active.isSome && x.lastHint + 10000 ≤ s.dusk.us && x.hints.isEmpty then
    .next (showHints (setDom s d { x with active := none }) d)
  else .next s

end Sys2Proof.Machine
end

