-- ==== Sys2Proof/Machine/Dawn.lean ====
section
/-!
DEFINITION. Machine/Dawn.lean: bring-up: rails and resets (R11, R300, R303, R351), firmware (R304,
R309), release and training (R15, R16, R120, R318), self-test (R312 to R314), the yield map (R315 to
R317), and the end of Dawn (R302, R311).
-/
namespace Sys2Proof.Machine

/-! ### Rails and resets -/

/-- `VDD_AON_RISE` (R300): Dusk starts. -/
def execVddAonRise (s : State) : Host.Outcome State Fault Refusal :=
  .next (if s.dawn.aon then s else { s with dawn := { s.dawn with aon := true } })

/-- `DAWN_RAILS_GOOD` (R300): every rail has been in range for 2 rounds. -/
def execDawnRailsGood (s : State) : Host.Outcome State Fault Refusal :=
  .next (if duskRuns s && stage s == 0 && !dawnHalted s && s.dusk.inRange ≥ 2 then
    leaveReset { s with dawn := { s.dawn with railsGood := true } } else s)

/-- A rail has been out of range for 100 rounds. -/
def railLost (s : State) : Bool := (List.range 96).any (fun i => SMap.getD s.dusk.oor i 0 ≥ 100)

/-- `DAWN_RAIL_HALT` (R303). -/
def execDawnRailHalt (s : State) : Host.Outcome State Fault Refusal :=
  .next (if duskRuns s && stage s == 0 && !dawnHalted s && railLost s then haltDawn s 0x10 else s)

/-- `PWRGOOD_RISE` (R300, R242): the straps are sampled as `ownerSel`. -/
def execPwrgoodRise (ownerSel : Fin 4) (s : State) : Host.Outcome State Fault Refusal :=
  .next (if s.dawn.aon && !s.dawn.pwrgood then
      leaveReset { s with dawn := { s.dawn with pwrgood := true, ownerSel := ownerSel } }
    else s)

/-- `PWRGOOD_FALL` (R303): the whole package resets, and Dawn is at stage 0. -/
def execPwrgoodFall (s : State) : Host.Outcome State Fault Refusal :=
  .next (if s.dawn.aon && s.dawn.pwrgood then
      plazaReset { s with dawn := { s.dawn with pwrgood := false, railsGood := false } }
    else s)

/-- `PLAZA_RESET` (R11). -/
def execPlazaReset (s : State) : Host.Outcome State Fault Refusal :=
  .next (if s.dawn.aon && s.dawn.pwrgood then leaveReset (plazaReset s) else s)

/-- The package without VDD_AON: only the fuses keep anything. -/
def powerDown (s : State) : State :=
  { State.reset with
    pending := s.pending, sent := s.sent, fresh := s.fresh, fuses := s.fuses, sensed := s.fuses }

/-- `VDD_AON_REMOVE` (R351). After a dip of less than 100 ms the Midnight latch may still be set: a free
choice. -/
def execVddAonRemove (dip : Bool) (s : State) : Host.Outcome State Fault Refusal :=
  let r := freeBool s
  .next (if dip && r.1 then { powerDown r.2 with regs := s.regs.filter (fun kv => latchBit kv.1) }
    else powerDown (if dip then r.2 else s))

/-! ### Firmware -/

/-- A write of `FW_GO`: ignored unless `FW_STATE` is waiting. -/
def fwGo (s : State) : State := if rd s dawnP DAWN_FW_STATE = 1 then wr s dawnP DAWN_FW_STATE 2 else s

/-- `FW_GO` (R304). -/
def execFwGo (req : PortId) (s : State) : Host.Outcome State Fault Refusal :=
  .next (fieldWrite s req dawnP DAWN_FW_GO 0 fwGo)

/-- A bundle is refused and discarded: `FW_STATE` waits again. -/
def bundleRefused (s : State) (code got : Nat) : State :=
  let s := if code = 5 then
      dawnDma s (rd s dawnP DAWN_FW_ADDR_LO + 2 ^ 32 * rd s dawnP DAWN_FW_ADDR_HI + got) 1
    else s
  let s := bump (wr s dawnP DAWN_FW_REJECT code) dawnP DAWN_FW_ATTEMPTS
  fwWaiting (raise (lastErr s dawnP 1) dawnP 1)

/-- A bundle is accepted, and the record that came with it is checked. -/
def bundleAccepted (s : State) (b rec : List Byte) : State :=
  let s := wr s dawnP DAWN_FW_STATE 3
  let s := wr s dawnP DAWN_FW_IF_VER ((bundleVersion b).getD 0)
  let s : State := { s with sec := { s.sec with fwDigest := beNat ((b.drop 0x20).take 32) } }
  nextStage (takeRecord s rec) 2

/-- `FW_BUNDLE_CHECK` (R304): `bundle` and `rec` are the bytes that host memory returned. -/
def execFwBundleCheck (bundle rec : List Byte) (s : State) : Host.Outcome State Fault Refusal :=
  .next (if inStage s 2 && rd s dawnP DAWN_FW_STATE == 2 then
      let e := bundleReject s bundle
      let size := rd s dawnP DAWN_FW_SIZE
      let s := bytesIn s (ownerPort s) (min size bundle.length)
      if e ≠ 0 then bundleRefused s e bundle.length
      else
        let s := bytesIn s (ownerPort s) (min (rd s dawnP DAWN_REC_SIZE) rec.length)
        bundleAccepted s (bundle.take size) rec
    else s)

/-! ### Release and training -/

/-- The failed comparators of a triplet. -/
def tripletFails (fails t : Nat) : Nat := popCount 3 (bitsOf fails (3 * t) 3)

/-- Comparators of a die that fail their test are reported (R318, R282). -/
def reportComparators (s : State) (d fails : Nat) : State :=
  let bad := (List.range 8).filter (fun t => tripletFails fails t != 0)
  if bad.isEmpty then s
  else
    let m := bad.foldl setBit (rd s thermP THERM_TRIP_DEGRADED d)
    let s := lastErr (wr s thermP THERM_TRIP_DEGRADED m d) thermP 6
    let c := SMap.getD s.dusk.comparators d 0 ||| fails
    let s : State := { s with dusk := { s.dusk with comparators := SMap.put s.dusk.comparators d c } }
    bad.foldl (fun s t => logEvent s 0x0E d 0 t) (raise s thermP 4)

/-- The next die of stage 3 is released, or held. -/
def releaseDie (s : State) (fails : Nat) (restored : Bool) : State :=
  let d := s.dawn.nextDie
  let s := trained s 6 d restored
  let s := reportComparators s d fails
  let s : State := { s with dawn := { s.dawn with nextDie := d + 1 } }
  let s : State := if (List.range 8).any (fun t => tripletFails fails t ≥ 2) then
      wr s dawnP DAWN_DIE_HELD (setBit (rd s dawnP DAWN_DIE_HELD) d)
    else
      let s := wr s (cdieP d) HDR_STATE 2
      { s with dawn := { s.dawn with released := setBit s.dawn.released d } }
  dawnAdvance s

/-- `DIE_RELEASE` (R300, R318): bit 3t + c of `fails` says that comparator c of triplet t fails;
`restored`, that the recorded offsets pass. -/
def execDieRelease (fails : BitVec 24) (restored : Bool) (s : State) :
    Host.Outcome State Fault Refusal :=
  .next (if inStage s 3 && s.dawn.nextDie < 4 then releaseDie s fails.toNat restored else s)

/-- A group's modules after their training. -/
def setModules (s : State) (g : Nat) (mods : List ModTrain) : State :=
  let p := d2dP g
  let s := mods.zipIdx.foldl (fun s x =>
    let m := x.2
    let s := wr (wr (wr s p D2D_REPAIR_TX_USED x.1.tx m) p D2D_REPAIR_RX_USED x.1.rx m)
      p D2D_STATE x.1.state m
    if x.1.state.val = 1 then
      { s with dawn := { s.dawn with half := SMap.put s.dawn.half (32 * g + m) 1 } }
    else s) s
  let reps := (mods.map (fun x => x.tx.val + x.rx.val)).foldl (fun a b => a + b) 0
  let s := if reps = 0 then s else raise (lastErr (bump s p HDR_ERR_CORR_COUNT reps) p 1) p 0
  let s := if mods.any (fun x => x.state.val == 1) then raise (lastErr s p 1) p 1 else s
  if mods.any (fun x => x.state.val == 2) then raise (lastErr s p 2) p 2 else s

/-- The die-to-die protocol versions that the Plaza speaks (R16), and the version agreed. -/
def plazaD2dMin : Nat := 0x100
def plazaD2dMax : Nat := 0x101
def agreedVersion (vmin vmax : Nat) : Option Nat :=
  let v := min vmax plazaD2dMax
  if max vmin plazaD2dMin ≤ v then some v else none

/-- The highest rate that both sides of a group advertise (R15). Where `MAX_RATE` is 0 it is 0, and the
group trains to `RATE` 0 (DESIGN CHOICE, log entry 130). -/
def groupRate (s : State) (g partnerMax : Nat) : Nat :=
  min (min (rd s (d2dP g) D2D_PLAZA_MAX_RATE) (rd s (d2dP g) D2D_MAX_RATE)) partnerMax

/-- A link group ends its training. One that finds no common version is fenced for that alone, though
it may also be below its minimum of modules (DESIGN CHOICE, log entry 129). -/
def trainGroup (s : State) (g partnerMax rate vmin vmax : Nat) (mods : List ModTrain)
    (restored : Bool) : State :=
  let p := d2dP g
  let s := wr s p D2D_PARTNER_MAX_RATE partnerMax
  let s := wr (wr s p D2D_PARTNER_MAX_MINOR vmax) p D2D_PARTNER_MAX_MAJOR (vmax / 256)
  let s := trained (setModules s g mods) 0 g restored
  let s : State := { s with dawn := { s.dawn with groups := setBit s.dawn.groups g } }
  match agreedVersion vmin vmax with
  | none => fenceGroup (lastErr s p 5) g 4
  | some v =>
    let s := wr (wr s p D2D_AGREED_MINOR v) p D2D_AGREED_MAJOR (v / 256)
    dawnAdvance (checkUsable (wr s p D2D_RATE (min rate (groupRate s g partnerMax))) g)

/-- `D2D_LINK_TRAINING` (R15, R16): the partner advertises `partnerMax`, `rate` is the highest rate
that every module passes at, and the partner speaks versions `vmin` to `vmax`. -/
def execD2dLinkTraining (g : GroupId) (partnerMax rate : Fin 64) (vmin vmax : BitVec 16)
    (mods : List ModTrain) (restored : Bool) (s : State) : Host.Outcome State Fault Refusal :=
  if mods.length ≠ groupModules g || rate.val = 0 || partnerMax.val = 0 then
    .fault (.malformed "D2D_LINK_TRAINING")
  else .next (if inStage s 4 && groupUp s g && !bitOf s.dawn.groups g then
    trainGroup s g partnerMax rate vmin.toNat vmax.toNat mods restored else s)

/-- The failed bonds of a port mapped onto its good spares, in order (R120). -/
def spareBonds (bonds : List Nat) : List (Nat × Nat) :=
  (bonds.filter (· < 312)).zip ((List.range 8).map (312 + ·) |>.filter (fun b => !bonds.contains b))

/-- A port's failed bonds are mapped onto its spares; with more of them than spares the port cannot be
used, and its tile is bad (R120). -/
def portFail (s : State) (d : Nat) (f : PortFail) : State :=
  let bonds := f.bonds.map Fin.val
  if bonds.length > 8 then
    beyondRepair (logBist s d f.row f.col 8 false (bonds.headD 0) bonds.length 0) d f.row f.col
  else { s with dawn := { s.dawn with
    bonds := SMap.put s.dawn.bonds (512 * d + 32 * f.row + f.col) (spareBonds bonds) } }

/-- The vertical ports of a die end their training, and its DRAM initialises. -/
def trainPorts (s : State) (d : Nat) (fails : List PortFail) (restored : Bool) : State :=
  let s := trained s 1 d restored
  let s := fails.foldl (fun s f => portFail s d f) s
  let s := recordRepairs s 8 d
  dawnAdvance { s with dawn := { s.dawn with ports := setBit s.dawn.ports d } }

/-- `VERTICAL_PORT_TRAINING` (R120): `fails` are the ports of the die with bonds that fail. -/
def execVerticalPortTraining (d : DieId) (fails : List PortFail) (restored : Bool) (s : State) :
    Host.Outcome State Fault Refusal :=
  .next (if inStage s 5 && dieUp s d && !bitOf s.dawn.ports d then
    trainPorts s d fails restored else s)

/-! ### Self-test -/

/-- The soft-repair entry of a failing row (R310). -/
def repairEntry (f : BistFail) : Nat :=
  if f.kind = 1 then
    f.row + 2 ^ 4 * f.col + 2 ^ 9 * bitsOf f.loc 0 6 + 2 ^ 15 * bitsOf f.loc 6 13
  else f.row + 2 ^ 4 * f.col + 2 ^ 9 * bitsOf f.loc 0 5 + 2 ^ 14 * bitsOf f.loc 5 10

/-- Word 1 of a failure's entry (R314). -/
def failLoc (f : BistFail) : Nat :=
  if f.kind = 1 then f.loc % 2 ^ 32 else if f.kind = 3 || f.kind = 5 then f.loc % 2 ^ 24 else 0

/-- A failing row of DRAM or SRAM: remapped to a spare; or its bank is beyond repair, which one entry
reports. -/
def rowFail (s : State) (f : BistFail) : State :=
  let kind := if f.kind = 1 then 8 else 9
  let e := repairEntry f
  match useSpare s kind f.die e with
  | some t => logBist (lastErr t bistP 1) f.die f.row f.col f.kind true (failLoc f) (min 65535 f.count) 0
  | none =>
    let k := bankKey kind f.die f.row f.col (if kind = 8 then bitsOf e 9 6 else bitsOf e 9 5)
    if SMap.getD s.dawn.spares k 0 > bankSpares kind then s
    else
      let s : State := { s with dawn := { s.dawn with
        spares := SMap.put s.dawn.spares k (bankSpares kind + 1) } }
      logBist (beyondRepair s f.die f.row f.col) f.die f.row f.col (f.kind + 1) false (failLoc f)
        (min 65535 f.rows) 0

/-- Any other failing unit is beyond repair. -/
def unitFail (s : State) (f : BistFail) : State :=
  let i := 16 * f.die.val + f.row.val
  let s : State := if f.kind = 7 then
      let m := setBit (SMap.getD s.dawn.routers i 0) f.col
      wr { s with dawn := { s.dawn with routers := SMap.put s.dawn.routers i m } }
        bistP BIST_ROUTER_FAILED m i
    else s
  logBist (beyondRepair s f.die f.row f.col) f.die f.row f.col f.kind false
    (failLoc f) (min 65535 f.count) 0

/-- Whether a failure can come up in wave `w` of tower BIST or of tile BIST. -/
def failInWave (s : State) (tower : Bool) (w : Nat) (f : BistFail) : Bool :=
  dieUp s f.die && f.col.val / 8 == w
    && (if tower then f.kind == 1 && bitsOf f.loc 0 4 < 12
        else (f.kind == 3 && bitsOf f.loc 0 5 < 26)
          || (f.kind == 5 && 26 ≤ bitsOf f.loc 0 5 && bitsOf f.loc 0 5 ≤ 28)
          || f.kind == 6 || f.kind == 7)

/-- A wave begins, and its failures are found. -/
def bistWave (s : State) (tower : Bool) (fails : List BistFail) : State :=
  let w := s.dawn.waves
  let s := wr (wr s bistP BIST_PHASE (if tower then 1 else 2)) bistP BIST_WAVE w
  let s : State := { s with dawn := { s.dawn with waves := w + 1 } }
  (fails.filter (failInWave s tower w)).foldl (fun s f =>
    if f.kind = 1 || f.kind = 3 then rowFail s f else unitFail s f) s

/-- `BIST_WAVE_START` (R312 to R314): the next wave of the stage; after the fourth of stage 6, the
first of stage 7, before which the record's SRAM repairs are applied. -/
def execBistWaveStart (fails : List BistFail) (s : State) : Host.Outcome State Fault Refusal :=
  .next (if inStage s 6 then
      if s.dawn.waves < 4 then bistWave s true fails
      else
        let s := nextStage s 6
        bistWave ((upDies s).foldl (fun s d => recordRepairs s 9 d) s) false fails
    else if inStage s 7 && s.dawn.waves < 4 then bistWave s false fails
    else s)

/-- A budget in µs: tower or tile BIST. -/
def bistBudget (s : State) (tower : Bool) : Nat :=
  1000 * (if tower then max 10 (rd s bistP BIST_BUDGET_DRAM_MS)
    else max 1 (rd s bistP BIST_BUDGET_LOGIC_MS))

/-- A slice or tile is stopped on its budget. -/
def budgetExpire (s : State) (d row col : Nat) (tower : Bool) (us : Nat) : State :=
  let s := bistBad (bump s bistP BIST_BUDGET_FAILS) d row col
  let s := raise (lastErr s bistP 3) bistP 2
  logBist s d row col (if tower then 9 else 10) false 0 0 (min (2 ^ 32 - 1) us)

/-- `BIST_BUDGET_EXPIRE` (R312): in the wave that runs. -/
def execBistBudgetExpire (d : DieId) (row : Fin 16) (col : Fin 32) (us : Nat) (s : State) :
    Host.Outcome State Fault Refusal :=
  .next (if (inStage s 6 || inStage s 7) && dieUp s d && col.val / 8 + 1 == s.dawn.waves
      && us ≥ bistBudget s (inStage s 6) then
    budgetExpire s d row col (inStage s 6) us else s)

/-! ### The yield map (R315 to R317) -/

/-- The tiles that the supplied record declares bad. -/
def takeBadTiles (s : State) : State :=
  (recordEntries s 0x0A 0 2).foldl (fun s e =>
    let i := 16 * bitsOf e 0 2 + bitsOf e 2 4
    wr s bistP BIST_RECORD_BAD (setBit (rd s bistP BIST_RECORD_BAD i) (bitsOf e 6 5)) i) s

/-- Tiles that BIST counts bad and fuses do not, on the dies of the map. -/
def newDefects (s : State) : Nat :=
  ((List.range 64).map (fun i =>
    if bitOf s.dawn.mapDies (i / 16) then
      popCount 32 (rd s bistP BIST_BIST_BAD i &&& (0xFFFFFFFF - fuseBad s (i / 16) (i % 16)))
    else 0)).foldl (fun a b => a + b) 0

/-- Stage 8 forms the map of the dies that take part. -/
def formMap (s : State) : State :=
  let s := raise (wr s bistP BIST_PHASE 3) bistP 0
  let s := nextStage s 7
  if (upDies s).isEmpty then haltDawn s 0x13
  else
    let s := takeBadTiles s
    let s : State := { s with dawn := { s.dawn with
      mapFormed := true, mapDies := (upDies s).foldl setBit 0 } }
    let n := newDefects s
    let s := wr s bistP BIST_NEW_DEFECTS n
    let s := if n = 0 then s else raise (wr s dawnP DAWN_NEW_DEFECT 1) dawnP 5
    nextStage (compareDigest (setDigest s)) 8

/-- `YIELD_MAP_FORM` (R315): the fourth wave of tile BIST has ended. -/
def execYieldMapForm (s : State) : Host.Outcome State Fault Refusal :=
  .next (if inStage s 7 && s.dawn.waves == 4 then formMap s else s)

/-! ### The end of Dawn (R302, R311) -/

/-- The training sections that come from the firmware: at most one of each type and instance of 0x01 to 0x03,
0x05 and 0x07 (R307), so that a record has no more than 64 sections (R306). -/
def sectionsOk (l : List TrainSection) : Bool :=
  l.all (fun x => [1, 2, 3, 5, 7].contains x.1 && x.2.1 < (if x.1 = 1 then 8 else 4))
    && (l.map (fun x => (x.1, x.2.1))).eraseDups.length == l.length

/-- `CLASS_POWER` of a class at the end of Dawn: 300, 280, 220 or 120 W, scaled to the variant. -/
def classPower (s : State) (cls : Nat) : Nat := [300, 280, 220, 120].getD cls 0 * fuseLimit s / 1500

/-- Dawn ends. -/
def finishDawn (s : State) (sections : List TrainSection) : State :=
  let s := wr (wr (stageTime s 9) dawnP DAWN_STAGE 15) dawnP DAWN_DONE 1
  let s := (List.range 16).foldl (fun s i => wr s pwrP PWR_CLASS_POWER (classPower s (i % 4)) i) s
  beginEmit (raise s dawnP 2) sections

/-- `DAWN_DONE` (R302): every engine's start has ended; the emission of a record begins. -/
def execDawnDone (sections : List TrainSection) (s : State) : Host.Outcome State Fault Refusal :=
  if !sectionsOk sections then .fault (.malformed "DAWN_DONE")
  else .next (if inStage s 9 && (upOes s).all (fun e => bitOf s.dawn.engines e) then
    finishDawn s sections else s)

/-- A write of 1 to `REC_EMIT` (R311): ignored before Dawn has ended; merged with an emission in progress. -/
def recEmit (s : State) (sections : List TrainSection) : State :=
  if dawnOver s then beginEmit s sections else s

/-- `REC_EMIT` (R311). -/
def execRecEmit (req : PortId) (sections : List TrainSection) (s : State) :
    Host.Outcome State Fault Refusal :=
  if !sectionsOk sections then .fault (.malformed "REC_EMIT")
  else .next (fieldWrite s req dawnP DAWN_REC_EMIT 0 (fun s => recEmit s sections))

/-- `RECORD_EMITTED` (R311): host memory accepts `takes` bytes. -/
def execRecordEmitted (takes : Nat) (s : State) : Host.Outcome State Fault Refusal :=
  .next (if plazaUp s then endEmit s takes else s)

end Sys2Proof.Machine
end

