-- ==== Sys2Proof/Machine/Faults.lean ====
section
/-!
DEFINITION. Machine/Faults.lean: tiles that a die fences by itself (R295, R296), and the trip
triplets (R282).
-/
namespace Sys2Proof.Machine

/-- A tile is lost while the Plaza runs. -/
def tileLost (s : State) (n : Nat) (router slice : Bool) : State :=
  if plazaUp s then fenceTile s n router slice else s

/-- `TILE_CLOCK_LOSS` (R295): the slice keeps its data. -/
def execTileClockLoss (t : TileId) (s : State) : Host.Outcome State Fault Refusal :=
  .next (tileLost s t false false)

/-- `TILE_ROUTER_LOST` (R295): the router is marked failed. -/
def execTileRouterLost (t : TileId) (s : State) : Host.Outcome State Fault Refusal :=
  .next (tileLost s t true false)

/-- `SLICE_PORT_LOSS` (R295): the slice is lost. -/
def execSlicePortLoss (t : TileId) (s : State) : Host.Outcome State Fault Refusal :=
  .next (tileLost s t false true)

/-- The Midnight latch is set: the package is held in reset, and nothing more leaves it. -/
def midnight (s : State) (d t : Nat) : State :=
  let s := plazaReset s
  let s := wr (wr (wr s thermP THERM_MIDNIGHT 1) thermP THERM_TRIP_DIE d) thermP THERM_TRIP_TRIPLET t
  emit s .thermtrip

/-- `THERMAL_TRIP` (R282): two comparators of a triplet agree. The triplet is armed once the die's rails
are up, whatever Dusk has seen of them: `up` says so (log entry 179). -/
def execThermalTrip (d : DieId) (t : Fin 8) (up : Bool) (s : State) : Host.Outcome State Fault Refusal :=
  .next (if aonRuns s && up then midnight s d t else s)

/-- `TRIP_COMPARATOR_DEGRADED` (R282): a comparator has disagreed with the other two of its triplet
for 10 rounds. -/
def execTripComparatorDegraded (d : DieId) (t : Fin 8) (c : Fin 3) (s : State) :
    Host.Outcome State Fault Refusal :=
  .next (if sensorsRun s && dieRails s d then
      let m := setBit (rd s thermP THERM_TRIP_DEGRADED d) t
      let s := lastErr (wr s thermP THERM_TRIP_DEGRADED m d) thermP 5
      let k := setBit (SMap.getD s.dusk.comparators d 0) (3 * t + c)
      let s : State := { s with dusk := { s.dusk with comparators := SMap.put s.dusk.comparators d k } }
      logEvent (raise s thermP 4) 0x0E d 0 t
    else s)

end Sys2Proof.Machine
end

