-- ==== Sys2Proof/Machine/Security.lean ====
section
/-!
DEFINITION. Machine/Security.lean: life-cycle transitions and fuse programming (R322 to R325), scan
(R321), attestation (R331, R332), and the signing policy (R330).
-/
namespace Sys2Proof.Machine

/-! ### Fuse bits -/

/-- A copy of the identity fields with one bit blown. -/
def FuseCopy.blow (c : FuseCopy) (b : FuseBit) : FuseCopy :=
  match b.field with
  | .serial => { c with serial := setBit c.serial b.bit }
  | .seed => { c with seed := setBit c.seed b.bit }
  | .fwKey => { c with fwKey := setBit c.fwKey b.bit }
  | .svcKey => { c with svcKey := setBit c.svcKey b.bit }
  | .variant => { c with variant := setBit c.variant b.bit }
  | .state => { c with state := setBit c.state b.bit }
  | .bad => c

/-- A field of a copy, other than the tile-bad bits. -/
def FuseCopy.field (c : FuseCopy) (f : FuseField) : Nat :=
  match f with
  | .serial => c.serial
  | .seed => c.seed
  | .fwKey => c.fwKey
  | .svcKey => c.svcKey
  | .variant => c.variant
  | .state => c.state
  | .bad => 0

/-- The tile-bad bits of a map with one bit blown. -/
def blowBad (m : SMap Nat) (b : FuseBit) : SMap Nat :=
  SMap.put m (b.bit / 32) (setBit (SMap.getD m (b.bit / 32) 0) (b.bit % 32))

/-- The fuse array with one bit blown. -/
def Fuses.blow (f : Fuses) (b : FuseBit) : Fuses :=
  if b.field = .bad then
    if b.copy = 0 then { f with bad0 := blowBad f.bad0 b } else { f with bad1 := blowBad f.bad1 b }
  else if b.copy = 0 then { f with c0 := f.c0.blow b }
  else if b.copy = 1 then { f with c1 := f.c1.blow b }
  else { f with c2 := f.c2.blow b }

/-- Whether a fuse bit is blown. -/
def Fuses.has (f : Fuses) (b : FuseBit) : Bool :=
  if b.field = .bad then
    bitOf (SMap.getD (if b.copy = 0 then f.bad0 else f.bad1) (b.bit / 32) 0) (b.bit % 32)
  else
    bitOf ((if b.copy = 0 then f.c0 else if b.copy = 1 then f.c1 else f.c2).field b.field) b.bit

/-- The bits that any copy of a field holds as 1. -/
def Fuses.union (f : Fuses) (x : FuseField) : Nat :=
  f.c0.field x ||| f.c1.field x ||| f.c2.field x

/-! ### Staged values (R322) -/

/-- `n` words of a staging register, word i at bits [32i+31:32i]. -/
def stagedWords (s : State) (f : Fld) (n : Nat) : Nat :=
  leNat ((List.range n).flatMap (fun i => leBytes 4 (rd s secP f i)))

/-- The 23 bits of VARIANT, MAX_OP and LIMIT_W. -/
def stagedVariant (s : State) : Nat :=
  let v := rd s secP SEC_STAGE_VARIANT
  bitsOf v 0 7 + 2 ^ 7 * bitsOf v 16 16

/-- The bits of a field from `lo` on, `w` of them, that are 1 in a value: copy by copy. -/
def fieldBits (f : FuseField) (copies lo w v : Nat) : List FuseBit :=
  (List.range copies).flatMap (fun c =>
    ((List.range w).filter (fun b => bitOf v (lo + b))).map (fun b => ⟨f, c, lo + b⟩))

/-- The staged tile-bad bits, copy by copy. -/
def badBits (s : State) : List FuseBit :=
  (List.range 2).flatMap (fun c => (List.range 64).flatMap (fun i =>
    ((List.range 32).filter (fun b => bitOf (rd s secP SEC_STAGE_BAD i) b)).map
      (fun b => ⟨.bad, c, 32 * i + b⟩)))

/-- The state fuses, copy 1 to copy 3. -/
def stateBits (target : Nat) : List FuseBit :=
  (List.range 3).map (fun c => ⟨.state, c, target - 1⟩)

/-- The bits of a transition in programming order; `seed` is the identity seed. -/
def transitionBits (s : State) (target seed : Nat) : List FuseBit :=
  (if target = 1 then
    fieldBits .serial 3 0 64 (stagedWords s SEC_STAGE_SERIAL 2) ++ fieldBits .seed 3 0 256 seed
      ++ fieldBits .fwKey 3 0 256 (stagedWords s SEC_STAGE_FW_KEY 8)
      ++ fieldBits .svcKey 3 0 256 (stagedWords s SEC_STAGE_SVC_KEY 8)
  else if target = 2 then
    let v := stagedVariant s
    fieldBits .variant 3 0 4 v ++ fieldBits .variant 3 4 3 v ++ fieldBits .variant 3 7 16 v ++ badBits s
  else []) ++ stateBits target

/-- `a` has a 0 where `b` holds a 1. -/
def lacks (a b : Nat) : Bool := a &&& b != b

/-- A staged value has a 0 where a fuse already holds a 1. -/
def stagedLacks (s : State) (target : Nat) : Bool :=
  let f := s.fuses
  if target = 1 then
    lacks (stagedWords s SEC_STAGE_SERIAL 2) (f.union .serial)
      || lacks (stagedWords s SEC_STAGE_FW_KEY 8) (f.union .fwKey)
      || lacks (stagedWords s SEC_STAGE_SVC_KEY 8) (f.union .svcKey)
  else if target = 2 then
    lacks (stagedVariant s) (f.union .variant)
      || (List.range 64).any (fun i =>
        lacks (rd s secP SEC_STAGE_BAD i) (SMap.getD f.bad0 i 0 ||| SMap.getD f.bad1 i 0))
  else false

/-! ### Requests (R322 to R324) -/

/-- Whether a transition exists. -/
def transitionExists (from' target : Nat) : Bool :=
  (target == 4 && from' != 4) || (target == from' + 1 && target ≤ 3)

/-- VDD_FUSE in mV: the lower of its channels. -/
def fuseMv (s : State) : Nat := (min (reading s 606) (reading s 607)).toNat

/-- VDD_FUSE and the temperature of the Plaza allow programming. -/
def gateOk (s : State) : Bool :=
  fuseMv s ≥ 1710 && (List.range 16).all (fun i =>
    160 ≤ used s (512 + i) && used s (512 + i) ≤ 960)

/-- Dawn is complete, every District idle, and no image launched. -/
def quietPackage (s : State) : Bool :=
  dawnOver s && (List.range 4).all (fun d => distIdle s d && !distLaunched s d)

/-- Whether the service token is valid for a target (R323). -/
def tokenValid (s : State) (target : Nat) : Bool :=
  let w (i n : Nat) : List Byte := (List.range n).flatMap (fun k => leBytes 4 (rd s secP SEC_TOKEN (i + k)))
  let pub := w 0 16
  let m := (List.range 8).flatMap (fun i => leBytes 4 (rd s secP SEC_CHALLENGE i))
    ++ leBytes 8 (pkgSerial s) ++ leBytes 1 target
  sm3 pub == asDigest (fuseSvcKey s)
    && sm2Verify idSvc (beNat (pub.take 32), beNat (pub.drop 32)) m (beNat (w 16 8)) (beNat (w 24 8))

/-- A request ends with a result other than 0x01. -/
def lcFail (s : State) (code : Nat) : State :=
  let s : State := { s with sec := { s.sec with lc := none } }
  raise (lastErr (wr (wr s secP SEC_LC_RESULT code) secP SEC_LC_PHASE 0) secP code) secP 0

/-- A transition aborts at its present bit: VDD_FUSE at that moment is `mv`. -/
def lcAbort (s : State) (code index mv : Nat) : State :=
  lcFail (wr (wr s secP HDR_ERR_ADDR_LO (index % 2 ^ 12)) secP HDR_ERR_SYNDROME (mv % 2 ^ 16)) code

/-- The identity seed: a free value, with the bits already blown (log entry 30). -/
def drawSeed (s : State) : Nat × State :=
  let r := freeNat s
  (r.1 % 2 ^ 256 ||| s.fuses.union .seed, r.2)

/-- An accepted transition begins: bits already blown are skipped. -/
def beginLc (s : State) (target : Nat) : State :=
  let r := if target = 1 then drawSeed s else (0, s)
  let todo := (transitionBits r.2 target r.1).filter (fun b => !s.fuses.has b)
  wr { r.2 with sec := { r.2.sec with lc := some { target := target, todo := todo } } }
    secP SEC_LC_PHASE 2

/-- A write of `LC_REQ`; a block that is not ON takes no new work (R297). The conditions are looked at in the
order 0x03, then that of R324's table (DESIGN CHOICE, log entry 29). -/
def lcReq (s : State) (target confirm : Nat) : State :=
  if s.sec.lc.isSome || rd s secP HDR_STATE != 2 then s
  else
    let s := wr s secP SEC_BITS_WRITTEN 0
    let from' := lcState s
    if !transitionExists from' target then lcFail s 3
    else if !quietPackage s then lcFail s 2
    else if stagedLacks s target
        || (target == 4 && confirm != (if from' = 0 then 0 else pkgSerial s % 2 ^ 16)) then lcFail s 6
    else
      let ok := target ≠ 3 || tokenValid s target
      let s := if target = 3 then freshChallenge s else s
      if !ok then lcFail s 5
      else if !gateOk s then lcFail s 4
      else beginLc s target

/-- `LC_REQ` (R322 to R324). -/
def execLcReq (req : PortId) (target : Fin 8) (confirm : BitVec 16) (s : State) :
    Host.Outcome State Fault Refusal :=
  .next (fieldWrite s req secP SEC_TARGET 0 (fun s => lcReq s target confirm.toNat))

/-! ### Programming (R325) -/

/-- The field of R325 that a bit belongs to. -/
def FuseBit.fieldNo (b : FuseBit) : Nat :=
  match b.field with
  | .serial => 0
  | .seed => 1
  | .fwKey => 2
  | .svcKey => 3
  | .variant => if b.bit < 4 then 4 else if b.bit < 7 then 5 else 6
  | .bad => 7
  | .state => 8

/-- One pulse on the next bit; `ok` says whether it reads back blown. The gate is checked again before
the first bit of a field. -/
def fusePulse (s : State) (ok : Bool) : State :=
  match s.sec.lc with
  | none => s
  | some l => match l.todo with
    | [] => s
    | b :: rest =>
      if l.newField && !(gateOk s && quietPackage s) then
        lcAbort s (if gateOk s then 2 else 4) l.index (fuseMv s)
      else if ok then
        let next := { l with
          todo := rest, tries := 0, index := l.index + 1
          newField := (rest.head?.map FuseBit.fieldNo) != some b.fieldNo }
        bump { s with fuses := s.fuses.blow b, sec := { s.sec with lc := some next } }
          secP SEC_BITS_WRITTEN
      else if l.tries ≥ 2 then lcAbort s 8 l.index (fuseMv s)
      else { s with sec := { s.sec with lc := some { l with tries := l.tries + 1, newField := false } } }

/-- `FUSE_PULSE` (R325). -/
def execFusePulse (ok : Bool) (s : State) : Host.Outcome State Fault Refusal :=
  .next (if plazaUp s then fusePulse s ok else s)

/-- `FUSE_SUPPLY_SAG` (R325): VDD_FUSE falls to `mv`, below 1.62 V, during a pulse. -/
def execFuseSupplySag (mv : Fin 1620) (s : State) : Host.Outcome State Fault Refusal :=
  .next (match s.sec.lc with
    | some l => if plazaUp s && !l.todo.isEmpty then lcAbort s 7 l.index mv else s
    | none => s)

/-- `LC_TRANSITION_DONE` (R325): every bit is blown; the Plaza resets, and Dawn runs. -/
def execLcTransitionDone (s : State) : Host.Outcome State Fault Refusal :=
  .next (match s.sec.lc with
    | some l => if plazaUp s && l.todo.isEmpty then leaveReset (plazaReset s) else s
    | none => s)

/-! ### Scan (R321) -/

/-- Test facilities exist: not in FIELD or SCRAP (R320). -/
def testable (s : State) : Bool := lcState s != 2 && lcState s != 4

/-- A launch is stopped by the package: its tiles stop, and those that have not started count as stopped
(DEDUCED, log entry 172). -/
def stopLaunch (s : State) (d : Nat) (j : Job) : State :=
  match j.work with
  | .launch slot im args false _ =>
    let j := { j with work := .launch slot im args true (im.tiles.zipIdx.map (fun x => (x.2, 5, 0))) }
    abortColls (launchPoll (setJob s d j) d j) d (launchSlot j)
  | .launch _ im _ true _ => im.tiles.foldl (fun s n => endOfTile (haltTile s n) n) s
  | _ => s

/-- A bit of `TEST_CTRL` is set: every launch stops, and the private key is erased. -/
def scanOn (s : State) : State :=
  let s := (List.range 4).foldl (fun s d => (proc s d).running.foldl (fun s j => stopLaunch s d j) s) s
  wr { s with sec := { s.sec with key := none, scanned := true } } secP SEC_ID_READY 0

/-- A write of `TEST_CTRL` (R321). -/
def testCtrl (s : State) (scan engine : Bool) : State :=
  if testable s then
    let s := if scan || engine then scanOn s else s
    wr (wr s secP SEC_SCAN_EN (ofBool scan)) secP SEC_ENGINE_EN (ofBool engine)
  else s

/-- `SCAN_ENABLE` (R321): a write of `TEST_CTRL`. -/
def execScanEnable (req : PortId) (scan engine : Bool) (s : State) :
    Host.Outcome State Fault Refusal :=
  .next (fieldWrite s req secP SEC_SCAN_EN 0 (fun s => testCtrl s scan engine))

/-! ### Attestation (R331, R332) -/

/-- The District part of a report, bytes 0x0A0 to 0x2DF. -/
def reportDistrict (s : State) (d : Nat) : List Byte :=
  let slots := (List.range 16).map (imageAt s d)
  let mask (p : Image → Bool) : Nat :=
    (slots.zipIdx.filter (fun x => x.1.any p)).foldl (fun m x => setBit m x.2) 0
  leBytes 2 (qdieMask s d) ++ leBytes 2 (mask (fun _ => true)) ++ leBytes 2 (mask Image.verified)
    ++ leBytes 1 (rd s (districtP d) DISTRICT_SIGN_REQUIRED) ++ List.replicate 25 0
    ++ digestBytes (imgKeyDigest s d)
    ++ slots.flatMap (fun x => match x with
      | some im => digestBytes im.digest
      | none => List.replicate 32 0)

/-- The public key P (R326). -/
def identityPub (s : State) : Nat × Nat := sm2MulG (identityKey s)
def pubBytes (p : Nat × Nat) : List Byte := beBytes 32 p.1 ++ beBytes 32 p.2

/-- What a report's signature covers: bytes 0x000 to 0x31F. `nonce` is the 32 bytes of the set. -/
def reportBody (s : State) (d : Nat) (pkg : Bool) : List Byte :=
  let nonce := (List.range 8).flatMap (fun i => leBytes 4 (rd s secP SEC_NONCE (8 * d + i)))
  ascii [0x57, 0x58, 0x41, 0x52] ++ leBytes 2 0x100 ++ leBytes 1 (if pkg then 0xF else d)
    ++ leBytes 1 (lcState s) ++ leBytes 8 (pkgSerial s) ++ leBytes 1 0xB0
    ++ leBytes 1 (bitsOf (fuseVariant s) 0 4) ++ leBytes 2 (rd s dawnP DAWN_FW_IF_VER)
    ++ List.replicate 4 0 ++ leBytes 8 s.sec.attCount ++ nonce
    ++ digestBytes s.sec.fwDigest ++ digestBytes s.sec.recDigest ++ digestBytes s.dawn.digest
    ++ (if pkg then List.replicate 576 0 else reportDistrict s d)
    ++ pubBytes (identityPub s)

/-- A report: its body signed with the identity key and a free random number. -/
def makeReport (s : State) (d : Nat) (pkg : Bool) : List Byte × State :=
  let b := reportBody s d pkg
  let r := freeNat s
  let g := sm2Sign idAtt (s.sec.key.getD 0) (r.1 % (sm2n - 1) + 1) b
  (b ++ leBytes 32 g.1 ++ leBytes 32 g.2, r.2)

/-- A write that sets `ATT_GO` of set `d`, by host `port`; a block that is not ON takes no new work
(R297). -/
def attGo (s : State) (port d : Nat) (pkg : Bool) : State :=
  let p := secP
  let owner := port == ownerPort s
  let s := if owner then wr s p SEC_ATT_PKG (ofBool pkg) d else s
  if rd s p SEC_ATT_STATUS d = 1 || rd s p HDR_STATE ≠ 2 then s
  else if !dawnOver s || lcState s == 0 || s.sec.scanned then raise (wr s p SEC_ATT_STATUS 3 d) p 2
  else
    let s : State := { s with sec := { s.sec with attCount := s.sec.attCount + 1 } }
    let r := makeReport s d (owner && pkg)
    let a := rd s p SEC_ATT_ADDR_LO d + 2 ^ 32 * rd s p SEC_ATT_ADDR_HI d
    let s := r.2
    wr { s with sec := { s.sec with att := s.sec.att ++ [⟨d, port, a, r.1⟩] } } p SEC_ATT_STATUS 1 d

/-- `ATT_GO` (R331, R342). -/
def execAttGo (req : PortId) (d : DistId) (pkg : Bool) (s : State) :
    Host.Outcome State Fault Refusal :=
  let off := fldOff SEC_ATT_GO d
  .next (fieldWrite s req secP SEC_ATT_GO d (fun s =>
    if ownerOnly s req secP off (1 + 2 * ofBool pkg) then regRefused s req (secP.base + off) errAccess true
    else attGo s req d pkg))

/-- A report is written through the port of the host that asked; what `ATT_STATUS` reads when host
memory refuses it is a free value. -/
def attDone (s : State) (d : Nat) (refused : Bool) : State :=
  match s.sec.att.find? (fun x => x.dist == d) with
  | none => s
  | some x =>
    let s : State := { s with sec := { s.sec with att := s.sec.att.filter (fun y => y.dist != d) } }
    if refused then
      let r := freeNat (hostRefused s x.port)
      wr r.2 secP SEC_ATT_STATUS r.1 d
    else
      let s := bytesOut (emit s (.hostWrite x.port x.addr x.bytes)) x.port x.bytes.length
      raise (wr s secP SEC_ATT_STATUS 2 d) secP 1

/-- `ATT_DONE` (R331, R332). -/
def execAttDone (d : DistId) (refused : Bool) (s : State) : Host.Outcome State Fault Refusal :=
  .next (if plazaUp s then attDone s d refused else s)

/-! ### The signing policy (R330) -/

/-- A write of a policy field of District `d`: dropped while `LOCK` is set, and dropped with an
interrupt unless the District is idle; a change empties the District's image slots. -/
def policyWrite (s : State) (d : Nat) (p : PageId) (f : Fld) (i bit v : Nat) : State :=
  if locked s p then s
  else if !distIdle s d then raise s p bit
  else
    let v := v % 2 ^ f.wid
    if rd s p f i = v then s else emptySlots (wr s p f v i) d (fun _ => true)

/-- `SIGN_POLICY_WRITE` (R330): `word` 0 is `SIGN_REQUIRED`, and 1 to 8 are `IMG_KEY_DIGEST` 0 to 7. -/
def execSignPolicyWrite (req : PortId) (d : DistId) (word : Fin 9) (value : BitVec 32) (s : State) :
    Host.Outcome State Fault Refusal :=
  .next (if word.val = 0 then
      fieldWrite s req (districtP d) DISTRICT_SIGN_REQUIRED 0 (fun s =>
        policyWrite s d (districtP d) DISTRICT_SIGN_REQUIRED 0 3 (bitsOf value.toNat 3 1))
    else
      let i := 8 * d.val + (word.val - 1)
      fieldWrite s req secP SEC_IMG_KEY_DIGEST i (fun s =>
        policyWrite s d secP SEC_IMG_KEY_DIGEST i 3 value.toNat))

end Sys2Proof.Machine
end

