-- ==== Sys2Proof/Machine/OpticsOps.lean ====
section
/-!
DEFINITION. Machine/OpticsOps.lean: the state machine of a block (R297), an optical engine's start
and drain (R187, R190, R208), lanes that join and leave a link (R192, R193, R201 to R203), and the
moves of a Crossing (R184, R185).
-/
namespace Sys2Proof.Machine

/-! ### Blocks (R297) -/

/-- A write of `ENABLE` to a page's block; `start` and `drain` are what its start and drain do. -/
def blockEnable (s : State) (p : PageId) (on : Bool) (start drain : State → State) : State :=
  let s := wr s p HDR_ENABLE (ofBool on)
  if rd s p HDR_FENCED = 1 then s
  else match rd s p HDR_STATE, on with
    | 0, true => start (wr s p HDR_STATE 1)
    | 2, false => drain (wr s p HDR_STATE 3)
    | 3, _ => wr s p HDR_PEND_ENABLE (ofBool on)
    | _, _ => s

/-- A block's start ends: ON, or DRAINING at once when `ENABLE` was cleared meanwhile. -/
def blockStarted (s : State) (p : PageId) (drain : State → State) : State :=
  if rd s p HDR_ENABLE = 1 then wr s p HDR_STATE 2 else drain (wr s p HDR_STATE 3)

/-! ### Fibres and waveguides (R181 to R183) -/

/-- A waveguide field: `ALLOC` and the position. -/
def wgAlloc (f : Nat) : Bool := bitOf f 7
def wgPos (f : Nat) : Nat := f % 16

/-- Whether two waveguide fields stand for the same place. -/
def wgSame (a b : Nat) : Bool := wgAlloc a == wgAlloc b && (!wgAlloc a || wgPos a == wgPos b)

def wgCurrent (s : State) (e w : Nat) : Nat := rd s (crossingP e) CROSSING_CURRENT w

/-- The link of a position of an engine, and its fibre. -/
def posLink (e pos : Nat) : Nat := 4 * e + pos / 4
def posFibre (pos : Nat) : Nat := pos % 4

/-- Whether a waveguide of an engine holds a position now. -/
def posHeld (s : State) (e pos : Nat) : Bool :=
  (List.range 8).any (fun w => wgAlloc (wgCurrent s e w) && wgPos (wgCurrent s e w) == pos)

/-- Whether the applied allocation of an engine holds a position. -/
def posTarget (s : State) (e pos : Nat) : Bool :=
  (crossing s e).targets.any (fun kv => wgAlloc kv.2 && wgPos kv.2 == pos)

/-- The eight lanes of fibre `f`, in a 32-bit lane mask; and the lanes of a mask of fibres. -/
def fibreLanes (f : Nat) : Nat := 0xFF * 2 ^ (8 * f)
def fibresLanes (m : Nat) : Nat :=
  ((List.range 4).filter (bitOf m)).foldl (fun a f => a + fibreLanes f) 0

/-- A lane mask without some lanes. -/
def lanesMinus (a b : Nat) : Nat := a &&& (0xFFFFFFFF - b % 2 ^ 32)

/-! ### Directions that come into service -/

/-- What the transmit direction of a link holds once it has trained anew. Flits that no HANDOVER has
come for go out again (DESIGN CHOICE, log entry 79). -/
def freshTx (l : Nat) (x : Link) : Link :=
  { x with
    txq := if x.handing then undelivered x x.retry else x.txq
    mid := x.mid && !x.handing
    retry := [], next := 0, credit := rxBuffer l, replays := [], replaying := false
    txTrain := false, txAll := false, txLost := [], txOn := true, txDead := false
    handing := false, txSlot := 0, forced := [] }

/-- What the receive direction of a link holds once it has trained anew. -/
def freshRx (x : Link) : Link :=
  let rx := (splitStream x.rx).1
  { x with
    expect := 0, any := false, nak := false, rx := rx, foreign := rx.length, freed := 0
    rxTrain := false, rxAll := false, rxLost := [], rxOn := true, rxDead := false
    rxSlot := 0, corr := [], joins := [], taking := false }

/-- The transmit direction of a link comes into service; on an Alley a beacon is sent at once (R217). -/
def txStarts (s : State) (l : Nat) : State :=
  let s := setLink s l (freshTx l (link s l))
  if isAlley l then sendBeacon s l else s

/-- The receive direction of a Boulevard line has trained. -/
def lineTrained (s : State) (l : Nat) : State :=
  setLink (wr s (blvdP (linkEngine l)) BLVD_LINE_STATE 2 (linkLine l)) l (freshRx (link s l))

/-- A direction of an Alley runs once it has 4 lanes, unless it went down and waits for a RETRAIN or a
grant (R183, R203). -/
def alleySettle (s : State) (l : Nat) : State :=
  let st := rd s (alleyP l) ALLEY_LSTATE
  if st = 0 || st = 5 then s
  else
    let x := link s l
    let r := !x.rxOn && !x.rxDead && !x.rxTrain && rxWidth s l ≥ 4
    let t := !x.txOn && !x.txDead && !x.txTrain && txWidth s l ≥ 4
    let s := if st = 1 && (r || t) then wr s (alleyP l) ALLEY_LSTATE 2 else s
    let s := if r then setLink s l (freshRx (link s l)) else s
    if t then txStarts s l else s

/-- Lanes join an Alley, received and sent, where that direction has not gone down. -/
def joinLanes (s : State) (l rx tx : Nat) : State :=
  let p := alleyP l
  let rx := if (link s l).rxDead then 0 else lanesMinus rx (rd s p ALLEY_RX_LANES)
  let tx := if (link s l).txDead then 0 else lanesMinus tx (rd s p ALLEY_TX_LANES)
  let s := if rx = 0 then s else setRxLanes s l (rd s p ALLEY_RX_LANES ||| rx)
  let s := if tx = 0 then s else setTxLanes s l (rd s p ALLEY_TX_LANES ||| tx)
  let fs := (List.range 4).filter (fun f => (rx ||| tx) &&& fibreLanes f != 0)
  alleySettle (wr s p ALLEY_FIBRE_MASK (fs.foldl setBit (rd s p ALLEY_FIBRE_MASK))) l

/-! ### The Crossing's cells (R187) -/

/-- The calibrated code of a cell's heater (0 or 1) for the state that the cell is in. -/
def calCode (x : Cross) (cell heater : Nat) : Option Nat :=
  SMap.find x.cal (4 * cell + 2 * ofBool (x.crossed.contains cell) + heater)

/-- The heaters of a cell take the codes of its state. -/
def driveCell (s : State) (e cell : Nat) : State :=
  let x := crossing s e
  let p := crossingP e
  wr (wr s p CROSSING_HTR_A ((calCode x cell 0).getD 0) cell) p CROSSING_HTR_B ((calCode x cell 1).getD 0) cell

/-- Cells of a path are set to bar or cross (R184, R186). -/
def setCells (s : State) (e : Nat) (cs : List CellSet) : State :=
  cs.foldl (fun s c =>
    let x := crossing s e
    let rest := x.crossed.filter (fun k => k != c.cell.val)
    driveCell (setCrossing s e { x with crossed := if c.cross then c.cell.val :: rest else rest }) e c.cell) s

/-- The calibrated codes of a cell: for bar and for cross. -/
def putCal (m : SMap Nat) (cell barA barB crossA crossB : Nat) : SMap Nat :=
  SMap.put (SMap.put (SMap.put (SMap.put m (4 * cell) barA) (4 * cell + 1) barB) (4 * cell + 2) crossA)
    (4 * cell + 3) crossB

/-- Cells are calibrated (R187). -/
def calibrate (s : State) (e : Nat) (cs : List CellCal) : State :=
  let x := crossing s e
  let s := setCrossing s e { x with
    cal := cs.foldl (fun m c => putCal m c.cell c.barA c.barB c.crossA c.crossB) x.cal }
  cs.foldl (fun s c => driveCell s e c.cell) s

/-- The worst loss of a live path is measured anew: a free value, 0 where no path is live (R211; log entry
173). -/
def measureLoss (s : State) (e : Nat) : State :=
  let r := freeNat s
  let live := (List.range 8).any (fun w => wgAlloc (wgCurrent s e w))
  wr r.2 (crossingP e) CROSSING_WORST_LOSS (if live then r.1 % 256 else 0)

/-! ### Moves: after the release (R184) -/

/-- A move shows its waveguide and step. -/
def showMove (s : State) (e : Nat) : State :=
  let p := crossingP e
  match (crossing s e).cur with
  | some m => wr (wr s p CROSSING_WG m.w) p CROSSING_STEP m.step
  | none => wr s p CROSSING_STEP 0

/-- The step of the move in progress. -/
def setStep (s : State) (e : Nat) (m : Move) (k : Nat) : State :=
  showMove (setCrossing s e { crossing s e with cur := some { m with step := k } }) e

/-- An Alley for which the engine holds no position any more is unallocated. -/
def settleAlloc (s : State) (l : Nat) : State :=
  if !alleyUp s l
      && (List.range 4).all (fun f => !posHeld s (linkEngine l) (4 * linkDir l + f)) then
    wr s (alleyP l) ALLEY_LSTATE 0
  else s

/-- A waveguide leaves its position: its fibre is live no more. -/
def vacate (s : State) (e w : Nat) : State :=
  let cur := wgCurrent s e w
  let l := posLink e (wgPos cur)
  let s := wr s (crossingP e) CROSSING_CURRENT 0 w
  if wgAlloc cur then
    settleAlloc (wr s (alleyP l) ALLEY_FIBRE_MASK (clearBit (rd s (alleyP l) ALLEY_FIBRE_MASK)
      (posFibre (wgPos cur)))) l
  else s

/-- A fibre of an Alley is to be trained afresh: what its lanes met before counts no more. -/
def forgetLanes (s : State) (l f : Nat) : State :=
  let x := link s l
  let lanes := fibreLanes f
  let keep (k : Nat) : Bool := !bitOf lanes k
  let s := setLink s l { x with
    good := x.good.filter (fun kv => keep kv.1), relocks := x.relocks.filter (fun kv => keep kv.1)
    searched := x.searched.filter keep, forced := x.forced.filter (fun kv => keep kv.1)
    barred := clearBit x.barred f, txDead := false, rxDead := false }
  let s := if x.rxOn then s else forgetPartner s l
  wr s (alleyP l) ALLEY_RX_DROPPED (lanesMinus (rd s (alleyP l) ALLEY_RX_DROPPED) lanes)

/-- Steps 2 and 3 of a move: the cells of its paths are set, cells in fault that it touches are
recalibrated, and the fibre is offered: by a GRANT_REQ where an Alley to the neighbour is up, else by
training, which the partner's is awaited for (`moveTrains`). -/
def rephase (s : State) (e : Nat) (m : Move) : State :=
  let p := crossingP e
  let s := vacate s e m.w
  let x := crossing s e
  let hit := x.recal.filter (fun c => m.cells.any (fun k => k.cell.val == c))
  let s := calibrate (bump s p HDR_ERR_CORR_COUNT hit.length) e
    (m.recals.filter (fun k => hit.contains k.cell.val))
  let s := measureLoss (setCells s e m.cells) e
  let x := crossing s e
  let s := setCrossing s e { x with recal := x.recal.filter (fun c => !hit.contains c) }
  if !wgAlloc m.target then setStep s e m 2
  else
    let l := posLink e (wgPos m.target)
    let f := posFibre (wgPos m.target)
    let s := setStep (forgetLanes s l f) e m 3
    if alleyUp s l then sendMsg s l 3 f
    else
      let st := rd s (alleyP l) ALLEY_LSTATE
      let s := if st = 0 || st = 5 then wr s (alleyP l) ALLEY_LSTATE 1 else s
      sendTraining s l (bitList 32 (fibreLanes f))

/-- The link and the fibre of the position that a waveguide holds. -/
def wgLink (s : State) (e w : Nat) : Nat := posLink e (wgPos (wgCurrent s e w))
def wgFibre (s : State) (e w : Nat) : Nat := posFibre (wgPos (wgCurrent s e w))

/-- A release of the move in progress has completed: the waveguide is vacated, and after the last release
the move goes on (R184, R186). -/
def relDone (s : State) (e w : Nat) : State :=
  match (crossing s e).cur with
  | some m =>
    if m.step = 1 && m.rels.contains w then
      let m := { m with rels := m.rels.filter (fun k => k != w), waits := m.waits.filter (fun k => k != w) }
      let s := vacate (setCrossing s e { crossing s e with cur := some m }) e w
      if m.rels.isEmpty then rephase s e m else s
    else s
  | none => s

/-! ### Lanes that leave -/

/-- An Alley that carries data and whose directions are both down is down. -/
def bothDown (s : State) (l : Nat) : State :=
  let x := link s l
  if alleyUp s l && !draining s l && !x.txOn && !x.rxOn then wr s (alleyP l) ALLEY_LSTATE 5 else s

/-- The directions of an Alley that have fewer than 4 lanes: those sent, and those received (R203). -/
def thinTx (s : State) (l : Nat) : List Nat :=
  if (link s l).txOn && txWidth s l < 4 then [l] else []
def thinRx (s : State) (l : Nat) : List (Nat × Nat) :=
  if (link s l).rxOn && rxWidth s l < 4 then [(l, 5)] else []

/-- A fibre's lanes leave an Alley in both directions. -/
def fibreLeaves (s : State) (l f : Nat) : State :=
  let p := alleyP l
  let lanes := fibreLanes f
  let s := if rd s p ALLEY_RX_LANES &&& lanes = 0 then s
    else setRxLanes s l (lanesMinus (rd s p ALLEY_RX_LANES) lanes)
  let s := if rd s p ALLEY_TX_LANES &&& lanes = 0 then s
    else setTxLanes s l (lanesMinus (rd s p ALLEY_TX_LANES) lanes)
  wr s p ALLEY_FIBRE_MASK (clearBit (rd s p ALLEY_FIBRE_MASK) f)

/-- An Alley's last fibre leaves it: both directions go down, to a state, and train again with the next. -/
def lastGone (s : State) (l st : Nat) : State :=
  let s := linkDown (wr s (alleyP l) ALLEY_FIBRE_MASK 0) l st
  setLink s l { link s l with txDead := false, rxDead := false }

/-- The fibre of a release that ends leaves its Alley; one that drained is unallocated, or trains where
another waveguide holds a position of it (R184). -/
def fibreGone (s : State) (e w : Nat) : State :=
  let l := wgLink s e w
  let f := wgFibre s e w
  let others := (List.range 8).any (fun k => k != w && wgAlloc (wgCurrent s e k) && wgLink s e k == l)
  if draining s l then lastGone s l (ofBool others)
  else if clearBit (rd s (alleyP l) ALLEY_FIBRE_MASK) f = 0 && alleyUp s l then lastGone s l 1
  else
    let s := fibreLeaves s l f
    bothDown (dirsDown s (thinTx s l) (thinRx s l)) l

/-- An Alley whose directions are both down is down. Releases in progress on an Alley of which a direction went
down complete at once, and their fibres are gone in both (R185). -/
def afterDown (s : State) (l : Nat) : State :=
  let s := bothDown s l
  let e := linkEngine l
  match (crossing s e).cur with
  | some m =>
    (m.rels.filter (fun w => wgLink s e w == l)).foldl (fun s w => relDone (fibreGone s e w) e w) s
  | none => s

/-- A direction of an Alley that has fewer than 4 lanes goes down (R203). -/
def checkWidth (s : State) (l : Nat) : State :=
  if !isAlley l || (thinTx s l).isEmpty && (thinRx s l).isEmpty then s
  else afterDown (dirsDown s (thinTx s l) (thinRx s l)) l

/-- An Alley goes down in both directions, to a state. -/
def alleyFalls (s : State) (l st : Nat) : State := afterDown (linkDown s l st) l

/-- A fibre's lanes leave an Alley in both directions. An Alley that keeps positions and no live fibre
trains again when its partner takes one (R182). -/
def leaveFibre (s : State) (l f : Nat) : State :=
  if clearBit (rd s (alleyP l) ALLEY_FIBRE_MASK) f = 0 && alleyUp s l then afterDown (lastGone s l 1) l
  else checkWidth (fibreLeaves s l f) l

/-- A lane of an Alley is dropped, by this receiver (`mine`) or by the partner's (R201, R209). -/
def dropLane (s : State) (l lane cause : Nat) (mine : Bool) : State :=
  let p := alleyP l
  let s := if mine then
      let s := setRxLanes s l (clearBit (rd s p ALLEY_RX_LANES) lane)
      wr s p ALLEY_RX_DROPPED (setBit (rd s p ALLEY_RX_DROPPED) lane)
    else setTxLanes s l (clearBit (rd s p ALLEY_TX_LANES) lane)
  let s := bump s p ALLEY_LANE_DROPS
  let s := wr s p HDR_ERR_ADDR_LO (lane + 2 ^ 5 * (cause % 8) + 2 ^ 8 * ofBool mine)
  let s := raise (lastErr s p 2) p 0
  if mine then sendMsg s l 6 lane else s

/-- The drop of a Boulevard lane is counted and logged, with a last-error code (R210). -/
def logLineDrop (s : State) (l cause code : Nat) : State :=
  let p := blvdP (linkEngine l)
  let s := wr s p HDR_ERR_ADDR_LO (linkLine l + 2 ^ 5 * (cause % 8))
  raise (bump (lastErr s p code) p BLVD_LANE_DROPS) p 1

/-- A Boulevard lane is dropped and leaves service (R202): what this package receives on the line
(`mine`), of which its sender is told, or what it sends. -/
def dropLine (s : State) (l cause code : Nat) (mine : Bool) : State :=
  let s := logLineDrop s l cause code
  if mine then dirsDown (sendMsg s (revLink l) 6 (linkLine l)) [] [(l, 3)] else dirsDown s [l] []

/-- The pilot of an engine fails its check: line 0 and the cause are logged (R210). -/
def logPilot (s : State) (e cause : Nat) : State :=
  let p := blvdP e
  raise (lastErr (wr s p HDR_ERR_ADDR_LO (2 ^ 5 * (cause % 8))) p 4) p 2

/-- The pilot of an engine is lost, for a cause of R209: its Boulevard goes down whole, since no ring of it
can be checked (R190). -/
def pilotLost (s : State) (e cause : Nat) : State :=
  let p := blvdP e
  let was := rd s p BLVD_PILOT_LOCKED == 1
  let ls := (List.range 31).map (fun i => blvdLink e (i + 1))
  let rs := (ls.filter (fun l => lineState s e (linkLine l) != 3)).map (fun l => (l, 0))
  let s := dirsDown s ls rs
  let s := wr (wr (wr s p BLVD_UP 0) p BLVD_PILOT_LOCKED 0) p BLVD_LINE_STATE 0 0
  if was || cause = 3 then logPilot s e cause else s

/-- The comb line or the DFB line of an engine's last fault. -/
def logComb (s : State) (e k : Nat) : State :=
  wr s (oeP e) HDR_ERR_ADDR_LO (bitsOf (rd s (oeP e) HDR_ERR_ADDR_LO) 0 3 + 2 ^ 3 * k)
def logDfb (s : State) (e line : Nat) : State :=
  wr s (oeP e) HDR_ERR_ADDR_LO (line + 2 ^ 3 * bitsOf (rd s (oeP e) HDR_ERR_ADDR_LO) 3 5)

/-- A dark line is logged in the `BLVD` page, with the cause that its light is lost (R210). -/
def logDark (s : State) (e k : Nat) : State :=
  let b := blvdP e
  raise (lastErr (wr s b HDR_ERR_ADDR_LO (k + 2 ^ 5 * 2)) b 1) b 0

/-- A comb line of an engine is marked dark (R190): its lane is dropped and leaves service (R202). -/
def lineGoesDark (s : State) (e k : Nat) : State :=
  let o := oeP e
  let l := blvdLink e k
  let st := lineState s e k
  let used := st == 1 || st == 2 || (link s l).txOn
  let s := raise (lastErr (logComb s e k) o 3) o 1
  let s := if k = 0 then pilotLost s e 2
    else
      let s := if used then logLineDrop s l 2 2 else s
      let s := if st == 2 then sendMsg s (revLink l) 6 k else s
      linksDown s [(l, 0)]
  let s := wr s o OE_ELS_DARK (setBit (rd s o OE_ELS_DARK) k)
  let s := logDark s e k
  if rd s o OE_ELS_DARK = 0xFFFFFFFF then raise (lastErr s o 4) o 2 else s

/-! ### Starting an engine (R187, R190, R208, R300) -/

/-- Whether two allocated waveguides of eight target fields name one position. -/
def targetsClash (ts : List Nat) : Bool :=
  let ps := (ts.filter wgAlloc).map wgPos
  ps.eraseDups.length != ps.length

/-- The target fields of the `CROSSING` page. -/
def targetsOf (s : State) (e : Nat) : List Nat :=
  (List.range 8).map (fun w => rd s (crossingP e) CROSSING_TARGET w)

/-- The allocation of R182's table. -/
def defaultAlloc : List Nat := [0x80, 0x81, 0x84, 0x85, 0x88, 0x89, 0x8C, 0x8D]

/-- Whether the Dawn record holds an allocation that an engine can take (R182). -/
def allocRecorded (s : State) (e : Nat) : Bool :=
  let ts := recordEntries s 6 e 1
  ts.length = 8 && !targetsClash ts

/-- The allocation that an engine takes at its start: that of a valid Dawn record, or the default
(R182, R307). -/
def dawnAlloc (s : State) (e : Nat) : List Nat :=
  if allocRecorded s e then recordEntries s 6 e 1 else defaultAlloc

/-- The waveguides take the allocation of the start, and each direction that holds a fibre trains. -/
def allocateAll (s : State) (e : Nat) : State :=
  let p := crossingP e
  let ts := dawnAlloc s e
  let s := ts.zipIdx.foldl (fun s x =>
    wr s p CROSSING_CURRENT (if wgAlloc x.1 then 0x80 + wgPos x.1 else 0) x.2) s
  let s := setCrossing s e { crossing s e with
    targets := ts.zipIdx.map (fun x => (x.2, x.1)), todo := [], cur := none, failed := false }
  let s := wr (wr (wr s p CROSSING_BUSY 0) p CROSSING_PENDING 0) p CROSSING_STEP 0
  (List.range 4).foldl (fun s d =>
    let l := 4 * e + d
    let x := link s l
    let fs := (List.range 4).filter (fun f => ts.any (fun t => wgAlloc t && wgPos t == 4 * d + f))
    let s := wr (wr s (alleyP l) ALLEY_LSTATE (ofBool !fs.isEmpty)) (alleyP l) ALLEY_FIBRE_MASK 0
    let s := forgetPartner (wr (setRxLanes (setTxLanes s l 0) l 0) (alleyP l) ALLEY_RX_DROPPED 0) l
    let s := setLink s l { rx := x.rx, made := x.made, round := x.round }
    if fs.isEmpty then s else sendTraining s l (fs.flatMap (fun f => bitList 32 (fibreLanes f)))) s

/-- The recorded phase tables of an engine: an entry of 64 bits for each cell, its codes for bar and then
those for cross, each pair laid out as in the `CROSSING` page (DESIGN CHOICE, log entry 144). -/
def recordedCells (s : State) (e : Nat) : List (Nat × Nat) :=
  (recordEntries s 4 e 8).zipIdx.map (fun x => (x.2, x.1))

/-- Recorded heater codes are loaded as the calibrated ones, and the heaters take them. -/
def loadCells (s : State) (e : Nat) : State :=
  let cs := (recordedCells s e).filter (fun c => c.1 < 192)
  let x := crossing s e
  let s := setCrossing s e { x with cal := cs.foldl (fun m c =>
    putCal m c.1 (bitsOf c.2 0 12) (bitsOf c.2 16 12) (bitsOf c.2 32 12) (bitsOf c.2 48 12)) x.cal }
  cs.foldl (fun s c => driveCell s e c.1) s

/-- The Crossing of an engine after its start (R187): calibrated whole, or loaded from the record and
the paths that failed their check recalibrated. No cell of it is in fault any more. -/
def crossingStarted (s : State) (e : Nat) (st : OeStart) : State :=
  let c := crossingP e
  let s := setCrossing s e { crossing s e with recal := [] }
  let known := !(recordedCells s e).isEmpty
  let s := setCells (calibrate (loadCells s e) e st.cells) e st.sets
  let s := if known then bump s c HDR_ERR_CORR_COUNT st.cells.length else s
  let s := st.verifyFail.foldl (fun s k =>
    raise (lastErr (wr s c HDR_ERR_ADDR_LO k.val) c 7) c 2) s
  wr (wr s c CROSSING_CALIBRATED (ofBool st.ok)) c CROSSING_WORST_LOSS st.loss

/-- An engine's lasers, Crossing and Boulevard after their start. -/
def engineStarted (s : State) (e : Nat) (st : OeStart) : State :=
  let o := oeP e
  let b := blvdP e
  let dark := st.dark.toNat
  let s := wr (wr s o OE_DFB_OK st.dfb.toNat) o OE_ELS_DARK dark
  let s := (bitList 8 (255 - st.dfb.toNat)).foldl (fun s k =>
    raise (lastErr (logDfb s e k) o 1) o 0) s
  let s := (bitList 32 dark).foldl (fun s k => logDark (raise (lastErr (logComb s e k) o 3) o 1) e k) s
  let s := if dark = 0xFFFFFFFF then raise (lastErr s o 4) o 2 else s
  let s := allocateAll (crossingStarted s e st) e
  let ok := st.pilot && !bitOf dark 0
  let s := if ok then sendTraining s (blvdLink e 0) [0] else s
  let s := wr (wr (wr s b BLVD_PILOT_LOCKED (ofBool ok)) b BLVD_UP (ofBool ok))
    b BLVD_LINE_STATE (if ok then 2 else 0) 0
  let s := if ok || bitOf dark 0 then s else logPilot s e 3
  lockLines (setCrossing s e { crossing s e with dfbDead := 0 }) e

/-! ### Moves (R184, R185) -/

/-- An `APPLY` begins: refused whole, or the waveguides that differ are to be moved in rising order. -/
def startApply (s : State) (e : Nat) : State :=
  let p := crossingP e
  let ts := targetsOf s e
  if targetsClash ts then wr s p CROSSING_LAST_RESULT 5
  else
    let todo := (List.range 8).filter (fun w => !wgSame (ts.getD w 0) (wgCurrent s e w))
    let s := setCrossing s e { crossing s e with
      targets := ts.zipIdx.map (fun x => (x.2, x.1)), todo := todo, failed := false }
    if todo.isEmpty then raise s p 0 else wr s p CROSSING_BUSY 1

/-- The last move has ended: the `APPLY` finishes, and a waiting one starts. -/
def finishApply (s : State) (e : Nat) : State :=
  let p := crossingP e
  let s := wr s p CROSSING_BUSY 0
  let s := if (crossing s e).failed then s else raise s p 0
  if rd s p CROSSING_PENDING = 1 then startApply (wr s p CROSSING_PENDING 0) e else s

/-- A move ends with a result of R185, its waveguide at `field`. -/
def endMove (s : State) (e : Nat) (m : Move) (result field : Nat) : State :=
  let p := crossingP e
  let was := wgCurrent s e m.w
  let s := wr (wr s p CROSSING_LAST_RESULT result) p CROSSING_CURRENT field m.w
  let s := if was = field then s else measureLoss s e
  let x := crossing s e
  let s := setCrossing s e { x with cur := none, failed := x.failed || result != 1 }
  let s := showMove s e
  let s := if result = 1 then bump s p CROSSING_GRANTS_DONE
    else raise (lastErr (bump s p CROSSING_GRANTS_FAILED) p result) p 1
  if (crossing s e).todo.isEmpty then finishApply s e else s

/-- Whether releasing the waveguides `ws` would leave no Alley up toward the neighbour that waveguide `w` of
them reaches, whose port is planned (R185). -/
def lastFibre (s : State) (e : Nat) (ws : List Nat) (w : Nat) : Bool :=
  let l := wgLink s e w
  let d := linkDir l
  let gone := fibresLanes (((ws.filter (fun k => wgLink s e k == l)).map (fun k => wgFibre s e k)).foldl setBit 0)
  alleyUp s l && rd s topoP TOPO_PLANNED d == 1
    && (portLinks s d).all (fun k => k == l)
    && (popCount 32 (lanesMinus (rd s (alleyP l) ALLEY_TX_LANES) gone) < 4
      || popCount 32 (lanesMinus (rd s (alleyP l) ALLEY_RX_LANES) gone) < 4)

/-- The fibre of a waveguide is released: a RELEASE names it, and the Alley narrows; it drains where the
fibre is its last (R184). The release waits for a retraining of its Alley to end (R185); an Alley that
carries no link words has nothing to answer it. -/
def startRelease (s : State) (e w : Nat) : State :=
  match (crossing s e).cur with
  | some m =>
    let l := wgLink s e w
    let f := wgFibre s e w
    if m.step != 1 || !m.waits.contains w || alleyRetrains s l then s
    else
      let s := setCrossing s e { crossing s e with
        cur := some { m with waits := m.waits.filter (fun k => k != w) } }
      if !alleyUp s l then relDone (leaveFibre s l f) e w
      else
        let s := sendMsg s l 1 f
        if clearBit (rd s (alleyP l) ALLEY_FIBRE_MASK) f = 0 then wr s (alleyP l) ALLEY_LSTATE 4
        else leaveFibre s l f
  | none => s

/-- One move begins: it releases its own waveguide's position and the waveguides `others`, whose paths it
disturbs; those are moved back in the same `APPLY` (R186). A move that would have to release a neighbour's
last fibre does not run (R185). -/
def beginMove (s : State) (e w : Nat) (cells : List CellSet) (recals : List CellCal) (others : List Nat) :
    State :=
  let rels := (List.range 8).filter (fun k => (k == w || others.contains k) && wgAlloc (wgCurrent s e k))
  let m : Move := ⟨w, SMap.getD (crossing s e).targets w 0, 1, cells, recals, rels, rels⟩
  if rels.any (lastFibre s e rels) then endMove s e m 4 (wgCurrent s e w)
  else
    let x := crossing s e
    let s := setCrossing s e { x with
      todo := (List.range 8).filter (fun k => x.todo.contains k || (others.contains k && k != w)) }
    if rels.isEmpty then rephase s e m
    else rels.foldl (fun s k => startRelease s e k) (setStep s e m 1)

end Sys2Proof.Machine
end

