-- ==== Sys2Proof/Machine/Optics.lean ====
section
/-!
DEFINITION. Machine/Optics.lean: the optical engines, their lasers and rings, and the Crossings
(R178 to R193, R208 to R211).
-/
namespace Sys2Proof.Machine

/-! ### Engines -/

/-- Whether an engine is in service: released, not fenced, and ON. -/
def oeOn (s : State) (e : Nat) : Bool := plazaUp s && oeUp s e && rd s (oeP e) HDR_STATE == 2

/-- `OPTICS_START` (R300, R187): the start of an engine in stage 9 ends. -/
def opticsStart (s : State) (e : Nat) (st : OeStart) : State :=
  let s := engineStarted (wr (wr s (oeP e) HDR_ENABLE 1) (oeP e) HDR_STATE 2) e st
  let s := (List.range 3).foldl (fun s i => trained s (2 + i) e (st.restored.getLsbD i)) s
  let s := trained s 5 e (allocRecorded s e)
  { s with dawn := { s.dawn with engines := setBit s.dawn.engines e } }

def execOpticsStart (e : OeId) (st : OeStart) (s : State) : Host.Outcome State Fault Refusal :=
  .next (if inStage s 9 && oeUp s e && !bitOf s.dawn.engines e then opticsStart s e st else s)

/-- `OE_ENABLE_WRITE` (R208, R297): clearing `ENABLE` drains the engine, setting it restarts it. -/
def execOeEnableWrite (req : PortId) (e : OeId) (on : Bool) (s : State) :
    Host.Outcome State Fault Refusal :=
  .next (fieldWrite s req (oeP e) HDR_ENABLE 0 (fun s =>
    blockEnable s (oeP e) on (fun s => s) (fun s => engineDark s e)))

/-- A write of `TX_ENABLE` or `RX_ENABLE`: a lane whose bit is cleared hands its flows over and
parks; a lane whose bit is set may lock. -/
def blvdEnable (s : State) (e : Nat) (tx : Bool) (v : Nat) : State :=
  let p := blvdP e
  let f := if tx then BLVD_TX_ENABLE else BLVD_RX_ENABLE
  let old := rd s p f
  let new := setBit (v % 2 ^ 32) 0
  let gone := (bitList 32 (lanesMinus old new)).map (fun k => blvdLink e k)
  let s := if tx then dirsDown s gone []
    else dirsDown s [] ((gone.filter (fun l => lineState s e (linkLine l) != 0)).map (fun l => (l, 0)))
  lockLines (wr s p f new) e

/-- `BLVD_ENABLE_WRITE` (R189, R210). -/
def execBlvdEnableWrite (req : PortId) (e : OeId) (tx : Bool) (value : BitVec 32) (s : State) :
    Host.Outcome State Fault Refusal :=
  .next (fieldWrite s req (blvdP e) (if tx then BLVD_TX_ENABLE else BLVD_RX_ENABLE) 0 (fun s =>
    blvdEnable s e tx value.toNat))

/-- A DFB line goes out of lock or fails (R208). -/
def dfbFault (s : State) (e line code : Nat) : State :=
  let o := oeP e
  let s := wr s o OE_DFB_OK (clearBit (rd s o OE_DFB_OK) line)
  raise (lastErr (logDfb s e line) o code) o 0

/-- A failed line's lane leaves every fibre of the engine, at the end of a retraining of what the engine
sends (R201). -/
def dfbFail (s : State) (e line : Nat) : State :=
  let x := crossing s e
  let s := dfbFault (setCrossing s e { x with dfbDead := setBit x.dfbDead line }) e line 2
  (List.range 4).foldl (fun s d =>
    let l := 4 * e + d
    let lanes := ((List.range 4).map (fun f => 8 * f + line)).filter
      (fun k => bitOf (rd s (alleyP l) ALLEY_TX_LANES) k)
    if txUp s l && !lanes.isEmpty then
      let s := retrainTx s l
      setLink s l { link s l with
        txLost := lanes.foldl (fun m k => SMap.put m k 4) (link s l).txLost }
    else s) s

/-- `DFB_FAIL` (R201, R208): the line fails, goes out of lock, or locks again. -/
def execDfbFail (e : OeId) (line : Fin 8) (event : DfbEvent) (s : State) :
    Host.Outcome State Fault Refusal :=
  .next (if !oeOn s e || bitOf (crossing s e).dfbDead line then s
    else
      let ok := bitOf (rd s (oeP e) OE_DFB_OK) line
      match event with
      | .failed => noteHolds (dfbFail s e line)
      | .unlocked => if ok then dfbFault s e line 1 else s
      | .locked => wr s (oeP e) OE_DFB_OK (setBit (rd s (oeP e) OE_DFB_OK) line))

/-- `COMB_LINE_DARK` (R190). -/
def execCombLineDark (e : OeId) (k : Fin 32) (s : State) : Host.Outcome State Fault Refusal :=
  .next (if oeOn s e && !lineDark s e k then lineGoesDark s e k else s)

/-! ### The Crossing -/

/-- A write of `APPLY`; a block that is not ON takes no new work (R184, R297). -/
def crossingApply (s : State) (e : Nat) : State :=
  if rd s (crossingP e) HDR_STATE ≠ 2 then s
  else if rd s (crossingP e) CROSSING_BUSY = 1 then wr s (crossingP e) CROSSING_PENDING 1
  else startApply s e

/-- `CROSSING_APPLY` (R184). -/
def execCrossingApply (req : PortId) (e : OeId) (s : State) : Host.Outcome State Fault Refusal :=
  .next (fieldWrite s req (crossingP e) CROSSING_APPLY 0 (fun s => crossingApply s e))

/-- The waveguides that a move disturbs: those of `mask`, and one that holds the position moved to. A single
move from the default allocation touches no other path (R186). -/
def disturbed (s : State) (e w mask : Nat) : List Nat :=
  let t := SMap.getD (crossing s e).targets w 0
  let fromDefault := defaultAlloc.zipIdx.all (fun d => wgSame d.1 (wgCurrent s e d.2))
  (List.range 8).filter (fun k =>
    let cur := wgCurrent s e k
    k != w && wgAlloc cur && ((bitOf mask k && !fromDefault) || (wgAlloc t && wgPos t == wgPos cur)))

/-- `CROSSING_MOVE` (R184): the next move begins, with the states of the cells on its paths and the codes
that recalibration finds; it disturbs the paths of the waveguides in `mask`. -/
def execCrossingMove (e : OeId) (cells : List CellSet) (recals : List CellCal) (mask : BitVec 8) (s : State) :
    Host.Outcome State Fault Refusal :=
  .next (match (crossing s e).cur, (crossing s e).todo with
    | none, w :: rest =>
      if oeOn s e && rd s (crossingP e) CROSSING_BUSY == 1 then
        beginMove (setCrossing s e { crossing s e with todo := rest }) e w cells recals
          (disturbed s e w mask.toNat)
      else s
    | _, _ => s)

/-- A move fails: its waveguide is unallocated. A release that it had begun ends with it (DESIGN CHOICE, log
entry 174); an Alley that trained for it alone is unallocated too. -/
def moveFails (s : State) (e : Nat) (m : Move) (result : Nat) : State :=
  let s := setCrossing s e { crossing s e with cur := none }
  let s := (m.rels.filter (fun k => k == m.w || !m.waits.contains k)).foldl (fun s k =>
    vacate (fibreGone s e k) e k) s
  let s := endMove s e m result 0
  if wgAlloc m.target && rd s (alleyP (posLink e (wgPos m.target))) ALLEY_LSTATE == 1 then
    settleAlloc s (posLink e (wgPos m.target))
  else s

/-- `MOVE_STEP_TIMEOUT` (R184, R185). -/
def execMoveStepTimeout (e : OeId) (s : State) : Host.Outcome State Fault Refusal :=
  .next (match (crossing s e).cur with
    | some m => if oeOn s e then moveFails s e m 3 else s
    | none => s)

/-- The lanes of a fibre on which two good words in a row have matched. -/
def trainedLanes (s : State) (l f : Nat) : Nat :=
  ((link s l).good.filter (fun kv => kv.1 / 8 == f && kv.2 ≥ 2)).foldl (fun m kv => setBit m kv.1) 0

/-- The move in progress ends: done, with `tx` the lanes that the partner's receiver has trained; or
with every lane dark. -/
def moveDone (s : State) (e : Nat) (m : Move) (locked : Bool) (tx : Nat) : State :=
  if m.step = 2 then endMove s e m 1 0
  else
    let l := posLink e (wgPos m.target)
    let f := posFibre (wgPos m.target)
    let rx := trainedLanes s l f
    if m.step != 4 then s
    else if locked then
      if rx = 0 then s
      else joinLanes (endMove s e m 1 (0x80 + wgPos m.target)) l rx (tx % 2 ^ 8 * 2 ^ (8 * f))
    else if rx = 0 then moveFails s e m 6
    else s

/-- `MOVE_DONE` (R185). -/
def execMoveDone (e : OeId) (locked : Bool) (tx : BitVec 8) (s : State) :
    Host.Outcome State Fault Refusal :=
  .next (match (crossing s e).cur with
    | some m => if oeOn s e && m.step ≠ 1 then moveDone s e m locked tx.toNat else s
    | none => s)

/-- The distance of a cell's codes from the calibrated ones of its state exceeds 64. -/
def cellDrifts (x : Cross) (c : CellCode) : Bool :=
  let far (heater v : Nat) : Bool := match calCode x c.cell heater with
    | some b => max b v - min b v > 64
    | none => false
  far 0 c.a || far 1 c.b

/-- `CROSSING_DITHER` (R187): the codes to which cells on live paths are corrected. -/
def dither (s : State) (e : Nat) (cs : List CellCode) : State :=
  let p := crossingP e
  if cs.isEmpty then s
  else cs.foldl (fun s c =>
    let s := wr (wr s p CROSSING_HTR_A c.a c.cell) p CROSSING_HTR_B c.b c.cell
    let x := crossing s e
    if cellDrifts x c && !x.recal.contains c.cell.val then
      let s := setCrossing s e { x with recal := x.recal ++ [c.cell.val] }
      raise (lastErr (wr s p HDR_ERR_ADDR_LO c.cell) p 7) p 2
    else s) (measureLoss s e)

def execCrossingDither (e : OeId) (cells : List CellCode) (s : State) :
    Host.Outcome State Fault Refusal :=
  .next (if oeOn s e && rd s (crossingP e) CROSSING_DITHER_EN == 1 then dither s e cells else s)

end Sys2Proof.Machine
end

