-- ==== Sys2Proof/Machine/Link.lean ====
section
/-!
DEFINITION. Machine/Link.lean: lane identity (R192, R193), flits, link words and replay (R195 to
R200), messages of link words (R184, R198, R204), and lanes and links lost (R201 to R203).
-/
namespace Sys2Proof.Machine

/-- Whether a link's engine is in service and the link is not unallocated. -/
def linkLive (s : State) (l : Nat) : Bool :=
  oeOn s (linkEngine l) && (!isAlley l || rd s (alleyP l) ALLEY_LSTATE != 0)

/-! ### Identity (R192, R193) -/

/-- Whether identity words are looked at on a lane: its fibre is held or being granted, and not
miscabled; or its line locks or is up. -/
def laneTested (s : State) (l lane : Nat) : Bool :=
  let e := linkEngine l
  if isAlley l then
    let pos := 4 * linkDir l + lane / 8
    !bitOf (rd s (alleyP l) ALLEY_RX_DROPPED) lane && !bitOf (link s l).barred (lane / 8) && (posHeld s e pos
      || match (crossing s e).cur with
        | some m => m.step ≥ 3 && wgAlloc m.target && wgPos m.target == pos
        | none => false)
  else lane == 0 && (lineState s e (linkLine l) == 1 || lineState s e (linkLine l) == 2)

/-- A ring relocks: the attempt is counted. The pilot sends its own word again, to be confirmed (R191). -/
def countRelock (s : State) (l lane : Nat) : State :=
  let x := link s l
  let s := setLink s l { x with
    relocks := SMap.put x.relocks lane (SMap.getD x.relocks lane 0 + 1), good := SMap.del x.good lane }
  let s := bump s (linkPage l) (if isAlley l then ALLEY_RELOCKS else BLVD_RELOCKS)
  if !isAlley l && linkLine l = 0 then sendTraining s l [0] else s

/-- A lane still mismatched after three relocks goes dark and is dropped: at the end of a retraining
where the link carries data. -/
def laneDark (s : State) (l lane : Nat) : State :=
  if isAlley l then
    if rxUp s l && bitOf (rd s (alleyP l) ALLEY_RX_LANES) lane then
      let s := retrainRx s l
      setLink s l { link s l with rxLost := SMap.put (link s l).rxLost lane 3 }
    else dropLane s l lane 3 true
  else if linkLine l = 0 then pilotLost s (linkEngine l) 3
  else dropLine s l 3 3 true

/-- A relock, or the lane goes dark when it has had three. With no good word (`ask`) the receiver's ring
searches once, and after that the sender is asked to relock its own. -/
def relockOrDark (s : State) (l lane : Nat) (ask : Bool) : State :=
  if SMap.getD (link s l).relocks lane 0 ≥ 3 then laneDark s l lane
  else
    let s := countRelock s l lane
    let x := link s l
    if !ask then s
    else if x.searched.contains lane then
      sendMsg s (revLink l) 7 (if isAlley l then lane else linkLine l)
    else setLink s l { x with searched := x.searched ++ [lane] }

/-- The relocks of a lane have succeeded, where it had any. -/
def relocked (s : State) (l lane : Nat) : State :=
  let x := link s l
  if SMap.getD x.relocks lane 0 = 0 then s
  else
    let s := setLink s l { x with
      relocks := SMap.del x.relocks lane, searched := x.searched.filter (fun k => k != lane) }
    clearMsgOf (bump s (oeP (linkEngine l)) HDR_ERR_CORR_COUNT) (revLink l) 7
      (if isAlley l then lane else linkLine l)

/-- A Boulevard line of a peer has trained what this package sends to it. -/
def peerTrained (s : State) (l : Nat) : State :=
  let t := revLink l
  if lineMaySend s (linkEngine t) (linkLine t) && !(link s t).txOn then txStarts s t else s

/-- A good word on a lane that matches in everything; `shared` says whether the partner shares a version of
the link protocol: where none is shared, the lane stays in training (R348). -/
def wordMatches (s : State) (l lane w : Nat) (peer shared : Bool) : State :=
  let e := linkEngine l
  let x := link s l
  let n := min 2 (SMap.getD x.good lane 0 + 1)
  let s := setLink s l { x with good := SMap.put x.good lane n }
  if n < 2 || !shared then s
  else
    let s := relocked s l lane
    if isAlley l then
      let p := alleyP l
      let s := wr (wr (wr s p ALLEY_PARTNER_TAG (bitsOf w 0 16)) p ALLEY_PARTNER_ENGINE (bitsOf w 16 2))
        p ALLEY_PARTNER_VALID 1
      let st := rd s p ALLEY_LSTATE
      if posHeld s e (4 * linkDir l + lane / 8) && (st = 1 || st = 2) then
        joinLanes s l (2 ^ lane) (if peer then 2 ^ lane else 0)
      else s
    else if linkLine l = 0 then
      let b := blvdP e
      lockLines (wr (wr (wr s b BLVD_LINE_STATE 2 0) b BLVD_PILOT_LOCKED 1) b BLVD_UP 1) e
    else
      let s := if lineState s e (linkLine l) = 1 then lineTrained s l else s
      if peer then peerTrained s l else s

/-- A word from another engine, position, port or package: miscabling. An Alley's fibre carries no lanes
until a RETRAIN or a grant. -/
def miscabled (s : State) (l lane : Nat) : State :=
  let x := link s l
  if isAlley l then
    let p := alleyP l
    let s := setLink s l { x with
      barred := setBit x.barred (lane / 8), good := x.good.filter (fun kv => kv.1 / 8 != lane / 8) }
    leaveFibre (raise (lastErr s p 6) p 4) l (lane / 8)
  else
    let s := setLink s l { x with good := SMap.del x.good lane }
    if linkLine l = 0 then pilotLost s (linkEngine l) 3
    else
      let p := blvdP (linkEngine l)
      raise (lastErr (dropLine s l 3 6 true) p 6) p 4

/-- Light of the partner on the fibre that a move offers by training: the move locks and trains (R184). -/
def moveTrains (s : State) (l lane : Nat) : State :=
  let e := linkEngine l
  match (crossing s e).cur with
  | some m =>
    if isAlley l && m.step = 3 && wgAlloc m.target && wgPos m.target == 4 * linkDir l + lane / 8
        && (link s l).msg != some (3, lane / 8) then setStep s e m 4
    else s
  | none => s

/-- A lane identity word arrives; `peer` says whether the partner's receiver has trained the lane in
the other direction, and `vers` is the version pair of the partner's training side units. -/
def identityWord (s : State) (l lane w : Nat) (peer : Bool) (vers : Nat) : State :=
  if !linkLive s l || !laneTested s l lane || !checkGood w then s
  else
    let s := moveTrains s l lane
    if !identOthers s l lane w then miscabled s l lane
    else if bitsOf w 22 5 ≠ identLine l lane then relockOrDark s l lane false
    else wordMatches s l lane w peer (sharesVersion vers)

/-- `LANE_IDENTITY_WORD` (R192, R193): the word that four side units of a lane hold. A Boulevard lane is
lane 0 of its link. -/
def execLaneIdentityWord (l : LinkId) (lane : Fin 32) (sides : Sides) (peer : Bool) (vers : BitVec 32)
    (s : State) : Host.Outcome State Fault Refusal :=
  .next (match sidesWord 1 sides with
    | some w => identityWord s l lane w peer vers.toNat
    | none => s)

/-- `IDENTITY_TIMEOUT` (R193): no good word; the receiver relocks its own ring, then asks for the
sender's. -/
def execIdentityTimeout (l : LinkId) (lane : Fin 32) (s : State) : Host.Outcome State Fault Refusal :=
  .next (if linkLive s l && laneTested s l lane then relockOrDark (moveTrains s l lane) l lane true else s)

/-! ### Flits (R195, R196, R199) -/

/-- The receiver discards a flit on an error: it sets `NAK`, and so starts a replay of the direction
that it receives (R209; DEDUCED, log entry 145). -/
def setNak (s : State) (l : Nat) : State :=
  let x := link s l
  if x.nak then s
  else
    let s := bump (setLink s l { x with nak := true, nakDue := true }) (linkPage l) HDR_ERR_RETRY_COUNT
    noteHolds (sendWord s (revLink l))

/-- A flit that was delivered before: one of the last that the sender's retry buffer may hold
(DEDUCED, log entry 34). -/
def seqOld (l expect seq : Nat) : Bool :=
  let back := (expect + 65535 - seq) % 65535
  0 < back && back ≤ retryLimit l

/-- The payload of a flit that is delivered. One of zero bytes between packets begins what is handed
over from a downed link: the packet that broke off there goes on (log entry 79). -/
def deliverPayload (x : Link) (pl : List Byte) : Link :=
  let whole := (splitStream x.rx).2.isEmpty
  if pl.all (fun b => b == 0) && whole then { x with rx := x.rx ++ pl ++ x.joins, joins := [], taking := false }
  else { x with rx := x.rx ++ pl }

/-- A flit whose CRC is good. One that is delivered is acknowledged, and answers a DROP_NOTICE; the
first of a handover answers HANDOVER (R198). -/
def goodFlit (s : State) (l : Nat) (b : List Byte) : State :=
  let x := link s l
  let seq := leAt b 56 2
  let p := linkPage l
  if seq = 0xFFFF then s
  else if seq = x.expect then
    let x := deliverPayload x (b.take 56)
    let s := setLink s l { x with expect := seqNext x.expect, any := true, nak := false }
    let s := if isAlley l then bump64 s p ALLEY_FLITS_RX_LO ALLEY_FLITS_RX_HI
      else bump64 s p BLVD_FLITS_RX_LO BLVD_FLITS_RX_HI
    let t := revLink l
    let s := clearMsg s t 6
    let s := if (b.take 56).all (fun b => b == 0) then clearMsg s t 9 else s
    if linkSends s t then sendWord s t else s
  else if x.any && seqOld l x.expect seq then s
  else setNak s l

/-- A byte of a flit was corrected: counted for its lane (R196). -/
def countCorrection (s : State) (l slot byte : Nat) : State :=
  let lanes := rxLanes s l
  let k := lanes.getD (unitLane lanes.length slot (byte / 2)) 0
  let x := link s l
  bump (setLink s l { x with corr := SMap.put x.corr k (SMap.getD x.corr k 0 + 1) }) (linkPage l)
    HDR_ERR_CORR_COUNT

/-- A flit arrives on a link: `lanes` are its units on each active lane, in order (R194). -/
def receiveFlit (s : State) (l : Nat) (lanes : List (List (BitVec 16))) : State :=
  let p := linkPage l
  let x := link s l
  let n := (rxLanes s l).length
  let c := fecCorrect (unstripe n x.rxSlot (lanes.map (fun us => us.map BitVec.toNat)))
  let s := match c.2 with
    | some j => countCorrection s l x.rxSlot j
    | none => s
  let s := setLink s l { link s l with rxSlot := (x.rxSlot + 1) % n }
  if flitGood (rxPrefix s l) c.1 then goodFlit s l c.1
  else
    let s := bump s p (if isAlley l then ALLEY_CRC_FAIL else BLVD_CRC_FAIL)
    setNak (wr s p HDR_ERR_SYNDROME (leAt c.1 56 2)) l

/-- Whether flits are received on a link: its receive direction is in service and not retraining. -/
def linkHears (s : State) (l : Nat) : Bool := plazaUp s && rxUp s l && !(link s l).rxTrain

/-- `FLIT_RECEIVE` (R199): the 32 units of a flit on the active lanes. -/
def execFlitReceive (l : LinkId) (lanes : List (List (BitVec 16))) (s : State) :
    Host.Outcome State Fault Refusal :=
  if lanes.flatten.length ≠ 32 then .fault (.malformed "FLIT_RECEIVE")
  else .next (if linkHears s l then receiveFlit s l lanes else s)

/-- `NAK_REPEAT` (R199): the 100 ns since `NAK` was sent have passed. -/
def execNakRepeat (l : LinkId) (s : State) : Host.Outcome State Fault Refusal :=
  .next (if linkHears s l && (link s l).nak then
      sendWord (setLink s l { link s l with nakDue := true }) (revLink l)
    else s)

/-- `REPLAY_TIMEOUT` (R199): `ACK_SEQ` has not advanced for 2 µs. -/
def execReplayTimeout (l : LinkId) (s : State) : Host.Outcome State Fault Refusal :=
  .next (if plazaUp s && linkSends s l && !(link s l).retry.isEmpty then noteHolds (replayLink s l) else s)

/-! ### Messages -/

/-- A message of the lane-grant handshake waits for a retraining of its Alley to end (R185). -/
def askLater (s : State) (l msg f : Nat) : State :=
  let x := link s l
  if x.asked.contains (msg, f) then s else setLink s l { x with asked := x.asked ++ [(msg, f)] }

/-- A RELEASE arrives: its lanes carry nothing more, and it is answered. -/
def msgRelease (s : State) (l f : Nat) : State := leaveFibre (sendMsg s l 2 f) l f

/-- A RELEASE_DONE arrives for a waveguide that the move in progress releases: its fibre is gone, and the
move goes on after the last. -/
def msgReleaseDone (s : State) (l f : Nat) : State :=
  let e := linkEngine l
  match (crossing s e).cur with
  | some m =>
    match m.rels.find? (fun w => !m.waits.contains w && wgLink s e w == l && wgFibre s e w == f) with
    | some w => relDone (fibreGone (clearMsgOf s l 1 f) e w) e w
    | none => s
  | none => s

/-- A GRANT_REQ arrives: accepted when this engine holds the matching position or is to hold it. -/
def msgGrantReq (s : State) (l f : Nat) : State :=
  let e := linkEngine l
  let pos := 4 * linkDir l + f
  if posHeld s e pos || posTarget s e pos then
    sendTraining (sendMsg (forgetLanes s l f) l 4 f) l (bitList 32 (fibreLanes f))
  else sendMsg s l 5 f

/-- A GRANT_ACCEPT or GRANT_REFUSE arrives for the move in progress. -/
def msgGrantAnswer (s : State) (l f : Nat) (accept : Bool) : State :=
  let e := linkEngine l
  match (crossing s e).cur with
  | some m =>
    if m.step = 3 && posLink e (wgPos m.target) == l && posFibre (wgPos m.target) == f then
      let s := clearMsgOf s l 3 f
      if accept then sendTraining (setStep s e m 4) l (bitList 32 (fibreLanes f))
      else moveFails s e m 2
    else s
  | none => s

/-- A DROP_NOTICE arrives: the partner's receiver has dropped a lane of what this package sends. Its
cause is not in the message: a free value. -/
def msgDrop (s : State) (l lane : Nat) : State :=
  if isAlley l then
    if txUp s l && bitOf (rd s (alleyP l) ALLEY_TX_LANES) lane then
      let r := freeNat s
      checkWidth (dropLane r.2 l lane r.1 false) l
    else s
  else
    let t := blvdLink (linkEngine l) lane
    if txUp s t then
      let r := freeNat s
      dropLine r.2 t r.1 2 false
    else s

/-- A RELOCK_REQ arrives: the sender relocks the lane's transmit ring, with an offset of +1 line at the
first request and of −1 at the second (R193). -/
def msgRelock (s : State) (l lane : Nat) : State :=
  let t := if isAlley l then l else blvdLink (linkEngine l) lane
  let k := if isAlley l then lane else 0
  let x := link s t
  bump (setLink s t { x with forced := SMap.put x.forced k (SMap.getD x.forced k 0 + 1) })
    (linkPage t) (if isAlley l then ALLEY_RELOCKS else BLVD_RELOCKS)

/-- A RETRAIN_REQ arrives: what this package sends on the link retrains. -/
def msgRetrain (s : State) (l : Nat) : State := noteHolds (retrainTx s (revLink l))

/-- A HANDOVER arrives on link `l`: what this package sends to the same peer on engine `e` is down, and
the last SEQ delivered there is `seq`. -/
def msgHandover (s : State) (l e seq : Nat) : State :=
  let survivor := revLink l
  let down := if isAlley l then 4 * e + linkDir l else blvdLink e (linkLine survivor)
  if down = survivor then s
  else
    let s := if !txUp s down then s
      else if isAlley l then afterDown (dirsDown s [down] []) down
      else dirsDown s [down] []
    handOver s down survivor seq

/-- Messages are heard on a link whose receive direction is in service. -/
def hears (s : State) (l : Nat) : Bool := linkLive s l && rxUp s l

/-- A message of the lane-grant handshake: 1 RELEASE to 5 GRANT_REFUSE. The first three wait for a
retraining to end. -/
def alleyMsg (s : State) (l msg f : Nat) : State :=
  if alleyRetrains s l && msg ≤ 3 then askLater s l msg f
  else if msg = 1 then msgRelease s l f
  else if msg = 2 then msgReleaseDone s l f
  else if msg = 3 then msgGrantReq s l f
  else msgGrantAnswer s l f (msg == 4)

/-- `RELEASE` (R184): fibre `f` of an Alley. -/
def execRelease (a : AlleyId) (f : Fin 4) (s : State) : Host.Outcome State Fault Refusal :=
  .next (if hears s a then alleyMsg s a 1 f else s)

/-- `RELEASE_DONE` (R184). -/
def execReleaseDone (a : AlleyId) (f : Fin 4) (s : State) : Host.Outcome State Fault Refusal :=
  .next (if hears s a then alleyMsg s a 2 f else s)

/-- `GRANT_REQ` (R184). -/
def execGrantReq (a : AlleyId) (f : Fin 4) (s : State) : Host.Outcome State Fault Refusal :=
  .next (if hears s a then alleyMsg s a 3 f else s)

/-- `GRANT_ACCEPT` (R184). -/
def execGrantAccept (a : AlleyId) (f : Fin 4) (s : State) : Host.Outcome State Fault Refusal :=
  .next (if hears s a then alleyMsg s a 4 f else s)

/-- `GRANT_REFUSE` (R185). -/
def execGrantRefuse (a : AlleyId) (f : Fin 4) (s : State) : Host.Outcome State Fault Refusal :=
  .next (if hears s a then alleyMsg s a 5 f else s)

/-- `DROP_NOTICE` (R198). -/
def execDropNotice (l : LinkId) (lane : Fin 32) (s : State) : Host.Outcome State Fault Refusal :=
  .next (if hears s l then msgDrop s l lane else s)

/-- `RELOCK_REQ` (R193). -/
def execRelockReq (l : LinkId) (lane : Fin 32) (s : State) : Host.Outcome State Fault Refusal :=
  .next (if linkLive s l then msgRelock s l lane else s)

/-- `RETRAIN_REQ` (R198). -/
def execRetrainReq (l : LinkId) (s : State) : Host.Outcome State Fault Refusal :=
  .next (if hears s l then msgRetrain s l else s)

/-- `HANDOVER` (R204). -/
def execHandover (l : LinkId) (e : OeId) (seq : Fin 65536) (s : State) :
    Host.Outcome State Fault Refusal :=
  .next (if hears s l then msgHandover s l e seq else s)

/-- The message of a link word. One that only repeats the word before acts once (R198). -/
def linkMsg (s : State) (l msg arg : Nat) : State :=
  let x := link s l
  if x.heard = some (msg, arg) then s
  else
    let s := setLink s l { x with heard := if msg = 0 then none else some (msg, arg) }
    if 1 ≤ msg && msg ≤ 5 then if isAlley l then alleyMsg s l msg (arg % 4) else s
    else if msg = 6 then msgDrop s l (arg % 32)
    else if msg = 7 then msgRelock s l (arg % 32)
    else if msg = 8 then msgRetrain s l
    else if msg = 9 then msgHandover s l (arg % 4) (bitsOf arg 2 16)
    else s

/-- A link word arrives: its acknowledgement, NAK and credit count for what is sent to the same peer. An
instance whose last packets it acknowledges completes (R235). -/
def linkWord (s : State) (l w : Nat) : State :=
  if !checkGood w then s
  else
    let t := revLink l
    let x := link s t
    let x := if bitOf w 16 then ackLink x (bitsOf w 0 16) else x
    let s := setLink s t { x with credit := min (rxBuffer t) (x.credit + 8 * bitsOf w 18 6) }
    let s := if bitOf w 17 && linkSends s t && !(link s t).retry.isEmpty then noteHolds (replayLink s t)
      else s
    let s := pumpLink s t (pumpFuel (link s t))
    let s := s.colls.foldl (fun s c => collCheck s c.key) s
    linkMsg s l (bitsOf w 24 4) (bitsOf w 28 20)

/-- `LINK_WORD_RECEIVE` (R198): the word that four side units hold. -/
def execLinkWordReceive (l : LinkId) (sides : Sides) (s : State) :
    Host.Outcome State Fault Refusal :=
  .next (match sidesWord 0 sides with
    | some w => if hears s l then linkWord s l w else s
    | none => s)

/-! ### Retraining, and lanes and links lost (R200 to R203) -/

/-- What waited for an Alley's retraining to end goes on: messages of the partner, and the release of the
move in progress (R185). -/
def afterRetrain (s : State) (l : Nat) : State :=
  let x := link s l
  let s := setLink s l { x with asked := [] }
  let s := x.asked.foldl (fun s m => alleyMsg s l m.1 m.2) s
  let e := linkEngine l
  match (crossing s e).cur with
  | some m =>
    (m.waits.filter (fun w => wgLink s e w == l)).foldl (fun s w => startRelease s e w) s
  | none => s

/-- A direction of an Alley ends its retraining; the Alley has ended it when neither direction retrains
any more. -/
def retrainEnds (s : State) (l : Nat) : State :=
  let p := alleyP l
  let s := checkWidth (alleySettle (raise s p 1) l) l
  let x := link s l
  if x.txTrain || x.rxTrain then s
  else
    let s := if rd s p ALLEY_LSTATE = 3 then wr s p ALLEY_LSTATE 2 else s
    let s := if rd s p ALLEY_LSTATE = 1 && !x.txOn && !x.rxOn then wr s p ALLEY_LSTATE 5 else s
    afterRetrain s l

/-- Flits resume from the oldest unacknowledged one. -/
def resumeTx (s : State) (l : Nat) : State :=
  if linkSends s l then
    let s := resendAll s l
    pumpLink s l (pumpFuel (link s l))
  else s

/-- The lanes that an Alley's direction has at the end of its retraining, before any is dropped: those
it had, or every lane of the live fibres. -/
def retrainLanes (s : State) (l : Nat) (all : Bool) (f : Fld) : Nat :=
  if all then fibresLanes (rd s (alleyP l) ALLEY_FIBRE_MASK) else rd s (alleyP l) f

/-- The lanes of a mask that are dropped, each with its cause. -/
def lanesLost (lanes bad badId : Nat) (lost : SMap Nat) : List (Nat × Nat) :=
  (bitList 32 lanes).filterMap (fun k =>
    match SMap.find lost k with
    | some c => some (k, c)
    | none => if bitOf badId k then some (k, 3) else if bitOf bad k then some (k, 1) else none)

/-- The lanes above the error rate of R200: those measured so, and those of which the receiver finds it by the
corrections that it has counted (R196; how they enter is open, log entry 175). -/
def badLanes (x : Link) (lanes bad : Nat) : Nat :=
  (bitList 32 lanes).foldl (fun m k =>
    let n := SMap.getD x.corr k 0
    if 0 < n && Config.rateExceeded n then setBit m k else m) bad

/-- The receive direction of an Alley ends its retraining. -/
def alleyRxDone (s : State) (l bad badId : Nat) : State :=
  let p := alleyP l
  let x := link s l
  let lanes := retrainLanes s l x.rxAll ALLEY_RX_LANES
  let s := setRxLanes s l lanes
  let s := wr s p ALLEY_RX_DROPPED (lanesMinus (rd s p ALLEY_RX_DROPPED) lanes)
  let s := setLink s l { link s l with
    rxTrain := false, rxAll := false, rxLost := [], relocks := [], searched := [], corr := [] }
  let s := (lanesLost lanes (badLanes x lanes bad) badId x.rxLost).foldl (fun s c => dropLane s l c.1 c.2 true) s
  clearMsg (retrainEnds s l) l 8

/-- The transmit direction of an Alley ends its retraining. -/
def alleyTxDone (s : State) (l bad badId : Nat) : State :=
  let x := link s l
  let lanes := retrainLanes s l x.txAll ALLEY_TX_LANES
  let s := setTxLanes s l lanes
  let s := setLink s l { link s l with txTrain := false, txAll := false, txLost := [], forced := [] }
  let s := (lanesLost lanes bad badId x.txLost).foldl (fun s c => dropLane s l c.1 c.2 false) s
  let s := retrainEnds s l
  if x.txOn then resumeTx s l else s

/-- A direction of a Boulevard lane ends its retraining: it has one lane, which stays or is dropped. -/
def lineRetrainDone (s : State) (l : Nat) (rx : Bool) (bad badId : Nat) : State :=
  let x := link s l
  let lost := if rx then x.rxLost else x.txLost
  let bad := if rx then badLanes x 1 bad else bad
  let s := if rx then clearMsg (setLink s l { x with
        rxTrain := false, rxLost := [], relocks := [], searched := [], corr := [] }) (revLink l) 8
    else setLink s l { x with txTrain := false, txLost := [], forced := [] }
  match SMap.find lost 0 with
  | some c => dropLine s l c 2 rx
  | none =>
    if bitOf badId 0 then dropLine s l 3 3 rx
    else if bitOf bad 0 then dropLine s l 1 2 rx
    else if rx then s else resumeTx s l

/-- A direction of a link ends its retraining. The receive direction retrains when the partner's sender
does, which a training pattern shows: one that this package has not begun begins and ends here (R200;
DESIGN CHOICE, log entry 146). -/
def retrainDone (s : State) (l : Nat) (rx : Bool) (bad badId : Nat) : State :=
  let s := if rx then retrainRx s l else s
  noteHolds (if isAlley l then if rx then alleyRxDone s l bad badId else alleyTxDone s l bad badId
    else lineRetrainDone s l rx bad badId)

/-- `LINK_RETRAIN_DONE` (R200): `bad` are the lanes above the error rate, `badId` those that three
relocks did not bring back, in the direction that ends its retraining. -/
def execLinkRetrainDone (l : LinkId) (rx : Bool) (bad badId : BitVec 32) (s : State) :
    Host.Outcome State Fault Refusal :=
  .next (if linkLive s l && (if rx then (link s l).rxTrain || rxUp s l else (link s l).txTrain) then
      retrainDone s l rx bad.toNat badId.toNat
    else s)

/-- `LANE_LIGHT_LOSS` (R201): the direction retrains at once, and the lane is dropped with its end. -/
def laneLightLoss (s : State) (l lane : Nat) : State :=
  let s := retrainRx s l
  let s := setLink s l { link s l with rxLost := SMap.put (link s l).rxLost lane 2 }
  noteHolds (sendMsg s (revLink l) 8 0)

def execLaneLightLoss (l : LinkId) (lane : Fin 32) (s : State) : Host.Outcome State Fault Refusal :=
  .next (if linkLive s l && rxUp s l
      && (if isAlley l then bitOf (rd s (alleyP l) ALLEY_RX_LANES) lane
          else lane.val == 0) then
    laneLightLoss s l lane else s)

/-- `LINK_WORD_SILENCE` (R203): no good link word for 10 µs. The last-error code names the partner's silence
(R209; log entry 80). -/
def execLinkWordSilence (a : AlleyId) (s : State) : Host.Outcome State Fault Refusal :=
  .next (if linkLive s a && alleyUp s a then lastErr (alleyFalls s a 5) (alleyP a) 7 else s)

/-- A `RETRAIN` request: both directions, and every lane of the live fibres (R209). -/
def alleyRetrain (s : State) (l : Nat) : State :=
  let p := alleyP l
  let st := rd s p ALLEY_LSTATE
  if st = 0 || st = 4 then s
  else
    let s := forgetPartner (bump s p ALLEY_RETRAINS) l
    let s := wr s p ALLEY_LSTATE (if st = 2 || st = 3 then 3 else 1)
    let s := setLink s l { link s l with
      txTrain := true, rxTrain := true, txAll := true, rxAll := true, txDead := false, rxDead := false
      barred := 0 }
    let s := sendTraining s l (bitList 32 (fibresLanes (rd s p ALLEY_FIBRE_MASK)))
    noteHolds (sendMsg s l 8 0)

/-- `ALLEY_RETRAIN` (R209). -/
def execAlleyRetrain (req : PortId) (a : AlleyId) (s : State) : Host.Outcome State Fault Refusal :=
  .next (fieldWrite s req (alleyP a) ALLEY_RETRAIN 0 (fun s => alleyRetrain s a))

end Sys2Proof.Machine
end

