-- ==== Sys2Proof/Machine/Topology.lean ====
section
/-!
DEFINITION. Machine/Topology.lean: beacons and ports (R216 to R218), Quarter entries (R238), and the
packets that links deliver (R214, R220, R222).
-/
namespace Sys2Proof.Machine

/-! ### Packets -/

/-- The packet at the front of a link's delivered stream is taken; the buffer it leaves returns its
credit, in the next link word where it makes a unit of 8 flits (R198). -/
def takePacket (s : State) (l : Nat) (rest : List Byte) : State :=
  let x := link s l
  let n := x.rx.length - rest.length
  let m := min n x.foreign
  let s := setLink s l { x with rx := rest, foreign := x.foreign - m, freed := x.freed + (n - m) }
  if (link s l).freed ≥ 448 && linkSends s (revLink l) then sendWord s (revLink l) else s

/-- A packet that a link has delivered waits for `TOPO`, and while a bridge that it crosses holds its flow: the one
from its engine, or the one toward the next package (R18). -/
def packetHeld (s : State) (l : Nat) (b : List Byte) : Bool :=
  flowHeld s (bridgeGroup l) (pktFlow b) || bridgeHeld s (portToward s (pktDest b) false) (pktFlow b)

/-- `PACKET_RECEIVE` (R222): the next packet of a link, other than a beacon. -/
def execPacketReceive (l : LinkId) (s : State) : Host.Outcome State Fault Refusal :=
  .next (match nextPacket (link s l).rx with
    | some (b, rest) =>
      if plazaUp s && pktType b != 5 && !packetHeld s l b then
        let r := crossData (takePacket s l rest) [bridgeGroup l] (pktFlow b) b
        arrivePacket r.1 (rxPort s l) (pktFlow b) r.2
      else s
    | none => s)

/-- `BEACON_RECEIVE` (R218): the next packet of a link is a beacon. -/
def execBeaconReceive (l : LinkId) (s : State) : Host.Outcome State Fault Refusal :=
  .next (match nextPacket (link s l).rx with
    | some (b, rest) =>
      if plazaUp s && topoOn s && pktType b == 5 then
        beaconAt (takePacket s l rest) (rxPort s l) (linkEngine l) (b.drop 16)
      else s
    | none => s)

/-! ### Ports (R217, R218) -/

/-- `NEIGHBOUR_ABSENT` (R217): 3 rounds without a beacon, or no link up. -/
def execNeighbourAbsent (p : Fin 36) (s : State) : Host.Outcome State Fault Refusal :=
  .next (if !plazaUp s then s
    else if SMap.getD s.topo.silent p 0 ≥ 3 then portAbsent s p
    else if (portLinks s p).isEmpty then portBare s p
    else s)

/-- `PORT_ACCEPT` (R218). -/
def execPortAccept (req : PortId) (mask : BitVec 4) (s : State) : Host.Outcome State Fault Refusal :=
  .next (fieldWrite s req topoP TOPO_PORT_ACCEPT 0 (fun s =>
    (bitList 4 mask.toNat).foldl acceptPort s))

/-- `SQUARE_ACCEPT` (R218). -/
def execSquareAccept (req : PortId) (mask : BitVec 32) (s : State) :
    Host.Outcome State Fault Refusal :=
  .next (fieldWrite s req topoP TOPO_SQUARE_ACCEPT 0 (fun s =>
    (bitList 32 mask.toNat).foldl (fun s k => acceptPort s (4 + k)) s))

/-! ### Quarter entries (R238) -/

/-- An entry that is held invalid (R238): its rectangle is none, or it is in use without an id. -/
def entryInvalid (s : State) (i : Nat) : Bool :=
  rectEmpty (rd s topoP TOPO_RECT i) || (rd s topoP TOPO_QID i == 0 && rd s topoP TOPO_VALID i == 1)

/-- Word `w` of entry `i` takes a value: 0 `QID`, `DISTRICT` and `VALID`, 1 `RECT`, 2 `SQUARE_SET`. -/
def quarterWord (s : State) (i w v : Nat) : State :=
  let p := topoP
  if w = 0 then
    wr (wr (wr s p TOPO_QID (bitsOf v 0 16) i) p TOPO_DISTRICT (bitsOf v 16 2) i)
      p TOPO_VALID (bitsOf v 31 1) i
  else if w = 1 then wr s p TOPO_RECT v i
  else wr s p TOPO_SQUARE_SET v i

/-- A write of one word of an entry, or of several in one cycle (R336): dropped, or applied and checked. -/
def quarterWrite (s : State) (i : Nat) (ws : List (Nat × Nat)) : State :=
  let p := topoP
  if rd s p TOPO_VALID i = 1 && distLaunched s (rd s p TOPO_DISTRICT i) then raise s p 4
  else
    let s := ws.foldl (fun s w => quarterWord s i w.1 w.2) s
    if entryInvalid s i then raise s p 4 else s

/-- `QUARTER_ENTRY_WRITE` (R238). -/
def execQuarterEntryWrite (req : PortId) (i : Fin 4) (word : Fin 3) (value : BitVec 32) (s : State) :
    Host.Outcome State Fault Refusal :=
  .next (guardedWrite s req topoP (0x140 + 0x10 * i.val + 4 * word.val) (fun s =>
    quarterWrite s i [(word.val, value.toNat)]))

end Sys2Proof.Machine
end

