-- ==== Sys2Proof/Machine/Collective.lean ====
section
/-!
DEFINITION. Machine/Collective.lean: the collective engines (R225 to R236, R239). An instance is named
by its key, the number of its first post. Errors of sectors are keyed 2²⁴ × tile + sector.
-/
namespace Sys2Proof.Machine

/-! ### Starting (R230) -/

/-- Whether an instance is the first of its District and tag that waits to start with all its posts. -/
def firstWaiting (s : State) (c : Coll) : Bool :=
  (s.colls.find? (fun x => !x.started && collPosted x && x.dist == c.dist && x.d.tag == c.d.tag)).any
    (fun x => x.key == c.key)

/-- Whether an instance may start: posted in full, with room on each of its engines, which are ON. -/
def mayStart (s : State) (c : Coll) : Bool :=
  !c.started && collPosted c && firstWaiting s c
    && c.engs.all (fun e => engQueue s e < 16 && rd s (collP e) HDR_STATE == 2)

/-- `COLL_INSTANCE_START` (R230). -/
def execCollInstanceStart (key : Nat) (errs : SectorErrs) (s : State) :
    Host.Outcome State Fault Refusal :=
  .next (match collOf s key with
    | some c => if plazaUp s && mayStart s c then collPumpAll (collStart s key errs) errs else s
    | none => s)

/-! ### Arrivals -/

/-- The first waiting packet of the collective engines that satisfies `p`, and the rest. -/
def takeColl (s : State) (p : List Byte → Bool) : Option (List Byte × State) :=
  match s.collIn.findIdx? p with
  | none => none
  | some i => some (s.collIn.getD i [], { s with collIn := s.collIn.eraseIdx i })

/-- A control packet of a kind: 1 READY, 2 HOLD, 3 ABORT. -/
def isCtl (k : Nat) (b : List Byte) : Bool := pktType b == 4 && pktCtl b == k

/-- An arrival is handled, where one waits; then every instance that can goes on. -/
def onArrival (s : State) (p : List Byte → Bool) (errs : SectorErrs)
    (act : State → List Byte → State) : Host.Outcome State Fault Refusal :=
  .next (match takeColl s p with
    | some (b, t) => if plazaUp s then collPumpAll (act t b) errs else s
    | none => s)

/-- `COLL_READY_RECEIVE` (R230). -/
def execCollReadyReceive (errs : SectorErrs) (s : State) : Host.Outcome State Fault Refusal :=
  onArrival s (isCtl 1) errs (fun s b => collReady s b errs)

/-- The time that an engine has waited for blocks of other members is a free value. -/
def countWait (s : State) (b : List Byte) : State :=
  match (packetDist s b).bind (fun d => collOfPacket s d b) with
  | none => s
  | some c =>
    let r := freeNat s
    bump64 r.2 (collP (c.engOf (pktTarget b))) COLL_WAIT_CYC_LO COLL_WAIT_CYC_HI r.1

/-- `COLL_DATA_RECEIVE` (R228, R229): a block that its engines cannot take yet waits (R230, R143). -/
def execCollDataReceive (errs : SectorErrs) (s : State) : Host.Outcome State Fault Refusal :=
  onArrival s (dataTaken s) errs (fun s b => collData (countWait s b) b errs)

/-- `COLL_ABORT_RECEIVE` (R235). -/
def execCollAbortReceive (s : State) : Host.Outcome State Fault Refusal :=
  onArrival s (isCtl 3) [] collAbortIn

/-- `COLL_BLOCK_FOLD` (R229): block `idx` of an instance. -/
def execCollBlockFold (key idx : Nat) (errs : SectorErrs) (s : State) :
    Host.Outcome State Fault Refusal :=
  .next (if plazaUp s then collPumpAll (collFold s key idx errs) errs else s)

/-! ### Hold (R234) -/

/-- A HOLD arrives: the instance is in hold on the sender's account. -/
def holdIn (s : State) (b : List Byte) : State :=
  match (packetDist s b).bind (fun d => collOfPacket s d b) with
  | none => s
  | some c =>
    match sourceRank s c b with
    | none => s
    | some r => noteHold (setColl s { c with holds := (c.holds ++ [r]).eraseDups }) c.key

/-- `COLL_HOLD_RECEIVE` (R234). -/
def execCollHoldReceive (s : State) : Host.Outcome State Fault Refusal :=
  onArrival s (isCtl 2) [] holdIn

/-- An instance that `p` holds of is acted on. -/
def onColl (s : State) (key : Nat) (p : Coll → Bool) (act : State → Coll → State) :
    Host.Outcome State Fault Refusal :=
  .next (match collOf s key with
    | some c => if plazaUp s && c.started && c.ending.isNone && p c then act s c else s
    | none => s)

/-- `COLL_HOLD_SEND` (R234): after every 10 µs of hold, to every rank with which data is exchanged; the
time is added to the hold used, whichever links or HOLD packets it is due to (log entry 143). -/
def execCollHoldSend (key : Nat) (s : State) : Host.Outcome State Fault Refusal :=
  onColl s key (inHold s) (fun s c =>
    let r := ownRank s c.d
    let c := { c with holdUsed := min 200 (c.holdUsed + 10) }
    ((c.d.sources r ++ c.d.dests r).eraseDups).foldl (fun s q => sendCtl s c q 2 0)
      (countHold (setColl s c) c))

/-- `COLL_HOLD_EXPIRE` (R234): a HOLD of a rank has held for 20 µs. -/
def execCollHoldExpire (key rank : Nat) (s : State) : Host.Outcome State Fault Refusal :=
  onColl s key (fun c => c.holds.contains rank) (fun s c =>
    setColl s { c with holds := c.holds.filter (fun x => x != rank) })

/-- `COLL_HOLD_EXHAUSTED` (R234): 200 µs of hold are used, and the progress timer runs again. -/
def execCollHoldExhausted (key : Nat) (s : State) : Host.Outcome State Fault Refusal :=
  onColl s key (inHold s) (fun s c =>
    let s := countHold s c
    c.engs.foldl (fun s e => raise s (collP e) 4)
      (setColl s { c with exhausted := true, holdUsed := 200 }))

/-! ### Ends (R233, R236) -/

/-- Whether READY has come from every rank that an instance receives from. -/
def allReady (s : State) (c : Coll) : Bool :=
  (c.d.sources (ownRank s c.d)).all (fun r => c.ready.contains r)

/-- `COLL_START_TIMEOUT` (R233): `START_MS` have passed since the start. -/
def execCollStartTimeout (key : Nat) (s : State) : Host.Outcome State Fault Refusal :=
  onColl s key (fun c => c.d.startMs != 0 && !allReady s c) (fun s c =>
    collPumpAll (collEnd s c.key 3 0 none) [])

/-- `COLL_PROGRESS_TIMEOUT` (R233): `TIMEOUT_US` without progress, which hold suspends. -/
def execCollProgressTimeout (key : Nat) (s : State) : Host.Outcome State Fault Refusal :=
  onColl s key (fun c => allReady s c && !inHold s c) (fun s c =>
    collPumpAll (collEnd s c.key 2 0 none) [])

/-- A write of `COLL_ABORT` of an engine: every queued or running instance on it ends (R236). -/
def collAbort (s : State) (e : Nat) : State := collEndAll s (fun c => c.engs.contains e) 1 2

/-- `COLL_ABORT` (R236). -/
def execCollAbort (req : PortId) (e : CollId) (s : State) : Host.Outcome State Fault Refusal :=
  .next (fieldWrite s req (collP e) COLL_COLL_ABORT 0 (fun s => collAbort s e))

end Sys2Proof.Machine
end

