-- ==== Sys2Proof/Machine/Commands.lean ====
section
/-!
DEFINITION. Machine/Commands.lean: the command processors: fetching, starting and ending commands
(R247 to R258, R369). A row that names a command starts the next entry of the ring as that command;
`refused` says that host memory refuses the completion entries of the row (R248).
-/
namespace Sys2Proof.Machine

/-- `COMMAND_FETCH` (R250): `entry` is what host memory returns for the ring entry, none where it
refuses the read; `desc` likewise for a COLLECTIVE's descriptor. -/
def execCommandFetch (d : DistId) (entry desc : Option (List Byte)) (refused : Bool) (s : State) :
    Host.Outcome State Fault Refusal :=
  if entry.any (fun b => b.length != 64) || desc.any (fun b => b.length != 64) then
    .fault (.malformed "COMMAND_FETCH")
  else .next (fetchNext s d entry desc refused)

/-- A command with operands that fit their fields starts. -/
def startRow (name : String) (d : DistId) (h : CmdHdr) (c : Cmd) (desc : Option (List Byte))
    (refused : Bool) (s : State) : Host.Outcome State Fault Refusal :=
  if !c.fits || desc.any (fun b => b.length != 64) then .fault (.malformed name)
  else .next (startNext s d h c desc refused)

/-- `NOP`. -/
def execNop (d : DistId) (h : CmdHdr) (refused : Bool) (s : State) :
    Host.Outcome State Fault Refusal :=
  startRow "NOP" d h .nop none refused s

/-- `WRITE_MEM`: it moves its data at `DMA_COMPLETE`. -/
def execWriteMem (d : DistId) (h : CmdHdr) (host dev len : Nat) (refused : Bool) (s : State) :
    Host.Outcome State Fault Refusal :=
  startRow "WRITE_MEM" d h (.mem 1 host dev len 0) none refused s

/-- `READ_MEM`. -/
def execReadMem (d : DistId) (h : CmdHdr) (host dev len : Nat) (refused : Bool) (s : State) :
    Host.Outcome State Fault Refusal :=
  startRow "READ_MEM" d h (.mem 2 host dev len 0) none refused s

/-- `FILL`. -/
def execFill (d : DistId) (h : CmdHdr) (dev len pattern : Nat) (refused : Bool) (s : State) :
    Host.Outcome State Fault Refusal :=
  startRow "FILL" d h (.mem 3 0 dev len pattern) none refused s

/-- `LOAD_IMAGE`: its bytes arrive at `LOAD_IMAGE_DONE`. -/
def execLoadImage (d : DistId) (h : CmdHdr) (host size slot : Nat) (refused : Bool) (s : State) :
    Host.Outcome State Fault Refusal :=
  startRow "LOAD_IMAGE" d h (.load host size slot) none refused s

/-- `LAUNCH` (R116). -/
def execLaunch (d : DistId) (h : CmdHdr) (slot : Nat) (args : List Nat) (refused : Bool) (s : State) :
    Host.Outcome State Fault Refusal :=
  startRow "LAUNCH" d h (.launch slot args) none refused s

/-- `WAIT_EVENT` (R254). -/
def execWaitEvent (d : DistId) (h : CmdHdr) (event count timeout : Nat) (refused : Bool) (s : State) :
    Host.Outcome State Fault Refusal :=
  startRow "WAIT_EVENT" d h (.wait event count timeout) none refused s

/-- `SIGNAL_EVENT` (R254). -/
def execSignalEvent (d : DistId) (h : CmdHdr) (target counter : Nat) (refused : Bool) (s : State) :
    Host.Outcome State Fault Refusal :=
  startRow "SIGNAL_EVENT" d h (.signal target counter) none refused s

/-- `COLLECTIVE` (R251): `desc` is what host memory returns for the descriptor. -/
def execCollective (d : DistId) (h : CmdHdr) (addr arg slot : Nat) (desc : Option (List Byte))
    (refused : Bool) (s : State) : Host.Outcome State Fault Refusal :=
  startRow "COLLECTIVE" d h (.coll addr arg slot) desc refused s

/-- `PHASE_HINT` (R251). -/
def execPhaseHint (d : DistId) (h : CmdHdr) (cls lead dies : Nat) (refused : Bool) (s : State) :
    Host.Outcome State Fault Refusal :=
  startRow "PHASE_HINT" d h (.hint cls lead dies) none refused s

/-- `RESPARE` (R255). -/
def execRespare (d : DistId) (h : CmdHdr) (die row : Nat) (refused : Bool) (s : State) :
    Host.Outcome State Fault Refusal :=
  startRow "RESPARE" d h (.respare die row) none refused s

/-- `FENCE` (R256). -/
def execFence (d : DistId) (h : CmdHdr) (target : Nat) (refused : Bool) (s : State) :
    Host.Outcome State Fault Refusal :=
  startRow "FENCE" d h (.fence target) none refused s

/-- Something that ends a command that runs: nothing where no such command does. -/
def endRow (s : State) (d seq : Nat) (refused : Bool) (act : State → Job → State) : State :=
  match jobOf s d seq with
  | none => s
  | some j => withRefuse s d refused (fun s => act s j)

/-- `DMA_COMPLETE` (R251): the command of sequence number `seq` moves its data. `data` is what host
memory returns, `takes` the bytes it accepts, `errs` what the reads of device memory meet, numbered
by the command's pieces. -/
def execDmaComplete (d : DistId) (seq : Nat) (data : List Byte) (takes : Nat) (errs : SectorErrs)
    (refused : Bool) (s : State) : Host.Outcome State Fault Refusal :=
  .next (endRow s d seq refused (fun s j => dmaRun s d j data takes errs))

/-- `LOAD_IMAGE_DONE` (R115): `data` is what host memory returns. -/
def execLoadImageDone (d : DistId) (seq : Nat) (data : List Byte) (refused : Bool) (s : State) :
    Host.Outcome State Fault Refusal :=
  .next (endRow s d seq refused (fun s j => loadEnd s d j data))

/-- A WAIT_EVENT whose timeout passes (R254). -/
def waitTimeout (s : State) (d : Nat) (j : Job) : State :=
  match j.work with
  | .waitEvt e _ t =>
    if t = 0 then s
    else finishJob s d j stEvtTimeout (2 ^ 32 * rd s (districtP d) DISTRICT_HEVT e)
  | _ => s

/-- The job of a kind that runs alone. -/
def jobWithOp (s : State) (d op : Nat) : Option Job := (proc s d).running.find? (fun j => j.op == op)

/-- `WAIT_EVENT_TIMEOUT`. -/
def execWaitEventTimeout (d : DistId) (refused : Bool) (s : State) :
    Host.Outcome State Fault Refusal :=
  match jobWithOp s d 6 with
  | none => .next s
  | some j => .next (withRefuse s d refused (fun s => waitTimeout s d j))

/-- `RESPARE_DONE` (R255): `fails` says which physical columns of the row would fail their
self-test. -/
def execRespareDone (d : DistId) (fails : BitVec 32) (refused : Bool) (s : State) :
    Host.Outcome State Fault Refusal :=
  match jobWithOp s d 0x0A with
  | none => .next s
  | some j => .next (withRefuse s d refused (fun s => respareEnd s d j fails.toNat))

/-- `MODERATION_TIMER` (R258): the timer passes while entries wait. -/
def execModerationTimer (d : DistId) (s : State) : Host.Outcome State Fault Refusal :=
  .next (if plazaUp s && (proc s d).moderated > 0 then fireVector0 s d else s)

/-- The soft reset of a `CMDPROC` page takes effect: `INT_RAW` is cleared, then the District's work
ends (R340, R369). -/
def cmdprocReset (s : State) (d : Nat) (entries : List (List Byte)) (refused : Bool) : State :=
  withRefuse (wr s (cmdprocP d) HDR_INT_RAW 0) d refused (fun s => abortAll s d entries)

/-- A soft reset written to a `CMDPROC` page (R298, R369): `entries` are the visible ring entries not yet
fetched. -/
def cmdprocSoft (s : State) (d : Nat) (entries : List (List Byte)) (refused : Bool) : State :=
  resetOrWait s (cmdprocP d) (fun s => cmdprocReset s d entries refused)

/-- `CMDPROC_SOFT_RESET` (R369). -/
def execCmdprocSoftReset (req : PortId) (d : DistId) (entries : List (List Byte)) (refused : Bool)
    (s : State) : Host.Outcome State Fault Refusal :=
  .next (fieldWrite s req (cmdprocP d) HDR_SOFT_RESET 0 (fun s => cmdprocSoft s d entries refused))

end Sys2Proof.Machine
end

