-- ==== Sys2Proof/Machine/Slice.lean ====
section
/-!
DEFINITION. Machine/Slice.lean: what reaches a slice controller: sector reads and writes, the merge
buffer, refresh, patrol scrub and the soft reset of the page (R125 to R137, R143).
-/
namespace Sys2Proof.Machine

/-- A slice that its controller serves: its tile is logical and its die is not fenced. A fenced
tile's slice goes on refreshing (R143), and a package in Twilight leaves refresh to the towers. -/
def sliceLives (s : State) (n : Nat) : Bool :=
  tileExists s n && !dieFenced s (tileDie n) && rd s duskP DUSK_TW_STATE != 2

/-- A data request of District `d` to slice `n` at `off` (R23, R143): refused, held (nothing happens
yet), or acted on. -/
def sliceRequest (s : State) (d n off : Nat) (act : State → State) : State :=
  let a := n * 2 ^ 29 + off
  let e := tileError s d n
  if e ≠ 0 then if plazaUp s then refuse s d a e else s
  else if !sliceLives s n then s
  else if sliceBusy s n then refuse s d a errBusy
  else if sliceHolds s n then s
  else act s

/-- `SLICE_READ` (R127, R129): a requester of District `d`, of code 0–3 (R138), reads one sector. -/
def execSliceRead (t : TileId) (d : DistId) (sec : SectorId) (req : Fin 4) (err : Option SectorErr) (s : State) :
    Host.Outcome State Fault Refusal :=
  .next (sliceRequest s d t (32 * sec.val) (fun s =>
    if narrowAhead (slice s t) sec then s else (sliceSector s t sec req err).1))

/-- `SLICE_WRITE` (R125, R126): a full sector is written. -/
def execSliceWrite (t : TileId) (d : DistId) (sec : SectorId) (bytes : List Byte) (s : State) :
    Host.Outcome State Fault Refusal :=
  if bytes.length ≠ 32 then .fault (.malformed "SLICE_WRITE")
  else .next (sliceRequest s d t (32 * sec.val) (fun s =>
    pollHost (sliceWriteSector s t sec bytes)))

/-- `NARROW_WRITE` (R128): 1 to 31 bytes from byte `lo` of a sector on. -/
def execNarrowWrite (t : TileId) (d : DistId) (sec : SectorId) (lo : Fin 32) (bytes : List Byte) (s : State) :
    Host.Outcome State Fault Refusal :=
  if bytes.length = 0 || bytes.length > 31 || lo.val + bytes.length > 32 then
    .fault (.malformed "NARROW_WRITE")
  else .next (sliceRequest s d t (32 * sec.val + lo.val) (fun s => gather s t ⟨sec, lo, bytes, none⟩))

/-- An entry whose age has reached 64 slice cycles enters FLUSH. -/
def mergeAged (s : State) (n sec : Nat) : State :=
  let x := slice s n
  setSlice s n { x with merge := x.merge.map (fun e =>
    if e.sector == sec && !e.flush then { e with age := 64, flush := true } else e) }

/-- `MERGE_AGE_EXPIRE` (R128): the entry of a sector; sectors of the command window stand at 2²⁴ and
above. -/
def execMergeAgeExpire (t : TileId) (sec : Nat) (s : State) : Host.Outcome State Fault Refusal :=
  .next (if sliceLives s t then mergeAged s t sec else s)

/-- A FLUSH entry writes its sector; nothing where the sector has no entry in FLUSH. -/
def mergeFlush (s : State) (n sec : Nat) (err : Option SectorErr) : State :=
  match mergeOf (slice s n) sec with
  | some e => if e.flush then flushSector s n sec err else s
  | none => s

/-- `MERGE_FLUSH` (R128): `err` is what the read of a read-modify-write meets. -/
def execMergeFlush (t : TileId) (sec : Nat) (err : Option SectorErr) (s : State) :
    Host.Outcome State Fault Refusal :=
  .next (if sliceLives s t then pollHost (mergeFlush s t sec err) else s)

/-- `SLICE_REFRESH` (R131, R132): one operation on the layer whose turn it is. The controller refreshes
only in controller mode, and not a slice whose port is lost (R295). -/
def execSliceRefresh (t : TileId) (s : State) : Host.Outcome State Fault Refusal :=
  .next (if sliceLives s t && (slice s t).mode == 0 && !(slice s t).portLost then
      bump64 (refreshOps s t 1) (sliceP t) SLICE_REFRESH_OPS_LO SLICE_REFRESH_OPS_HI
    else s)

/-- Whether a read found a correctable error. -/
def isCorrected : RsOut → Bool
  | .corrected _ _ => true
  | _ => false

/-- One sector of a patrol scrub (R135). -/
def scrubSector (s : State) (n : Nat) (err : Option SectorErr) : State :=
  let p := sliceP n
  let k := rd s p SLICE_SCRUB_POS
  let m := mergeOf (slice s n) k
  let s := if m.isSome then flushSector s n k err else s
  let err := if m.any (fun e => e.mask != 2 ^ 32 - 1) then none else err
  let s := if !readsWritten (slice s n) k err then s
    else
      let r := readSector s n k 5 err
      match r.2 with
      | .good d =>
        -- a sector that the outer code corrected is written back
        let w := secWord (slice s n) k
        let found := match err with
          | some e => isCorrected (decodeRead w e.first).1
            || ((decodeRead w e.first).2.isNone && isCorrected (decodeRead w e.second).1)
          | none => false
        if found then putSector r.1 n k d else r.1
      | _ => raise (lastErr r.1 p 6) p 2
  if k + 1 = 12582912 then bump (wr s p SLICE_SCRUB_POS 0) p SLICE_SCRUB_PASSES
  else wr s p SLICE_SCRUB_POS (k + 1)

/-- `SCRUB_READ` (R135). -/
def execScrubRead (t : TileId) (err : Option SectorErr) (s : State) :
    Host.Outcome State Fault Refusal :=
  .next (if sliceLives s t && rd s (sliceP t) SLICE_SCRUB_EN == 1 && (slice s t).mode == 0
      && !narrowAhead (slice s t) (rd s (sliceP t) SLICE_SCRUB_POS) then
      scrubSector s t err
    else s)

/-- What may flush in a slice: entries, and what waits for one. -/
def flushSteps (x : Slice) : Nat := x.merge.length + x.narrow.length + 16 * x.queue.length

/-- The soft reset of a `SLICE` page: no effect outside controller mode. `errs` is what the reads of the
flush meet, by sector (R137). -/
def sliceSoft (s : State) (n : Nat) (errs : SectorErrs) : State :=
  if (slice s n).mode ≠ 0 then s
  else clearFields (flushAll s n errs (flushSteps (slice s n))) (sliceP n)
    [SLICE_RD_SECTORS_LO, SLICE_RD_SECTORS_HI, SLICE_WR_SECTORS_LO, SLICE_WR_SECTORS_HI,
      SLICE_RMW_LO, SLICE_RMW_HI, SLICE_REFRESH_OPS_LO, SLICE_REFRESH_OPS_HI, HDR_INT_RAW]

/-- `SLICE_SOFT_RESET` (R137). -/
def execSliceSoftReset (req : PortId) (t : TileId) (errs : SectorErrs) (s : State) : Host.Outcome State Fault Refusal :=
  .next (fieldWrite s req (sliceP t) HDR_SOFT_RESET 0 (fun s => sliceSoft s t errs))

end Sys2Proof.Machine
end

