-- ==== Sys2Proof/Machine/Engine.lean ====
section
/-!
DEFINITION. Machine/Engine.lean: the near-bank engines: accesses to a command window (R140, R141),
mode changes (R142), GO and runs (R149 to R156), refresh in engine mode (R157, R158), and the
`ENGINE` page's enable and soft reset (R160, R161).
-/
namespace Sys2Proof.Machine

/-- The internal address of an offset of a command window. -/
def windowAt (n off : Nat) : Nat := winBase + 2 ^ 20 * n + off

/-- An access of District `d` to the window of tile `n` at `off`, checked as R23 states: its bytes cross the link
group of the tile's die, which may hold them (R18). -/
def windowRequest (s : State) (d n off : Nat) (bytes : List Byte) (act : State → List Byte → State) : State :=
  match resolve s d (windowAt n off) with
  | .error e => if plazaUp s then refuse s d (windowAt n off) e else s
  | .ok _ =>
    if sliceLives s n && !plazaHeld s d n then
      let x := plazaData s d n bytes
      act x.1 x.2
    else s

/-- A write to the window by a requester that waits for no acknowledgement. -/
def windowPut (s : State) (d n off : Nat) (bytes : List Byte) : State :=
  let r := winWrite s n off bytes none
  match r.2 with
  | .access => refuse r.1 d (windowAt n off) errAccess
  | _ => r.1

/-- `ENGINE_WINDOW_ACCESS` (R140, R141): a requester of District `d`, of code 0–3, reads the sector at
`off`, or writes up to 64 bytes within one line. -/
def execEngineWindowAccess (t : TileId) (d : DistId) (off : Fin 1048576) (req : Fin 4)
    (data : Option (List Byte)) (err : Option SectorErr) (s : State) :
    Host.Outcome State Fault Refusal :=
  match data with
  | none => .next (windowRequest s d t off [] (fun s _ =>
      (winSectorRead s t (off.val / 32 * 32) req err).1))
  | some bytes =>
    if bytes.length = 0 || off.val % 64 + bytes.length > 64 then
      .fault (.malformed "ENGINE_WINDOW_ACCESS")
    else .next (windowRequest s d t off bytes (fun s b => windowPut s d t off b))

/-- `ENGINE_MODE_WRITE` (R142). -/
def execEngineModeWrite (t : TileId) (d : DistId) (word : Nat) (s : State) : Host.Outcome State Fault Refusal :=
  .next (windowRequest s d t 0xFFF00 (leBytes 4 word) (fun s b => modeWrite s t (leNat b)))

/-- Engine mode is reached, once the merge buffer has flushed: GOs that waited for it wait no longer behind
a mode write. A mode write of 0 that was held begins leaving (R142), and so does the entry into Twilight
(R283). -/
def modeEntered (s : State) (n : Nat) : State :=
  let x := slice s n
  if x.mode ≠ 2 || !flushedIn x then s
  else
    let x := { x with held := none, queue := x.queue.map WinOp.onTime }
    if (slice s n).held = some 0 || rd s duskP DUSK_TW_STATE = 1 then setSlice s n { x with mode := 3 }
    else setSlice s n { x with mode := 1 }

/-- `ENGINE_MODE_ENTERED` (R142). -/
def execEngineModeEntered (t : TileId) (s : State) : Host.Outcome State Fault Refusal :=
  .next (if sliceLives s t then modeEntered s t else s)

/-- Controller mode is reached: the time away from it is counted, and launches that waited for it
start (R142, R144). -/
def modeLeft (s : State) (n : Nat) : State :=
  if !canLeave (slice s n) then s
  else
    let s := engineTime s n ENGINE_MODE_CYC_LO ENGINE_MODE_CYC_HI true
    pollLaunches (leaveDone s n)

/-- `ENGINE_MODE_LEFT` (R142): requests that leaving mode held are served (R143). -/
def execEngineModeLeft (t : TileId) (s : State) : Host.Outcome State Fault Refusal :=
  .next (if sliceLives s t then collPumpAll (pollHost (modeLeft s t)) [] else s)

/-- `ENGINE_GO` (R149, R150). -/
def execEngineGo (t : TileId) (d : DistId) (word : Nat) (s : State) : Host.Outcome State Fault Refusal :=
  .next (windowRequest s d t 0xFFF40 (leBytes 4 word) (fun s b => goWrite s t (leNat b) none))

/-- The GO that waits is acknowledged, and its run starts (R149). Refresh that a run has left owed is
repaid before (R158). -/
def goAccept (s : State) (n : Nat) : State :=
  let x := slice s n
  if !goReady x then s
  else match x.queue with
    | .go w _ _ :: rest =>
      startRun (repayRefresh (setSlice s n { x with queue := rest }) n) n w
    | _ => s

/-- `ENGINE_GO_ACCEPT` (R149). -/
def execEngineGoAccept (t : TileId) (s : State) : Host.Outcome State Fault Refusal :=
  .next (if sliceLives s t then pollHost (goAccept s t) else s)

/-- Whether a run has a pass left to execute. -/
def passDue (x : Slice) : Bool :=
  match x.run with
  | some r => r.next < r.count
  | none => false

/-- `ENGINE_PASS` (R151 to R155): `errs` says what the engine's reads meet. -/
def execEnginePass (t : TileId) (errs : EngErrs) (s : State) : Host.Outcome State Fault Refusal :=
  .next (if sliceLives s t && passDue (slice s t) && rd s (engineP t) ENGINE_PAUSED == 0 then
      runPass s t errs
    else s)

/-- A run that has done its passes completes (R150, R153), and what waited behind it goes on. -/
def runComplete (s : State) (n : Nat) : State :=
  match (slice s n).run with
  | none => s
  | some r =>
    if r.next < r.count then s
    else
      let s := engineTime s n ENGINE_BUSY_CYC_LO ENGINE_BUSY_CYC_HI true
      let s := countRun s n r.tag r.poison
      settleSlice (setSlice s n { slice s n with run := none }) n

/-- `ENGINE_RUN_COMPLETE` (R150). -/
def execEngineRunComplete (t : TileId) (s : State) : Host.Outcome State Fault Refusal :=
  .next (if sliceLives s t then pollHost (runComplete s t) else s)

/-- A refresh interval falls due under the hub: owed while a run is in progress, up to 8, else the hub
refreshes every layer in its turn. -/
def hubRefresh (s : State) (n : Nat) : State :=
  let owed := rd s (engineP n) ENGINE_OWED
  if (slice s n).run.isNone then refreshIntervals s n 1
  else if owed < 8 then wr s (engineP n) ENGINE_OWED (owed + 1)
  else s

/-- `HUB_REFRESH_DUE` (R157, R158): an interval falls due while the hub holds refresh authority. -/
def execHubRefreshDue (t : TileId) (s : State) : Host.Outcome State Fault Refusal :=
  .next (if sliceLives s t && (slice s t).mode != 0 then hubRefresh s t else s)

/-- `REFRESH_PAUSE` (R158): a ninth interval would fall due, and the pass pauses. -/
def execRefreshPause (t : TileId) (s : State) : Host.Outcome State Fault Refusal :=
  .next (
    let p := engineP t
    if sliceLives s t && passDue (slice s t) && rd s p ENGINE_OWED == 8 && rd s p ENGINE_PAUSED == 0 then
      bump (wr s p ENGINE_PAUSED 1) p ENGINE_PAUSES
    else s)

/-- `REFRESH_PAUSE_END` (R158): the pass resumes. The pause lasted at most 3,000 slice cycles (2 µs); its
length is a free value (log entry 3). -/
def execRefreshPauseEnd (t : TileId) (s : State) : Host.Outcome State Fault Refusal :=
  .next (
    let p := engineP t
    if sliceLives s t && rd s p ENGINE_PAUSED == 1 then
      let c := freeNat s
      let len := c.1 % 3001
      let s := wr (repayRefresh c.2 t) p ENGINE_PAUSED 0
      let s := bump64 s p ENGINE_PAUSE_CYC_LO ENGINE_PAUSE_CYC_HI len
      wr s p ENGINE_PAUSE_MAX (max (rd s p ENGINE_PAUSE_MAX) len)
    else s)

/-- A write of `ENABLE` (R160, R297). -/
def engineEnable (s : State) (n : Nat) (on : Bool) : State :=
  let p := engineP n
  let st := rd s p HDR_STATE
  let s := wr s p HDR_ENABLE (ofBool on)
  let x := slice s n
  if on then
    if st = 0 then wr s p HDR_STATE 1
    else if st = 3 then wr s p HDR_PEND_ENABLE 1
    else s
  else if st = 3 then wr s p HDR_PEND_ENABLE 0
  else if st = 2 then
    let s := wr s p HDR_STATE 3
    -- the slice leaves engine mode as a mode-word write of 0 would
    if x.mode = 0 then s
    else setSlice s n { x with modeWord := if x.mode = 3 then x.modeWord else 0,
                               mode := if x.mode = 1 then 3 else x.mode,
                               held := if x.mode = 2 then some 0 else x.held }
  else s

/-- `ENGINE_ENABLE_WRITE` (R160). A fenced tile's `ENABLE` is read back and has no effect (R297). -/
def execEngineEnableWrite (req : PortId) (t : TileId) (on : Bool) (s : State) :
    Host.Outcome State Fault Refusal :=
  .next (fieldWrite s req (engineP t) HDR_ENABLE 0 (fun s =>
    if tileFenced s t then wr s (engineP t) HDR_ENABLE (ofBool on) else engineEnable s t on))

/-- A soft reset written to an `ENGINE` page: no effect outside controller mode, not even a late one (R161). -/
def engineSoft (s : State) (n : Nat) : State :=
  if (slice s n).mode ≠ 0 then s else resetOrWait s (engineP n) (fun s => engineReset s n)

/-- `ENGINE_SOFT_RESET` (R161, R298). -/
def execEngineSoftReset (req : PortId) (t : TileId) (s : State) : Host.Outcome State Fault Refusal :=
  .next (fieldWrite s req (engineP t) HDR_SOFT_RESET 0 (fun s => engineSoft s t))

end Sys2Proof.Machine
end

