-- ==== Sys2Proof/Machine/Matrix.lean ====
section
/-!
DEFINITION. Machine/Matrix.lean: the matrix array's instructions (R43, R45, R46, R71, R72), each
issued alone in a bundle at the tile's present cycle.
-/
namespace Sys2Proof.Machine

/-- `MX_LDW` (R43). -/
def execMxLdw (t : TileId) (f : LdwF) (s : State) : Host.Outcome State Fault Refusal :=
  .next (slotIssue s t { mx := .ldw f })

/-- `MX_RUN` (R45). -/
def execMxRun (t : TileId) (f : RunF) (s : State) : Host.Outcome State Fault Refusal :=
  if f.m = 0 || f.m > 256 then .fault (.malformed "MX_RUN")
  else .next (slotIssue s t { mx := .run f })

/-- `MX_WIN` (R46). -/
def execMxWin (t : TileId) (f : WinF) (s : State) : Host.Outcome State Fault Refusal :=
  if f.m = 0 || f.m > 256 then .fault (.malformed "MX_WIN")
  else .next (slotIssue s t { mx := .win f })

end Sys2Proof.Machine
end

