-- ==== Sys2Proof/Machine/Mesh.lean ====
section
/-!
DEFINITION. Machine/Mesh.lean: the NX slot's instructions (R84, R85, R230, R254), each issued alone in a
bundle at the tile's present cycle, and what the mesh delivers (R82, R367).
-/
namespace Sys2Proof.Machine

/-- `NX_SEND` (R84): 1 to 65,536 lines. -/
def execNxSend (t : TileId) (o : Fin 16) (route : Fin 64) (n : Nat) (csrc : Bool) (sc : Fin 32)
    (s : State) : Host.Outcome State Fault Refusal :=
  if n = 0 || n > 65536 then .fault (.malformed "NX_SEND")
  else .next (slotIssue s t { nx := .send o route n csrc sc })

/-- `NX_SIG` (R84). -/
def execNxSig (t : TileId) (route : Fin 64) (s : State) : Host.Outcome State Fault Refusal :=
  .next (slotIssue s t { nx := .sig route })

/-- `NX_WAIT` (R84). -/
def execNxWait (t : TileId) (e : Fin 8) (sb : Fin 32) (s : State) :
    Host.Outcome State Fault Refusal :=
  .next (slotIssue s t { nx := .wait e sb })

/-- `NX_COLL` (R230). -/
def execNxColl (t : TileId) (entry : Fin 64) (e : Fin 8) (sa : Fin 32) (s : State) :
    Host.Outcome State Fault Refusal :=
  .next (slotIssue s t { nx := .coll entry e sa })

/-- `NX_HEVT` (R254). -/
def execNxHevt (t : TileId) (event : Fin 256) (s : State) : Host.Outcome State Fault Refusal :=
  .next (slotIssue s t { nx := .hevt event })

/-- `MESH_LINE_ARRIVE` (R82): the router moves what the head send of an outbound queue has waiting, one
line to a tile of this package, or up to `lines` to another; or a line that came from another
package arrives. -/
def execMeshLineArrive (src : MeshFrom) (lines : Nat) (s : State) :
    Host.Outcome State Fault Refusal :=
  match src with
  | .tile n o => .next (sendLines s n o lines)
  | .package n => .next (remoteLine s n)
  | .corrupted n o flips => .next (sendCorrupted s n o lines flips)

/-- `MESH_SIGNAL_ARRIVE` (R84): signal `k` of a tile's router, or one from another package. -/
def execMeshSignalArrive (src : SigFrom) (s : State) : Host.Outcome State Fault Refusal :=
  match src with
  | .tile n k => .next (sendSig s n k)
  | .package n => .next (remoteSig s n)

/-- `MESH_CREDIT_RETURN` (R367): the oldest credit owed to a tile, or one from another package. -/
def execMeshCreditReturn (t : TileId) (far : Option FarQueue) (s : State) :
    Host.Outcome State Fault Refusal :=
  .next (creditBack s t far)

end Sys2Proof.Machine
end

