-- ==== Sys2Proof/Machine/Mover.lean ====
section
/-!
DEFINITION. Machine/Mover.lean: the stream mover's channels (R80 to R83, R92, R93).
-/
namespace Sys2Proof.Machine

/-- `MOVER_READ` (R80): up to `lines` lines of a channel's READ; `errs` numbers the transfer's sectors,
two to a line. -/
def execMoverRead (t : TileId) (ch : Fin 8) (lines : Nat) (errs : SectorErrs) (s : State) :
    Host.Outcome State Fault Refusal :=
  .next (moverStep s t ch 1 lines errs)

/-- `MOVER_WRITE` (R80). -/
def execMoverWrite (t : TileId) (ch : Fin 8) (lines : Nat) (s : State) :
    Host.Outcome State Fault Refusal :=
  .next (moverStep s t ch 2 lines [])

/-- `MOVER_FILL` (R80). -/
def execMoverFill (t : TileId) (ch : Fin 8) (lines : Nat) (s : State) :
    Host.Outcome State Fault Refusal :=
  .next (moverStep s t ch 3 lines [])

/-- `MOVER_TREAD` (R80): up to `lines` result lines; `errs` numbers the sectors of a unit's rows. -/
def execMoverTread (t : TileId) (ch : Fin 8) (lines : Nat) (errs : SectorErrs) (s : State) :
    Host.Outcome State Fault Refusal :=
  .next (moverStep s t ch 4 lines errs)

/-- `CHANNEL_HALT` (R81): the next line of a channel's command fails. -/
def execChannelHalt (t : TileId) (ch : Fin 8) (errs : SectorErrs) (s : State) :
    Host.Outcome State Fault Refusal :=
  .next (moverHalt s t ch errs)

/-- `MOVER_COMMAND_DONE` (R83). -/
def execMoverCommandDone (t : TileId) (ch : Fin 8) (s : State) : Host.Outcome State Fault Refusal :=
  .next (moverDone s t ch)

/-- The bits of a route entry that are not reserved. -/
def routeKept (v : Nat) : Nat :=
  bitsOf v 0 11 + 2 ^ 12 * bitsOf v 12 4 + 2 ^ 16 * bitsOf v 16 1 + 2 ^ 24 * bitsOf v 24 32
    + 2 ^ 63 * bitsOf v 63 1

/-- Whether a register of the page is `Q_MESH` or half of a route entry, by its offset. -/
def moverReg (off : Nat) : Bool := off == 0x124 || (0x800 ≤ off && off < 0xA00)

/-- A write of 32 bits to `Q_MESH`, or to one half of a route entry (R93, R336). -/
def moverWord (s : State) (n off v : Nat) : State :=
  let t := tile s n
  let r := (off - 0x800) / 8
  if off = 0x124 then setTile s n { t with qMesh := v % 2 ^ 16 }
  else if moverReg off then
    let old := SMap.getD t.routes r 0
    let new := routeKept (putBits old (if off % 8 = 4 then 32 else 0) 32 v)
    setTile s n { t with routes := SMap.put t.routes r new }
  else s

/-- `MOVER_CONFIG_WRITE` (R93): a write of `Q_MESH`, or of a route entry when `route` names one. It is
refused with ERR_BUSY while the tile runs. -/
def moverConfig (s : State) (req n : Nat) (route : Option Nat) (value : Nat) : State :=
  let p := moverP n
  let off := match route with
    | some r => 0x800 + 8 * r
    | none => 0x124
  match writeError s req p off with
  | none => s
  | some 0 =>
    let t := tile s n
    if t.runState = 2 then regRefused s req (p.base + off) errBusy true
    else match route with
      | some r => setTile s n { t with routes := SMap.put t.routes r (routeKept value) }
      | none => setTile s n { t with qMesh := value % 2 ^ 16 }
  | some e => regRefused s req (p.base + off) e true

def execMoverConfigWrite (req : PortId) (t : TileId) (route : Option (Fin 64)) (value : Nat)
    (s : State) : Host.Outcome State Fault Refusal :=
  .next (moverConfig s req t (route.map Fin.val) value)

end Sys2Proof.Machine
end

