-- ==== Sys2Proof/Machine/Tile.lean ====
section
/-!
DEFINITION. Machine/Tile.lean: the cycles of a tile, its results, and its end (R45, R62, R67, R89, R91,
R94, R95, R97, R107, R108, R110).
-/
namespace Sys2Proof.Machine

/-- `BUNDLE_ISSUE` (R95): an unfrozen cycle fetches and issues one bundle; `errs` is what goes
wrong in the tile's storage in it. -/
def execBundleIssue (t : TileId) (errs : CycleErrs) (s : State) :
    Host.Outcome State Fault Refusal :=
  .next (bundleIssue s t errs)

/-- `WAIT_RELEASE` (R97). -/
def execWaitRelease (t : TileId) (errs : CycleErrs) (s : State) : Host.Outcome State Fault Refusal :=
  .next (waitRelease s t errs)

/-- `PACING_CYCLE` (R107). -/
def execPacingCycle (t : TileId) (s : State) : Host.Outcome State Fault Refusal :=
  .next (pacingCycle s t)

/-- `PARITY_RETRY` (R108, R366). -/
def execParityRetry (t : TileId) (fails : List Nat) (s : State) : Host.Outcome State Fault Refusal :=
  .next (parityRetry s t fails)

/-- `REGISTER_RESULT_LAND` (R67). -/
def execRegisterResultLand (t : TileId) (s : State) : Host.Outcome State Fault Refusal :=
  .next (resultLand s t Act.isReg)

/-- `ARRAY_RESULT_LAND` (R45). -/
def execArrayResultLand (t : TileId) (s : State) : Host.Outcome State Fault Refusal :=
  .next (resultLand s t Act.isRow)

/-- `TRAP_SETTLED` (R91). -/
def execTrapSettled (t : TileId) (s : State) : Host.Outcome State Fault Refusal :=
  .next (trapSettled s t)

/-- `TILE_COMPLETE` (R89). -/
def execTileComplete (t : TileId) (s : State) : Host.Outcome State Fault Refusal :=
  .next (tileComplete s t)

/-- `SLIP_TIMEOUT` (R110). -/
def execSlipTimeout (t : TileId) (s : State) : Host.Outcome State Fault Refusal :=
  .next (slipTimeout s t)

/-- The soft reset of a `TILE` page (R62, R340). -/
def tileReset (s : State) (n : Nat) : State :=
  let runs := (tile s n).runState == 2 && !tileFenced s n
  let s := softResetTile s n
  -- the status and the raw interrupts of the page are cleared where the tile was running (R340)
  let s := if runs then
      clearFields (setTile s n { tile s n with freezeCause := 0 }) (tileP n) [HDR_INT_RAW]
    else s
  endOfTile s n

/-- `TILE_SOFT_RESET` (R62): a write of `SOFT_RESET` to a `TILE` page. -/
def execTileSoftReset (req : PortId) (t : TileId) (s : State) : Host.Outcome State Fault Refusal :=
  .next (fieldWrite s req (tileP t) HDR_SOFT_RESET 0 (fun s => tileReset s t))

/-- What a `MOVER` soft reset and LAUNCH clear (R94). A channel's `ERR` goes with its halt, and the commands and
the sends that wait go too (DESIGN CHOICE, log entry 193). -/
def clearMover (s : State) (n : Nat) : State :=
  let s := dropInbound s n
  setTile s n { tile s n with qPoison := 0, chans := [], outq := [], ev := [], evSrc := [] }

/-- A soft reset of a `MOVER` page takes effect, or none while the tile is running (R94). -/
def moverReset (s : State) (n : Nat) : State :=
  if (tile s n).runState = 2 then s else clearFields (clearMover s n) (moverP n) [HDR_INT_RAW]

/-- A soft reset written to a `MOVER` page: no effect while the tile is running, not even a late one (R94,
which R298 excepts). -/
def moverSoft (s : State) (n : Nat) : State :=
  if (tile s n).runState = 2 then s else resetOrWait s (moverP n) (fun s => moverReset s n)

/-- `MOVER_SOFT_RESET` (R94, R298). -/
def execMoverSoftReset (req : PortId) (t : TileId) (s : State) : Host.Outcome State Fault Refusal :=
  .next (fieldWrite s req (moverP t) HDR_SOFT_RESET 0 (fun s => moverSoft s t))

end Sys2Proof.Machine
end

