-- ==== Sys2Proof/Machine/Twilight.lean ====
section
/-!
DEFINITION. Machine/Twilight.lean: the low-power retained state (R283, R134).
-/
namespace Sys2Proof.Machine

/-- The slices that something has touched, on dies that are up. -/
def liveSlices (s : State) : List Nat :=
  (s.slices.map Prod.fst).filter (fun n => tileExists s n && !dieFenced s (tileDie n))

/-- A slice is asked back to controller mode, as a mode-word write of 0 would; a mode write of 1 that
it holds is void. Its merge buffer flushes. -/
def askController (s : State) (n : Nat) : State :=
  let s := if (slice s n).mode = 0 then s else modeWrite s n 0
  let x := slice s n
  setSlice s n { x with
    modeWord := 0
    held := if x.mode = 3 then none else x.held
    merge := x.merge.map (fun e => { e with flush := true }) }

/-- A request for Twilight, which Dusk takes while its block is ON (R297; DESIGN CHOICE, log entry 52): refused unless every District is idle and nothing is launched. -/
def twRequest (s : State) (keep : Bool) : State :=
  let p := duskP
  let s := wr s p DUSK_KEEP_RINGS (ofBool keep)
  if !awake s || rd s p HDR_STATE != 2 then s
  else if !quietPackage s then raise (lastErr s p 3) p 4
  else (liveSlices s).foldl askController (wr (wr s p DUSK_TW_STATE 1) p DUSK_WAKE_PENDING 0)

/-- `TW_REQ` (R283): a write of the register that sets `TW_REQ`; `keep` is its `KEEP_RINGS`. -/
def execTwReq (req : PortId) (keep : Bool) (s : State) : Host.Outcome State Fault Refusal :=
  .next (fieldWrite s req duskP DUSK_TW_REQ 0 (fun s => twRequest s keep))

/-- A tile is power-gated: its SRAM, its registers and what an image gave it are lost. The counters
of its pages stay. -/
def gateTile (t : Tile) : Tile :=
  { t with data := [], code := [], v := [], s := [], p := [], acc := [], active := none,
           shadow := none, bundles := 0, routes := [], runState := 0 }

/-- A slice's command window holds nothing (R283). -/
def gateSlice (s : State) (n : Nat) : State := setSlice s n (unwriteBuffers (slice s n))

/-- An optical engine drains for Twilight, its `ENABLE` as it was (R208). -/
def gateEngine (s : State) (e : Nat) : State :=
  if rd s (oeP e) HDR_STATE = 0 then s
  else wr (wr (lasersOff (engineDark s e) e) (oeP e) HDR_STATE 0) (oeP e) HDR_PEND_ENABLE 0

/-- The exit that a wake begins. -/
def beginExit (s : State) (cause : Nat) : State :=
  wr (wr s duskP DUSK_TW_STATE 3) duskP DUSK_WAKE_CAUSE cause

/-- Twilight entry completes. -/
def twEntered (s : State) : State :=
  let p := duskP
  let s := (liveSlices s).foldl gateSlice s
  let s : State := { s with tiles := s.tiles.map (fun kv => (kv.1, gateTile kv.2)), images := [] }
  let s := if rd s p DUSK_KEEP_RINGS = 1 then s else (upOes s).foldl gateEngine s
  let s := bump (wr s p DUSK_TW_STATE 2) p DUSK_TW_COUNT
  let s := logEvent (raise s p 2) 0x0B 0xFF 0 0
  if rd s p DUSK_WAKE_PENDING = 1 then beginExit (wr s p DUSK_WAKE_PENDING 0) s.dusk.wake else s

/-- A slice is ready for Twilight: in controller mode, its merge buffer flushed. -/
def gateReady (x : Slice) : Bool := x.mode == 0 && x.merge.isEmpty && x.narrow.isEmpty

/-- `TW_ENTRY_DONE` (R283): entry completes once every slice is ready for it. -/
def execTwEntryDone (s : State) : Host.Outcome State Fault Refusal :=
  .next (if plazaUp s && rd s duskP DUSK_TW_STATE == 1
      && (liveSlices s).all (fun n => gateReady (slice s n)) then twEntered s
    else s)

/-- A write of `TW_EXIT`. -/
def twExit (s : State) (keep : Bool) : State := wake (wr s duskP DUSK_KEEP_RINGS (ofBool keep)) 2

/-- `TW_EXIT` (R283): a write of the register that sets `TW_EXIT`. -/
def execTwExit (req : PortId) (keep : Bool) (s : State) : Host.Outcome State Fault Refusal :=
  .next (fieldWrite s req duskP DUSK_TW_EXIT 0 (fun s => twExit s keep))

/-- Twilight exit completes: engines that drained at entry are on again, as in stage 9. -/
def twLeft (s : State) (st : List OeStart) : State :=
  let p := duskP
  let s := (upOes s).foldl (fun s e =>
    match st[e]? with
    | some x =>
      if rd s (oeP e) HDR_ENABLE = 1 && rd s (oeP e) HDR_STATE = 0 then
        engineStarted (wr s (oeP e) HDR_STATE 2) e x
      else s
    | none => s) s
  logEvent (raise (wr s p DUSK_TW_STATE 0) p 3) 0x0C 0xFF 0 0

/-- `TW_EXIT_DONE` (R283): `st` is the start of each of the four optical engines. -/
def execTwExitDone (st : List OeStart) (s : State) : Host.Outcome State Fault Refusal :=
  if st.length ≠ 4 then .fault (.malformed "TW_EXIT_DONE")
  else .next (if plazaUp s && rd s duskP DUSK_TW_STATE == 3 then twLeft s st else s)

end Sys2Proof.Machine
end

