-- ==== Sys2Proof/Machine/Views.lean ====
section
/-!
DEFINITION. Machine/Views.lean: what a register reads: the fields that the part computes from its other
state, and the reads of a page with their captures (R292, R293, R335 to R338, R345, R346, R348).
-/
namespace Sys2Proof.Machine

/-! ### The header (R335, R348) -/

/-- The version range of a page: oldest and newest, major × 256 + minor (R348). -/
def pageVersions (k : PageKind) : Nat × Nat :=
  match k with
  | .d2d => (0x100, 0x101)
  | .tile => (0x300, 0x301)
  | .dawn => (0x100, 0x102)
  | _ => (0x100, 0x100)

/-- `OWNER` of a page. -/
def pageOwner (s : State) (p : PageId) : Nat :=
  match p.kind with
  | .hostport | .district | .cmdproc => p.inst
  | .coll => p.inst / 8
  | .tile | .slice | .engine | .mover => tileOwner s p.inst
  | _ => 0xF

def hdrView (s : State) (p : PageId) (f : Fld) : Nat :=
  let v := pageVersions p.kind
  if f = HDR_PAGE_FORMAT then 1
  else if f = HDR_INSTANCE then p.inst
  else if f = HDR_TYPE then p.kind.code
  else if f = HDR_OLDEST_MINOR then v.1
  else if f = HDR_OLDEST_MAJOR then v.1 / 256
  else if f = HDR_NEWEST_MINOR then v.2
  else if f = HDR_NEWEST_MAJOR then v.2 / 256
  else if f = HDR_INT_STATUS then intStatus s p
  else pageOwner s p

/-! ### The package's pages -/

/-- The 2-bit state of a module as `MOD_STATE` shows it; 0 beyond the group's modules. -/
def modShown (s : State) (g m : Nat) : Nat := if m < groupModules g then modState s g m else 0

def d2dView (s : State) (g : Nat) (f : Fld) : Nat :=
  let codes (a n : Nat) : Nat := (List.range n).foldl (fun v m => v + modShown s g (a + m) * 4 ^ m) 0
  if f = D2D_MODULE_COUNT then groupModules g
  else if f = D2D_MIN_MODULES then groupMin g
  else if f = D2D_MODULES_USABLE then usableModules s g
  else if f = D2D_DEGRADED then
    ofBool ((List.range (groupModules g)).any (fun m => modState s g m == 1 || modState s g m == 2))
  else if f = D2D_LINK_UP then ofBool (groupRuns s g)
  else if f = D2D_MOD_STATE_LO then codes 0 16
  else codes 16 8

def pkgswView (s : State) (f : Fld) (d : Nat) : Nat :=
  if f = PKGSW_DIE_PRESENT then maskOf 4 (dieUp s)
  else if f = PKGSW_OE_PRESENT then maskOf 4 (oeUp s)
  else if f = PKGSW_DIST_SLICE_COUNT then (sliceList s d).length
  else qdieMask s d

def cdieView (s : State) (n : Nat) (f : Fld) : Nat :=
  if f = CDIE_LOGICAL_TILES then (dieTiles s n).length
  else if f = CDIE_EDGE_HOPS then (if dieMapped s n then dieHops s n else 0)
  else (List.range 4).foldl (fun v i => v + qdieOwner s (4 * n + i) * 16 ^ i) 0

def pwrView (s : State) (f : Fld) : Nat :=
  if f = PWR_LIMIT_W then fuseLimit s else fuseMaxOp s

/-- `TRIP_OK`: once the die's rails are up, the triplets with no failed or disagreeing comparator. -/
def thermView (s : State) (d : Nat) : Nat :=
  if d < 4 && dieRails s d then
    maskOf 8 (fun t => bitsOf (SMap.getD s.dusk.comparators d 0) (3 * t) 3 == 0)
  else 0

/-- Whether ALERT_N is driven low. -/
def alertLow (s : State) : Bool :=
  rd s pwrP PWR_CAP_UNATTAINABLE == 1
    || (List.range 3).any (fun i => rd s duskP DUSK_RAIL_OOR i != 0)
    || (List.range 16).any (fun q => decide (qdTemp s (q / 4) (q % 4) > 105 * 16))
    || (List.range 20).any (fun i =>
      rd s thermP THERM_SUSPECT_LOW i != 0 || rd s thermP THERM_HIGH_SUSPECT i != 0)

/-- The words of the BIST log entry that `LOG_INDEX` selects (R314). -/
def logWord (s : State) (j : Nat) : Nat :=
  let i := rd s bistP BIST_LOG_INDEX
  let n := s.dawn.log.length
  match (if i < n then s.dawn.log[n - 1 - i]? else none) with
  | some (a, b, c, d) => [a, b, c, d].getD j 0
  | none => 0

def bistView (s : State) (f : Fld) (i : Nat) : Nat :=
  let die := i / 16
  let row := i % 16
  if f = BIST_LOG_W then logWord s i
  else if f = BIST_FUSE_BAD then fuseBad s die row
  else if !dieMapped s die then 0
  else if f = BIST_LOGICAL then rowTiles s die row
  else badCount s die row

def fuseView (s : State) (f : Fld) (i : Nat) : Nat :=
  if f = FUSE_LC_STATE then lcState s
  else if f = FUSE_VARIANT then fuseVariant s
  else if f = FUSE_MAX_OP then fuseMaxOp s
  else if f = FUSE_LIMIT_W then fuseLimit s
  else if f = FUSE_SERIAL_LO then pkgSerial s
  else if f = FUSE_SERIAL_HI then pkgSerial s / 2 ^ 32
  else bitsOf (fuseFwKey s) (32 * i) 32

/-- `LC_STATE`, and the identity's public key from stage 1 on where there is an identity (R326). -/
def secView (s : State) (f : Fld) (i : Nat) : Nat :=
  if f = SEC_LC_STATE then lcState s
  else if stage s < 2 || lcState s = 0 then 0
  else leAt (pubBytes (identityPub s)) (4 * i) 4

/-! ### Districts, command processors and collective engines -/

def districtView (s : State) (d : Nat) (f : Fld) : Nat :=
  if f = DISTRICT_IDLE then ofBool (distIdle s d)
  else if f = DISTRICT_HOST_PRESENT then ofBool (portUp s d)
  else maskOf 16 (fun k => (imageAt s d k).isSome)

def cmdprocView (s : State) (d : Nat) (f : Fld) : Nat :=
  if f = CMDPROC_DMA_ACTIVE then memRunning s d else launchesRunning s d

/-- The instance that an engine runs: the first started one. -/
def engInst (s : State) (e : Nat) : Option Coll :=
  s.colls.find? (fun c => c.started && c.engs.contains e)

/-- The engine's state: idle, awaiting posts or READY, running, in hold. -/
def collState (s : State) (e : Nat) : Nat :=
  match engInst s e with
  | some c => if inHold s c then 3 else if allReady s c then 2 else 1
  | none => ofBool (s.colls.any (fun c => c.engs.contains e))

def collView (s : State) (e : Nat) (f : Fld) : Nat :=
  let c := engInst s e
  if f = COLL_CSTATE then collState s e
  else if f = COLL_QUEUED then engQueue s e
  else if f = COLL_CUR_TAG then (c.map (fun c => c.d.tag)).getD 0
  else if f = COLL_CUR_INSTANCE then (c.map Coll.count).getD 0
  else min 200 ((c.map Coll.holdUsed).getD 0)

/-! ### Optics -/

def alleyView (s : State) (l : Nat) (f : Fld) : Nat :=
  if f = ALLEY_TX_WIDTH then txWidth s l
  else if f = ALLEY_RX_WIDTH then rxWidth s l
  else popCount 4 (rd s (alleyP l) ALLEY_FIBRE_MASK)

/-- `LANES_UP`: lines 1 to 31 in service. -/
def lanesUp (s : State) (e : Nat) : Nat :=
  ((List.range 31).filter (fun k => lineState s e (k + 1) == 2)).length

/-! ### The per-tile pages (R60, R61, R92, R138, R162) -/

/-- A field of a `TILE` page. `PACE_DUTY` is the present duty of the die's governor, which the tile takes
at its next c = 0 (DESIGN CHOICE, log entry 133). -/
def tileView (s : State) (n : Nat) (f : Fld) (i : Nat) : Nat :=
  let t := tile s n
  if f = TILE_LOGICAL_ID then n
  else if f = TILE_DIE then tileDie n
  else if f = TILE_PHYS_ROW then tileRow n
  else if f = TILE_PHYS_COL then physCol s (tileDie n) (tileRow n) (tileCol n)
  else if f = TILE_LOGICAL_COL then tileCol n
  else if f = TILE_RUN_STATE then t.runState
  else if f = TILE_FROZEN then ofBool t.frozen
  else if f = TILE_FREEZE_CAUSE then t.freezeCause
  else if f = TILE_TRAP_CAUSE then t.trapCause
  else if f = TILE_TRAP_BUNDLE then t.trapBundle
  else if f = TILE_TRAP_SLOTS then t.trapSlots
  else if f = TILE_OP then dieOp s (tileDie n)
  else if f = TILE_PACE_DUTY then dieDuty s (tileDie n)
  else if f.off = TILE_INVALID.off then bitsOf t.fpFlags f.lo 1
  else if f = TILE_RUN_CYC_LO then t.runCyc
  else if f = TILE_RUN_CYC_HI then t.runCyc / 2 ^ 32
  else if f = TILE_FROZEN_CYC_LO then t.frozenCyc
  else if f = TILE_FROZEN_CYC_HI then t.frozenCyc / 2 ^ 32
  else if f = TILE_SLIP_CYC_LO then SMap.getD t.slipCyc i 0
  else if f = TILE_SLIP_CYC_HI then SMap.getD t.slipCyc i 0 / 2 ^ 32
  else SMap.getD t.slipEvt i 0

/-- The command that a channel has in hand: of one that is halted, the one that failed, though it is discarded
(DESIGN CHOICE, log entry 54). -/
def chanCmd (c : Chan) : Option MCmd := c.cmds.head?.orElse (fun _ => c.dropped.head?)

def moverView (s : State) (n : Nat) (f : Fld) (i : Nat) : Nat :=
  let t := tile s n
  let c := t.chan i
  if f = MOVER_STATE then (if c.stopped then 2 else ofBool (!c.cmds.isEmpty))
  else if f = MOVER_PENDING then c.cmds.length
  else if f = MOVER_ERR then c.err
  else if f = MOVER_QUEUE then ((chanCmd c).map MCmd.queue).getD 0
  else if f = MOVER_OP then ((chanCmd c).map MCmd.op).getD 0
  else if f = MOVER_Q_POISON then t.qPoison
  else if f = MOVER_Q_MESH then t.qMesh
  else if f = MOVER_QLEVEL then (t.inQ i).lines.length
  else if f = MOVER_OLEVEL then (t.outQ i).lines.length
  else if f = MOVER_EVT then t.evc i
  else if f.off = MOVER_VALID.off then bitsOf (SMap.getD t.routes i 0) f.lo f.wid
  else if f = MOVER_LINES_IN_LO then t.linesIn
  else if f = MOVER_LINES_IN_HI then t.linesIn / 2 ^ 32
  else if f = MOVER_LINES_OUT_LO then t.linesOut
  else if f = MOVER_LINES_OUT_HI then t.linesOut / 2 ^ 32
  else t.cmdCount

/-- The layer of the sensor that gives a quarter-die's DRAM temperature (R117); of several that read the same,
the lowest (log entry 169). -/
def hotLayer (s : State) (n : Nat) : Nat :=
  ((qdChannels (tileDie n) (tileQdie n % 4)).findIdx (fun c => used s c == sliceTemp s n)) % 12

def sliceView (s : State) (n : Nat) (f : Fld) : Nat :=
  let x := slice s n
  if f = SLICE_MODE then x.mode
  else if f = SLICE_REFRESH_RATE then sliceRate s n
  else if f = SLICE_OVERTEMP then ofBool (overTemp s n)
  else if f = SLICE_PORT_UP then ofBool (bitOf s.dawn.ports (tileDie n) && !x.portLost)
  else if f = SLICE_DRAM_TEMP then wholeDeg (sliceTemp s n)
  else if f = SLICE_HOT_LAYER then hotLayer s n
  else x.merge.length

def engineView (s : State) (n : Nat) (f : Fld) : Nat :=
  let x := slice s n
  let l := rd s pwrP PWR_ENG_LEVEL (tileDie n)
  if f = ENGINE_MODE then x.mode
  else if f = ENGINE_RUN then runCode x
  else if f = ENGINE_CLK_DIV then shapeDiv l
  else shapeSkip l

/-! ### The summaries of the `PLAZA` page (R345, R346) -/

/-- Whether any of the four pages of a tile is pending. -/
def tilePends (s : State) (n : Nat) : Bool :=
  tileExists s n && !dieFenced s (tileDie n)
    && [tileP n, sliceP n, engineP n, moverP n].any (fun p => intStatus s p != 0)

/-- Word `w` of the tiles of District `d` (0xF: of unassigned quarter-dies) that pend. -/
def tilePendWord (s : State) (d w : Nat) : Nat :=
  maskOf 32 (fun b => tileOwner s (32 * w + b) == d && tilePends s (32 * w + b))

/-- The quarter-dies of District `d` with a tile that pends. -/
def qdiePend (s : State) (d : Nat) : Nat :=
  maskOf 16 (fun q => qdieOwner s q == d && (List.range 120).any (fun i => tilePends s (120 * q + i)))

/-- Whether a function sees the bit of a page in `PAGE_PEND`: a District host reads 0 for pages that it
cannot see. -/
def pagePendBit (s : State) (req i b : Nat) : Bool :=
  match pageAt ((32 * i + b) * 0x1000) with
  | some p => (req == 4 || pageVisible s req p) && intStatus s p != 0
  | none => false

def plazaView (s : State) (req : Nat) (f : Fld) (i : Nat) : Nat :=
  if f = PLAZA_PAGE_PEND then maskOf 32 (pagePendBit s req i)
  else if f = PLAZA_COLL_PEND then maskOf 8 (fun j => intStatus s (collP (8 * i + j)) != 0)
  else if f = PLAZA_VEC_SUM then maskOf 5 (fun v => 2 ≤ v && vecSummary s i v)
  else if f = PLAZA_QDIE_PEND then qdiePend s i
  else if f = PLAZA_QDIE_PEND_PKG then qdiePend s 0xF
  else if f = PLAZA_TILE_PEND then tilePendWord s (i / 60) (i % 60)
  else tilePendWord s 0xF i

/-- Words that a District host reads as 0: other Districts' in `PLAZA` and `PKGSW` (R342, R345). -/
def hiddenWord (s : State) (req : Nat) (p : PageId) (off : Nat) : Bool :=
  if req = 4 || req = ownerPort s then false
  else match p.kind with
    | .plaza =>
      if 0x110 ≤ off && off < 0x150 then off % 16 / 4 != req
      else if 0x200 ≤ off && off < 0x600 then (off - 0x200) / 0x100 != req
      else 0x150 ≤ off
    | .pkgsw => 0x110 ≤ off && off < 0x150 && (off - 0x110) / 16 != req
    | _ => false

/-! ### Reading a register -/

/-- The value of a field that the part computes. -/
def viewVal (s : State) (req : Nat) (p : PageId) (f : Fld) (i : Nat) : Nat :=
  if f.page = .hdr then hdrView s p f
  else match p.kind with
    | .plaza => plazaView s req f i
    | .dusk => ofBool (alertLow s)
    | .sec => secView s f i
    | .fuse => fuseView s f i
    | .pkgsw => pkgswView s f i
    | .pwr => pwrView s f
    | .therm => thermView s i
    | .bist => bistView s f i
    | .topo => rd s fuseP (if f = TOPO_SERIAL_TAG_LO then FUSE_SERIAL_TAG_LO else FUSE_SERIAL_TAG_HI)
    | .hostport => ofBool (p.inst == ownerPort s)
    | .district => districtView s p.inst f
    | .cmdproc => cmdprocView s p.inst f
    | .cdie => cdieView s p.inst f
    | .d2d => d2dView s p.inst f
    | .oe => ofBool (rd s p OE_ELS_DARK != 0xFFFFFFFF)
    | .blvd => lanesUp s p.inst
    | .alley => alleyView s p.inst f
    | .coll => collView s p.inst f
    | .tile => tileView s p.inst f i
    | .mover => moverView s p.inst f i
    | .slice => sliceView s p.inst f
    | .engine => engineView s p.inst f
    | .dawn | .crossing | .hdr => 0

/-- The error registers that a capture holds still (R293). -/
def captured (s : State) (p : PageId) (f : Fld) : Option Nat :=
  (SMap.find s.captures p.base).bind (fun c =>
    if f = HDR_ERR_ADDR_HI then some c.hi
    else if f = HDR_ERR_SYNDROME then some c.synd
    else if f = HDR_LAST_ERR then some c.code
    else none)

/-- What requester `req` reads in a field. -/
def fieldVal (s : State) (req : Nat) (p : PageId) (f : Fld) (i : Nat) : Nat :=
  if f.acc = .wo then 0
  else if f.view then viewVal s req p f i
  else if p.kind = .d2d && f.off = 0x200 && i ≥ groupModules p.inst then 0
  else (captured s p f).getD (rd s p f i)

/-- The 32 bits that requester `req` reads at a byte offset of a page. -/
def regWord (s : State) (req : Nat) (p : PageId) (off : Nat) : Nat :=
  if hiddenWord s req p off then 0
  else (fieldsAt p.kind off).foldl (fun v x =>
    v + fieldVal s req p x.1 x.2 % 2 ^ x.1.wid * 2 ^ fldBit x.1 x.2) 0

/-- Whether the register at an offset is the `_LO` half of a 64-bit RO value (R338). -/
def loPair (k : PageKind) (o : Nat) : Bool :=
  let within (a n : Nat) : Bool := a ≤ o && o < a + 8 * n && o % 8 == 0
  match k with
  | .tile => within 0x118 2 || within 0x140 7
  | .mover => within 0x180 2
  | .slice => within 0x120 4
  | .engine => within 0x118 4
  | .alley => within 0x120 3
  | .blvd => within 0x110 1 || within 0x130 2
  | .d2d => within 0x110 1
  | .topo => within 0x108 1 || (0x210 ≤ o && o < 0x280 && o % 32 == 16)
  | .coll => within 0x120 4
  | .hostport => within 0x120 2
  | .pwr => 0x400 ≤ o && o < 0x680 && o % 16 == 0
  | .dusk => within 0x100 1
  | .fuse => within 0x110 2
  | _ => false

/-- A read of `ERR_ADDR_LO` captures the rest of the log (R293). -/
def captureErr (s : State) (p : PageId) : State :=
  let c : Capture := ⟨rd s p HDR_ERR_ADDR_HI, rd s p HDR_ERR_SYNDROME, rd s p HDR_LAST_ERR⟩
  { s with captures := SMap.put s.captures p.base c }

/-- A 4-byte read: the value, and the state with its captures (R293, R338). -/
def readWord (s : State) (req : Nat) (p : PageId) (off : Nat) : State × Nat :=
  let key := 8 * p.base + req
  if off = 0x28 then
    let s := captureErr s p
    (s, regWord s req p off)
  else if loPair p.kind off then
    let l : Latch := ⟨off, regWord s req p (off + 4)⟩
    ({ s with latches := SMap.put s.latches key l }, regWord s req p off)
  else if off % 8 = 4 && loPair p.kind (off - 4) then
    match SMap.find s.latches key with
    | some l => if l.pair = off - 4 then (s, l.high) else (s, regWord s req p off)
    | none => (s, regWord s req p off)
  else (s, regWord s req p off)

/-- An 8-byte read: both halves of one instant; the latch is unchanged (R336, R338). -/
def readPair (s : State) (req : Nat) (p : PageId) (off : Nat) : State × Nat :=
  let s := if off = 0x28 then captureErr s p else s
  (s, regWord s req p off + 2 ^ 32 * regWord s req p (off + 4))

/-- A register read of 4 or 8 bytes that has passed its checks. -/
def readReg (s : State) (req o : Nat) (wide : Bool) : State × Nat :=
  match pageAt o with
  | none => (s, 0)
  | some p => if wide then readPair s req p (o - p.base) else readWord s req p (o - p.base)

/-- The read of a register by a host function: answered, or refused (R246, R343). -/
def hostRead (s : State) (req o size : Nat) : State :=
  if !plazaUp s || !portUp s req then s
  else
    let e := regError s req o size
    if e ≠ 0 then regRefused s req o e false
    else
      let r := readReg s req o (size == 8)
      emit r.1 (.regData req r.2)

/-- `ERR_ADDR_LO_READ` (R293): a read of `size` bytes, 4 or 8 or refused (R336), of the register at 0x028 of the page of a
BAR0 page number. -/
def execErrAddrLoRead (req : PortId) (page : Fin 16384) (size : Nat) (s : State) :
    Host.Outcome State Fault Refusal :=
  .next (hostRead s req (4096 * page.val + 0x28) size)

/-- `LO_HALF_READ` (R338): a read of a register by a host function, of the `_LO` half of a pair or of
any other register (a `_HI` half reads the latch; a read of others has no effect, R337). -/
def execLoHalfRead (req : PortId) (off : Fin 67108864) (size : Nat) (s : State) :
    Host.Outcome State Fault Refusal :=
  .next (hostRead s req off size)

/-! ### The MSI-X table and the pending-bit array (R240) -/

/-- The 32 bits at an offset of BAR4 of function `f`: entry v of the table at 16v (address, data, mask), and
the pending bits at 0x8000 (PRESUMED layout of PCI Express, log entry 24). No row reads BAR4. -/
def bar4Word (s : State) (f off : Nat) : Nat :=
  let e := SMap.getD s.msix (8 * f + off / 16) {}
  if off = 0x8000 then SMap.getD s.pba f 0
  else if off ≥ 128 then 0
  else if off % 16 = 0 then e.addr.toNat % 2 ^ 32
  else if off % 16 = 4 then e.addr.toNat / 2 ^ 32
  else if off % 16 = 8 then e.data.toNat
  else ofBool e.masked

/-! ### The SMBus port (R344, R354) -/

/-- `SET_OFFSET`: a transaction with a bad PEC byte changes nothing. -/
def execSetOffset (offset : BitVec 32) (pec : Bool) (s : State) : Host.Outcome State Fault Refusal :=
  .next (if s.dawn.aon && pec then { s with smbOffset := offset.toNat } else s)

/-- A block read of 4 or 8 data bytes at the offset, which then advances. -/
def smbRead (s : State) (wide : Bool) : State :=
  let n := if wide then 8 else 4
  let o := s.smbOffset
  let e := regError s 4 o n
  let r := if e = 0 then readReg s 4 o wide else (s, 0)
  emit { r.1 with smbOffset := (o + n) % 2 ^ 32 }
    (.smbus ([BitVec.ofNat 8 e, 0] ++ leBytes n r.2))

/-- `READ32`. -/
def execRead32 (s : State) : Host.Outcome State Fault Refusal :=
  .next (if s.dawn.aon then smbRead s false else s)

/-- `READ64`. -/
def execRead64 (s : State) : Host.Outcome State Fault Refusal :=
  .next (if s.dawn.aon then smbRead s true else s)

end Sys2Proof.Machine
end

