-- ==== Sys2Proof/Machine/Pages.lean ====
section
/-!
DEFINITION. Machine/Pages.lean: writes to the register pages: block enables, soft resets, `LOCK`, the
interrupt registers, and `DIST_GLB` (R29, R294, R297, R298, R336 to R343, R347).
-/
namespace Sys2Proof.Machine

/-! ### A write at a BAR0 offset -/

/-- Whether R342 and the pages' rules let function `req` write the 4-byte value `v` at an offset of a page. -/
def mayPut (s : State) (req : Nat) (p : PageId) (off v : Nat) : Bool :=
  mayWrite s req p off && !ownerOnly s req p off v

/-- The first error of a write of `v`, `size` bytes wide, at a BAR0 offset, in R343's order; 0 where it is
applied. -/
def putError (s : State) (req o size v : Nat) : Nat :=
  writeErr (regError s req o size) ((pageAt o).all (fun p =>
    mayPut s req p (o - p.base) v && (size != 8 || mayPut s req p (o - p.base + 4) (v / 2 ^ 32))))

/-- A write of `size` bytes by a host function at a BAR0 offset: refused under R343, R342 or the
page's rules, or `act` on the page and the offset within it. -/
def hostWrite (s : State) (req o size v : Nat) (act : PageId → Nat → State → State) : State :=
  if !plazaUp s || !portUp s req then s
  else
    let e := putError s req o size v
    if e ≠ 0 then regRefused s req o e true
    else match pageAt o with
      | none => s
      | some p => act p (o - p.base) s

/-- A 4-byte write to a register of the header of a page, by its BAR0 page number. -/
def hdrWrite (s : State) (req page : Nat) (f : Fld) (act : PageId → State → State) : State :=
  hostWrite s req (4096 * page + fldOff f) 4 0 (fun p _ s => act p s)

/-! ### Soft resets (R298, R340) -/

/-- The bits that a page defines in its interrupt registers. -/
def intBits (k : PageKind) : Nat :=
  match k with
  | .plaza | .fuse | .hdr => 0
  | .cdie => 1
  | .mover => 2
  | .pkgsw | .crossing => 3
  | .tile | .oe | .hostport | .cmdproc | .bist | .sec => 4
  | .d2d | .slice | .alley | .blvd | .topo | .coll | .district | .pwr | .dusk => 5
  | .engine => 6
  | .therm => 7
  | .dawn => 9

/-- The value of an interrupt register with only defined bits (R335). -/
def intMasked (k : PageKind) (v : Nat) : Nat := v % 2 ^ intBits k

/-- A soft reset that has waited takes effect (R298). -/
def resetWaited (s : State) (p : PageId) (x : ResetIn) : State :=
  if (SMap.find s.resetWaits p.base).isNone then s
  else
    let s : State := { s with resetWaits := SMap.del s.resetWaits p.base }
    match p.kind with
    | .cmdproc => cmdprocReset s p.inst x.entries x.refused
    | .engine => engineReset s p.inst
    | .mover => moverReset s p.inst
    | _ => s

/-- A write of `SOFT_RESET` to a page: the five pages that define a soft-reset action do it, at once or when
their block has started or drained (R298); on every other page it does nothing (R340; log entry 37). -/
def softReset (s : State) (p : PageId) (x : ResetIn) : State :=
  match p.kind with
  | .tile => tileReset s p.inst
  | .mover => moverSoft s p.inst
  | .engine => engineSoft s p.inst
  | .slice => sliceSoft s p.inst x.errs
  | .cmdproc => cmdprocSoft s p.inst x.entries x.refused
  | _ => s

/-! ### `ENABLE` (R297) -/

/-- Pages whose `ENABLE` reads 1 and ignores writes: the pages that say so, and those whose fields are
read-only (R319). -/
def fixedEnable (k : PageKind) : Bool :=
  match k with
  | .plaza | .slice | .dawn | .bist | .fuse => true
  | _ => false

/-- Whether a command processor may be enabled: its format version is spoken and its ring sizes lie in
their range (R248). -/
def cmdMayEnable (s : State) (d : Nat) : Bool :=
  let ok (n : Nat) : Bool := 6 ≤ n && n ≤ 16
  rd s (cmdprocP d) CMDPROC_CMD_VER == 0x100 && ok (rd s (cmdprocP d) CMDPROC_CMD_SIZE)
    && ok (rd s (cmdprocP d) CMDPROC_CPL_SIZE)

/-- What the start of a page's block does at once: a command processor posts again. -/
def startBlock (p : PageId) (s : State) : State :=
  if p.kind = .cmdproc then setProc s p.inst { proc s p.inst with broken := false } else s

/-- What the drain of a page's block does at once (R208). -/
def drainBlock (p : PageId) (s : State) : State :=
  if p.kind = .oe then engineDark s p.inst else s

/-- A write of `ENABLE` of a page (R160, R208, R248, R297). -/
def enableWrite (s : State) (p : PageId) (on : Bool) : State :=
  if fixedEnable p.kind then s
  else if p.kind = .cdie then wr s p HDR_ENABLE (ofBool on)
  else if p.kind = .engine && !tileFenced s p.inst then engineEnable s p.inst on
  else if p.kind.perTile && tileFenced s p.inst then wr s p HDR_ENABLE (ofBool on)
  else if p.kind = .cmdproc && on && (rd s p HDR_ENABLE = 0 || rd s p HDR_STATE = 0)
      && !cmdMayEnable s p.inst then
    raise (lastErr s p 4) p 2
  else blockEnable s p on (startBlock p) (drainBlock p)

/-- `BLOCK_ENABLE_WRITE`: a write of `BLK_CTRL` of a page, by its BAR0 page number, that sets
`ENABLE` to `on` and neither `SOFT_RESET` nor `LOCK`. -/
def execBlockEnableWrite (req : PortId) (page : Fin 16384) (on : Bool) (s : State) :
    Host.Outcome State Fault Refusal :=
  .next (hdrWrite s req page HDR_ENABLE (fun p s => enableWrite s p on))

/-- Whether the drain of a page's block can end: nothing is in progress that it waits for (R297). -/
def mayDrain (s : State) (p : PageId) : Bool :=
  match p.kind with
  | .cmdproc => (proc s p.inst).running.isEmpty
  | .district => distIdle s p.inst
  | .coll => (engInst s p.inst).isNone
  | .engine => (slice s p.inst).mode == 0
  | .tile => (tile s p.inst).runState != 2
  | .mover => (List.range 8).all (fun c =>
      ((tile s p.inst).chan c).cmds.head?.all (fun m => m.moved == 0))
  | .crossing => rd s p CROSSING_BUSY == 0
  | .oe => (List.range 4).all (fun d => !(link s (4 * p.inst + d)).handing)
      && (List.range 32).all (fun k => !(link s (blvdLink p.inst k)).handing)
  | .alley => let x := link s p.inst; x.txq.isEmpty && x.retry.isEmpty && !x.txTrain && !x.rxTrain
  | .blvd => (List.range 32).all (fun k =>
      let x := link s (blvdLink p.inst k); x.txq.isEmpty && x.retry.isEmpty)
  | .hostport => s.hostHeld.all (fun q => q.port != p.inst)
  | .topo => s.meshIn.isEmpty && s.collIn.isEmpty
  | .sec => s.sec.lc.isNone && s.sec.att.isEmpty
  | .d2d => !groupRuns s p.inst || (List.range (groupModules p.inst)).all (fun m => modState s p.inst m != 3)
  | .dusk => let t := rd s p DUSK_TW_STATE; t == 0 || t == 2
  | .pwr => (List.range 4).all (fun d => (dom s d).opStep.isNone)
  | _ => true

/-- What a block that is ON again takes up at once: `PWR` the ceilings of the dies, and the switch, a link group
and `TOPO` what has waited for them. -/
def blockGoesOn (s : State) (p : PageId) : State :=
  match p.kind with
  | .pwr => ((List.range 4).filter (dieUp s)).foldl reapply s
  | .d2d | .pkgsw | .topo => flowsGoOn s
  | _ => s

/-- A block's start ends; `st` is the state of an optical engine after its start (R208). -/
def startDone (s : State) (p : PageId) (st : Option OeStart) (x : ResetIn) : State :=
  if rd s p HDR_STATE ≠ 1 then s
  else
    let s := match st with
      | some y => if p.kind = .oe then engineStarted s p.inst y else s
      | none => s
    let s := blockStarted s p (drainBlock p)
    if rd s p HDR_STATE = 2 then blockGoesOn (pollLaunches (resetWaited s p x)) p else s

/-- The page of a BAR0 page number, where the Plaza is up and it is a page. -/
def onPage (s : State) (page : Nat) (act : PageId → State) : State :=
  match pageAt (4096 * page) with
  | some p => if plazaUp s then act p else s
  | none => s

/-- `BLOCK_START_DONE` (R297, R298): the start of an optical engine says what it finds. -/
def execBlockStartDone (page : Fin 16384) (st : Option OeStart) (x : ResetIn) (s : State) :
    Host.Outcome State Fault Refusal :=
  if (pageAt (4096 * page.val)).any (fun p => p.kind == .oe) != st.isSome then
    .fault (.malformed "BLOCK_START_DONE")
  else .next (onPage s page (fun p => startDone s p st x))

/-- A block's drain ends: OFF, where a waiting soft reset takes effect, then STARTING at once when
`PEND_ENABLE` is set. -/
def drainDone (s : State) (p : PageId) (x : ResetIn) : State :=
  if rd s p HDR_STATE ≠ 3 || !mayDrain s p then s
  else
    let s := wr s p HDR_STATE 0
    let s := if p.kind = .oe then lasersOff s p.inst else s
    let s := resetWaited s p x
    if rd s p HDR_PEND_ENABLE = 1 then startBlock p (wr (wr s p HDR_PEND_ENABLE 0) p HDR_STATE 1) else s

/-- `BLOCK_DRAIN_DONE` (R297, R298). -/
def execBlockDrainDone (page : Fin 16384) (x : ResetIn) (s : State) :
    Host.Outcome State Fault Refusal :=
  .next (onPage s page (fun p => drainDone s p x))

/-- `PAGE_SOFT_RESET` (R298, R340): a write of `BLK_CTRL` of a page, by its BAR0 page number, that sets
`SOFT_RESET` and leaves `ENABLE`. -/
def execPageSoftReset (req : PortId) (page : Fin 16384) (x : ResetIn) (s : State) :
    Host.Outcome State Fault Refusal :=
  .next (hdrWrite s req page HDR_SOFT_RESET (fun p s => softReset s p x))

/-- A write of `BLK_CTRL`: only the owning host sets `LOCK`, and the rest of the write applies (R339); a soft
reset acts in the state that the write finds, and `ENABLE` after it (DESIGN CHOICE, log entry 177). -/
def ctrlWrite (s : State) (req : Nat) (p : PageId) (lock on : Bool) (soft : Option ResetIn) : State :=
  let s := if lock && req = ownerPort s then wr s p HDR_LOCK 1 else s
  let s := match soft with
    | some x => softReset s p x
    | none => s
  enableWrite s p on

/-- `LOCK_WRITE` (R339): a write of `BLK_CTRL` with these values of `LOCK`, `ENABLE` and `SOFT_RESET`. -/
def execLockWrite (req : PortId) (page : Fin 16384) (lock on : Bool) (soft : Option ResetIn) (s : State) :
    Host.Outcome State Fault Refusal :=
  .next (hdrWrite s req page HDR_LOCK (fun p s => ctrlWrite s req p lock on soft))

/-! ### Interrupt registers (R294, R341, R347) -/

/-- Writes of `INT_FORCE` and of `INT_ENABLE` (R294, R341). -/
def forceWrite (s : State) (p : PageId) (v : Nat) : State :=
  deliver (wr s p HDR_INT_RAW (rd s p HDR_INT_RAW ||| intMasked p.kind v))
def intEnable (s : State) (p : PageId) (v : Nat) : State := deliver (wr s p HDR_INT_ENABLE (intMasked p.kind v))

/-- `INT_FORCE_WRITE` (R294). -/
def execIntForceWrite (req : PortId) (page : Fin 16384) (value : BitVec 32) (s : State) :
    Host.Outcome State Fault Refusal :=
  .next (hdrWrite s req page HDR_INT_FORCE (fun p s => forceWrite s p value.toNat))

/-- `INT_STATUS_CLEAR` (R341, R294). -/
def execIntStatusClear (req : PortId) (page : Fin 16384) (value : BitVec 32) (s : State) :
    Host.Outcome State Fault Refusal :=
  .next (hdrWrite s req page HDR_INT_STATUS (fun p s => clearRaw s p value.toNat))

/-- `INT_ENABLE_WRITE` (R341). -/
def execIntEnableWrite (req : PortId) (page : Fin 16384) (value : BitVec 32) (s : State) :
    Host.Outcome State Fault Refusal :=
  .next (hdrWrite s req page HDR_INT_ENABLE (fun p s => intEnable s p value.toNat))

/-- The vectors of `mask` of a function are rearmed (R346, R347). -/
def eoi (s : State) (d mask : Nat) : State :=
  [2, 3, 4].foldl (fun s v =>
    if bitOf mask v then
      let s := wr s plazaP PLAZA_IN_SERVICE (clearBit (rd s plazaP PLAZA_IN_SERVICE d) v) d
      let s := if v = 3 then wr s plazaP PLAZA_NOTICE_PEND 0 d else s
      deliver1 s d v
    else s) s

/-- `INT_EOI` (R347): a write of function `d`'s `INT_EOI`. -/
def execIntEoi (req : PortId) (d : DistId) (mask : BitVec 8) (s : State) :
    Host.Outcome State Fault Refusal :=
  .next (fieldWrite s req plazaP PLAZA_INT_EOI d (fun s => eoi s d mask.toNat))

/-- An entry of a function's MSI-X table is written: where it unmasks its vector, a message that waits in
the pending-bit array is sent. -/
def msixWrite (s : State) (d v : Nat) (e : MsixEntry) : State :=
  let s : State := { s with msix := SMap.put s.msix (8 * d + v) e }
  let b := SMap.getD s.pba d 0
  if !e.masked && bitOf b v then sendVector { s with pba := SMap.put s.pba d (clearBit b v) } d v else s

/-- `MSIX_UNMASK` (R240, R347): a write of a whole entry of the table in BAR4, which masks its vector or
unmasks it. -/
def execMsixUnmask (f : PortId) (v : Fin 8) (e : MsixEntry) (s : State) :
    Host.Outcome State Fault Refusal :=
  .next (if plazaUp s && portUp s f then msixWrite s f v e else s)

/-! ### Global memory of a District (R29) -/

/-- The value that a pair of `DIST_GLB` takes, or it is dropped whole. -/
def glbApply (s : State) (d base size : Nat) : State :=
  let s : State := { s with glbHeld := SMap.del (SMap.del s.glbHeld (2 * d)) (2 * d + 1) }
  if base + size > 384 then raise s pkgswP 1
  else wr (wr s pkgswP PKGSW_DIST_GLB_BASE base d) pkgswP PKGSW_DIST_GLB_SIZE size d

/-- A write of one or both of a District's registers. -/
def glbWrite (s : State) (req d : Nat) (base size : Option Nat) : State :=
  if (req ≠ ownerPort s && req ≠ d) || locked s pkgswP || distLaunched s d then raise s pkgswP 1
  else match base, size with
    | some b, some z => glbApply s d b z
    | some b, none =>
      match SMap.find s.glbHeld (2 * d + 1) with
      | some z => glbApply s d b z
      | none => { s with glbHeld := SMap.put s.glbHeld (2 * d) b }
    | none, some z =>
      match SMap.find s.glbHeld (2 * d) with
      | some b => glbApply s d b z
      | none => { s with glbHeld := SMap.put s.glbHeld (2 * d + 1) z }
    | none, none => s

/-- `DIST_GLB_WRITE` (R29): a 4-byte write of one register, or an 8-byte write of both. -/
def execDistGlbWrite (req : PortId) (d : DistId) (base size : Option (Fin 512)) (s : State) :
    Host.Outcome State Fault Refusal :=
  if base.isNone && size.isNone then .fault (.malformed "DIST_GLB_WRITE")
  else
    let n := if base.isSome && size.isSome then 8 else 4
    let o := pkgswP.base + fldOff (if base.isSome then PKGSW_DIST_GLB_BASE else PKGSW_DIST_GLB_SIZE) d
    .next (if !plazaUp s || !portUp s req then s
      else
        let e := regError s req o n
        if e ≠ 0 then regRefused s req o e true
        else glbWrite s req d (base.map Fin.val) (size.map Fin.val))

end Sys2Proof.Machine
end

