-- ==== Sys2Proof/Machine/Registers.lean ====
section
/-!
DEFINITION. Machine/Registers.lean: a write of any register, whole or as half of a pair (R336, R337, R339):
the registers whose write acts, and the fields that have no behaviour of their own.
-/
namespace Sys2Proof.Machine

/-! ### Fields (R337) -/

/-- Writable fields that `ownApply` writes, and `MODE`, which no page defines. -/
def ownWrite (f : Fld) : Bool :=
  [HDR_ENABLE, HDR_MODE, HDR_LOCK, HDR_INT_STATUS, HDR_INT_ENABLE, BLVD_TX_ENABLE, BLVD_RX_ENABLE,
    TOPO_QID, TOPO_DISTRICT, TOPO_VALID, TOPO_RECT, TOPO_SQUARE_SET, DISTRICT_QDIE_MASK,
    DISTRICT_SIGN_REQUIRED, SEC_IMG_KEY_DIGEST, SEC_SCAN_EN, SEC_ENGINE_EN, CMDPROC_CPL_HEAD,
    PWR_PWR_CAP_W, PWR_OP_TARGET, PKGSW_DIST_GLB_BASE, PKGSW_DIST_GLB_SIZE].contains f
    || f.page == .mover

/-- The bits of a value that a field keeps: host addresses are aligned, and a waveguide's reserved bits
read 0. -/
def keptBits (f : Fld) (v : Nat) : Nat :=
  if f = CMDPROC_CMD_BASE_LO || f = CMDPROC_CPL_BASE_LO then v / 4096 * 4096
  else if f = DAWN_FW_ADDR_LO || f = DAWN_REC_ADDR_LO || f = DAWN_OUT_ADDR_LO || f = SEC_ATT_ADDR_LO then
    v / 64 * 64
  else if f = CROSSING_TARGET then v % 16 + v / 128 * 128
  else v

/-- Whether a write to a field is dropped by a rule of its page. -/
def fieldDropped (s : State) (p : PageId) (f : Fld) : Bool :=
  (f.acc == .rwl && locked s p)
    || ([CMDPROC_CMD_BASE_LO, CMDPROC_CMD_BASE_HI, CMDPROC_CMD_SIZE, CMDPROC_CPL_BASE_LO,
        CMDPROC_CPL_BASE_HI, CMDPROC_CPL_SIZE].contains f && rd s p HDR_STATE != 0)
    || ([BIST_BUDGET_DRAM_MS, BIST_BUDGET_LOGIC_MS].contains f && rd s dawnP DAWN_FW_STATE != 1)
    || ([SEC_STAGE_SERIAL, SEC_STAGE_FW_KEY, SEC_STAGE_SVC_KEY, SEC_STAGE_VARIANT, SEC_STAGE_BAD].contains f
      && 2 ≤ lcState s)

/-- What a write to a field sets off: a refresh rate that changes (R133), Boulevard lines that may lock
or must leave (R189), and WAIT_EVENTs that are satisfied (R254). -/
def afterWrite (old s : State) (p : PageId) (f : Fld) (refused : Bool) : State :=
  if f = SLICE_REFRESH_FLOOR then
    if sliceRate old p.inst = sliceRate s p.inst then s else raise s p 4
  else if f = BLVD_CFG_VALID then
    if rd s p BLVD_CFG_VALID = 1 then lockLines s p.inst
    else
      let ls := (List.range 31).map (fun k => blvdLink p.inst (k + 1))
      let ts := ls.filter (txUp old)
      let s := ts.foldl stopTx s
      let s := dirsDown s [] ((ls.filter (fun l =>
        lineState s p.inst (linkLine l) != 0)).map (fun l => (l, 0)))
      ts.foldl txFell s
  else if f = DISTRICT_HEVT then withRefuse s p.inst refused (fun s => pollWaits s p.inst)
  else s

/-- A write of `v` to entry `i` of a field. -/
def fieldApply (s : State) (p : PageId) (f : Fld) (i v : Nat) (refused : Bool) : State :=
  if f.acc = .ro || f.acc = .wo || ownWrite f || fieldDropped s p f then s
  else if f.acc = .w1c then
    -- the sticky floating-point flags (R59)
    let t := tile s p.inst
    if v % 2 = 1 then setTile s p.inst { t with fpFlags := clearBit t.fpFlags f.lo } else s
  else afterWrite s (wr s p f (keptBits f (v % 2 ^ f.wid)) i) p f refused

/-! ### Registers whose write acts -/

/-- The entry of a field whose register is at an offset. -/
def entryAt (f : Fld) (off : Nat) : Option Nat := (List.range f.cnt).find? (fun i => fldOff f i == off)

/-- The actions of a write of `v` to a register of the common header (R294, R297, R298, R339, R341). -/
def headerApply (s : State) (req : Nat) (p : PageId) (off v : Nat) (x : ResetIn) : State :=
  if off = fldOff HDR_ENABLE then
    ctrlWrite s req p (fldVal v HDR_LOCK == 1) (fldVal v HDR_ENABLE == 1)
      (if fldVal v HDR_SOFT_RESET = 1 then some x else none)
  else if off = fldOff HDR_INT_STATUS then clearRaw s p v
  else if off = fldOff HDR_INT_ENABLE then intEnable s p v
  else if off = fldOff HDR_INT_FORCE then forceWrite s p v
  else s

/-- The action of a write of 1 to a bit. -/
def onBit (s : State) (v : Nat) (f : Fld) (off : Nat) (act : State → State) : State :=
  if off = fldOff f && fldVal v f = 1 then act s else s

/-- The actions of a write to a page of the optical links or of the package's topology. -/
def linkApply (s : State) (p : PageId) (off v : Nat) : State :=
  let n := p.inst
  match p.kind with
  | .blvd =>
    if off = fldOff BLVD_TX_ENABLE then blvdEnable s n true v
    else if off = fldOff BLVD_RX_ENABLE then blvdEnable s n false v
    else s
  | .alley => onBit s v ALLEY_RETRAIN off (fun s => alleyRetrain s n)
  | .crossing => onBit s v CROSSING_APPLY off (fun s => crossingApply s n)
  | .topo =>
    if off = fldOff TOPO_PORT_ACCEPT then (bitList 4 v).foldl acceptPort s
    else if off = fldOff TOPO_SQUARE_ACCEPT then (bitList 32 v).foldl (fun s k => acceptPort s (4 + k)) s
    else if 0x140 ≤ off && off < 0x180 && off % 16 < 12 then
      quarterWrite s ((off - 0x140) / 16) [(off % 16 / 4, v)]
    else s
  | .coll => onBit s v COLL_COLL_ABORT off (fun s => collAbort s n)
  | _ => s

/-- The actions of a write to a page of a District or of the package. -/
def packageApply (s : State) (req : Nat) (p : PageId) (off v : Nat) (x : ResetIn) : State :=
  let n := p.inst
  match p.kind with
  | .plaza => (entryAt PLAZA_INT_EOI off).elim s (fun d => eoi s d v)
  | .pkgsw =>
    match entryAt PKGSW_DIST_GLB_BASE off, entryAt PKGSW_DIST_GLB_SIZE off with
    | some d, _ => glbWrite s req d (some (fldVal v PKGSW_DIST_GLB_BASE d)) none
    | _, some d => glbWrite s req d none (some (fldVal v PKGSW_DIST_GLB_SIZE d))
    | _, _ => s
  | .district =>
    if off = fldOff DISTRICT_QDIE_MASK then maskWrite s n v
    else if off = fldOff DISTRICT_SIGN_REQUIRED then
      policyWrite s n p DISTRICT_SIGN_REQUIRED 0 3 (fldVal v DISTRICT_SIGN_REQUIRED)
    else s
  | .cmdproc =>
    if off = fldOff CMDPROC_CMD_DOORBELL then doorbell s req n (v % 2 ^ 16)
    else if off = fldOff CMDPROC_CPL_HEAD then
      withRefuse s n x.refused (fun s => cplHead s n (v % 2 ^ 16))
    else s
  | .sec =>
    if off = fldOff SEC_TARGET then lcReq s (fldVal v SEC_TARGET) (fldVal v SEC_CONFIRM)
    else if off = fldOff SEC_SCAN_EN then testCtrl s (fldVal v SEC_SCAN_EN == 1) (fldVal v SEC_ENGINE_EN == 1)
    else match entryAt SEC_IMG_KEY_DIGEST off, entryAt SEC_ATT_GO off with
      | some i, _ => policyWrite s (i / 8) p SEC_IMG_KEY_DIGEST i 3 v
      | _, some d => if fldVal v SEC_ATT_GO d = 1 then attGo s req d (fldVal v SEC_ATT_PKG d == 1) else s
      | _, _ => s
  | .pwr =>
    if off = fldOff PWR_PWR_CAP_W then capWrite s v
    else (entryAt PWR_OP_TARGET off).elim s (fun d => opTargetWrite s d (fldVal v PWR_OP_TARGET d))
  | .dusk =>
    let keep := fldVal v DUSK_KEEP_RINGS == 1
    onBit (onBit s v DUSK_TW_REQ off (fun s => twRequest s keep)) v DUSK_TW_EXIT off (fun s => twExit s keep)
  | .dawn =>
    onBit (onBit s v DAWN_FW_GO off fwGo) v DAWN_REC_EMIT off (fun s =>
      if sectionsOk x.sections then recEmit s x.sections else s)
  | _ => s

/-- The actions of a write of `v` to the register at an offset of a page: what the row of that register does
(log entry 41). -/
def ownApply (s : State) (req : Nat) (p : PageId) (off v : Nat) (x : ResetIn) : State :=
  if off < 0x100 then headerApply s req p off v x
  else if p.kind = .mover then moverWord s p.inst off v
  else packageApply (linkApply s p off v) req p off v x

/-- The fields of a register that have no behaviour of their own take their values. -/
def plainApply (s : State) (p : PageId) (off v : Nat) (refused : Bool) : State :=
  (fieldsAt p.kind off).foldl (fun s x =>
    fieldApply s p x.1 x.2 (v / 2 ^ fldBit x.1 x.2) refused) s

/-- A write of 32 bits to the register at an offset of a page. -/
def wordApply (s : State) (req : Nat) (p : PageId) (off v : Nat) (x : ResetIn) : State :=
  plainApply (ownApply s req p off v x) p off v x.refused

/-- A write of both registers of a pair in one cycle (R336): a pair of `DIST_GLB` (R29) and two words of a
Quarter entry act together; of others the lower register's action comes first. -/
def pairApply (s : State) (req : Nat) (p : PageId) (off v : Nat) (x : ResetIn) : State :=
  let hi := v / 2 ^ 32
  match p.kind, entryAt PKGSW_DIST_GLB_BASE off with
  | .pkgsw, some d =>
    glbWrite s req d (some (fldVal v PKGSW_DIST_GLB_BASE d)) (some (fldVal hi PKGSW_DIST_GLB_SIZE d))
  | .topo, _ =>
    if 0x140 ≤ off && off < 0x180 && off % 16 = 0 then
      quarterWrite s ((off - 0x140) / 16) [(0, v % 2 ^ 32), (1, hi)]
    else wordApply (wordApply s req p off (v % 2 ^ 32) x) req p (off + 4) hi x
  | _, _ => wordApply (wordApply s req p off (v % 2 ^ 32) x) req p (off + 4) hi x

/-- Whether a write at an offset of a page finds the tile running that it configures (R93). -/
def moverBusy (s : State) (p : PageId) (off : Nat) : Bool :=
  p.kind == .mover && moverReg off && (tile s p.inst).runState == 2

/-- `REGISTER_WRITE` (R336, R337, R339): a write of `size` bytes at a BAR0 offset. -/
def execRegisterWrite (req : PortId) (off : Fin 67108864) (size value : Nat) (x : ResetIn)
    (s : State) : Host.Outcome State Fault Refusal :=
  .next (hostWrite s req off size value (fun p o s =>
    if moverBusy s p o || (size == 8 && moverBusy s p (o + 4)) then
      regRefused s req (p.base + o) errBusy true
    else if size = 8 then pairApply s req p o value x
    else wordApply s req p o (value % 2 ^ 32) x))

end Sys2Proof.Machine
end

