-- ==== Sys2Proof/Machine/Scalar.lean ====
section
/-!
DEFINITION. Machine/Scalar.lean: the CT slot's instructions (R86 to R90, R271), each issued alone in
a bundle at the tile's present cycle.
-/
namespace Sys2Proof.Machine

/-- `CT_LI` (R86). -/
def execCtLi (t : TileId) (sd : Fin 32) (imm : Fin 65536) (hi : Bool) (s : State) :
    Host.Outcome State Fault Refusal :=
  .next (slotIssue s t { ct := .li sd imm hi })

/-- `CT_ALU` (R86); functions above 12 are reserved encodings, which the decoder makes illegal. -/
def execCtAlu (t : TileId) (sd sa sb : Fin 32) (fn : Fin 16) (s : State) :
    Host.Outcome State Fault Refusal :=
  .next (slotIssue s t { ct := if fn.val > 12 then .illegal else .alu sd sa sb fn })

/-- `CT_ADDI` (R86). -/
def execCtAddi (t : TileId) (sd sa : Fin 32) (imm : Fin 65536) (s : State) :
    Host.Outcome State Fault Refusal :=
  .next (slotIssue s t { ct := .addi sd sa imm })

/-- `CT_LOOP` (R88). -/
def execCtLoop (t : TileId) (l : Fin 4) (sc : Fin 32) (endB : Fin 4096) (s : State) :
    Host.Outcome State Fault Refusal :=
  .next (slotIssue s t { ct := .loop l sc endB })

/-- `CT_RDL` (R86). -/
def execCtRdl (t : TileId) (sd : Fin 32) (l : Fin 4) (s : State) : Host.Outcome State Fault Refusal :=
  .next (slotIssue s t { ct := .rdl sd l })

/-- `CT_BR` (R87); condition 7 is a reserved encoding. -/
def execCtBr (t : TileId) (sa sb : Fin 32) (cond : Fin 8) (target : Fin 4096) (s : State) :
    Host.Outcome State Fault Refusal :=
  .next (slotIssue s t { ct := if cond.val = 7 then .illegal else .br sa sb cond target })

/-- `CT_PHASE` (R271). -/
def execCtPhase (t : TileId) (cls : Fin 4) (lead : Fin 4096) (s : State) :
    Host.Outcome State Fault Refusal :=
  .next (slotIssue s t { ct := .phase cls lead })

/-- `CT_END` (R89). -/
def execCtEnd (t : TileId) (s : State) : Host.Outcome State Fault Refusal :=
  .next (slotIssue s t { ct := .done })

/-- `CT_TRAP` (R90); a code below 0x80 is a reserved field value (R64). -/
def execCtTrap (t : TileId) (code : Fin 256) (s : State) : Host.Outcome State Fault Refusal :=
  .next (slotIssue s t { ct := if code.val < 0x80 then .illegal else .trap code })

end Sys2Proof.Machine
end

