-- ==== Sys2Proof/Machine/Stream.lean ====
section
/-!
DEFINITION. Machine/Stream.lean: the SM slot's instructions (R76 to R79, R83), each issued alone in a
bundle at the tile's present cycle.
-/
namespace Sys2Proof.Machine

/-- `SM_VLD` (R76, R77). -/
def execSmVld (t : TileId) (vd : Fin 64) (sb : Fin 32) (loff : Nat) (pmask lmask : Fin 16) (s : State) :
    Host.Outcome State Fault Refusal :=
  .next (slotIssue s t { sm := .vld vd sb (loff % 2 ^ 15) pmask lmask })

/-- `SM_VST` (R76, R77). -/
def execSmVst (t : TileId) (va : Fin 64) (sb : Fin 32) (loff : Nat) (pmask : Fin 4) (lmask : Fin 16)
    (s : State) :
    Host.Outcome State Fault Refusal :=
  .next (slotIssue s t { sm := .vst va sb (loff % 2 ^ 15) pmask lmask })

/-- `SM_QTOV` (R78). -/
def execSmQtov (t : TileId) (vd : Fin 64) (q : Fin 16) (lmask : Fin 16) (s : State) :
    Host.Outcome State Fault Refusal :=
  .next (slotIssue s t { sm := .qtov vd q lmask })

/-- `SM_VTOQ` (R78). -/
def execSmVtoq (t : TileId) (va : Fin 64) (o : Fin 16) (lmask : Fin 16) (s : State) :
    Host.Outcome State Fault Refusal :=
  .next (slotIssue s t { sm := .vtoq va o lmask })

/-- `SM_QTOS` (R77): 1 to 16 lines. -/
def execSmQtos (t : TileId) (n : Nat) (q : Fin 16) (port : Fin 2) (sb : Fin 32) (loff : Nat)
    (s : State) : Host.Outcome State Fault Refusal :=
  if n = 0 || n > 16 then .fault (.malformed "SM_QTOS")
  else .next (slotIssue s t { sm := .qtos n q port sb (loff % 2 ^ 15) })

/-- `SM_STOQ` (R77): 1 to 16 lines. -/
def execSmStoq (t : TileId) (n : Nat) (o : Fin 16) (port : Fin 4) (sb : Fin 32) (loff : Nat)
    (s : State) : Host.Outcome State Fault Refusal :=
  if n = 0 || n > 16 then .fault (.malformed "SM_STOQ")
  else .next (slotIssue s t { sm := .stoq n o port sb (loff % 2 ^ 15) })

/-- `SM_CH` (R79). -/
def execSmCh (t : TileId) (f : ChF) (s : State) : Host.Outcome State Fault Refusal :=
  .next (slotIssue s t { sm := .ch { f with ch := f.ch % 8, port := f.port % 4 } })

/-- `SM_FENCE` (R83). -/
def execSmFence (t : TileId) (mask : Fin 256) (s : State) : Host.Outcome State Fault Refusal :=
  .next (slotIssue s t { sm := .fence mask })

end Sys2Proof.Machine
end

