-- ==== Sys2Proof/Machine/Vector.lean ====
section
/-!
DEFINITION. Machine/Vector.lean: the vector unit's instructions (R73 to R75), each issued alone in a
bundle at the tile's present cycle.
-/
namespace Sys2Proof.Machine

/-- A bundle that holds one VX instruction. -/
def vxBundle (o : VxOpc) (f : VxF) : Bundle := { vx := .op o f }

/-- `VX_ADD`: a + b in FP32, BF16 or INT32. -/
def execVxAdd (t : TileId) (f : VxF) (s : State) : Host.Outcome State Fault Refusal :=
  .next (slotIssue s t (vxBundle .add f))

/-- `VX_SUB`: a − b. -/
def execVxSub (t : TileId) (f : VxF) (s : State) : Host.Outcome State Fault Refusal :=
  .next (slotIssue s t (vxBundle .sub f))

/-- `VX_MUL`: a × b. -/
def execVxMul (t : TileId) (f : VxF) (s : State) : Host.Outcome State Fault Refusal :=
  .next (slotIssue s t (vxBundle .mul f))

/-- `VX_MAX`: the greater of a and b. -/
def execVxMax (t : TileId) (f : VxF) (s : State) : Host.Outcome State Fault Refusal :=
  .next (slotIssue s t (vxBundle .max f))

/-- `VX_MIN`: the lesser of a and b. -/
def execVxMin (t : TileId) (f : VxF) (s : State) : Host.Outcome State Fault Refusal :=
  .next (slotIssue s t (vxBundle .min f))

/-- `VX_FMA`: a × b + c, rounded once. -/
def execVxFma (t : TileId) (f : VxF) (s : State) : Host.Outcome State Fault Refusal :=
  .next (slotIssue s t (vxBundle .fma f))

/-- `VX_FNMA`: c − a × b, rounded once. -/
def execVxFnma (t : TileId) (f : VxF) (s : State) : Host.Outcome State Fault Refusal :=
  .next (slotIssue s t (vxBundle .fnma f))

/-- `VX_CMP`: a comparison into a predicate. -/
def execVxCmp (t : TileId) (f : VxF) (s : State) : Host.Outcome State Fault Refusal :=
  .next (slotIssue s t (vxBundle .cmp f))

/-- `VX_SEL`: lanes of a or b under a predicate. -/
def execVxSel (t : TileId) (f : VxF) (s : State) : Host.Outcome State Fault Refusal :=
  .next (slotIssue s t (vxBundle .sel f))

/-- `VX_PLOG`: a combination of predicates. -/
def execVxPlog (t : TileId) (f : VxF) (s : State) : Host.Outcome State Fault Refusal :=
  .next (slotIssue s t (vxBundle .plog f))

/-- `VX_AND`: bitwise AND. -/
def execVxAnd (t : TileId) (f : VxF) (s : State) : Host.Outcome State Fault Refusal :=
  .next (slotIssue s t (vxBundle .and f))

/-- `VX_OR`: bitwise OR. -/
def execVxOr (t : TileId) (f : VxF) (s : State) : Host.Outcome State Fault Refusal :=
  .next (slotIssue s t (vxBundle .or f))

/-- `VX_XOR`: bitwise XOR. -/
def execVxXor (t : TileId) (f : VxF) (s : State) : Host.Outcome State Fault Refusal :=
  .next (slotIssue s t (vxBundle .xor f))

/-- `VX_SHL`: a left shift. -/
def execVxShl (t : TileId) (f : VxF) (s : State) : Host.Outcome State Fault Refusal :=
  .next (slotIssue s t (vxBundle .shl f))

/-- `VX_SHR`: a logical right shift. -/
def execVxShr (t : TileId) (f : VxF) (s : State) : Host.Outcome State Fault Refusal :=
  .next (slotIssue s t (vxBundle .shr f))

/-- `VX_SRA`: an arithmetic right shift. -/
def execVxSra (t : TileId) (f : VxF) (s : State) : Host.Outcome State Fault Refusal :=
  .next (slotIssue s t (vxBundle .sra f))

/-- `VX_PERM`: lanes of a by the indices in b. -/
def execVxPerm (t : TileId) (f : VxF) (s : State) : Host.Outcome State Fault Refusal :=
  .next (slotIssue s t (vxBundle .perm f))

/-- `VX_SPLAT`: a scalar or an immediate in every lane. -/
def execVxSplat (t : TileId) (f : VxF) (s : State) : Host.Outcome State Fault Refusal :=
  .next (slotIssue s t (vxBundle .splat f))

/-- `VX_IOTA`: each lane's index plus a scalar. -/
def execVxIota (t : TileId) (f : VxF) (s : State) : Host.Outcome State Fault Refusal :=
  .next (slotIssue s t (vxBundle .iota f))

/-- `VX_EXT`: a lane into a scalar register. -/
def execVxExt (t : TileId) (f : VxF) (s : State) : Host.Outcome State Fault Refusal :=
  .next (slotIssue s t (vxBundle .ext f))

/-- `VX_CVT`: a conversion of one part. -/
def execVxCvt (t : TileId) (f : VxF) (s : State) : Host.Outcome State Fault Refusal :=
  .next (slotIssue s t (vxBundle .cvt f))

/-- `VX_CVTFMX`: an MX part with its scales to FP32. -/
def execVxCvtfmx (t : TileId) (f : VxF) (s : State) : Host.Outcome State Fault Refusal :=
  .next (slotIssue s t (vxBundle .cvtfmx f))

/-- `VX_CVTMX`: FP32 lanes to an MX part (R58). -/
def execVxCvtmx (t : TileId) (f : VxF) (s : State) : Host.Outcome State Fault Refusal :=
  .next (slotIssue s t (vxBundle .cvtmx f))

/-- `VX_EXP2`: 2 to the power of each lane (R55). -/
def execVxExp2 (t : TileId) (f : VxF) (s : State) : Host.Outcome State Fault Refusal :=
  .next (slotIssue s t (vxBundle .exp2 f))

/-- `VX_LOG2`: the base-2 logarithm of each lane (R55). -/
def execVxLog2 (t : TileId) (f : VxF) (s : State) : Host.Outcome State Fault Refusal :=
  .next (slotIssue s t (vxBundle .log2 f))

/-- `VX_RCP`: the reciprocal of each lane (R55). -/
def execVxRcp (t : TileId) (f : VxF) (s : State) : Host.Outcome State Fault Refusal :=
  .next (slotIssue s t (vxBundle .rcp f))

/-- `VX_RSQ`: the reciprocal square root of each lane (R55). -/
def execVxRsq (t : TileId) (f : VxF) (s : State) : Host.Outcome State Fault Refusal :=
  .next (slotIssue s t (vxBundle .rsq f))

/-- `VX_RSUM`: the sum of all lanes in a fixed tree (R56). -/
def execVxRsum (t : TileId) (f : VxF) (s : State) : Host.Outcome State Fault Refusal :=
  .next (slotIssue s t (vxBundle .rsum f))

/-- `VX_RMAX`: the maximum of all lanes (R56). -/
def execVxRmax (t : TileId) (f : VxF) (s : State) : Host.Outcome State Fault Refusal :=
  .next (slotIssue s t (vxBundle .rmax f))

/-- `VX_RMIN`: the minimum of all lanes (R56). -/
def execVxRmin (t : TileId) (f : VxF) (s : State) : Host.Outcome State Fault Refusal :=
  .next (slotIssue s t (vxBundle .rmin f))

/-- `VX_ACRD`: two accumulator rows into a vector register (R52). -/
def execVxAcrd (t : TileId) (f : VxF) (s : State) : Host.Outcome State Fault Refusal :=
  .next (slotIssue s t (vxBundle .acrd f))

/-- `VX_ACWR`: a vector register into two accumulator rows (R52). -/
def execVxAcwr (t : TileId) (f : VxF) (s : State) : Host.Outcome State Fault Refusal :=
  .next (slotIssue s t (vxBundle .acwr f))

end Sys2Proof.Machine
end

