-- ==== Sys2Proof/Machine/Dispatch.lean ====
section
/-!
DEFINITION. Machine/Dispatch.lean: what each command does, one arm per row of the table.
-/
namespace Sys2Proof.Machine

def exec (i : Instr) (s : State) : Host.Outcome State Fault Refusal :=
  match i with
  | .vddAonRise => Sys2Proof.Machine.execVddAonRise s
  | .dawnRailsGood => Sys2Proof.Machine.execDawnRailsGood s
  | .dawnRailHalt => Sys2Proof.Machine.execDawnRailHalt s
  | .pwrgoodRise ownerSel => Sys2Proof.Machine.execPwrgoodRise ownerSel s
  | .pwrgoodFall => Sys2Proof.Machine.execPwrgoodFall s
  | .vddAonRemove dip => Sys2Proof.Machine.execVddAonRemove dip s
  | .plazaReset => Sys2Proof.Machine.execPlazaReset s
  | .hostLinkTrained p gen width flit => Sys2Proof.Machine.execHostLinkTrained p gen width flit s
  | .hostLinkDown p => Sys2Proof.Machine.execHostLinkDown p s
  | .fwGo req => Sys2Proof.Machine.execFwGo req s
  | .fwBundleCheck bundle rec => Sys2Proof.Machine.execFwBundleCheck bundle rec s
  | .dieRelease fails restored => Sys2Proof.Machine.execDieRelease fails restored s
  | .d2dLinkTraining g partnerMax rate vmin vmax mods restored => Sys2Proof.Machine.execD2dLinkTraining g partnerMax rate vmin vmax mods restored s
  | .verticalPortTraining d fails restored => Sys2Proof.Machine.execVerticalPortTraining d fails restored s
  | .bistWaveStart fails => Sys2Proof.Machine.execBistWaveStart fails s
  | .bistBudgetExpire d row col us => Sys2Proof.Machine.execBistBudgetExpire d row col us s
  | .yieldMapForm => Sys2Proof.Machine.execYieldMapForm s
  | .opticsStart e st => Sys2Proof.Machine.execOpticsStart e st s
  | .dawnDone sections => Sys2Proof.Machine.execDawnDone sections s
  | .recEmit req sections => Sys2Proof.Machine.execRecEmit req sections s
  | .recordEmitted takes => Sys2Proof.Machine.execRecordEmitted takes s
  | .dieHeartbeatLost d => Sys2Proof.Machine.execDieHeartbeatLost d s
  | .dieResetSignalled d => Sys2Proof.Machine.execDieResetSignalled d s
  | .dieClockLoss d => Sys2Proof.Machine.execDieClockLoss d s
  | .d2dFlitCrcError g m flips => Sys2Proof.Machine.execD2dFlitCrcError g m flips s
  | .d2dLaneFail g m dir lane halfFree => Sys2Proof.Machine.execD2dLaneFail g m dir lane halfFree s
  | .d2dModuleRetrained g m ok => Sys2Proof.Machine.execD2dModuleRetrained g m ok s
  | .bundleIssue t errs => Sys2Proof.Machine.execBundleIssue t errs s
  | .waitRelease t errs => Sys2Proof.Machine.execWaitRelease t errs s
  | .pacingCycle t => Sys2Proof.Machine.execPacingCycle t s
  | .parityRetry t fails => Sys2Proof.Machine.execParityRetry t fails s
  | .registerResultLand t => Sys2Proof.Machine.execRegisterResultLand t s
  | .arrayResultLand t => Sys2Proof.Machine.execArrayResultLand t s
  | .mxLdw t f => Sys2Proof.Machine.execMxLdw t f s
  | .mxRun t f => Sys2Proof.Machine.execMxRun t f s
  | .mxWin t f => Sys2Proof.Machine.execMxWin t f s
  | .vxAdd t f => Sys2Proof.Machine.execVxAdd t f s
  | .vxSub t f => Sys2Proof.Machine.execVxSub t f s
  | .vxMul t f => Sys2Proof.Machine.execVxMul t f s
  | .vxMax t f => Sys2Proof.Machine.execVxMax t f s
  | .vxMin t f => Sys2Proof.Machine.execVxMin t f s
  | .vxFma t f => Sys2Proof.Machine.execVxFma t f s
  | .vxFnma t f => Sys2Proof.Machine.execVxFnma t f s
  | .vxCmp t f => Sys2Proof.Machine.execVxCmp t f s
  | .vxSel t f => Sys2Proof.Machine.execVxSel t f s
  | .vxPlog t f => Sys2Proof.Machine.execVxPlog t f s
  | .vxAnd t f => Sys2Proof.Machine.execVxAnd t f s
  | .vxOr t f => Sys2Proof.Machine.execVxOr t f s
  | .vxXor t f => Sys2Proof.Machine.execVxXor t f s
  | .vxShl t f => Sys2Proof.Machine.execVxShl t f s
  | .vxShr t f => Sys2Proof.Machine.execVxShr t f s
  | .vxSra t f => Sys2Proof.Machine.execVxSra t f s
  | .vxPerm t f => Sys2Proof.Machine.execVxPerm t f s
  | .vxSplat t f => Sys2Proof.Machine.execVxSplat t f s
  | .vxIota t f => Sys2Proof.Machine.execVxIota t f s
  | .vxExt t f => Sys2Proof.Machine.execVxExt t f s
  | .vxCvt t f => Sys2Proof.Machine.execVxCvt t f s
  | .vxCvtfmx t f => Sys2Proof.Machine.execVxCvtfmx t f s
  | .vxCvtmx t f => Sys2Proof.Machine.execVxCvtmx t f s
  | .vxExp2 t f => Sys2Proof.Machine.execVxExp2 t f s
  | .vxLog2 t f => Sys2Proof.Machine.execVxLog2 t f s
  | .vxRcp t f => Sys2Proof.Machine.execVxRcp t f s
  | .vxRsq t f => Sys2Proof.Machine.execVxRsq t f s
  | .vxRsum t f => Sys2Proof.Machine.execVxRsum t f s
  | .vxRmax t f => Sys2Proof.Machine.execVxRmax t f s
  | .vxRmin t f => Sys2Proof.Machine.execVxRmin t f s
  | .vxAcrd t f => Sys2Proof.Machine.execVxAcrd t f s
  | .vxAcwr t f => Sys2Proof.Machine.execVxAcwr t f s
  | .smVld t vd sb loff pmask lmask => Sys2Proof.Machine.execSmVld t vd sb loff pmask lmask s
  | .smVst t va sb loff pmask lmask => Sys2Proof.Machine.execSmVst t va sb loff pmask lmask s
  | .smQtov t vd q lmask => Sys2Proof.Machine.execSmQtov t vd q lmask s
  | .smVtoq t va o lmask => Sys2Proof.Machine.execSmVtoq t va o lmask s
  | .smQtos t n q port sb loff => Sys2Proof.Machine.execSmQtos t n q port sb loff s
  | .smStoq t n o port sb loff => Sys2Proof.Machine.execSmStoq t n o port sb loff s
  | .smCh t f => Sys2Proof.Machine.execSmCh t f s
  | .smFence t mask => Sys2Proof.Machine.execSmFence t mask s
  | .moverRead t ch lines errs => Sys2Proof.Machine.execMoverRead t ch lines errs s
  | .moverWrite t ch lines => Sys2Proof.Machine.execMoverWrite t ch lines s
  | .moverFill t ch lines => Sys2Proof.Machine.execMoverFill t ch lines s
  | .moverTread t ch lines errs => Sys2Proof.Machine.execMoverTread t ch lines errs s
  | .channelHalt t ch errs => Sys2Proof.Machine.execChannelHalt t ch errs s
  | .moverCommandDone t ch => Sys2Proof.Machine.execMoverCommandDone t ch s
  | .nxSend t o route n csrc sc => Sys2Proof.Machine.execNxSend t o route n csrc sc s
  | .nxSig t route => Sys2Proof.Machine.execNxSig t route s
  | .nxWait t e sb => Sys2Proof.Machine.execNxWait t e sb s
  | .nxColl t entry e sa => Sys2Proof.Machine.execNxColl t entry e sa s
  | .nxHevt t event => Sys2Proof.Machine.execNxHevt t event s
  | .meshLineArrive src lines => Sys2Proof.Machine.execMeshLineArrive src lines s
  | .meshSignalArrive src => Sys2Proof.Machine.execMeshSignalArrive src s
  | .meshCreditReturn t far => Sys2Proof.Machine.execMeshCreditReturn t far s
  | .ctLi t sd imm hi => Sys2Proof.Machine.execCtLi t sd imm hi s
  | .ctAlu t sd sa sb fn => Sys2Proof.Machine.execCtAlu t sd sa sb fn s
  | .ctAddi t sd sa imm => Sys2Proof.Machine.execCtAddi t sd sa imm s
  | .ctLoop t l sc endB => Sys2Proof.Machine.execCtLoop t l sc endB s
  | .ctRdl t sd l => Sys2Proof.Machine.execCtRdl t sd l s
  | .ctBr t sa sb cond target => Sys2Proof.Machine.execCtBr t sa sb cond target s
  | .ctPhase t cls lead => Sys2Proof.Machine.execCtPhase t cls lead s
  | .ctEnd t => Sys2Proof.Machine.execCtEnd t s
  | .ctTrap t code => Sys2Proof.Machine.execCtTrap t code s
  | .trapSettled t => Sys2Proof.Machine.execTrapSettled t s
  | .tileComplete t => Sys2Proof.Machine.execTileComplete t s
  | .slipTimeout t => Sys2Proof.Machine.execSlipTimeout t s
  | .tileSoftReset req t => Sys2Proof.Machine.execTileSoftReset req t s
  | .moverSoftReset req t => Sys2Proof.Machine.execMoverSoftReset req t s
  | .moverConfigWrite req t route value => Sys2Proof.Machine.execMoverConfigWrite req t route value s
  | .sliceRead t d sec req err => Sys2Proof.Machine.execSliceRead t d sec req err s
  | .sliceWrite t d sec bytes => Sys2Proof.Machine.execSliceWrite t d sec bytes s
  | .narrowWrite t d sec lo bytes => Sys2Proof.Machine.execNarrowWrite t d sec lo bytes s
  | .mergeAgeExpire t sec => Sys2Proof.Machine.execMergeAgeExpire t sec s
  | .mergeFlush t sec err => Sys2Proof.Machine.execMergeFlush t sec err s
  | .sliceRefresh t => Sys2Proof.Machine.execSliceRefresh t s
  | .scrubRead t err => Sys2Proof.Machine.execScrubRead t err s
  | .sliceSoftReset req t errs => Sys2Proof.Machine.execSliceSoftReset req t errs s
  | .engineWindowAccess t d off req data err => Sys2Proof.Machine.execEngineWindowAccess t d off req data err s
  | .engineModeWrite t d word => Sys2Proof.Machine.execEngineModeWrite t d word s
  | .engineModeEntered t => Sys2Proof.Machine.execEngineModeEntered t s
  | .engineModeLeft t => Sys2Proof.Machine.execEngineModeLeft t s
  | .engineGo t d word => Sys2Proof.Machine.execEngineGo t d word s
  | .engineGoAccept t => Sys2Proof.Machine.execEngineGoAccept t s
  | .enginePass t errs => Sys2Proof.Machine.execEnginePass t errs s
  | .engineRunComplete t => Sys2Proof.Machine.execEngineRunComplete t s
  | .hubRefreshDue t => Sys2Proof.Machine.execHubRefreshDue t s
  | .refreshPause t => Sys2Proof.Machine.execRefreshPause t s
  | .refreshPauseEnd t => Sys2Proof.Machine.execRefreshPauseEnd t s
  | .engineEnableWrite req t on => Sys2Proof.Machine.execEngineEnableWrite req t on s
  | .engineSoftReset req t => Sys2Proof.Machine.execEngineSoftReset req t s
  | .crossingApply req e => Sys2Proof.Machine.execCrossingApply req e s
  | .crossingMove e cells recals mask => Sys2Proof.Machine.execCrossingMove e cells recals mask s
  | .moveStepTimeout e => Sys2Proof.Machine.execMoveStepTimeout e s
  | .moveDone e locked tx => Sys2Proof.Machine.execMoveDone e locked tx s
  | .crossingDither e cells => Sys2Proof.Machine.execCrossingDither e cells s
  | .release a f => Sys2Proof.Machine.execRelease a f s
  | .releaseDone a f => Sys2Proof.Machine.execReleaseDone a f s
  | .grantReq a f => Sys2Proof.Machine.execGrantReq a f s
  | .grantAccept a f => Sys2Proof.Machine.execGrantAccept a f s
  | .grantRefuse a f => Sys2Proof.Machine.execGrantRefuse a f s
  | .dropNotice l lane => Sys2Proof.Machine.execDropNotice l lane s
  | .relockReq l lane => Sys2Proof.Machine.execRelockReq l lane s
  | .retrainReq l => Sys2Proof.Machine.execRetrainReq l s
  | .handover l e seq => Sys2Proof.Machine.execHandover l e seq s
  | .laneIdentityWord l lane sides peer vers => Sys2Proof.Machine.execLaneIdentityWord l lane sides peer vers s
  | .identityTimeout l lane => Sys2Proof.Machine.execIdentityTimeout l lane s
  | .flitReceive l lanes => Sys2Proof.Machine.execFlitReceive l lanes s
  | .linkWordReceive l sides => Sys2Proof.Machine.execLinkWordReceive l sides s
  | .nakRepeat l => Sys2Proof.Machine.execNakRepeat l s
  | .replayTimeout l => Sys2Proof.Machine.execReplayTimeout l s
  | .linkRetrainDone l rx bad badId => Sys2Proof.Machine.execLinkRetrainDone l rx bad badId s
  | .laneLightLoss l lane => Sys2Proof.Machine.execLaneLightLoss l lane s
  | .dfbFail e line event => Sys2Proof.Machine.execDfbFail e line event s
  | .linkWordSilence a => Sys2Proof.Machine.execLinkWordSilence a s
  | .combLineDark e k => Sys2Proof.Machine.execCombLineDark e k s
  | .alleyRetrain req a => Sys2Proof.Machine.execAlleyRetrain req a s
  | .oeEnableWrite req e on => Sys2Proof.Machine.execOeEnableWrite req e on s
  | .blvdEnableWrite req e tx value => Sys2Proof.Machine.execBlvdEnableWrite req e tx value s
  | .beaconReceive l => Sys2Proof.Machine.execBeaconReceive l s
  | .neighbourAbsent p => Sys2Proof.Machine.execNeighbourAbsent p s
  | .portAccept req mask => Sys2Proof.Machine.execPortAccept req mask s
  | .squareAccept req mask => Sys2Proof.Machine.execSquareAccept req mask s
  | .quarterEntryWrite req n word value => Sys2Proof.Machine.execQuarterEntryWrite req n word value s
  | .packetReceive l => Sys2Proof.Machine.execPacketReceive l s
  | .collInstanceStart key errs => Sys2Proof.Machine.execCollInstanceStart key errs s
  | .collReadyReceive errs => Sys2Proof.Machine.execCollReadyReceive errs s
  | .collDataReceive errs => Sys2Proof.Machine.execCollDataReceive errs s
  | .collBlockFold key idx errs => Sys2Proof.Machine.execCollBlockFold key idx errs s
  | .collHoldReceive => Sys2Proof.Machine.execCollHoldReceive s
  | .collHoldSend key => Sys2Proof.Machine.execCollHoldSend key s
  | .collHoldExpire key rank => Sys2Proof.Machine.execCollHoldExpire key rank s
  | .collHoldExhausted key => Sys2Proof.Machine.execCollHoldExhausted key s
  | .collAbortReceive => Sys2Proof.Machine.execCollAbortReceive s
  | .collStartTimeout key => Sys2Proof.Machine.execCollStartTimeout key s
  | .collProgressTimeout key => Sys2Proof.Machine.execCollProgressTimeout key s
  | .collAbort req e => Sys2Proof.Machine.execCollAbort req e s
  | .hostPortReset p k => Sys2Proof.Machine.execHostPortReset p k s
  | .qdieMaskWrite req d value => Sys2Proof.Machine.execQdieMaskWrite req d value s
  | .qdieScrubDone q => Sys2Proof.Machine.execQdieScrubDone q s
  | .windowRead p off len errs => Sys2Proof.Machine.execWindowRead p off len errs s
  | .windowWrite p off bytes => Sys2Proof.Machine.execWindowWrite p off bytes s
  | .cmdDoorbell req d value => Sys2Proof.Machine.execCmdDoorbell req d value s
  | .cplHeadWrite req d value refused => Sys2Proof.Machine.execCplHeadWrite req d value refused s
  | .commandFetch d entry desc refused => Sys2Proof.Machine.execCommandFetch d entry desc refused s
  | .nop d h refused => Sys2Proof.Machine.execNop d h refused s
  | .writeMem d h host dev len refused => Sys2Proof.Machine.execWriteMem d h host dev len refused s
  | .readMem d h host dev len refused => Sys2Proof.Machine.execReadMem d h host dev len refused s
  | .fill d h dev len pattern refused => Sys2Proof.Machine.execFill d h dev len pattern refused s
  | .dmaComplete d seq data takes errs refused => Sys2Proof.Machine.execDmaComplete d seq data takes errs refused s
  | .loadImage d h host size slot refused => Sys2Proof.Machine.execLoadImage d h host size slot refused s
  | .launch d h slot args refused => Sys2Proof.Machine.execLaunch d h slot args refused s
  | .waitEvent d h event count timeout refused => Sys2Proof.Machine.execWaitEvent d h event count timeout refused s
  | .waitEventTimeout d refused => Sys2Proof.Machine.execWaitEventTimeout d refused s
  | .signalEvent d h target counter refused => Sys2Proof.Machine.execSignalEvent d h target counter refused s
  | .collective d h addr arg slot desc refused => Sys2Proof.Machine.execCollective d h addr arg slot desc refused s
  | .phaseHint d h cls lead dies refused => Sys2Proof.Machine.execPhaseHint d h cls lead dies refused s
  | .respare d h die row refused => Sys2Proof.Machine.execRespare d h die row refused s
  | .respareDone d fails refused => Sys2Proof.Machine.execRespareDone d fails refused s
  | .fence d h target refused => Sys2Proof.Machine.execFence d h target refused s
  | .moderationTimer d => Sys2Proof.Machine.execModerationTimer d s
  | .cmdprocSoftReset req d entries refused => Sys2Proof.Machine.execCmdprocSoftReset req d entries refused s
  | .tileClockLoss t => Sys2Proof.Machine.execTileClockLoss t s
  | .tileRouterLost t => Sys2Proof.Machine.execTileRouterLost t s
  | .slicePortLoss t => Sys2Proof.Machine.execSlicePortLoss t s
  | .blockEnableWrite req page on => Sys2Proof.Machine.execBlockEnableWrite req page on s
  | .blockStartDone page st x => Sys2Proof.Machine.execBlockStartDone page st x s
  | .blockDrainDone page x => Sys2Proof.Machine.execBlockDrainDone page x s
  | .pageSoftReset req page x => Sys2Proof.Machine.execPageSoftReset req page x s
  | .errAddrLoRead req page size => Sys2Proof.Machine.execErrAddrLoRead req page size s
  | .loHalfRead req off size => Sys2Proof.Machine.execLoHalfRead req off size s
  | .intForceWrite req page value => Sys2Proof.Machine.execIntForceWrite req page value s
  | .intStatusClear req page value => Sys2Proof.Machine.execIntStatusClear req page value s
  | .intEnableWrite req page value => Sys2Proof.Machine.execIntEnableWrite req page value s
  | .intEoi req d mask => Sys2Proof.Machine.execIntEoi req d mask s
  | .msixUnmask f v e => Sys2Proof.Machine.execMsixUnmask f v e s
  | .lockWrite req page lock on soft => Sys2Proof.Machine.execLockWrite req page lock on soft s
  | .registerWrite req off size value x => Sys2Proof.Machine.execRegisterWrite req off size value x s
  | .distGlbWrite req d base size => Sys2Proof.Machine.execDistGlbWrite req d base size s
  | .pwrCapWrite req value => Sys2Proof.Machine.execPwrCapWrite req value s
  | .opTargetWrite req d value => Sys2Proof.Machine.execOpTargetWrite req d value s
  | .duskRound r => Sys2Proof.Machine.execDuskRound r s
  | .sensorSuspectLow ch => Sys2Proof.Machine.execSensorSuspectLow ch s
  | .sensorRecovered ch => Sys2Proof.Machine.execSensorRecovered ch s
  | .sensorHighSuspect ch => Sys2Proof.Machine.execSensorHighSuspect ch s
  | .railOutOfRange ch => Sys2Proof.Machine.execRailOutOfRange ch s
  | .tempLevelRelease d td => Sys2Proof.Machine.execTempLevelRelease d td s
  | .refreshRateFall q => Sys2Proof.Machine.execRefreshRateFall q s
  | .opRaiseQualified d => Sys2Proof.Machine.execOpRaiseQualified d s
  | .opStepDone d => Sys2Proof.Machine.execOpStepDone d s
  | .capUnattainable => Sys2Proof.Machine.execCapUnattainable s
  | .governorStep doms htr => Sys2Proof.Machine.execGovernorStep doms htr s
  | .iccCeilingRise d => Sys2Proof.Machine.execIccCeilingRise d s
  | .throttleNAssert => Sys2Proof.Machine.execThrottleNAssert s
  | .throttleNRelease => Sys2Proof.Machine.execThrottleNRelease s
  | .prerampStart d cls => Sys2Proof.Machine.execPrerampStart d cls s
  | .hintStart d cls => Sys2Proof.Machine.execHintStart d cls s
  | .hintExpire d => Sys2Proof.Machine.execHintExpire d s
  | .thermalTrip d t up => Sys2Proof.Machine.execThermalTrip d t up s
  | .tripComparatorDegraded d t c => Sys2Proof.Machine.execTripComparatorDegraded d t c s
  | .twReq req keep => Sys2Proof.Machine.execTwReq req keep s
  | .twEntryDone => Sys2Proof.Machine.execTwEntryDone s
  | .twExit req keep => Sys2Proof.Machine.execTwExit req keep s
  | .twExitDone st => Sys2Proof.Machine.execTwExitDone st s
  | .lcReq req target confirm => Sys2Proof.Machine.execLcReq req target confirm s
  | .fusePulse ok => Sys2Proof.Machine.execFusePulse ok s
  | .fuseSupplySag mv => Sys2Proof.Machine.execFuseSupplySag mv s
  | .lcTransitionDone => Sys2Proof.Machine.execLcTransitionDone s
  | .scanEnable req scan engine => Sys2Proof.Machine.execScanEnable req scan engine s
  | .attGo req d pkg => Sys2Proof.Machine.execAttGo req d pkg s
  | .attDone d refused => Sys2Proof.Machine.execAttDone d refused s
  | .signPolicyWrite req d word value => Sys2Proof.Machine.execSignPolicyWrite req d word value s
  | .setOffset offset pec => Sys2Proof.Machine.execSetOffset offset pec s
  | .read32 => Sys2Proof.Machine.execRead32 s
  | .read64 => Sys2Proof.Machine.execRead64 s
  | .oeHeartbeatLost e why => Sys2Proof.Machine.execOeHeartbeatLost e why s
  | .loadImageDone d seq data refused => Sys2Proof.Machine.execLoadImageDone d seq data refused s

end Sys2Proof.Machine
end

