-- ==== Sys2Proof/WellFormed.lean ====
section
/-!
DEFINITION. WellFormed.lean: the commands that the specification's tables can spell. The table of
commands gives no bits, so a check here is a check of an operand: a payload has the length that such
a transfer has, and a field of an instruction or of a command entry fits the bits that its encoding
gives it.
-/
namespace Sys2Proof

/-- A field fits `n` bits. -/
def fitsIn (n x : Nat) : Bool := decide (x < 2 ^ n)

/-! ### The tile's slots (R71, R73, R76, R84) -/

/-- `MX.LDW`: every field fits (R71). -/
def LdwF.ok (f : LdwF) : Bool :=
  fitsIn 4 f.wfmt && fitsIn 5 f.sb && fitsIn 15 f.loff && fitsIn 6 f.vs

/-- `MX.RUN`: a run has 1 to 256 rows, and every field fits (R45, R71). -/
def RunF.ok (f : RunF) : Bool :=
  0 < f.m && f.m ≤ 256 && fitsIn 4 f.afmt && fitsIn 1 f.bank && fitsIn 2 f.port && fitsIn 5 f.sb &&
    fitsIn 15 f.loff && fitsIn 6 f.vs && fitsIn 8 f.r0

/-- `MX.WIN`: as `MX.RUN`, with a code of taps in place of a scale register (R46, R71). -/
def WinF.ok (f : WinF) : Bool :=
  0 < f.m && f.m ≤ 256 && fitsIn 4 f.afmt && fitsIn 1 f.bank && fitsIn 2 f.port && fitsIn 5 f.sb &&
    fitsIn 15 f.loff && fitsIn 2 f.taps && fitsIn 8 f.r0

/-- A VX instruction: every field fits (R73). -/
def VxF.ok (f : VxF) : Bool :=
  fitsIn 3 f.pg && fitsIn 6 f.vd && fitsIn 6 f.va && fitsIn 6 f.vb && fitsIn 6 f.vc && fitsIn 4 f.f1 &&
    fitsIn 4 f.f2 && fitsIn 21 f.x

/-- `SM.CH`: every field fits (R76). -/
def ChF.ok (f : ChF) : Bool :=
  fitsIn 3 f.ch && fitsIn 2 f.port && fitsIn 5 f.sb && fitsIn 15 f.loff && fitsIn 5 f.sa &&
    fitsIn 5 f.sah && fitsIn 5 f.sn

/-! ### Errors of a tile's storage -/

/-- The bits that flip unseen are an even number of bits of one byte (R289). -/
def Upset.ok (u : Upset) : Bool :=
  u.bank < 29 && u.byte < 64 && u.mask < 256 && popCount 8 u.mask % 2 == 0

/-- What goes wrong in a cycle: every flip is one that parity does not see. -/
def CycleErrs.ok (e : CycleErrs) : Bool := e.upsets.all Upset.ok

/-! ### Payloads -/

/-- A ring entry or a collective's descriptor is 64 bytes (R226, R249). -/
def entryOk (e : Option (List Byte)) : Bool := e.all (fun b => b.length == 64)

/-- A command's header: `TAG` is 4 bytes (R251). -/
def CmdHdr.ok (h : CmdHdr) : Bool := fitsIn 32 h.tag

/-- A host request stays inside a 4 KiB page (R246). -/
def pageOk (max off len : Nat) : Bool := 0 < len && len ≤ max && off % 4096 + len ≤ 4096

/-- The training sections that the firmware supplies (R307): types 1 to 3, 5 and 7, each type and instance
once. -/
def trainOk (l : List TrainSection) : Bool :=
  l.all (fun x => [1, 2, 3, 5, 7].contains x.1 && x.2.1 < (if x.1 = 1 then 8 else 4))
    && (l.map (fun x => (x.1, x.2.1))).eraseDups.length == l.length

/-- What a soft reset or a register write meets: ring entries have 64 bytes, and sections are those of a record. -/
def ResetIn.ok (x : ResetIn) : Bool := x.entries.all (fun b => b.length == 64) && trainOk x.sections

/-- A round names channels that exist, every domain, and slices that exist (R275). -/
def RoundIn.ok (r : RoundIn) : Bool :=
  r.raw.all (fun x => x.1 < 624) && r.doms.length == 5 && r.inner.all (fun x => x.1 < 1920)

/-- The modules of a link group (R14). -/
def modulesOf (g : GroupId) : Nat := if g.val < 4 then 24 else 12

/-- The register pages of the optical engines (R334). -/
def isOePage (page : Nat) : Bool := 36 ≤ page && page < 40

/-! ### Commands -/

/-- A command whose operands the tables can spell. -/
def Instr.wellFormed : Instr → Bool
  | .hostLinkTrained _ gen width _ => gen.val != 0 && [1, 2, 4, 8, 16].contains width.val
  | .d2dLinkTraining g pm rate _ _ mods _ =>
    mods.length == modulesOf g && rate.val != 0 && pm.val != 0
  | .dawnDone l => trainOk l
  | .recEmit _ l => trainOk l
  | .mxLdw _ f => f.ok
  | .mxRun _ f => f.ok
  | .mxWin _ f => f.ok
  | .vxAdd _ f => f.ok
  | .vxSub _ f => f.ok
  | .vxMul _ f => f.ok
  | .vxMax _ f => f.ok
  | .vxMin _ f => f.ok
  | .vxFma _ f => f.ok
  | .vxFnma _ f => f.ok
  | .vxCmp _ f => f.ok
  | .vxSel _ f => f.ok
  | .vxPlog _ f => f.ok
  | .vxAnd _ f => f.ok
  | .vxOr _ f => f.ok
  | .vxXor _ f => f.ok
  | .vxShl _ f => f.ok
  | .vxShr _ f => f.ok
  | .vxSra _ f => f.ok
  | .vxPerm _ f => f.ok
  | .vxSplat _ f => f.ok
  | .vxIota _ f => f.ok
  | .vxExt _ f => f.ok
  | .vxCvt _ f => f.ok
  | .vxCvtfmx _ f => f.ok
  | .vxCvtmx _ f => f.ok
  | .vxExp2 _ f => f.ok
  | .vxLog2 _ f => f.ok
  | .vxRcp _ f => f.ok
  | .vxRsq _ f => f.ok
  | .vxRsum _ f => f.ok
  | .vxRmax _ f => f.ok
  | .vxRmin _ f => f.ok
  | .vxAcrd _ f => f.ok
  | .vxAcwr _ f => f.ok
  | .smVld _ _ _ loff _ _ => fitsIn 15 loff
  | .smVst _ _ _ loff _ _ => fitsIn 15 loff
  | .smQtos _ n _ _ _ loff => 0 < n && n ≤ 16 && fitsIn 15 loff
  | .smStoq _ n _ _ _ loff => 0 < n && n ≤ 16 && fitsIn 15 loff
  | .smCh _ f => f.ok
  | .nxSend _ _ _ n _ _ => 0 < n && n ≤ 65536
  | .moverConfigWrite _ _ _ v => fitsIn 64 v
  | .sliceWrite _ _ _ b => b.length == 32
  | .narrowWrite _ _ _ lo b => 0 < b.length && b.length ≤ 31 && lo.val + b.length ≤ 32
  | .engineWindowAccess _ _ off _ data _ =>
    data.all (fun b => 0 < b.length && off.val % 64 + b.length ≤ 64)
  | .engineModeWrite _ _ w => fitsIn 32 w
  | .engineGo _ _ w => fitsIn 32 w
  | .flitReceive _ l => l.flatten.length == 32
  | .qdieMaskWrite _ _ v => fitsIn 32 v
  | .windowRead _ off len _ => pageOk 4096 off len
  | .windowWrite _ off b => pageOk 512 off b.length
  | .cmdDoorbell _ _ v => fitsIn 32 v
  | .cplHeadWrite _ _ v _ => fitsIn 32 v
  | .commandFetch _ e x _ => entryOk e && entryOk x
  | .nop _ h _ => h.ok
  | .writeMem _ h a b l _ => h.ok && fitsIn 64 a && fitsIn 64 b && fitsIn 64 l
  | .readMem _ h a b l _ => h.ok && fitsIn 64 a && fitsIn 64 b && fitsIn 64 l
  | .fill _ h b l p _ => h.ok && fitsIn 64 b && fitsIn 64 l && fitsIn 64 p
  | .loadImage _ h a z k _ => h.ok && fitsIn 64 a && fitsIn 64 z && fitsIn 8 k
  | .launch _ h k xs _ => h.ok && fitsIn 8 k && xs.length == 8 && xs.all (fitsIn 32)
  | .waitEvent _ h e c t _ => h.ok && fitsIn 8 e && fitsIn 32 c && fitsIn 32 t
  | .signalEvent _ h t c _ => h.ok && fitsIn 16 t && fitsIn 8 c
  | .collective _ h a x k b _ => h.ok && fitsIn 64 a && fitsIn 32 x && fitsIn 8 k && entryOk b
  | .phaseHint _ h c l m _ => h.ok && fitsIn 8 c && fitsIn 16 l && fitsIn 8 m
  | .respare _ h d r _ => h.ok && fitsIn 8 d && fitsIn 8 r
  | .fence _ h t _ => h.ok && fitsIn 16 t
  | .cmdprocSoftReset _ _ l _ => l.all (fun b => b.length == 64)
  | .blockStartDone p st x => isOePage p == st.isSome && x.ok
  | .blockDrainDone _ x => x.ok
  | .pageSoftReset _ _ x => x.ok
  | .lockWrite _ _ _ _ x => x.all ResetIn.ok
  | .registerWrite _ _ n v x => v < 256 ^ n && x.ok
  | .distGlbWrite _ _ b z => b.isSome || z.isSome
  | .pwrCapWrite _ v => fitsIn 32 v
  | .opTargetWrite _ _ v => fitsIn 32 v
  | .duskRound r => r.ok
  | .governorStep ds h => ds.length == 5 && h.length ≤ 4
  | .twExitDone st => st.length == 4
  | .vddAonRise => true
  | .dawnRailsGood => true
  | .dawnRailHalt => true
  | .pwrgoodRise _ => true
  | .pwrgoodFall => true
  | .vddAonRemove _ => true
  | .plazaReset => true
  | .hostLinkDown _ => true
  | .fwGo _ => true
  | .fwBundleCheck _ _ => true
  | .dieRelease _ _ => true
  | .verticalPortTraining _ _ _ => true
  | .bistWaveStart _ => true
  | .bistBudgetExpire _ _ _ _ => true
  | .yieldMapForm => true
  | .opticsStart _ _ => true
  | .recordEmitted _ => true
  | .dieHeartbeatLost _ => true
  | .dieResetSignalled _ => true
  | .dieClockLoss _ => true
  | .d2dFlitCrcError _ _ _ => true
  | .d2dLaneFail _ _ _ _ _ => true
  | .d2dModuleRetrained _ _ _ => true
  | .bundleIssue _ e => e.ok
  | .waitRelease _ e => e.ok
  | .pacingCycle _ => true
  | .parityRetry _ _ => true
  | .registerResultLand _ => true
  | .arrayResultLand _ => true
  | .smQtov _ _ _ _ => true
  | .smVtoq _ _ _ _ => true
  | .smFence _ _ => true
  | .moverRead _ _ _ _ => true
  | .moverWrite _ _ _ => true
  | .moverFill _ _ _ => true
  | .moverTread _ _ _ _ => true
  | .channelHalt _ _ _ => true
  | .moverCommandDone _ _ => true
  | .nxSig _ _ => true
  | .nxWait _ _ _ => true
  | .nxColl _ _ _ _ => true
  | .nxHevt _ _ => true
  | .meshLineArrive _ _ => true
  | .meshSignalArrive _ => true
  | .meshCreditReturn _ _ => true
  | .ctLi _ _ _ _ => true
  | .ctAlu _ _ _ _ _ => true
  | .ctAddi _ _ _ _ => true
  | .ctLoop _ _ _ _ => true
  | .ctRdl _ _ _ => true
  | .ctBr _ _ _ _ _ => true
  | .ctPhase _ _ _ => true
  | .ctEnd _ => true
  | .ctTrap _ _ => true
  | .trapSettled _ => true
  | .tileComplete _ => true
  | .slipTimeout _ => true
  | .tileSoftReset _ _ => true
  | .moverSoftReset _ _ => true
  | .sliceRead _ _ _ _ _ => true
  | .mergeAgeExpire _ _ => true
  | .mergeFlush _ _ _ => true
  | .sliceRefresh _ => true
  | .scrubRead _ _ => true
  | .sliceSoftReset _ _ _ => true
  | .engineModeEntered _ => true
  | .engineModeLeft _ => true
  | .engineGoAccept _ => true
  | .enginePass _ _ => true
  | .engineRunComplete _ => true
  | .hubRefreshDue _ => true
  | .refreshPause _ => true
  | .refreshPauseEnd _ => true
  | .engineEnableWrite _ _ _ => true
  | .engineSoftReset _ _ => true
  | .crossingApply _ _ => true
  | .crossingMove _ _ _ _ => true
  | .moveStepTimeout _ => true
  | .moveDone _ _ _ => true
  | .crossingDither _ _ => true
  | .release _ _ => true
  | .releaseDone _ _ => true
  | .grantReq _ _ => true
  | .grantAccept _ _ => true
  | .grantRefuse _ _ => true
  | .dropNotice _ _ => true
  | .relockReq _ _ => true
  | .retrainReq _ => true
  | .handover _ _ _ => true
  | .laneIdentityWord _ _ _ _ _ => true
  | .identityTimeout _ _ => true
  | .linkWordReceive _ _ => true
  | .nakRepeat _ => true
  | .replayTimeout _ => true
  | .linkRetrainDone _ _ _ _ => true
  | .laneLightLoss _ _ => true
  | .dfbFail _ _ _ => true
  | .linkWordSilence _ => true
  | .combLineDark _ _ => true
  | .alleyRetrain _ _ => true
  | .oeEnableWrite _ _ _ => true
  | .blvdEnableWrite _ _ _ _ => true
  | .beaconReceive _ => true
  | .neighbourAbsent _ => true
  | .portAccept _ _ => true
  | .squareAccept _ _ => true
  | .quarterEntryWrite _ _ _ _ => true
  | .packetReceive _ => true
  | .collInstanceStart _ _ => true
  | .collReadyReceive _ => true
  | .collDataReceive _ => true
  | .collBlockFold _ _ _ => true
  | .collHoldReceive => true
  | .collHoldSend _ => true
  | .collHoldExpire _ _ => true
  | .collHoldExhausted _ => true
  | .collAbortReceive => true
  | .collStartTimeout _ => true
  | .collProgressTimeout _ => true
  | .collAbort _ _ => true
  | .hostPortReset _ _ => true
  | .qdieScrubDone _ => true
  | .dmaComplete _ _ _ _ _ _ => true
  | .waitEventTimeout _ _ => true
  | .respareDone _ _ _ => true
  | .moderationTimer _ => true
  | .tileClockLoss _ => true
  | .tileRouterLost _ => true
  | .slicePortLoss _ => true
  | .blockEnableWrite _ _ _ => true
  | .errAddrLoRead _ _ _ => true
  | .loHalfRead _ _ _ => true
  | .intForceWrite _ _ _ => true
  | .intStatusClear _ _ _ => true
  | .intEnableWrite _ _ _ => true
  | .intEoi _ _ _ => true
  | .msixUnmask _ _ _ => true
  | .sensorSuspectLow _ => true
  | .sensorRecovered _ => true
  | .sensorHighSuspect _ => true
  | .railOutOfRange _ => true
  | .tempLevelRelease _ _ => true
  | .refreshRateFall _ => true
  | .opRaiseQualified _ => true
  | .opStepDone _ => true
  | .capUnattainable => true
  | .iccCeilingRise _ => true
  | .throttleNAssert => true
  | .throttleNRelease => true
  | .prerampStart _ _ => true
  | .hintStart _ _ => true
  | .hintExpire _ => true
  | .thermalTrip _ _ _ => true
  | .tripComparatorDegraded _ _ _ => true
  | .twReq _ _ => true
  | .twEntryDone => true
  | .twExit _ _ => true
  | .lcReq _ _ _ => true
  | .fusePulse _ => true
  | .fuseSupplySag _ => true
  | .lcTransitionDone => true
  | .scanEnable _ _ _ => true
  | .attGo _ _ _ => true
  | .attDone _ _ => true
  | .signPolicyWrite _ _ _ _ => true
  | .setOffset _ _ => true
  | .read32 => true
  | .read64 => true
  | .oeHeartbeatLost _ _ => true
  | .loadImageDone _ _ _ _ => true

end Sys2Proof
end

