-- ==== Sys2Proof/Safety.lean ====
section
/-!
DEFINITION. Safety.lean: what counts as a safe run, and the terms that the statements use.
-/
namespace Sys2Proof.Safety
open Sys2Proof.Machine

/-! ### Safe runs -/

/-- Every command that waits is one that the tables can spell. -/
def queueOk (s : State) : Bool := s.pending.all Instr.wellFormed

/-- The keys of a map strictly rise from `lo`. -/
def keysFrom {α : Type} : Nat → SMap α → Bool
  | _, [] => true
  | lo, (k, _) :: m => decide (lo ≤ k) && keysFrom (k + 1) m

/-- The register file and the image slots are in their canonical form: keys strictly rise. -/
def regsOk (s : State) : Bool := keysFrom 0 s.regs && keysFrom 0 s.images

/-- The memories of a tile, and of a slice, its check storage and its engine, are in their canonical
form. -/
def tileMemOk (t : Tile) : Bool := Memory.wf t.data && Memory.wf t.code
def sliceMemOk (x : Slice) : Bool := Memory.wf x.mem && Memory.wf x.check && Memory.wf x.buf

/-- Every addressed memory of the package is in its canonical form. -/
def memOk (s : State) : Bool :=
  s.tiles.all (fun x => tileMemOk x.2) && s.slices.all (fun x => sliceMemOk x.2)

/-- Every bit of `a` is a bit of `b`. -/
def bitsWithin (a b : Nat) : Bool := a &&& b == a

/-- Every fuse that is blown in one copy of the identity fields is blown in another. -/
def copyWithin (a b : FuseCopy) : Bool :=
  bitsWithin a.serial b.serial && bitsWithin a.seed b.seed && bitsWithin a.fwKey b.fwKey
    && bitsWithin a.svcKey b.svcKey && bitsWithin a.variant b.variant && bitsWithin a.state b.state

/-- Every fuse that is blown in one array is blown in another. -/
def FusesWithin (f g : Fuses) : Prop :=
  copyWithin f.c0 g.c0 = true ∧ copyWithin f.c1 g.c1 = true ∧ copyWithin f.c2 g.c2 = true
    ∧ (∀ i, bitsWithin (SMap.getD f.bad0 i 0) (SMap.getD g.bad0 i 0) = true)
    ∧ (∀ i, bitsWithin (SMap.getD f.bad1 i 0) (SMap.getD g.bad1 i 0) = true)

/-! ### Register writes -/

/-- Function `req` may write the register of entry `i` of field `f`: its port can send the write,
and no check of R246, R302, R342 or R343 refuses it. -/
def takesWrite (s : State) (req : Nat) (p : PageId) (f : Fld) (i : Nat := 0) : Bool :=
  writeError s req p (fldOff f i) == some 0

/-- As `takesWrite`, for a register of the header of the page at a page number. -/
def takesHdr (s : State) (req page : Nat) (f : Fld) (p : PageId) : Bool :=
  let o := 4096 * page + fldOff f
  plazaUp s && portUp s req && putError s req o 4 0 == 0 && pageAt o == some p

/-- The kinds of page that define a soft-reset action (R340; log entry 37). -/
def definesReset (k : PageKind) : Bool :=
  match k with
  | .tile | .mover | .engine | .slice | .cmdproc => true
  | _ => false

/-- A soft reset of page `p` may act, once its block is ON or OFF: the page defines an action that waits for
that (R298), and it is not in the one state in which it has none (R94, R161). -/
def resetMayWait (s : State) (p : PageId) : Bool :=
  match p.kind with
  | .cmdproc => true
  | .engine => (slice s p.inst).mode == 0
  | .mover => (tile s p.inst).runState != 2
  | _ => false

/-! ### Tiles -/

/-- Bundle `i` issues in the present cycle of tile `n`: the tile runs, does not pace, waits for
nothing, has a bundle to fetch, no check of the bundle traps or fails, and no read of the cycle meets a
line that has failed for good (R290). -/
def issues (s : State) (n : Nat) (i : Bundle) : Bool :=
  let t := tile s n
  let u := startCycle t
  t.ready && t.hold.isNone && !t.fetchEnd && decide (u.pc < u.bundles) && wouldIssue u n u.pc i
    && (badHits u (fetchRead u.pc :: cycleReads t n u.pc i)).isEmpty

/-- The tile at the start of its present cycle, and after bundle `i` has issued in it. -/
def issuedTile (s : State) (n : Nat) (i : Bundle) : Tile × List Eff :=
  let u := startCycle (tile s n)
  issueNow u n u.pc (tileDuty s n) i (checkBundle u n u.pc i)

/-- The package after bundle `i` has issued on tile `n`. -/
def issued (s : State) (n : Nat) (i : Bundle) : State := applyTile s n (issuedTile s n i)

/-- Tile `n` fetches a bundle in its present cycle and the fetch itself raises no trap (R70, R82,
R88, R95). -/
def fetchesNow (s : State) (n : Nat) : Bool :=
  let t := tile s n
  let u := startCycle t
  t.ready && t.hold.isNone && !t.fetchEnd && decide (u.pc < u.bundles) && (fetchTraps u u.pc).isEmpty

/-- The package after tile `n` has taken trap `code` in the slots of the mask `slots` (R90, R91). -/
def trapTaken (s : State) (n code slots : Nat) : State :=
  let u := startCycle (tile s n)
  setTile s n (takeTrap u u.pc [(code, slots)])

/-- The command of a VX opcode. -/
def vxInstr (o : VxOpc) (t : TileId) (f : VxF) : Instr :=
  match o with
  | .add => .vxAdd t f
  | .sub => .vxSub t f
  | .mul => .vxMul t f
  | .max => .vxMax t f
  | .min => .vxMin t f
  | .fma => .vxFma t f
  | .fnma => .vxFnma t f
  | .cmp => .vxCmp t f
  | .sel => .vxSel t f
  | .plog => .vxPlog t f
  | .and => .vxAnd t f
  | .or => .vxOr t f
  | .xor => .vxXor t f
  | .shl => .vxShl t f
  | .shr => .vxShr t f
  | .sra => .vxSra t f
  | .perm => .vxPerm t f
  | .splat => .vxSplat t f
  | .iota => .vxIota t f
  | .ext => .vxExt t f
  | .cvt => .vxCvt t f
  | .cvtfmx => .vxCvtfmx t f
  | .cvtmx => .vxCvtmx t f
  | .exp2 => .vxExp2 t f
  | .log2 => .vxLog2 t f
  | .rcp => .vxRcp t f
  | .rsq => .vxRsq t f
  | .rsum => .vxRsum t f
  | .rmax => .vxRmax t f
  | .rmin => .vxRmin t f
  | .acrd => .vxAcrd t f
  | .acwr => .vxAcwr t f

/-! ### The commands of a tile and of a slice -/

/-- The tile and the bundle of a command that issues one slot instruction. -/
def slotBundle (c : Instr) : Option (TileId × Bundle) :=
  match c with
  | .mxLdw t f => some (t, { mx := .ldw f })
  | .mxRun t f => some (t, { mx := .run f })
  | .mxWin t f => some (t, { mx := .win f })
  | .vxAdd t f => some (t, { vx := .op .add f })
  | .vxSub t f => some (t, { vx := .op .sub f })
  | .vxMul t f => some (t, { vx := .op .mul f })
  | .vxMax t f => some (t, { vx := .op .max f })
  | .vxMin t f => some (t, { vx := .op .min f })
  | .vxFma t f => some (t, { vx := .op .fma f })
  | .vxFnma t f => some (t, { vx := .op .fnma f })
  | .vxCmp t f => some (t, { vx := .op .cmp f })
  | .vxSel t f => some (t, { vx := .op .sel f })
  | .vxPlog t f => some (t, { vx := .op .plog f })
  | .vxAnd t f => some (t, { vx := .op .and f })
  | .vxOr t f => some (t, { vx := .op .or f })
  | .vxXor t f => some (t, { vx := .op .xor f })
  | .vxShl t f => some (t, { vx := .op .shl f })
  | .vxShr t f => some (t, { vx := .op .shr f })
  | .vxSra t f => some (t, { vx := .op .sra f })
  | .vxPerm t f => some (t, { vx := .op .perm f })
  | .vxSplat t f => some (t, { vx := .op .splat f })
  | .vxIota t f => some (t, { vx := .op .iota f })
  | .vxExt t f => some (t, { vx := .op .ext f })
  | .vxCvt t f => some (t, { vx := .op .cvt f })
  | .vxCvtfmx t f => some (t, { vx := .op .cvtfmx f })
  | .vxCvtmx t f => some (t, { vx := .op .cvtmx f })
  | .vxExp2 t f => some (t, { vx := .op .exp2 f })
  | .vxLog2 t f => some (t, { vx := .op .log2 f })
  | .vxRcp t f => some (t, { vx := .op .rcp f })
  | .vxRsq t f => some (t, { vx := .op .rsq f })
  | .vxRsum t f => some (t, { vx := .op .rsum f })
  | .vxRmax t f => some (t, { vx := .op .rmax f })
  | .vxRmin t f => some (t, { vx := .op .rmin f })
  | .vxAcrd t f => some (t, { vx := .op .acrd f })
  | .vxAcwr t f => some (t, { vx := .op .acwr f })
  | .smVld t v b l p m => some (t, { sm := .vld v b l p m })
  | .smVst t v b l p m => some (t, { sm := .vst v b l p m })
  | .smQtov t v q m => some (t, { sm := .qtov v q m })
  | .smVtoq t v o m => some (t, { sm := .vtoq v o m })
  | .smQtos t n q p b l => some (t, { sm := .qtos n q p b l })
  | .smStoq t n o p b l => some (t, { sm := .stoq n o p b l })
  | .smCh t f => some (t, { sm := .ch f })
  | .smFence t m => some (t, { sm := .fence m })
  | .nxSend t o r n cs sc => some (t, { nx := .send o r n cs sc })
  | .nxSig t r => some (t, { nx := .sig r })
  | .nxWait t e b => some (t, { nx := .wait e b })
  | .nxColl t n e a => some (t, { nx := .coll n e a })
  | .nxHevt t e => some (t, { nx := .hevt e })
  | .ctLi t d i h => some (t, { ct := .li d i h })
  | .ctAlu t d a b f => some (t, { ct := .alu d a b f })
  | .ctAddi t d a i => some (t, { ct := .addi d a i })
  | .ctLoop t l c e => some (t, { ct := .loop l c e })
  | .ctRdl t d l => some (t, { ct := .rdl d l })
  | .ctBr t a b k x => some (t, { ct := .br a b k x })
  | .ctPhase t k l => some (t, { ct := .phase k l })
  | .ctEnd t => some (t, { ct := .done })
  | .ctTrap t k => some (t, { ct := .trap k })
  | _ => none

/-- Two tiles hold the same registers, accumulators and SRAM. -/
def sameStores (a b : Tile) : Prop :=
  a.data = b.data ∧ a.code = b.code ∧ a.v = b.v ∧ a.s = b.s ∧ a.p = b.p ∧ a.acc = b.acc

/-- The slice after the entry of the merge buffer for a sector, if there is one, has been flushed; `err`
is what its read-modify-write meets. -/
def flushedFor (s : State) (n sec : Nat) (err : Option SectorErr) : State :=
  if (mergeOf (slice s n) sec).isSome then flushSector s n sec err else s

/-- What a read of a sector meets after that flush: a read-modify-write has met `err` in its place. -/
def metAfter (s : State) (n sec : Nat) (err : Option SectorErr) : Option SectorErr :=
  if (mergeOf (slice s n) sec).any (fun e => e.mask != 2 ^ 32 - 1) then none else err

/-! ### The Midnight latch -/

/-- The package is held in reset with the Midnight latch set (R282): nothing runs, waits or is
connected. -/
def heldInReset (s : State) : Bool :=
  rd s thermP THERM_MIDNIGHT == 1 && s.tiles.isEmpty && s.slices.isEmpty && s.procs.isEmpty
    && s.images.isEmpty && s.scrubs.isEmpty && s.links.isEmpty && s.crossings.isEmpty
    && s.msix.isEmpty && s.hostHeld.isEmpty && s.colls.isEmpty && s.meshIn.isEmpty && s.collIn.isEmpty
    && s.sec == {}
    && !s.dawn.mapFormed

/-! ### Command rings -/

/-- Command `c` may start: the ring is open, a completion entry is free, no limit is reached, no link group
holds the signal it sends (R18), and a barrier finds nothing running (R247, R250). -/
def startsNow (s : State) (d : Nat) (h : CmdHdr) (c : Cmd) : Bool :=
  fetches s d && !cplStalled s d && !atLimit s d c && !signalHeld s d c
    && !(isBarrier h c && !(proc s d).running.isEmpty)

/-- The state after command `c` has started. -/
def started (s : State) (d : Nat) (h : CmdHdr) (c : Cmd) (desc : Option (List Byte))
    (refused : Bool) : State :=
  withRefuse (takeEntry s d) d refused (fun s => startCmd s d h c desc)

end Sys2Proof.Safety
end

