-- ==== Sys2Proof/Certificates/Slice0/Obligations.lean ====
section
/-!
DEFINITION. Certificates/Slice0/Obligations.lean: the statements for the provers.
-/
open Sys2Proof Sys2Proof.Machine Sys2Proof.Safety

/-! ### The block as a whole -/

/-- A step takes the command at the front of the queue and runs it on the state with the rest of the
queue. On an empty queue the block idles: that is the model's choice (log entry 1), not a rule. -/
def Obligations.StepRunsFrontCommand : Prop :=
  (∀ (s : State) (c : Instr) (r : List Instr), s.pending = c :: r →
    step s = exec c { s with pending := r }) ∧
  (∀ s : State, s.pending = [] → step s = .next s)

/-- Right after reset the queue is empty, nothing has left the package, every register field reads its
reset value, the canonical forms hold, and no District's window ends beyond a slice. -/
def Obligations.ResetMeetsTheInvariants : Prop :=
  State.reset.pending = [] ∧ State.reset.sent = [] ∧ regsOk State.reset = true ∧
  memOk State.reset = true ∧ queueOk State.reset = true ∧ heldInReset State.reset = false ∧
  (∀ (p : PageId) (f : Fld) (i : Nat), rd State.reset p f i = fieldResetAt p f i) ∧
  (∀ d : DistId, rd State.reset pkgswP PKGSW_DIST_GLB_BASE d
    + rd State.reset pkgswP PKGSW_DIST_GLB_SIZE d ≤ 384)

/-- A step takes exactly one command from the queue, and what has left the package stays as it left. -/
def Obligations.StepTakesOneCommand : Prop :=
  ∀ s t : State, step s = .next t →
    t.pending = s.pending.tail ∧ ∃ l : List Out, t.sent = s.sent ++ l

/-- Every well-formed command goes on to a next state, in every state. That an event which cannot come
about leaves the state as it is (DESIGN CHOICE, log entry 4), and that only a payload which no transfer
has ends in a fault (log entry 7), are the model's choices. -/
def Obligations.WellFormedCommandsGoOn : Prop :=
  ∀ (c : Instr) (s : State), c.wellFormed = true → ∃ t : State, exec c s = .next t

/-- The register file and the image slots keep their canonical form: their keys strictly rise. -/
def Obligations.StepKeepsRegisterFile : Prop :=
  ∀ s t : State, regsOk s = true → step s = .next t → regsOk t = true

/-- Every addressed memory (the SRAM of each tile, the arrays of each slice, the buffers of each command
window) keeps its canonical form. -/
def Obligations.StepKeepsMemories : Prop :=
  ∀ s t : State, memOk s = true → step s = .next t → memOk t = true

/-- A fuse that is blown stays blown: no step clears a bit of any copy of a fuse field. -/
def Obligations.FusesOnlyBlown : Prop :=
  ∀ s t : State, step s = .next t → FusesWithin s.fuses t.fuses

/-- A trip of an armed triplet sets the Midnight latch, drives THERMTRIP_N low, and holds the package in reset; nothing else
leaves the package, so no completion and no write to host memory follows. From then on every step but
the removal of VDD_AON keeps it so, and all that leaves the package is what the management port
answers. -/
def Obligations.MidnightHoldsThePackage : Prop :=
  (∀ (s : State) (d : DieId) (k : Fin 8), regsOk s = true → aonRuns s = true →
    ∃ t : State, exec (.thermalTrip d k true) s = .next t ∧ heldInReset t = true ∧
      t.sent = s.sent ++ [.thermtrip] ∧ rd t thermP THERM_TRIP_DIE = d.val ∧
      rd t thermP THERM_TRIP_TRIPLET = k.val ∧ t.fuses = s.fuses ∧ t.pending = s.pending) ∧
  (∀ s t : State, heldInReset s = true → (∀ b : Bool, s.pending.head? ≠ some (.vddAonRemove b)) →
    step s = .next t →
    heldInReset t = true ∧ (t.sent = s.sent ∨ ∃ b : List Byte, t.sent = s.sent ++ [.smbus b]))

/-! ### Every command, row by row -/

/-- Rails, PWRGOOD and resets. Where VDD_AON is down, its rise starts Dusk; with every rail in range for 2 rounds
in stage 0, stage 1 may begin, and a rail out of range for 100 rounds halts Dawn with code 0x10; PWRGOOD's
rise samples the straps and its fall resets the package to stage 0; a Plaza reset leaves what the model's
plazaReset leaves: the fuses, the always-on domain, the queue and what has left (R11 does not list them:
DEDUCED, log entry 26); the removal of VDD_AON keeps only fuses (and the model's own log of outputs, queue and
counter of free values), and a dip of it may keep the Midnight latch too (a free choice, R351). -/
def Obligations.RailsAndResets : Prop :=
  (∀ (s : State), s.dawn.aon = false →
      exec (.vddAonRise) s = .next ({ s with dawn := { s.dawn with aon := true } })) ∧
  (∀ (s : State), duskRuns s →
      stage s = 0 →
      dawnHalted s = false →
      2 ≤ s.dusk.inRange →
      exec (.dawnRailsGood) s = .next (leaveReset { s with dawn := { s.dawn with railsGood := true } })) ∧
  (∀ (s : State) (i : Fin 96), duskRuns s →
      stage s = 0 →
      dawnHalted s = false →
      100 ≤ SMap.getD s.dusk.oor i 0 →
      exec (.dawnRailHalt) s = .next (haltDawn s 0x10)) ∧
  (∀ (s : State) (o : Fin 4), s.dawn.aon →
      s.dawn.pwrgood = false →
      exec (.pwrgoodRise o) s = .next (leaveReset { s with dawn := { s.dawn with pwrgood := true, ownerSel := o } })) ∧
  (∀ (s : State), s.dawn.aon →
      s.dawn.pwrgood →
      ∃ t : State, exec (.pwrgoodFall) s = .next t ∧ stage t = 0 ∧ t.dawn.pwrgood = false ∧ t.tiles = [] ∧ t.slices = [] ∧ t.procs = [] ∧ t.images = [] ∧ t.links = [] ∧ t.colls = [] ∧ t.sec = {} ∧ t.fuses = s.fuses ∧ t.sensed = s.fuses ∧ t.dawn.record = none ∧ t.pending = s.pending ∧ t.sent = s.sent) ∧
  (∀ (s : State), s.dawn.aon →
      s.dawn.pwrgood →
      exec (.plazaReset) s = .next (leaveReset (plazaReset s))) ∧
  (∀ (s : State), exec (.vddAonRemove false) s = .next ({ State.reset with pending := s.pending, sent := s.sent, fresh := s.fresh, fuses := s.fuses, sensed := s.fuses })) ∧
  (∀ (s : State), ∃ t : State, exec (.vddAonRemove true) s = .next t ∧ (t = powerDown (freeBool s).2 ∨ t = { powerDown (freeBool s).2 with regs := s.regs.filter (fun kv => latchBit kv.1) }) ∧ t.fuses = s.fuses ∧ t.dawn.aon = false)

/-- The firmware bundle and the Dawn record. A write of FW_GO with FW_STATE waiting makes it 2; a bundle that the
checks reject is refused with its code, and one that they accept is taken with the record; Dawn ends when
every engine's start has ended; a record is emitted, and its emission ends, as R311 says. -/
def Obligations.FirmwareAndRecord : Prop :=
  (∀ (s : State) (req : PortId), takesWrite s req dawnP DAWN_FW_GO →
      rd s dawnP DAWN_FW_STATE = 1 →
      exec (.fwGo req) s = .next (wr s dawnP DAWN_FW_STATE 2)) ∧
  (∀ (s : State) (b : List Byte) (r : List Byte), inStage s 2 →
      rd s dawnP DAWN_FW_STATE = 2 →
      bundleReject s b ≠ 0 →
      exec (.fwBundleCheck b r) s = .next (bundleRefused (bytesIn s (ownerPort s) (min (rd s dawnP DAWN_FW_SIZE) b.length)) (bundleReject s b) b.length)) ∧
  (∀ (s : State) (b : List Byte) (r : List Byte), inStage s 2 →
      rd s dawnP DAWN_FW_STATE = 2 →
      bundleReject s b = 0 →
      ∃ t : State, exec (.fwBundleCheck b r) s = .next t ∧ t = bundleAccepted (bytesIn (bytesIn s (ownerPort s) (min (rd s dawnP DAWN_FW_SIZE) b.length)) (ownerPort s) (min (rd (bytesIn s (ownerPort s) (min (rd s dawnP DAWN_FW_SIZE) b.length)) dawnP DAWN_REC_SIZE) r.length)) (b.take (rd s dawnP DAWN_FW_SIZE)) r) ∧
  (∀ (s : State) (l : List TrainSection), trainOk l →
      inStage s 9 →
      (upOes s).all (fun e => bitOf s.dawn.engines e) →
      exec (.dawnDone l) s = .next (finishDawn s l)) ∧
  (∀ (s : State) (req : PortId) (l : List TrainSection), trainOk l →
      takesWrite s req dawnP DAWN_REC_EMIT →
      dawnOver s →
      exec (.recEmit req l) s = .next (beginEmit s l)) ∧
  (∀ (s : State) (n : Nat) (b : List Byte), plazaUp s →
      s.dawn.emit = some b →
      ∃ t : State, exec (.recordEmitted n) s = .next t ∧ t = endEmit s n ∧ t.dawn.emit = none)

/-- Release, training and optics start. In its stage, each unit's row ends that unit's part of Dawn, and the stage
ends with the last unit: a die is released or held, a link group or a die's vertical ports end their training,
an optical engine ends its start. -/
def Obligations.ReleaseAndTraining : Prop :=
  (∀ (s : State) (f : BitVec 24) (r : Bool), inStage s 3 →
      s.dawn.nextDie < 4 →
      exec (.dieRelease f r) s = .next (releaseDie s f.toNat r)) ∧
  (∀ (s : State) (g : GroupId) (pm : Fin 64) (rate : Fin 64) (v0 : BitVec 16) (v1 : BitVec 16) (ms : List ModTrain) (r : Bool), ms.length = modulesOf g →
      rate.val ≠ 0 →
      pm.val ≠ 0 →
      inStage s 4 →
      groupUp s g →
      bitOf s.dawn.groups g = false →
      exec (.d2dLinkTraining g pm rate v0 v1 ms r) s = .next (trainGroup s g pm rate v0.toNat v1.toNat ms r)) ∧
  (∀ (s : State) (d : DieId) (l : List PortFail) (r : Bool), inStage s 5 →
      dieUp s d →
      bitOf s.dawn.ports d = false →
      exec (.verticalPortTraining d l r) s = .next (trainPorts s d l r)) ∧
  (∀ (s : State) (e : OeId) (x : OeStart), inStage s 9 →
      oeUp s e →
      bitOf s.dawn.engines e = false →
      exec (.opticsStart e x) s = .next (opticsStart s e x))

/-- Self-test and the yield map. A wave of tower BIST in stage 6 and of tile BIST in stage 7 finds the failures
given; the first wave of stage 7 follows the fourth of stage 6; a unit over its budget counts as failed; the
map is formed after the fourth wave of stage 7. -/
def Obligations.SelfTestAndMap : Prop :=
  (∀ (s : State) (l : List BistFail), inStage s 6 →
      s.dawn.waves < 4 →
      exec (.bistWaveStart l) s = .next (bistWave s true l)) ∧
  (∀ (s : State) (l : List BistFail), inStage s 6 →
      4 ≤ s.dawn.waves →
      exec (.bistWaveStart l) s = .next (bistWave ((upDies (nextStage s 6)).foldl (fun s d => recordRepairs s 9 d) (nextStage s 6)) false l)) ∧
  (∀ (s : State) (l : List BistFail), inStage s 7 →
      s.dawn.waves < 4 →
      exec (.bistWaveStart l) s = .next (bistWave s false l)) ∧
  (∀ (s : State) (d : DieId) (row : Fin 16) (col : Fin 32) (us : Nat), inStage s 6 || inStage s 7 →
      dieUp s d →
      col.val / 8 + 1 = s.dawn.waves →
      bistBudget s (inStage s 6) ≤ us →
      exec (.bistBudgetExpire d row col us) s = .next (budgetExpire s d row col (inStage s 6) us)) ∧
  (∀ (s : State), inStage s 7 →
      s.dawn.waves = 4 →
      exec (.yieldMapForm) s = .next (formMap s))

/-- Lost dies and die-to-die faults. A compute die that is up and misses its heartbeats, signals its reset or
loses its clock is fenced with the cause of R20; an optical engine likewise; a CRC error that the CRC-32 finds
replays the flit, and one that passes it stays, unfound, for the next transfer over the module (R289); a
failed lane and the end of a retraining act on their module. -/
def Obligations.DieFaults : Prop :=
  (∀ (s : State) (d : DieId), plazaUp s →
      dieUp s d →
      exec (.dieHeartbeatLost d) s = .next (dieLost (wr s (d2dP d) D2D_HB_MISSED 8) d 3 1)) ∧
  (∀ (s : State) (d : DieId), plazaUp s →
      dieUp s d →
      exec (.dieResetSignalled d) s = .next (dieLost s d 4 2)) ∧
  (∀ (s : State) (d : DieId), plazaUp s →
      dieUp s d →
      exec (.dieClockLoss d) s = .next (dieLost s d 7 5)) ∧
  (∀ (s : State) (e : OeId), plazaUp s →
      oeUp s e →
      exec (.oeHeartbeatLost e 0) s = .next (farSideLost (wr s (d2dP (4 + e)) D2D_HB_MISSED 8) (4 + e) 3 0)) ∧
  (∀ (s : State) (e : OeId) (w : Fin 3), plazaUp s →
      oeUp s e →
      w ≠ 0 →
      exec (.oeHeartbeatLost e w) s = .next (farSideLost s (4 + e) (if w = 1 then 4 else 7) 0)) ∧
  (∀ (s : State) (g : GroupId) (m : Fin 24), groupRuns s g →
      m.val < groupModules g →
      modState s g m ≠ 2 →
      exec (.d2dFlitCrcError g m []) s = .next (d2dReplay s g m)) ∧
  (∀ (s : State) (g : GroupId) (m : Fin 24) (f : List (Nat × Nat)), f ≠ [] →
      groupRuns s g →
      m.val < groupModules g →
      modState s g m ≠ 2 →
      exec (.d2dFlitCrcError g m f) s = .next ({ s with dawn := { s.dawn with flips := SMap.put s.dawn.flips (32 * g.val + m.val) f } })) ∧
  (∀ (s : State) (g : GroupId) (m : Fin 24) (dir : Bool) (lane : Fin 68) (h : Bool), groupRuns s g →
      m.val < groupModules g →
      modState s g m ≠ 2 →
      exec (.d2dLaneFail g m dir lane h) s = .next (laneFail s g m (ofBool dir) lane h)) ∧
  (∀ (s : State) (g : GroupId) (m : Fin 24), groupRuns s g →
      m.val < groupModules g →
      modState s g m = 3 →
      exec (.d2dModuleRetrained g m true) s = .next (flowsGoOn (wr s (d2dP g) D2D_STATE (ofBool (modHalf s g m)) m))) ∧
  (∀ (s : State) (g : GroupId) (m : Fin 24), groupRuns s g →
      m.val < groupModules g →
      modState s g m = 3 →
      exec (.d2dModuleRetrained g m false) s = .next (disableModule s g m))

/-- Host links and fenced tiles. A port's link trains within MAX_GEN from stage 2 on while its PERST_N is high,
and its loss and its reset act on the port; PERST_N low takes an open link down and resets the port; a tile
that loses its clock, its router or its slice's port is fenced. -/
def Obligations.HostLinksAndTileFaults : Prop :=
  (∀ (s : State) (p : PortId) (g : Fin 7) (w : Fin 17) (f : Bool), g.val ≠ 0 →
      [1, 2, 4, 8, 16].contains w.val →
      plazaUp s →
      2 ≤ rd s dawnP DAWN_STAGE →
      bitOf s.dawn.perst p = false →
      g.val ≤ rd s (hostportP p) HOSTPORT_MAX_GEN →
      exec (.hostLinkTrained p g w f) s = .next (linkTrained s p g w f)) ∧
  (∀ (s : State) (p : PortId), plazaUp s →
      portUp s p →
      exec (.hostLinkDown p) s = .next (hostLinkDown s p)) ∧
  (∀ (s : State) (p : PortId), plazaUp s →
      portUp s p →
      exec (.hostPortReset p .perstLow) s = .next (portReset (hostLinkDown { s with dawn := { s.dawn with perst := setBit s.dawn.perst p } } p) p)) ∧
  (∀ (s : State) (p : PortId), plazaUp s = false →
      exec (.hostPortReset p .perstLow) s = .next ({ s with dawn := { s.dawn with perst := setBit s.dawn.perst p } })) ∧
  (∀ (s : State) (p : PortId), exec (.hostPortReset p .perstHigh) s = .next ({ s with dawn := { s.dawn with perst := clearBit s.dawn.perst p } })) ∧
  (∀ (s : State) (p : PortId), plazaUp s →
      portUp s p →
      exec (.hostPortReset p .hot) s = .next (portReset s p)) ∧
  (∀ (s : State) (p : PortId), plazaUp s →
      portUp s p →
      exec (.hostPortReset p .flr) s = .next (portReset s p)) ∧
  (∀ (s : State) (t : TileId), plazaUp s →
      exec (.tileClockLoss t) s = .next (fenceTile s t false false)) ∧
  (∀ (s : State) (t : TileId), plazaUp s →
      exec (.tileRouterLost t) s = .next (fenceTile s t true false)) ∧
  (∀ (s : State) (t : TileId), plazaUp s →
      exec (.slicePortLoss t) s = .next (fenceTile s t false true))

/-- Every slot instruction issues. On a tile on which a bundle that holds the instruction alone would issue in the
present cycle, the instruction's command issues that bundle: the MX, SM, NX and CT instructions (the VX
instructions have a statement of their own). That the command of one instruction issues a bundle that holds it
alone is the model's choice (DESIGN CHOICE, log entry 11). CT.TRAP takes the trap its CODE names; a CODE below
0x80, a CT.ALU function above 12 and CT.BR condition 7 raise ILLEGAL_ENCODING in the CT slot. -/
def Obligations.SlotCommandsIssue : Prop :=
  (∀ (s : State) (t : TileId) (f : LdwF), issues s t { mx := .ldw f } →
      exec (.mxLdw t f) s = .next (issued s t { mx := .ldw f })) ∧
  (∀ (s : State) (t : TileId) (f : RunF), f.ok →
      issues s t { mx := .run f } →
      exec (.mxRun t f) s = .next (issued s t { mx := .run f })) ∧
  (∀ (s : State) (t : TileId) (f : WinF), f.ok →
      issues s t { mx := .win f } →
      exec (.mxWin t f) s = .next (issued s t { mx := .win f })) ∧
  (∀ (s : State) (t : TileId) (v : Fin 64) (b : Fin 32) (l : Nat) (p : Fin 16) (m : Fin 16), issues s t { sm := .vld v b l p m } →
      exec (.smVld t v b l p m) s = .next (issued s t { sm := .vld v b l p m })) ∧
  (∀ (s : State) (t : TileId) (v : Fin 64) (b : Fin 32) (l : Nat) (p : Fin 4) (m : Fin 16), issues s t { sm := .vst v b l p m } →
      exec (.smVst t v b l p m) s = .next (issued s t { sm := .vst v b l p m })) ∧
  (∀ (s : State) (t : TileId) (v : Fin 64) (q : Fin 16) (m : Fin 16), issues s t { sm := .qtov v q m } →
      exec (.smQtov t v q m) s = .next (issued s t { sm := .qtov v q m })) ∧
  (∀ (s : State) (t : TileId) (v : Fin 64) (o : Fin 16) (m : Fin 16), issues s t { sm := .vtoq v o m } →
      exec (.smVtoq t v o m) s = .next (issued s t { sm := .vtoq v o m })) ∧
  (∀ (s : State) (t : TileId) (n : Nat) (q : Fin 16) (p : Fin 2) (b : Fin 32) (l : Nat), 0 < n →
      n ≤ 16 →
      issues s t { sm := .qtos n q p b l } →
      exec (.smQtos t n q p b l) s = .next (issued s t { sm := .qtos n q p b l })) ∧
  (∀ (s : State) (t : TileId) (n : Nat) (o : Fin 16) (p : Fin 4) (b : Fin 32) (l : Nat), 0 < n →
      n ≤ 16 →
      issues s t { sm := .stoq n o p b l } →
      exec (.smStoq t n o p b l) s = .next (issued s t { sm := .stoq n o p b l })) ∧
  (∀ (s : State) (t : TileId) (f : ChF), f.ok →
      issues s t { sm := .ch f } →
      exec (.smCh t f) s = .next (issued s t { sm := .ch f })) ∧
  (∀ (s : State) (t : TileId) (m : Fin 256), issues s t { sm := .fence m } →
      exec (.smFence t m) s = .next (issued s t { sm := .fence m })) ∧
  (∀ (s : State) (t : TileId) (o : Fin 16) (r : Fin 64) (n : Nat) (cs : Bool) (sc : Fin 32), 0 < n →
      n ≤ 65536 →
      issues s t { nx := .send o r n cs sc } →
      exec (.nxSend t o r n cs sc) s = .next (issued s t { nx := .send o r n cs sc })) ∧
  (∀ (s : State) (t : TileId) (r : Fin 64), issues s t { nx := .sig r } →
      exec (.nxSig t r) s = .next (issued s t { nx := .sig r })) ∧
  (∀ (s : State) (t : TileId) (e : Fin 8) (b : Fin 32), issues s t { nx := .wait e b } →
      exec (.nxWait t e b) s = .next (issued s t { nx := .wait e b })) ∧
  (∀ (s : State) (t : TileId) (n : Fin 64) (e : Fin 8) (a : Fin 32), issues s t { nx := .coll n e a } →
      exec (.nxColl t n e a) s = .next (issued s t { nx := .coll n e a })) ∧
  (∀ (s : State) (t : TileId) (e : Fin 256), issues s t { nx := .hevt e } →
      exec (.nxHevt t e) s = .next (issued s t { nx := .hevt e })) ∧
  (∀ (s : State) (t : TileId) (d : Fin 32) (i : Fin 65536) (h : Bool), issues s t { ct := .li d i h } →
      exec (.ctLi t d i h) s = .next (issued s t { ct := .li d i h })) ∧
  (∀ (s : State) (t : TileId) (d : Fin 32) (a : Fin 32) (b : Fin 32) (f : Fin 16), f.val ≤ 12 →
      issues s t { ct := .alu d a b f } →
      exec (.ctAlu t d a b f) s = .next (issued s t { ct := .alu d a b f })) ∧
  (∀ (s : State) (t : TileId) (d : Fin 32) (a : Fin 32) (i : Fin 65536), issues s t { ct := .addi d a i } →
      exec (.ctAddi t d a i) s = .next (issued s t { ct := .addi d a i })) ∧
  (∀ (s : State) (t : TileId) (l : Fin 4) (c : Fin 32) (e : Fin 4096), issues s t { ct := .loop l c e } →
      exec (.ctLoop t l c e) s = .next (issued s t { ct := .loop l c e })) ∧
  (∀ (s : State) (t : TileId) (d : Fin 32) (l : Fin 4), issues s t { ct := .rdl d l } →
      exec (.ctRdl t d l) s = .next (issued s t { ct := .rdl d l })) ∧
  (∀ (s : State) (t : TileId) (a : Fin 32) (b : Fin 32) (k : Fin 8) (x : Fin 4096), k.val ≠ 7 →
      issues s t { ct := .br a b k x } →
      exec (.ctBr t a b k x) s = .next (issued s t { ct := .br a b k x })) ∧
  (∀ (s : State) (t : TileId) (k : Fin 4) (l : Fin 4096), issues s t { ct := .phase k l } →
      exec (.ctPhase t k l) s = .next (issued s t { ct := .phase k l })) ∧
  (∀ (s : State) (t : TileId), issues s t { ct := .done } →
      exec (.ctEnd t) s = .next (issued s t { ct := .done })) ∧
  (∀ (s : State) (t : TileId) (k : Fin 256), 128 ≤ k.val →
      fetchesNow s t →
      exec (.ctTrap t k) s = .next (trapTaken s t k 16)) ∧
  (∀ (s : State) (t : TileId) (k : Fin 256), k.val < 128 →
      fetchesNow s t →
      exec (.ctTrap t k) s = .next (trapTaken s t 0x10 16)) ∧
  (∀ (s : State) (t : TileId) (d : Fin 32) (a : Fin 32) (b : Fin 32) (f : Fin 16), 12 < f.val →
      fetchesNow s t →
      exec (.ctAlu t d a b f) s = .next (trapTaken s t 0x10 16)) ∧
  (∀ (s : State) (t : TileId) (a : Fin 32) (b : Fin 32) (k : Fin 8) (x : Fin 4096), k.val = 7 →
      fetchesNow s t →
      exec (.ctBr t a b k x) s = .next (trapTaken s t 0x10 16))

/-- Every VX instruction issues. For every VX opcode: on a tile on which a bundle that holds the instruction alone
would issue in the present cycle, the opcode's command issues that bundle (that it is one command's is the
model's choice: DESIGN CHOICE, log entry 11). Fields that R64 and R368 do not let the opcode hold raise
ILLEGAL_ENCODING in the VX slot. -/
def Obligations.VectorCommandsIssue : Prop :=
  (∀ (s : State) (o : VxOpc) (t : TileId) (f : VxF), issues s t { vx := .op o f } →
      exec (vxInstr o t f) s = .next (issued s t { vx := .op o f })) ∧
  (∀ (s : State) (o : VxOpc) (t : TileId) (f : VxF), vxLegal o f = false →
      fetchesNow s t →
      exec (vxInstr o t f) s = .next (trapTaken s t 0x10 2))

/-- The cycles and the end of a tile. A running tile fetches and issues its next bundle, looks again at a bundle
that waits, counts a pacing cycle, ends a parity retry, lands its results, and ends when its work has settled. -/
def Obligations.TileCyclesRun : Prop :=
  (∀ (s : State) (t : TileId) (e : CycleErrs), (upsetTile (tile s t) e).ready →
      (upsetTile (tile s t) e).hold = none →
      (upsetTile (tile s t) e).fetchEnd = false →
      exec (.bundleIssue t e) s = .next (applyTile s t (bundleCycle (upsetTile (tile s t) e) t (tileDuty s t) ((upsetTile (tile s t) e).bundleAt (upsetTile (tile s t) e).pc) e.hits))) ∧
  (∀ (s : State) (t : TileId) (e : CycleErrs), (upsetTile (tile s t) e).ready →
      (upsetTile (tile s t) e).hold = none →
      (upsetTile (tile s t) e).fetchEnd →
      exec (.bundleIssue t e) s = .next (setTile s t { drainCycle (upsetTile (tile s t) e) (tileDuty s t) with retry := e.hits ++ badHits (upsetTile (tile s t) e) (agendaReads (upsetTile (tile s t) e) (upsetTile (tile s t) e).agenda) })) ∧
  (∀ (s : State) (t : TileId) (e : CycleErrs) (h : Hold), (upsetTile (tile s t) e).ready →
      (upsetTile (tile s t) e).hold = some h →
      exec (.waitRelease t e) s = .next (applyTile s t (waitCycle (upsetTile (tile s t) e) t (tileDuty s t) h e.hits))) ∧
  (∀ (s : State) (t : TileId), (tile s t).runState = 2 →
      (tile s t).retry = [] →
      isPacing (tile s t).duty (tile s t).phase →
      (tile s t).fetchEnd = false →
      exec (.pacingCycle t) s = .next (setTile s t (((tile s t).countFrozen causePace).tick (tileDuty s t)))) ∧
  (∀ (s : State) (t : TileId), (tile s t).runState = 2 →
      (tile s t).retry = [] →
      isPacing (tile s t).duty (tile s t).phase →
      (tile s t).fetchEnd →
      exec (.pacingCycle t) s = .next (setTile s t ((tile s t).tick (tileDuty s t)))) ∧
  (∀ (s : State) (t : TileId) (l : List Nat), (tile s t).retry ≠ [] →
      ∃ t' : State, exec (.parityRetry t l) s = .next t' ∧ t' = parityRetry s t l ∧ (tile t' t).retry = []) ∧
  (∀ (s : State) (t : TileId), (tile s t).runState = 2 →
      (tile s t).retry = [] →
      (tile s t).readsBad = false →
      (tile s t).fetchEnd = false →
      exec (.registerResultLand t) s = .next (setTile s t (comeAbout (tile s t) (fun p => p.act.isReg && (p.due < (tile s t).cyc || (p.due == (tile s t).cyc && !p.act.isRow)))))) ∧
  (∀ (s : State) (t : TileId), (tile s t).runState = 2 →
      (tile s t).retry = [] →
      (tile s t).readsBad = false →
      (tile s t).fetchEnd = false →
      exec (.arrayResultLand t) s = .next (setTile s t (comeAbout (tile s t) (fun p => p.act.isRow && p.due < (tile s t).cyc)))) ∧
  (∀ (s : State) (t : TileId), (tile s t).runState = 2 →
      (tile s t).trapping →
      (tile s t).retry = [] →
      (tile s t).readsBad = false →
      tileQuiet (settle (tile s t)) →
      ∃ t' : State, exec (.trapSettled t) s = .next t' ∧ (tile t' t).runState = 4) ∧
  (∀ (s : State) (t : TileId), (tile s t).runState = 2 →
      (tile s t).fetchEnd →
      (tile s t).trapping = false →
      (tile s t).retry = [] →
      (tile s t).readsBad = false →
      tileDone (settle (tile s t)) →
      ∃ t' : State, exec (.tileComplete t) s = .next t' ∧ (tile t' t).runState = 3) ∧
  (∀ (s : State) (t : TileId) (d : Nat) (j : Job) (k : Nat) (im : Image) (as : List Nat) (b : Bool) (en : SMap (Nat × Nat)), launchOf s t = some (d, j) →
      j.work = .launch k im as b en →
      im.slipUs ≠ 0 →
      (tile s t).runState = 2 →
      slipRuns (tile s t) →
      exec (.slipTimeout t) s = .next (abortColls (endLaunch s d j stSlipTimeout t) d (some k)))

/-- Writes to a tile's pages. A soft reset of a TILE page stops the tile; one of a MOVER page clears the queues of
a tile that does not run, or waits while the block starts or drains, and changes nothing while the tile runs,
whatever STATE shows; a write of the mover's registers acts on them, or is refused while the tile runs. -/
def Obligations.TilePageWrites : Prop :=
  (∀ (s : State) (req : PortId) (t : TileId), takesWrite s req (tileP t) HDR_SOFT_RESET →
      exec (.tileSoftReset req t) s = .next (tileReset s t)) ∧
  (∀ (s : State) (req : PortId) (t : TileId), takesWrite s req (moverP t) HDR_SOFT_RESET →
      rd s (moverP t) HDR_STATE ≠ 1 →
      rd s (moverP t) HDR_STATE ≠ 3 →
      (tile s t).runState ≠ 2 →
      exec (.moverSoftReset req t) s = .next (clearFields (clearMover s t) (moverP t) [HDR_INT_RAW])) ∧
  (∀ (s : State) (req : PortId) (t : TileId), takesWrite s req (moverP t) HDR_SOFT_RESET →
      (tile s t).runState = 2 →
      exec (.moverSoftReset req t) s = .next (s)) ∧
  (∀ (s : State) (req : PortId) (t : TileId), takesWrite s req (moverP t) HDR_SOFT_RESET →
      rd s (moverP t) HDR_STATE = 1 ∨ rd s (moverP t) HDR_STATE = 3 →
      (tile s t).runState ≠ 2 →
      exec (.moverSoftReset req t) s = .next ({ s with resetWaits := SMap.put s.resetWaits (moverP t).base 1 })) ∧
  (∀ (s : State) (req : PortId) (t : TileId) (r : Fin 64) (v : Nat), writeError s req (moverP t) (0x800 + 8 * r.val) = some 0 →
      (tile s t).runState ≠ 2 →
      exec (.moverConfigWrite req t (some r) v) s = .next (setTile s t { tile s t with routes := SMap.put (tile s t).routes r (bitsOf v 0 11 + 2 ^ 12 * bitsOf v 12 4 + 2 ^ 16 * bitsOf v 16 1 + 2 ^ 24 * bitsOf v 24 32 + 2 ^ 63 * bitsOf v 63 1) })) ∧
  (∀ (s : State) (req : PortId) (t : TileId) (v : Nat), writeError s req (moverP t) 0x124 = some 0 →
      (tile s t).runState ≠ 2 →
      exec (.moverConfigWrite req t none v) s = .next (setTile s t { tile s t with qMesh := v % 2 ^ 16 })) ∧
  (∀ (s : State) (req : PortId) (t : TileId) (v : Nat), writeError s req (moverP t) 0x124 = some 0 →
      (tile s t).runState = 2 →
      exec (.moverConfigWrite req t none v) s = .next (regRefused s req ((moverP t).base + 0x124) errBusy true))

/-- Movers, lines, signals and credits. The step of a channel moves lines of the operation at its head; a channel
halts, and ends its command; lines and signals reach their tile, and credits go back. -/
def Obligations.MoverAndMesh : Prop :=
  (∀ (s : State) (t : TileId) (c : Fin 8) (n : Nat) (m : MCmd) (e : SectorErrs), headCmd s t c = some m →
      m.op = 1 →
      (moveLine s t c e 0).2 = .yes →
      exec (.moverRead t c (n + 1) e) s = .next (moveLines (moveLine s t c e 0).1 t c e 1 n)) ∧
  (∀ (s : State) (t : TileId) (c : Fin 8) (n : Nat) (m : MCmd), headCmd s t c = some m →
      m.op = 2 →
      (moveLine s t c [] 0).2 = .yes →
      exec (.moverWrite t c (n + 1)) s = .next (moveLines (moveLine s t c [] 0).1 t c [] 1 n)) ∧
  (∀ (s : State) (t : TileId) (c : Fin 8) (n : Nat) (m : MCmd), headCmd s t c = some m →
      m.op = 3 →
      (moveLine s t c [] 0).2 = .yes →
      exec (.moverFill t c (n + 1)) s = .next (moveLines (moveLine s t c [] 0).1 t c [] 1 n)) ∧
  (∀ (s : State) (t : TileId) (c : Fin 8) (n : Nat) (m : MCmd) (e : SectorErrs), headCmd s t c = some m →
      m.op = 4 →
      (moveLine s t c e 0).2 = .yes →
      exec (.moverTread t c (n + 1) e) s = .next (moveLines (moveLine s t c e 0).1 t c e 1 n)) ∧
  (∀ (s : State) (t : TileId) (c : Fin 8) (e : SectorErrs), (moveLine s t c e 0).2 = .halted →
      exec (.channelHalt t c e) s = .next ((moveLine s t c e 0).1)) ∧
  (∀ (s : State) (t : TileId) (c : Fin 8) (m : MCmd) (r : List MCmd), ((tile s t).chan c).cmds = m :: r →
      m.bad = 0 →
      m.unfinished = false →
      waitsAtWindow s (8 * t + c) = false →
      exec (.moverCommandDone t c) s = .next (setTile s t ((tile s t).setChan c { (tile s t).chan c with cmds := r }))) ∧
  (∀ (s : State) (t : TileId) (o : Fin 16) (n : Nat) (g : Send) (r : List Send) (b : List Byte) (x : List (List Byte)), ((tile s t).outQ o).sends = g :: r →
      ((tile s t).outQ o).lines = b :: x →
      sendReady s t o g →
      g.route.remote = false →
      lineFits s g.route.tile g.route.queue →
      exec (.meshLineArrive (.tile t o) n) s = .next (sendLocal s t o g)) ∧
  (∀ (s : State) (t : TileId) (o : Fin 16) (n : Nat) (g : Send) (r : List Send) (b : List Byte) (x : List (List Byte)), ((tile s t).outQ o).sends = g :: r →
      ((tile s t).outQ o).lines = b :: x →
      sendReady s t o g →
      g.route.remote →
      0 < n →
      0 < g.left →
      exec (.meshLineArrive (.tile t o) n) s = .next (sendRemote s t o n g)) ∧
  (∀ (s : State) (t : TileId) (o : Fin 16) (n : Nat) (k : List (Nat × Nat)), exec (.meshLineArrive (.corrupted t o k) n) s = .next (sendCorrupted s t o n k)) ∧
  (∀ (s : State) (t : TileId) (n : Nat) (i : Nat) (x : State × List Byte), meshInAt s t = some i →
      pktType (s.meshIn.getD i []) = 1 →
      flowHeld s (tileDie t) (pktFlow (s.meshIn.getD i [])) = false →
      lineWanted s t (pktQueue (s.meshIn.getD i [])) →
      ((tile s t).inQ (pktQueue (s.meshIn.getD i []))).lines.length < 16 →
      crossData s [tileDie t] (pktFlow (s.meshIn.getD i [])) (((s.meshIn.getD i []).drop 16).take 64) = x →
      exec (.meshLineArrive (.package t) n) s = .next (enqueue { x.1 with meshIn := if pktLines (s.meshIn.getD i []) ≤ 1 then s.meshIn.eraseIdx i else s.meshIn.set i (cutLine (s.meshIn.getD i [])) } t (pktQueue (s.meshIn.getD i [])) x.2 causeOpt (some (2048 + (pktSrc (s.meshIn.getD i [])).1 + 256 * (pktSrc (s.meshIn.getD i [])).2)))) ∧
  (∀ (s : State) (t : TileId) (k : Nat) (g : Sig) (x : State × Nat), (tile s t).sigs[k]? = some g →
      sigAhead (tile s t) g.route g.seq = false →
      routeHeld s t g.route = false →
      g.route.remote = false →
      meshTakes s g.route.tile →
      crossNat (setTile s t { tile s t with sigs := (tile s t).sigs.eraseIdx k }) (routeGroups t g.route) (tileFlow t g.route) 1 (g.route.queue % 8) = x →
      exec (.meshSignalArrive (.tile t k)) s = .next (setTile x.1 g.route.tile ((tile x.1 g.route.tile).addEv (x.2 % 8) (meshClass t g.route.tile)))) ∧
  (∀ (s : State) (t : TileId) (i : Nat) (x : State × Nat), meshInAt s t = some i →
      pktType (s.meshIn.getD i []) = 2 →
      flowHeld s (tileDie t) (pktFlow (s.meshIn.getD i [])) = false →
      meshTakes s t →
      crossNat s [tileDie t] (pktFlow (s.meshIn.getD i [])) 1 (pktEvent (s.meshIn.getD i [])) = x →
      exec (.meshSignalArrive (.package t)) s = .next (setTile { x.1 with meshIn := s.meshIn.eraseIdx i } t ((tile s t).addEv (x.2 % 8) causeOpt))) ∧
  (∀ (s : State) (t : TileId) (k : Nat) (r : List Nat), (tile s t).owed = k :: r →
      creditHeld s t k = false →
      exec (.meshCreditReturn t none) s = .next (setTile (crossFlow s (dieGroups (tileDie (k / 16)) (tileDie t)) (creditFlow t k)) t { tile s t with owed := r, credits := SMap.put (tile s t).credits k (SMap.getD (tile s t).credits k 0 - 1) })) ∧
  (∀ (s : State) (t : TileId) (f : FarQueue), plazaUp s →
      tileExists s t →
      plazaHeld s 9 t = false →
      exec (.meshCreditReturn t (some f)) s = .next (setTile (plazaCross s 9 t) t { tile s t with credits := SMap.put (tile s t).credits (farKey f) (SMap.getD (tile s t).credits (farKey f) 0 - 1) }))

/-- The commands of a slice. A request that no check of R23 refuses and no mode of the slice holds reads or writes
the slice; a merge entry ages and is flushed; refresh is counted in controller mode; the scrubber reads a
sector; a soft reset in controller mode flushes the merge buffer and clears the counters, and in engine mode
does nothing. -/
def Obligations.SliceCommands : Prop :=
  (∀ (s : State) (t : TileId) (d : DistId) (k : SectorId) (q : Fin 4) (e : Option SectorErr), tileError s d t = 0 →
      sliceLives s t →
      sliceBusy s t = false →
      sliceHolds s t = false →
      narrowAhead (slice s t) k = false →
      exec (.sliceRead t d k q e) s = .next ((sliceSector s t k q e).1)) ∧
  (∀ (s : State) (t : TileId) (d : DistId) (k : SectorId) (b : List Byte), b.length = 32 →
      tileError s d t = 0 →
      sliceLives s t →
      sliceBusy s t = false →
      sliceHolds s t = false →
      exec (.sliceWrite t d k b) s = .next (pollHost (sliceWriteSector s t k b))) ∧
  (∀ (s : State) (t : TileId) (d : DistId) (k : SectorId) (lo : Fin 32) (b : List Byte), 0 < b.length →
      b.length ≤ 31 →
      lo.val + b.length ≤ 32 →
      tileError s d t = 0 →
      sliceLives s t →
      sliceBusy s t = false →
      sliceHolds s t = false →
      exec (.narrowWrite t d k lo b) s = .next (gather s t ⟨k, lo, b, none⟩)) ∧
  (∀ (s : State) (t : TileId) (k : Nat), sliceLives s t →
      (mergeOf (slice s t) k).any (fun e => !e.flush) →
      exec (.mergeAgeExpire t k) s = .next (setSlice s t { slice s t with merge := (slice s t).merge.map (fun e => if e.sector == k && !e.flush then { e with age := 64, flush := true } else e) })) ∧
  (∀ (s : State) (t : TileId) (k : Nat) (e : Option SectorErr) (m : Merge), sliceLives s t →
      mergeOf (slice s t) k = some m →
      m.flush →
      exec (.mergeFlush t k e) s = .next (pollHost (flushSector s t k e))) ∧
  (∀ (s : State) (t : TileId), sliceLives s t →
      (slice s t).mode = 0 →
      (slice s t).portLost = false →
      exec (.sliceRefresh t) s = .next (bump64 (refreshOps s t 1) (sliceP t) SLICE_REFRESH_OPS_LO SLICE_REFRESH_OPS_HI)) ∧
  (∀ (s : State) (t : TileId) (e : Option SectorErr), sliceLives s t →
      rd s (sliceP t) SLICE_SCRUB_EN = 1 →
      (slice s t).mode = 0 →
      narrowAhead (slice s t) (rd s (sliceP t) SLICE_SCRUB_POS) = false →
      exec (.scrubRead t e) s = .next (scrubSector s t e)) ∧
  (∀ (s : State) (req : PortId) (t : TileId) (e : SectorErrs), takesWrite s req (sliceP t) HDR_SOFT_RESET →
      (slice s t).mode = 0 →
      exec (.sliceSoftReset req t e) s = .next (clearFields (flushAll s t e (flushSteps (slice s t))) (sliceP t) [SLICE_RD_SECTORS_LO, SLICE_RD_SECTORS_HI, SLICE_WR_SECTORS_LO, SLICE_WR_SECTORS_HI, SLICE_RMW_LO, SLICE_RMW_HI, SLICE_REFRESH_OPS_LO, SLICE_REFRESH_OPS_HI, HDR_INT_RAW])) ∧
  (∀ (s : State) (req : PortId) (t : TileId) (e : SectorErrs), takesWrite s req (sliceP t) HDR_SOFT_RESET →
      (slice s t).mode ≠ 0 →
      exec (.sliceSoftReset req t e) s = .next (s))

/-- The commands of a near-bank engine. A window access that no check refuses reads or writes the window, its
bytes as the link group brings them (R17, R289; a word of the clauses on mode words and GO words comes
unchanged); mode words and GO words act as R142 and R149 say; a run goes on pass by pass and completes; owed
refresh is counted to 8 and repaid in a pause; ENABLE acts on the engine, and SOFT_RESET in controller mode
alone. -/
def Obligations.EngineCommands : Prop :=
  (∀ (s : State) (t : TileId) (d : DistId) (x : Target) (o : Fin 1048576) (q : Fin 4) (e : Option SectorErr), (resolve s d (windowAt t o)).toOption = some x →
      sliceLives s t →
      plazaHeld s d t = false →
      exec (.engineWindowAccess t d o q none e) s = .next ((winSectorRead (plazaData s d t []).1 t (o.val / 32 * 32) q e).1)) ∧
  (∀ (s : State) (t : TileId) (d : DistId) (x : Target) (o : Fin 1048576) (q : Fin 4) (b : List Byte) (e : Option SectorErr), 0 < b.length →
      o.val % 64 + b.length ≤ 64 →
      (resolve s d (windowAt t o)).toOption = some x →
      sliceLives s t →
      plazaHeld s d t = false →
      exec (.engineWindowAccess t d o q (some b) e) s = .next (windowPut (plazaData s d t b).1 d t o (plazaData s d t b).2)) ∧
  (∀ (s : State) (t : TileId) (d : DistId) (x : Target) (u : State), (resolve s d (windowAt t 0xFFF00)).toOption = some x →
      sliceLives s t →
      plazaHeld s d t = false →
      plazaData s d t (leBytes 4 1) = (u, leBytes 4 1) →
      rd u (engineP t) HDR_STATE = 2 →
      (slice u t).mode = 0 →
      exec (.engineModeWrite t d 1) s = .next (beginEnter (setSlice u t { slice u t with modeWord := 1 }) t)) ∧
  (∀ (s : State) (t : TileId) (d : DistId) (x : Target) (u : State), (resolve s d (windowAt t 0xFFF00)).toOption = some x →
      sliceLives s t →
      plazaHeld s d t = false →
      plazaData s d t (leBytes 4 0) = (u, leBytes 4 0) →
      (slice u t).mode = 1 →
      ∃ t' : State, exec (.engineModeWrite t d 0) s = .next t' ∧ (slice t' t).mode = 3 ∧ (slice t' t).modeWord = 0) ∧
  (∀ (s : State) (t : TileId), sliceLives s t →
      (slice s t).mode = 2 →
      flushedIn (slice s t) →
      (slice s t).held ≠ some 0 →
      rd s duskP DUSK_TW_STATE ≠ 1 →
      exec (.engineModeEntered t) s = .next (setSlice s t { slice s t with mode := 1, held := none, queue := (slice s t).queue.map WinOp.onTime })) ∧
  (∀ (s : State) (t : TileId), sliceLives s t →
      (slice s t).mode = 2 →
      flushedIn (slice s t) →
      (slice s t).held = some 0 →
      exec (.engineModeEntered t) s = .next (setSlice s t { slice s t with mode := 3, held := none, queue := (slice s t).queue.map WinOp.onTime })) ∧
  (∀ (s : State) (t : TileId), sliceLives s t →
      canLeave (slice s t) →
      exec (.engineModeLeft t) s = .next (collPumpAll (pollHost (modeLeft s t)) [])) ∧
  (∀ (s : State) (t : TileId) (d : DistId) (x : Target) (w : Nat) (u : State), (resolve s d (windowAt t 0xFFF40)).toOption = some x →
      sliceLives s t →
      plazaHeld s d t = false →
      w < 2 ^ 32 →
      plazaData s d t (leBytes 4 w) = (u, leBytes 4 w) →
      (slice u t).mode = 1 →
      goBad w = false →
      exec (.engineGo t d w) s = .next (setSlice u t (flushForGo { slice u t with queue := (slice u t).queue ++ [.go w false none] }))) ∧
  (∀ (s : State) (t : TileId), sliceLives s t →
      goReady (slice s t) →
      exec (.engineGoAccept t) s = .next (pollHost (goAccept s t))) ∧
  (∀ (s : State) (t : TileId) (e : List (Nat × Nat × SectorErr)), sliceLives s t →
      passDue (slice s t) →
      rd s (engineP t) ENGINE_PAUSED = 0 →
      exec (.enginePass t e) s = .next (runPass s t e)) ∧
  (∀ (s : State) (t : TileId) (r : EngRun), sliceLives s t →
      (slice s t).run = some r →
      r.count ≤ r.next →
      exec (.engineRunComplete t) s = .next (pollHost (runComplete s t))) ∧
  (∀ (s : State) (t : TileId), sliceLives s t →
      (slice s t).mode ≠ 0 →
      (slice s t).run ≠ none →
      rd s (engineP t) ENGINE_OWED < 8 →
      exec (.hubRefreshDue t) s = .next (wr s (engineP t) ENGINE_OWED (rd s (engineP t) ENGINE_OWED + 1))) ∧
  (∀ (s : State) (t : TileId), sliceLives s t →
      (slice s t).mode ≠ 0 →
      (slice s t).run = none →
      exec (.hubRefreshDue t) s = .next (refreshIntervals s t 1)) ∧
  (∀ (s : State) (t : TileId), sliceLives s t →
      passDue (slice s t) →
      rd s (engineP t) ENGINE_OWED = 8 →
      rd s (engineP t) ENGINE_PAUSED = 0 →
      exec (.refreshPause t) s = .next (bump (wr s (engineP t) ENGINE_PAUSED 1) (engineP t) ENGINE_PAUSES)) ∧
  (∀ (s : State) (t : TileId), regsOk s →
      sliceLives s t →
      rd s (engineP t) ENGINE_PAUSED = 1 →
      ∃ t' : State, exec (.refreshPauseEnd t) s = .next t' ∧ t'.fresh = s.fresh + 1 ∧ rd t' (engineP t) ENGINE_PAUSED = 0 ∧ t'.tiles = s.tiles) ∧
  (∀ (s : State) (req : PortId) (t : TileId) (on : Bool), takesWrite s req (engineP t) HDR_ENABLE →
      tileFenced s t = false →
      exec (.engineEnableWrite req t on) s = .next (engineEnable s t on)) ∧
  (∀ (s : State) (req : PortId) (t : TileId), takesWrite s req (engineP t) HDR_SOFT_RESET →
      (slice s t).mode = 0 →
      rd s (engineP t) HDR_STATE ≠ 1 →
      rd s (engineP t) HDR_STATE ≠ 3 →
      exec (.engineSoftReset req t) s = .next (engineReset s t)) ∧
  (∀ (s : State) (req : PortId) (t : TileId), takesWrite s req (engineP t) HDR_SOFT_RESET →
      (slice s t).mode ≠ 0 →
      exec (.engineSoftReset req t) s = .next (s))

/-- The Crossing and the optical engines. APPLY begins or is noted as pending; the next waveguide moves, its step
times out or is done; dithering adjusts the rings; ENABLE, lane enables, laser and comb-line failures act on
the engine. -/
def Obligations.CrossingAndEngines : Prop :=
  (∀ (s : State) (req : PortId) (e : OeId), takesWrite s req (crossingP e) CROSSING_APPLY →
      rd s (crossingP e) HDR_STATE = 2 →
      rd s (crossingP e) CROSSING_BUSY = 1 →
      exec (.crossingApply req e) s = .next (wr s (crossingP e) CROSSING_PENDING 1)) ∧
  (∀ (s : State) (req : PortId) (e : OeId), takesWrite s req (crossingP e) CROSSING_APPLY →
      rd s (crossingP e) HDR_STATE = 2 →
      rd s (crossingP e) CROSSING_BUSY ≠ 1 →
      exec (.crossingApply req e) s = .next (startApply s e)) ∧
  (∀ (s : State) (e : OeId) (w : Nat) (r : List Nat) (l : List CellSet) (y : List CellCal) (k : BitVec 8), (crossing s e).cur = none →
      (crossing s e).todo = w :: r →
      oeOn s e →
      rd s (crossingP e) CROSSING_BUSY = 1 →
      exec (.crossingMove e l y k) s = .next (beginMove (setCrossing s e { crossing s e with todo := r }) e w l y (disturbed s e w k.toNat))) ∧
  (∀ (s : State) (e : OeId) (m : Move), (crossing s e).cur = some m →
      oeOn s e →
      exec (.moveStepTimeout e) s = .next (moveFails s e m 3)) ∧
  (∀ (s : State) (e : OeId) (m : Move) (k : Bool) (x : BitVec 8), (crossing s e).cur = some m →
      oeOn s e →
      m.step ≠ 1 →
      exec (.moveDone e k x) s = .next (moveDone s e m k x.toNat)) ∧
  (∀ (s : State) (e : OeId) (l : List CellCode), oeOn s e →
      rd s (crossingP e) CROSSING_DITHER_EN = 1 →
      exec (.crossingDither e l) s = .next (dither s e l)) ∧
  (∀ (s : State) (req : PortId) (e : OeId) (on : Bool), takesWrite s req (oeP e) HDR_ENABLE →
      exec (.oeEnableWrite req e on) s = .next (blockEnable s (oeP e) on (fun s => s) (fun s => engineDark s e))) ∧
  (∀ (s : State) (req : PortId) (e : OeId) (x : Bool) (v : BitVec 32), takesWrite s req (blvdP e) (if x then BLVD_TX_ENABLE else BLVD_RX_ENABLE) →
      exec (.blvdEnableWrite req e x v) s = .next (blvdEnable s e x v.toNat)) ∧
  (∀ (s : State) (e : OeId) (l : Fin 8), oeOn s e →
      bitOf (crossing s e).dfbDead l = false →
      exec (.dfbFail e l .failed) s = .next (noteHolds (dfbFail s e l))) ∧
  (∀ (s : State) (e : OeId) (l : Fin 8), oeOn s e →
      bitOf (crossing s e).dfbDead l = false →
      bitOf (rd s (oeP e) OE_DFB_OK) l →
      exec (.dfbFail e l .unlocked) s = .next (dfbFault s e l 1)) ∧
  (∀ (s : State) (e : OeId) (l : Fin 8), oeOn s e →
      bitOf (crossing s e).dfbDead l = false →
      exec (.dfbFail e l .locked) s = .next (wr s (oeP e) OE_DFB_OK (setBit (rd s (oeP e) OE_DFB_OK) l))) ∧
  (∀ (s : State) (e : OeId) (k : Fin 32), oeOn s e →
      lineDark s e k = false →
      exec (.combLineDark e k) s = .next (lineGoesDark s e k))

/-- The messages of a link. A link that hears its partner acts on each message of the link protocol. -/
def Obligations.LinkMessages : Prop :=
  (∀ (s : State) (a : AlleyId) (f : Fin 4), hears s a →
      alleyRetrains s a = false →
      exec (.release a f) s = .next (leaveFibre (sendMsg s a 2 f) a f)) ∧
  (∀ (s : State) (a : AlleyId) (f : Fin 4), hears s a →
      alleyRetrains s a →
      exec (.release a f) s = .next (askLater s a 1 f)) ∧
  (∀ (s : State) (a : AlleyId) (f : Fin 4) (m : Move) (w : Nat), hears s a →
      alleyRetrains s a = false →
      (crossing s (linkEngine a)).cur = some m →
      m.rels.find? (fun v => !m.waits.contains v && wgLink s (linkEngine a) v == a.val && wgFibre s (linkEngine a) v == f.val) = some w →
      exec (.releaseDone a f) s = .next (relDone (fibreGone (clearMsgOf s a 1 f) (linkEngine a) w) (linkEngine a) w)) ∧
  (∀ (s : State) (a : AlleyId) (f : Fin 4), hears s a →
      alleyRetrains s a = false →
      posHeld s (linkEngine a) (4 * linkDir a + f) || posTarget s (linkEngine a) (4 * linkDir a + f) →
      exec (.grantReq a f) s = .next (sendTraining (sendMsg (forgetLanes s a f) a 4 f) a (bitList 32 (fibreLanes f)))) ∧
  (∀ (s : State) (a : AlleyId) (f : Fin 4), hears s a →
      alleyRetrains s a = false →
      (posHeld s (linkEngine a) (4 * linkDir a + f) || posTarget s (linkEngine a) (4 * linkDir a + f)) = false →
      exec (.grantReq a f) s = .next (sendMsg s a 5 f)) ∧
  (∀ (s : State) (a : AlleyId) (f : Fin 4) (m : Move), hears s a →
      (crossing s (linkEngine a)).cur = some m →
      m.step = 3 →
      posLink (linkEngine a) (wgPos m.target) = a →
      posFibre (wgPos m.target) = f →
      exec (.grantAccept a f) s = .next (sendTraining (setStep (clearMsgOf s a 3 f) (linkEngine a) m 4) a (bitList 32 (fibreLanes f)))) ∧
  (∀ (s : State) (a : AlleyId) (f : Fin 4) (m : Move), hears s a →
      (crossing s (linkEngine a)).cur = some m →
      m.step = 3 →
      posLink (linkEngine a) (wgPos m.target) = a →
      posFibre (wgPos m.target) = f →
      exec (.grantRefuse a f) s = .next (moveFails (clearMsgOf s a 3 f) (linkEngine a) m 2)) ∧
  (∀ (s : State) (l : LinkId) (k : Fin 32), hears s l →
      isAlley l →
      txUp s l →
      bitOf (rd s (alleyP l) ALLEY_TX_LANES) k →
      exec (.dropNotice l k) s = .next (checkWidth (dropLane { s with fresh := s.fresh + 1 } l k (Config.freeNat s.fresh) false) l)) ∧
  (∀ (s : State) (l : LinkId) (k : Fin 32), hears s l →
      isAlley l = false →
      txUp s (blvdLink (linkEngine l) k) →
      exec (.dropNotice l k) s = .next (dropLine { s with fresh := s.fresh + 1 } (blvdLink (linkEngine l) k) (Config.freeNat s.fresh) 2 false)) ∧
  (∀ (s : State) (l : LinkId) (k : Fin 32), linkLive s l →
      exec (.relockReq l k) s = .next (msgRelock s l k)) ∧
  (∀ (s : State) (l : LinkId), hears s l →
      exec (.retrainReq l) s = .next (noteHolds (retrainTx s (revLink l)))) ∧
  (∀ (s : State) (l : LinkId) (e : OeId) (q : Fin 65536), hears s l →
      exec (.handover l e q) s = .next (msgHandover s l e q))

/-- Flits, words, lanes and retraining. A link takes identity words, flits and link words, repeats a NAK, replays,
ends a retraining (a receive direction in service that ends one begins and ends it at once: DESIGN CHOICE, log
entry 146), loses a lane's light, and goes down when its partner is silent, its last error then the cause 7
(log entry 80); a host may retrain an Alley. -/
def Obligations.LinkCommands : Prop :=
  (∀ (s : State) (l : LinkId) (k : Fin 32) (x : Sides) (w : Nat) (p : Bool) (v : BitVec 32), sidesWord 1 x = some w →
      linkLive s l →
      laneTested s l k →
      checkGood w →
      exec (.laneIdentityWord l k x p v) s = .next (identityWord s l k w p v.toNat)) ∧
  (∀ (s : State) (l : LinkId) (k : Fin 32), linkLive s l →
      laneTested s l k →
      exec (.identityTimeout l k) s = .next (relockOrDark (moveTrains s l k) l k true)) ∧
  (∀ (s : State) (l : LinkId) (b : List (List (BitVec 16))), b.flatten.length = 32 →
      linkHears s l →
      exec (.flitReceive l b) s = .next (receiveFlit s l b)) ∧
  (∀ (s : State) (l : LinkId) (x : Sides) (w : Nat), sidesWord 0 x = some w →
      hears s l →
      exec (.linkWordReceive l x) s = .next (linkWord s l w)) ∧
  (∀ (s : State) (l : LinkId), linkHears s l →
      (link s l).nak →
      exec (.nakRepeat l) s = .next (sendWord (setLink s l { link s l with nakDue := true }) (revLink l))) ∧
  (∀ (s : State) (l : LinkId), plazaUp s →
      linkSends s l →
      (link s l).retry ≠ [] →
      exec (.replayTimeout l) s = .next (noteHolds (replayLink s l))) ∧
  (∀ (s : State) (l : LinkId) (b : BitVec 32) (c : BitVec 32), linkLive s l →
      (link s l).rxTrain || rxUp s l →
      isAlley l →
      exec (.linkRetrainDone l true b c) s = .next (noteHolds (alleyRxDone (retrainRx s l) l b.toNat c.toNat))) ∧
  (∀ (s : State) (l : LinkId) (b : BitVec 32) (c : BitVec 32), linkLive s l →
      (link s l).txTrain →
      isAlley l →
      exec (.linkRetrainDone l false b c) s = .next (noteHolds (alleyTxDone s l b.toNat c.toNat))) ∧
  (∀ (s : State) (l : LinkId) (b : BitVec 32) (c : BitVec 32), linkLive s l →
      (link s l).rxTrain || rxUp s l →
      isAlley l = false →
      exec (.linkRetrainDone l true b c) s = .next (noteHolds (lineRetrainDone (retrainRx s l) l true b.toNat c.toNat))) ∧
  (∀ (s : State) (l : LinkId) (b : BitVec 32) (c : BitVec 32), linkLive s l →
      (link s l).txTrain →
      isAlley l = false →
      exec (.linkRetrainDone l false b c) s = .next (noteHolds (lineRetrainDone s l false b.toNat c.toNat))) ∧
  (∀ (s : State) (l : LinkId) (k : Fin 32), linkLive s l →
      rxUp s l →
      isAlley l →
      bitOf (rd s (alleyP l) ALLEY_RX_LANES) k →
      exec (.laneLightLoss l k) s = .next (laneLightLoss s l k)) ∧
  (∀ (s : State) (l : LinkId), linkLive s l →
      rxUp s l →
      isAlley l = false →
      exec (.laneLightLoss l 0) s = .next (laneLightLoss s l 0)) ∧
  (∀ (s : State) (a : AlleyId), linkLive s a →
      alleyUp s a →
      exec (.linkWordSilence a) s = .next (lastErr (alleyFalls s a 5) (alleyP a) 7)) ∧
  (∀ (s : State) (req : PortId) (a : AlleyId), takesWrite s req (alleyP a) ALLEY_RETRAIN →
      exec (.alleyRetrain req a) s = .next (alleyRetrain s a))

/-- Packets, beacons and ports. The next packet of a link is taken and delivered, or read as a beacon; a silent
neighbour is absent; the host's acceptances and the Quarter entries act as written. -/
def Obligations.TopologyCommands : Prop :=
  (∀ (s : State) (l : LinkId) (b : List Byte) (r : List Byte), nextPacket (link s l).rx = some (b, r) →
      plazaUp s →
      pktType b ≠ 5 →
      packetHeld s l b = false →
      exec (.packetReceive l) s = .next (arrivePacket (crossData (takePacket s l r) [bridgeGroup l] (pktFlow b) b).1 (rxPort s l) (pktFlow b) (crossData (takePacket s l r) [bridgeGroup l] (pktFlow b) b).2)) ∧
  (∀ (s : State) (l : LinkId) (b : List Byte) (r : List Byte), nextPacket (link s l).rx = some (b, r) →
      plazaUp s →
      topoOn s →
      pktType b = 5 →
      exec (.beaconReceive l) s = .next (beaconAt (takePacket s l r) (rxPort s l) (linkEngine l) (b.drop 16))) ∧
  (∀ (s : State) (p : Fin 36), plazaUp s →
      SMap.getD s.topo.silent p 0 < 3 →
      (portLinks s p).isEmpty →
      exec (.neighbourAbsent p) s = .next (portBare s p)) ∧
  (∀ (s : State) (p : Fin 36), plazaUp s →
      3 ≤ SMap.getD s.topo.silent p 0 →
      exec (.neighbourAbsent p) s = .next (portAbsent s p)) ∧
  (∀ (s : State) (req : PortId) (m : BitVec 4), takesWrite s req topoP TOPO_PORT_ACCEPT →
      exec (.portAccept req m) s = .next ((bitList 4 m.toNat).foldl acceptPort s)) ∧
  (∀ (s : State) (req : PortId) (m : BitVec 32), takesWrite s req topoP TOPO_SQUARE_ACCEPT →
      exec (.squareAccept req m) s = .next ((bitList 32 m.toNat).foldl (fun s k => acceptPort s (4 + k)) s)) ∧
  (∀ (s : State) (req : PortId) (n : Fin 4) (w : Fin 3) (v : BitVec 32), writeError s req topoP (0x140 + 0x10 * n.val + 4 * w.val) = some 0 →
      exec (.quarterEntryWrite req n w v) s = .next (quarterWrite s n [(w.val, v.toNat)]))

/-- The instances of a collective. An instance that may start starts; READY, DATA, HOLD and ABORT packets act as
they arrive; blocks are folded; hold is sent, expires and is exhausted; an instance ends on its timeouts and
on a host's abort. That each HOLD sent adds 10 to what the instance has used of its 200 is the model's choice
(DESIGN CHOICE, log entry 143). -/
def Obligations.CollectiveCommands : Prop :=
  (∀ (s : State) (k : Nat) (e : SectorErrs) (c : Coll), collOf s k = some c →
      plazaUp s →
      mayStart s c →
      exec (.collInstanceStart k e) s = .next (collPumpAll (collStart s k e) e)) ∧
  (∀ (s : State) (e : SectorErrs) (b : List Byte) (t0 : State), takeColl s (isCtl 1) = some (b, t0) →
      plazaUp s →
      exec (.collReadyReceive e) s = .next (collPumpAll (collReady t0 b e) e)) ∧
  (∀ (s : State) (e : SectorErrs) (b : List Byte) (t0 : State), takeColl s (dataTaken s) = some (b, t0) →
      plazaUp s →
      exec (.collDataReceive e) s = .next (collPumpAll (collData (countWait t0 b) b e) e)) ∧
  (∀ (s : State) (k : Nat) (n : Nat) (e : SectorErrs) (c : Coll), plazaUp s →
      collOf s k = some c →
      foldable s c n →
      exec (.collBlockFold k n e) s = .next (collPumpAll (collFold s k n e) e)) ∧
  (∀ (s : State) (b : List Byte) (t0 : State), takeColl s (isCtl 2) = some (b, t0) →
      plazaUp s →
      exec (.collHoldReceive) s = .next (collPumpAll (holdIn t0 b) [])) ∧
  (∀ (s : State) (b : List Byte) (t0 : State), takeColl s (isCtl 3) = some (b, t0) →
      plazaUp s →
      exec (.collAbortReceive) s = .next (collPumpAll (collAbortIn t0 b) [])) ∧
  (∀ (s : State) (k : Nat) (c : Coll) (c1 : Coll), collOf s k = some c →
      plazaUp s →
      c.started →
      c.ending = none →
      inHold s c →
      c1 = { c with holdUsed := min 200 (c.holdUsed + 10) } →
      exec (.collHoldSend k) s = .next (((c.d.sources (ownRank s c.d) ++ c.d.dests (ownRank s c.d)).eraseDups).foldl (fun s q => sendCtl s c1 q 2 0) (countHold (setColl s c1) c1))) ∧
  (∀ (s : State) (k : Nat) (q : Nat) (c : Coll), collOf s k = some c →
      plazaUp s →
      c.started →
      c.ending = none →
      c.holds.contains q →
      exec (.collHoldExpire k q) s = .next (setColl s { c with holds := c.holds.filter (fun x => x != q) })) ∧
  (∀ (s : State) (k : Nat) (c : Coll), collOf s k = some c →
      plazaUp s →
      c.started →
      c.ending = none →
      inHold s c →
      exec (.collHoldExhausted k) s = .next (c.engs.foldl (fun s e => raise s (collP e) 4) (setColl (countHold s c) { c with exhausted := true, holdUsed := 200 }))) ∧
  (∀ (s : State) (k : Nat) (c : Coll), collOf s k = some c →
      plazaUp s →
      c.started →
      c.ending = none →
      c.d.startMs ≠ 0 →
      allReady s c = false →
      exec (.collStartTimeout k) s = .next (collPumpAll (collEnd s c.key 3 0 none) [])) ∧
  (∀ (s : State) (k : Nat) (c : Coll), collOf s k = some c →
      plazaUp s →
      c.started →
      c.ending = none →
      allReady s c →
      inHold s c = false →
      exec (.collProgressTimeout k) s = .next (collPumpAll (collEnd s c.key 2 0 none) [])) ∧
  (∀ (s : State) (req : PortId) (e : CollId), takesWrite s req (collP e) COLL_COLL_ABORT →
      exec (.collAbort req e) s = .next (collEndAll s (fun c => c.engs.contains e.val) 1 2))

/-- Districts, windows and the host's indices. The owning host assigns quarter-dies, a scrub ends, a host reads
and writes through its windows, moves the indices of its rings, its moderation timer passes, and a soft reset
ends a District's work. -/
def Obligations.DistrictCommands : Prop :=
  (∀ (s : State) (req : PortId) (d : DistId) (v : Nat), takesWrite s req (districtP d) DISTRICT_QDIE_MASK →
      exec (.qdieMaskWrite req d v) s = .next (maskWrite s d v)) ∧
  (∀ (s : State) (q : Fin 16) (x : Scrub), plazaUp s →
      s.scrubs.find? (fun x => x.qdie == q.val) = some x →
      exec (.qdieScrubDone q) s = .next (scrubDone s q)) ∧
  (∀ (s : State) (p : PortId) (o : Fin 2147483648) (n : Nat) (e : SectorErrs), oneRequest 4096 o n →
      barOpen s p →
      exec (.windowRead p o n e) s = .next (windowAccess s p o { port := p, addr := 0, len := n, errs := e })) ∧
  (∀ (s : State) (p : PortId) (o : Fin 2147483648) (b : List Byte), oneRequest 512 o b.length →
      barOpen s p →
      exec (.windowWrite p o b) s = .next (windowAccess s p o { port := p, addr := 0, len := b.length, write := true, bytes := b })) ∧
  (∀ (s : State) (req : PortId) (d : DistId) (v : Nat), takesWrite s req (cmdprocP d) CMDPROC_CMD_DOORBELL →
      exec (.cmdDoorbell req d v) s = .next (doorbell s req d (v % 2 ^ 16))) ∧
  (∀ (s : State) (req : PortId) (d : DistId) (v : Nat) (f : Bool), takesWrite s req (cmdprocP d) CMDPROC_CPL_HEAD →
      exec (.cplHeadWrite req d v f) s = .next (withRefuse s d f (fun s => cplHead s d (v % 2 ^ 16)))) ∧
  (∀ (s : State) (d : DistId), plazaUp s →
      0 < (proc s d).moderated →
      exec (.moderationTimer d) s = .next (fireVector0 s d)) ∧
  (∀ (s : State) (req : PortId) (d : DistId) (l : List (List Byte)) (f : Bool), takesWrite s req (cmdprocP d) HDR_SOFT_RESET →
      rd s (cmdprocP d) HDR_STATE ≠ 1 →
      rd s (cmdprocP d) HDR_STATE ≠ 3 →
      exec (.cmdprocSoftReset req d l f) s = .next (cmdprocReset s d l f))

/-- Every command of the ring starts. Where the ring is open, a completion entry is free, no limit is reached and
a barrier finds nothing running, the entry at the head of the ring is taken and starts; the row of each
command starts it with the operands given. -/
def Obligations.RingCommandsStart : Prop :=
  (∀ (s : State) (d : DistId) (b : List Byte) (x : Option (List Byte)) (f : Bool), b.length = 64 →
      entryOk x →
      startsNow s d (readHdr b) (if reservedZero b then readCmd b else .other (readCmd b).op) →
      exec (.commandFetch d (some b) x f) s = .next (started s d (readHdr b) (if reservedZero b then readCmd b else .other (readCmd b).op) x f)) ∧
  (∀ (s : State) (d : DistId) (h : CmdHdr) (f : Bool), startsNow s d h .nop →
      exec (.nop d h f) s = .next (started s d h .nop none f)) ∧
  (∀ (s : State) (d : DistId) (h : CmdHdr) (a : Nat) (v : Nat) (n : Nat) (f : Bool), (Cmd.mem 1 a v n 0).fits →
      startsNow s d h (.mem 1 a v n 0) →
      exec (.writeMem d h a v n f) s = .next (started s d h (.mem 1 a v n 0) none f)) ∧
  (∀ (s : State) (d : DistId) (h : CmdHdr) (a : Nat) (v : Nat) (n : Nat) (f : Bool), (Cmd.mem 2 a v n 0).fits →
      startsNow s d h (.mem 2 a v n 0) →
      exec (.readMem d h a v n f) s = .next (started s d h (.mem 2 a v n 0) none f)) ∧
  (∀ (s : State) (d : DistId) (h : CmdHdr) (v : Nat) (n : Nat) (p : Nat) (f : Bool), (Cmd.mem 3 0 v n p).fits →
      startsNow s d h (.mem 3 0 v n p) →
      exec (.fill d h v n p f) s = .next (started s d h (.mem 3 0 v n p) none f)) ∧
  (∀ (s : State) (d : DistId) (h : CmdHdr) (a : Nat) (z : Nat) (k : Nat) (f : Bool), (Cmd.load a z k).fits →
      startsNow s d h (.load a z k) →
      exec (.loadImage d h a z k f) s = .next (started s d h (.load a z k) none f)) ∧
  (∀ (s : State) (d : DistId) (h : CmdHdr) (k : Nat) (x : List Nat) (f : Bool), (Cmd.launch k x).fits →
      startsNow s d h (.launch k x) →
      exec (.launch d h k x f) s = .next (started s d h (.launch k x) none f)) ∧
  (∀ (s : State) (d : DistId) (h : CmdHdr) (e : Nat) (n : Nat) (t : Nat) (f : Bool), (Cmd.wait e n t).fits →
      startsNow s d h (.wait e n t) →
      exec (.waitEvent d h e n t f) s = .next (started s d h (.wait e n t) none f)) ∧
  (∀ (s : State) (d : DistId) (h : CmdHdr) (n : Nat) (k : Nat) (f : Bool), (Cmd.signal n k).fits →
      startsNow s d h (.signal n k) →
      exec (.signalEvent d h n k f) s = .next (started s d h (.signal n k) none f)) ∧
  (∀ (s : State) (d : DistId) (h : CmdHdr) (a : Nat) (g : Nat) (k : Nat) (x : Option (List Byte)) (f : Bool), entryOk x →
      (Cmd.coll a g k).fits →
      startsNow s d h (.coll a g k) →
      exec (.collective d h a g k x f) s = .next (started s d h (.coll a g k) x f)) ∧
  (∀ (s : State) (d : DistId) (h : CmdHdr) (c : Nat) (l : Nat) (m : Nat) (f : Bool), (Cmd.hint c l m).fits →
      startsNow s d h (.hint c l m) →
      exec (.phaseHint d h c l m f) s = .next (started s d h (.hint c l m) none f)) ∧
  (∀ (s : State) (d : DistId) (h : CmdHdr) (e : Nat) (r : Nat) (f : Bool), (Cmd.respare e r).fits →
      startsNow s d h (.respare e r) →
      exec (.respare d h e r f) s = .next (started s d h (.respare e r) none f)) ∧
  (∀ (s : State) (d : DistId) (h : CmdHdr) (n : Nat) (f : Bool), (Cmd.fence n).fits →
      startsNow s d h (.fence n) →
      exec (.fence d h n f) s = .next (started s d h (.fence n) none f))

/-- Commands of the ring that take time end. A memory command moves its data and an image load ends where the job
named runs; a WAIT_EVENT that runs ends on its timeout and a RESPARE that runs on its self-tests. -/
def Obligations.RingCommandsEnd : Prop :=
  (∀ (s : State) (d : DistId) (q : Nat) (j : Job) (b : List Byte) (n : Nat) (e : SectorErrs) (f : Bool), jobOf s d q = some j →
      exec (.dmaComplete d q b n e f) s = .next (withRefuse s d f (fun s => dmaRun s d j b n e))) ∧
  (∀ (s : State) (d : DistId) (q : Nat) (j : Job) (b : List Byte) (f : Bool), jobOf s d q = some j →
      exec (.loadImageDone d q b f) s = .next (withRefuse s d f (fun s => loadEnd s d j b))) ∧
  (∀ (s : State) (d : DistId) (j : Job) (f : Bool), jobWithOp s d 6 = some j →
      exec (.waitEventTimeout d f) s = .next (withRefuse s d f (fun s => waitTimeout s d j))) ∧
  (∀ (s : State) (d : DistId) (j : Job) (x : BitVec 32) (f : Bool), jobWithOp s d 0x0A = some j →
      exec (.respareDone d x f) s = .next (withRefuse s d f (fun s => respareEnd s d j x.toNat)))

/-- ENABLE, STATE, SOFT_RESET and LOCK of a page. An accepted write of ENABLE starts or drains a block, whose
start and drain then end. An accepted SOFT_RESET does nothing on a page that defines no soft-reset action,
does the page's own action on one that defines it (TILE, MOVER, SLICE, ENGINE and CMDPROC: DEDUCED, log entry
37), or waits while the block starts or drains; a running tile's MOVER page and an engine or a slice outside
controller mode take none. LOCK is set by the owning host alone, and the rest of the write applies (SOFT_RESET
before ENABLE: DESIGN CHOICE, log entry 177). -/
def Obligations.BlockControls : Prop :=
  (∀ (s : State) (req : PortId) (n : Fin 16384) (p : PageId) (on : Bool), takesHdr s req n HDR_ENABLE p →
      exec (.blockEnableWrite req n on) s = .next (enableWrite s p on)) ∧
  (∀ (s : State) (n : Fin 16384) (p : PageId) (x : ResetIn), pageAt (4096 * n.val) = some p →
      p.kind ≠ .oe →
      plazaUp s →
      rd s p HDR_STATE = 1 →
      exec (.blockStartDone n none x) s = .next (startDone s p none x)) ∧
  (∀ (s : State) (n : Fin 16384) (p : PageId) (y : OeStart) (x : ResetIn), pageAt (4096 * n.val) = some p →
      p.kind = .oe →
      plazaUp s →
      rd s p HDR_STATE = 1 →
      exec (.blockStartDone n (some y) x) s = .next (startDone s p (some y) x)) ∧
  (∀ (s : State) (n : Fin 16384) (p : PageId) (x : ResetIn), pageAt (4096 * n.val) = some p →
      plazaUp s →
      rd s p HDR_STATE = 3 →
      mayDrain s p →
      exec (.blockDrainDone n x) s = .next (drainDone s p x)) ∧
  (∀ (s : State) (req : PortId) (n : Fin 16384) (p : PageId) (x : ResetIn), takesHdr s req n HDR_SOFT_RESET p →
      definesReset p.kind = false →
      exec (.pageSoftReset req n x) s = .next (s)) ∧
  (∀ (s : State) (req : PortId) (n : Fin 16384) (p : PageId) (x : ResetIn), takesHdr s req n HDR_SOFT_RESET p →
      resetMayWait s p →
      rd s p HDR_STATE = 1 ∨ rd s p HDR_STATE = 3 →
      exec (.pageSoftReset req n x) s = .next ({ s with resetWaits := SMap.put s.resetWaits p.base 1 })) ∧
  (∀ (s : State) (req : PortId) (n : Fin 16384) (p : PageId) (x : ResetIn), takesHdr s req n HDR_SOFT_RESET p →
      p.kind = .tile →
      exec (.pageSoftReset req n x) s = .next (tileReset s p.inst)) ∧
  (∀ (s : State) (req : PortId) (n : Fin 16384) (p : PageId) (x : ResetIn), takesHdr s req n HDR_SOFT_RESET p →
      p.kind = .mover →
      (tile s p.inst).runState ≠ 2 →
      rd s p HDR_STATE ≠ 1 →
      rd s p HDR_STATE ≠ 3 →
      exec (.pageSoftReset req n x) s = .next (clearFields (clearMover s p.inst) (moverP p.inst) [HDR_INT_RAW])) ∧
  (∀ (s : State) (req : PortId) (n : Fin 16384) (p : PageId) (x : ResetIn), takesHdr s req n HDR_SOFT_RESET p →
      p.kind = .mover →
      (tile s p.inst).runState = 2 →
      exec (.pageSoftReset req n x) s = .next (s)) ∧
  (∀ (s : State) (req : PortId) (n : Fin 16384) (p : PageId) (x : ResetIn), takesHdr s req n HDR_SOFT_RESET p →
      p.kind = .engine →
      (slice s p.inst).mode = 0 →
      rd s p HDR_STATE ≠ 1 →
      rd s p HDR_STATE ≠ 3 →
      exec (.pageSoftReset req n x) s = .next (engineReset s p.inst)) ∧
  (∀ (s : State) (req : PortId) (n : Fin 16384) (p : PageId) (x : ResetIn), takesHdr s req n HDR_SOFT_RESET p →
      p.kind = .engine ∨ p.kind = .slice →
      (slice s p.inst).mode ≠ 0 →
      exec (.pageSoftReset req n x) s = .next (s)) ∧
  (∀ (s : State) (req : PortId) (n : Fin 16384) (p : PageId) (x : ResetIn), takesHdr s req n HDR_SOFT_RESET p →
      p.kind = .slice →
      (slice s p.inst).mode = 0 →
      exec (.pageSoftReset req n x) s = .next (clearFields (flushAll s p.inst x.errs (flushSteps (slice s p.inst))) (sliceP p.inst) [SLICE_RD_SECTORS_LO, SLICE_RD_SECTORS_HI, SLICE_WR_SECTORS_LO, SLICE_WR_SECTORS_HI, SLICE_RMW_LO, SLICE_RMW_HI, SLICE_REFRESH_OPS_LO, SLICE_REFRESH_OPS_HI, HDR_INT_RAW])) ∧
  (∀ (s : State) (req : PortId) (n : Fin 16384) (p : PageId) (x : ResetIn), takesHdr s req n HDR_SOFT_RESET p →
      p.kind = .cmdproc →
      rd s p HDR_STATE ≠ 1 →
      rd s p HDR_STATE ≠ 3 →
      exec (.pageSoftReset req n x) s = .next (cmdprocReset s p.inst x.entries x.refused)) ∧
  (∀ (s : State) (req : PortId) (n : Fin 16384) (p : PageId) (l : Bool) (on : Bool), takesHdr s req n HDR_LOCK p →
      exec (.lockWrite req n l on none) s = .next (enableWrite (if l && req.val == ownerPort s then wr s p HDR_LOCK 1 else s) p on)) ∧
  (∀ (s : State) (req : PortId) (n : Fin 16384) (p : PageId) (l : Bool) (on : Bool) (x : ResetIn), takesHdr s req n HDR_LOCK p →
      exec (.lockWrite req n l on (some x)) s = .next (enableWrite (softReset (if l && req.val == ownerPort s then wr s p HDR_LOCK 1 else s) p x) p on))

/-- The interrupt registers. INT_FORCE sets raw bits as the event would, INT_STATUS clears them, INT_ENABLE
enables them, INT_EOI takes a vector out of service, and an unmasked vector sends a message that waits. -/
def Obligations.InterruptCommands : Prop :=
  (∀ (s : State) (req : PortId) (n : Fin 16384) (p : PageId) (v : BitVec 32), takesHdr s req n HDR_INT_FORCE p →
      exec (.intForceWrite req n v) s = .next (deliver (wr s p HDR_INT_RAW (rd s p HDR_INT_RAW ||| intMasked p.kind v.toNat)))) ∧
  (∀ (s : State) (req : PortId) (n : Fin 16384) (p : PageId) (v : BitVec 32), takesHdr s req n HDR_INT_STATUS p →
      exec (.intStatusClear req n v) s = .next (clearRaw s p v.toNat)) ∧
  (∀ (s : State) (req : PortId) (n : Fin 16384) (p : PageId) (v : BitVec 32), takesHdr s req n HDR_INT_ENABLE p →
      exec (.intEnableWrite req n v) s = .next (deliver (wr s p HDR_INT_ENABLE (intMasked p.kind v.toNat)))) ∧
  (∀ (s : State) (req : PortId) (d : DistId) (m : BitVec 8), takesWrite s req plazaP PLAZA_INT_EOI d →
      exec (.intEoi req d m) s = .next (eoi s d m.toNat)) ∧
  (∀ (s : State) (f : PortId) (v : Fin 8) (e : MsixEntry), plazaUp s →
      portUp s f →
      exec (.msixUnmask f v e) s = .next (msixWrite s f v e))

/-- Reads and writes of registers and the SMBus. A read of a register of 4 or 8 bytes answers it and captures what
R293 and R338 say; a write of 4 or 8 bytes is checked and applied. A write of one half of a DIST_GLB pair is
held: no register changes until the other half comes, and a further write of the same half replaces it; the
pair then takes effect, or is dropped with CFG_REJECTED where the window would end beyond 384 MiB; an 8-byte
write gives both halves. A write by another function, under LOCK, or while the District runs a launch, is
dropped with CFG_REJECTED. The SMBus sets its offset and reads. -/
def Obligations.RegisterAccess : Prop :=
  (∀ (s : State) (req : PortId) (n : Fin 16384) (z : Nat), plazaUp s →
      portUp s req →
      regError s req (4096 * n.val + 0x28) z = 0 →
      exec (.errAddrLoRead req n z) s = .next (emit (readReg s req (4096 * n.val + 0x28) (z == 8)).1 (.regData req (readReg s req (4096 * n.val + 0x28) (z == 8)).2))) ∧
  (∀ (s : State) (req : PortId) (o : Fin 67108864) (z : Nat), plazaUp s →
      portUp s req →
      regError s req o z = 0 →
      exec (.loHalfRead req o z) s = .next (emit (readReg s req o (z == 8)).1 (.regData req (readReg s req o (z == 8)).2))) ∧
  (∀ (s : State) (req : PortId) (o : Fin 67108864) (v : Nat) (x : ResetIn) (p : PageId), plazaUp s →
      portUp s req →
      putError s req o 4 v = 0 →
      pageAt o = some p →
      moverBusy s p (o - p.base) = false →
      exec (.registerWrite req o 4 v x) s = .next (wordApply s req p (o - p.base) (v % 2 ^ 32) x)) ∧
  (∀ (s : State) (req : PortId) (o : Fin 67108864) (v : Nat) (x : ResetIn) (p : PageId), plazaUp s →
      portUp s req →
      putError s req o 8 v = 0 →
      pageAt o = some p →
      moverBusy s p (o - p.base) = false →
      moverBusy s p (o - p.base + 4) = false →
      exec (.registerWrite req o 8 v x) s = .next (pairApply s req p (o - p.base) v x)) ∧
  (∀ (s : State) (req : PortId) (d : DistId) (b : Fin 512) (e : Fin 512), plazaUp s →
      portUp s req →
      regError s req (pkgswP.base + fldOff PKGSW_DIST_GLB_BASE d) 4 = 0 →
      req.val = ownerPort s ∨ req.val = d.val →
      locked s pkgswP = false →
      distLaunched s d = false →
      SMap.find s.glbHeld (2 * d.val + 1) = none →
      ∃ t : State, exec (.distGlbWrite req d (some b) none) s = .next t ∧ t.regs = s.regs ∧ t = { s with glbHeld := SMap.put s.glbHeld (2 * d.val) b.val } ∧ exec (.distGlbWrite req d (some e) none) t = .next { s with glbHeld := SMap.put s.glbHeld (2 * d.val) e.val }) ∧
  (∀ (s : State) (req : PortId) (d : DistId) (z : Fin 512) (e : Fin 512), plazaUp s →
      portUp s req →
      regError s req (pkgswP.base + fldOff PKGSW_DIST_GLB_SIZE d) 4 = 0 →
      req.val = ownerPort s ∨ req.val = d.val →
      locked s pkgswP = false →
      distLaunched s d = false →
      SMap.find s.glbHeld (2 * d.val) = none →
      ∃ t : State, exec (.distGlbWrite req d none (some z)) s = .next t ∧ t.regs = s.regs ∧ t = { s with glbHeld := SMap.put s.glbHeld (2 * d.val + 1) z.val } ∧ exec (.distGlbWrite req d none (some e)) t = .next { s with glbHeld := SMap.put s.glbHeld (2 * d.val + 1) e.val }) ∧
  (∀ (s : State) (req : PortId) (d : DistId) (b : Fin 512) (z : Nat), regsOk s →
      plazaUp s →
      portUp s req →
      regError s req (pkgswP.base + fldOff PKGSW_DIST_GLB_BASE d) 4 = 0 →
      req.val = ownerPort s ∨ req.val = d.val →
      locked s pkgswP = false →
      distLaunched s d = false →
      SMap.find s.glbHeld (2 * d.val + 1) = some z →
      b.val + z ≤ 384 →
      ∃ t : State, exec (.distGlbWrite req d (some b) none) s = .next t ∧ rd t pkgswP PKGSW_DIST_GLB_BASE d = b.val ∧ rd t pkgswP PKGSW_DIST_GLB_SIZE d = z) ∧
  (∀ (s : State) (req : PortId) (d : DistId) (z : Fin 512) (b : Nat), regsOk s →
      plazaUp s →
      portUp s req →
      regError s req (pkgswP.base + fldOff PKGSW_DIST_GLB_SIZE d) 4 = 0 →
      req.val = ownerPort s ∨ req.val = d.val →
      locked s pkgswP = false →
      distLaunched s d = false →
      SMap.find s.glbHeld (2 * d.val) = some b →
      b + z.val ≤ 384 →
      ∃ t : State, exec (.distGlbWrite req d none (some z)) s = .next t ∧ rd t pkgswP PKGSW_DIST_GLB_BASE d = b ∧ rd t pkgswP PKGSW_DIST_GLB_SIZE d = z.val) ∧
  (∀ (s : State) (req : PortId) (d : DistId) (b : Fin 512) (z : Nat), plazaUp s →
      portUp s req →
      regError s req (pkgswP.base + fldOff PKGSW_DIST_GLB_BASE d) 4 = 0 →
      req.val = ownerPort s ∨ req.val = d.val →
      locked s pkgswP = false →
      distLaunched s d = false →
      SMap.find s.glbHeld (2 * d.val + 1) = some z →
      384 < b.val + z →
      exec (.distGlbWrite req d (some b) none) s = .next (raise { s with glbHeld := SMap.del (SMap.del s.glbHeld (2 * d.val)) (2 * d.val + 1) } pkgswP 1)) ∧
  (∀ (s : State) (req : PortId) (d : DistId) (b : Fin 512) (z : Fin 512), regsOk s →
      plazaUp s →
      portUp s req →
      regError s req (pkgswP.base + fldOff PKGSW_DIST_GLB_BASE d) 8 = 0 →
      req.val = ownerPort s ∨ req.val = d.val →
      locked s pkgswP = false →
      distLaunched s d = false →
      b.val + z.val ≤ 384 →
      ∃ t : State, exec (.distGlbWrite req d (some b) (some z)) s = .next t ∧ rd t pkgswP PKGSW_DIST_GLB_BASE d = b.val ∧ rd t pkgswP PKGSW_DIST_GLB_SIZE d = z.val) ∧
  (∀ (s : State) (req : PortId) (d : DistId) (b : Fin 512) (z : Fin 512), plazaUp s →
      portUp s req →
      regError s req (pkgswP.base + fldOff PKGSW_DIST_GLB_BASE d) 8 = 0 →
      req.val = ownerPort s ∨ req.val = d.val →
      locked s pkgswP = false →
      distLaunched s d = false →
      384 < b.val + z.val →
      exec (.distGlbWrite req d (some b) (some z)) s = .next (raise { s with glbHeld := SMap.del (SMap.del s.glbHeld (2 * d.val)) (2 * d.val + 1) } pkgswP 1)) ∧
  (∀ (s : State) (req : PortId) (d : DistId) (b : Fin 512), plazaUp s →
      portUp s req →
      regError s req (pkgswP.base + fldOff PKGSW_DIST_GLB_BASE d) 4 = 0 →
      (req.val ≠ ownerPort s ∧ req.val ≠ d.val) ∨ locked s pkgswP = true ∨ distLaunched s d = true →
      exec (.distGlbWrite req d (some b) none) s = .next (raise s pkgswP 1)) ∧
  (∀ (s : State) (req : PortId) (d : DistId) (z : Fin 512), plazaUp s →
      portUp s req →
      regError s req (pkgswP.base + fldOff PKGSW_DIST_GLB_SIZE d) 4 = 0 →
      (req.val ≠ ownerPort s ∧ req.val ≠ d.val) ∨ locked s pkgswP = true ∨ distLaunched s d = true →
      exec (.distGlbWrite req d none (some z)) s = .next (raise s pkgswP 1)) ∧
  (∀ (s : State) (o : BitVec 32), s.dawn.aon →
      exec (.setOffset o true) s = .next ({ s with smbOffset := o.toNat })) ∧
  (∀ (s : State) (o : BitVec 32), exec (.setOffset o false) s = .next (s)) ∧
  (∀ (s : State), s.dawn.aon →
      exec (.read32) s = .next (smbRead s false)) ∧
  (∀ (s : State), s.dawn.aon →
      exec (.read64) s = .next (smbRead s true))

/-- The rounds of Dusk. A cap and a target are written, clamped as the model's capWrite and opTargetWrite do (R6,
R262); a round samples, filters and sets levels; sensors, rails, levels and refresh rates change when their
counts of rounds are reached: a rate that falls, by one band (DEDUCED, log entry 127). -/
def Obligations.DuskRounds : Prop :=
  (∀ (s : State) (req : PortId) (v : Nat), takesWrite s req pwrP PWR_PWR_CAP_W →
      exec (.pwrCapWrite req v) s = .next (capWrite s v)) ∧
  (∀ (s : State) (req : PortId) (d : DieId) (v : Nat), takesWrite s req pwrP PWR_OP_TARGET d →
      exec (.opTargetWrite req d v) s = .next (opTargetWrite s d v)) ∧
  (∀ (s : State) (r : RoundIn), r.ok →
      duskRuns s →
      exec (.duskRound r) s = .next (duskRound s r)) ∧
  (∀ (s : State) (c : Fin 528), sensorsRun s →
      3 ≤ SMap.getD s.dusk.low c 0 →
      suspectLow s c = false →
      exec (.sensorSuspectLow c) s = .next (logEvent (raise (lastErr (sensorEvent (setSuspect s THERM_SUSPECT_LOW c true) c) thermP 1) thermP 0) 6 0xFF 0 c)) ∧
  (∀ (s : State) (c : Fin 528), sensorsRun s →
      10 ≤ SMap.getD s.dusk.ok c 0 →
      suspectLow s c →
      exec (.sensorRecovered c) s = .next (logEvent (sensorEvent (setSuspect { s with dusk := { s.dusk with ok := SMap.del s.dusk.ok c } } THERM_SUSPECT_LOW c false) c) 8 0xFF 0 c)) ∧
  (∀ (s : State) (c : Fin 528), sensorsRun s →
      10 ≤ SMap.getD s.dusk.high c 0 →
      highSuspect s c = false →
      exec (.sensorHighSuspect c) s = .next (logEvent (raise (lastErr (sensorEvent (setSuspect s THERM_HIGH_SUSPECT c true) c) thermP 2) thermP 1) 7 0xFF 0 c)) ∧
  (∀ (s : State) (c : Fin 96), sensorsRun s →
      2 ≤ SMap.getD s.dusk.oor c 0 →
      bitOf (rd s duskP DUSK_RAIL_OOR (c.val / 32)) (c.val % 32) = false →
      exec (.railOutOfRange c) s = .next (logEvent (raise (lastErr (wr s duskP DUSK_RAIL_OOR (setBit (rd s duskP DUSK_RAIL_OOR (c.val / 32)) (c.val % 32)) (c.val / 32)) duskP 1) duskP 0) 0xD 0xFF 0 (528 + c.val))) ∧
  (∀ (s : State) (d : Fin 5), sensorsRun s →
      3 ≤ (dom s d).coolJ →
      exec (.tempLevelRelease d false) s = .next (reapply (wr (setDom s d { dom s d with coolJ := 0 }) thermP THERM_TJ_LEVEL (rd s thermP THERM_TJ_LEVEL d - 1) d) d)) ∧
  (∀ (s : State) (d : Fin 5), sensorsRun s →
      d.val < 4 →
      3 ≤ (dom s d).coolD →
      exec (.tempLevelRelease d true) s = .next (reapply (wr (setDom s d { dom s d with coolD := 0 }) thermP THERM_TD_LEVEL (rd s thermP THERM_TD_LEVEL d - 1) d) d)) ∧
  (∀ (s : State) (q : Fin 16), sensorsRun s →
      4 ≤ SMap.getD s.dusk.fall q 0 →
      exec (.refreshRateFall q) s = .next (setRate s q (qdRate s q - 1)))

/-- Operating points, the governors and hints. A raise that has qualified begins and a step ends; an unattainable
cap is reported; a governor steps; the current ceiling rises; THROTTLE_N acts; a hint's pre-ramp and start
come, and no class stays active 10 ms after the last. -/
def Obligations.GovernorCommands : Prop :=
  (∀ (s : State) (d : DieId), plazaUp s →
      pwrOn s →
      opGoal s d < raiseTo (dom s d) →
      exec (.opRaiseQualified d) s = .next (requestOp (setDom s d { dom s d with duskDuty := heldDuty (rd s pwrP PWR_OP_TARGET d) (rd s pwrP PWR_CEILING d) (raiseTo (dom s d)) }) d (raiseTo (dom s d)))) ∧
  (∀ (s : State) (d : DieId) (k : Nat), plazaUp s →
      (dom s d).opStep = some k →
      exec (.opStepDone d) s = .next (opStepDone s d)) ∧
  (∀ (s : State), plazaUp s →
      2 ≤ s.dusk.overCap →
      rd s pwrP PWR_CAP_UNATTAINABLE = 0 →
      exec (.capUnattainable) s = .next (logEvent (raise (lastErr (wr s pwrP PWR_CAP_UNATTAINABLE 1) pwrP 1) pwrP 0) 4 0xFF 0 0)) ∧
  (∀ (s : State) (l : List GovIn) (h : List (Nat × Bool)), l.length = 5 →
      h.length ≤ 4 →
      aonRuns s →
      exec (.governorStep l h) s = .next (governorStep s l h)) ∧
  (∀ (s : State) (d : DieId), 8 ≤ (dom s d).iccLow →
      exec (.iccCeilingRise d) s = .next (setDom s d { dom s d with iccLow := 0, iccCeil := min 16 ((dom s d).iccCeil + 1) })) ∧
  (∀ (s : State), s.dawn.aon →
      extActive s = false →
      exec (.throttleNAssert) s = .next (raise (wr s pwrP PWR_EXT_ACTIVE 1) pwrP 1)) ∧
  (∀ (s : State), exec (.throttleNRelease) s = .next (wr s pwrP PWR_EXT_ACTIVE 0)) ∧
  (∀ (s : State) (d : DieId) (k : Fin 4) (h : Hint) (m : Nat), (dom s d).hints.find? (fun h => h.cls == k.val) = some h →
      h.ramp = some m →
      m ≤ s.dusk.us →
      exec (.prerampStart d k) s = .next (startRamp s d k)) ∧
  (∀ (s : State) (d : DieId) (k : Fin 4) (h : Hint), (dom s d).hints.find? (fun h => h.cls == k.val) = some h →
      h.start ≤ s.dusk.us →
      exec (.hintStart d k) s = .next (activate s d k)) ∧
  (∀ (s : State) (d : DieId), (dom s d).active ≠ none →
      (dom s d).lastHint + 10000 ≤ s.dusk.us →
      (dom s d).hints = [] →
      exec (.hintExpire d) s = .next (showHints (setDom s d { dom s d with active := none }) d))

/-- Thermal trips and Twilight. A trip of an armed triplet sets the Midnight latch (that the rails of its die arm
it is an operand of the command: log entry 179), a degraded comparator is reported, and Twilight is requested,
entered, left and ended. -/
def Obligations.TripsAndTwilight : Prop :=
  (∀ (s : State) (d : DieId) (t : Fin 8), aonRuns s →
      exec (.thermalTrip d t true) s = .next (midnight s d t)) ∧
  (∀ (s : State) (d : DieId) (t : Fin 8), exec (.thermalTrip d t false) s = .next (s)) ∧
  (∀ (s : State) (d : DieId) (t : Fin 8) (c : Fin 3), sensorsRun s →
      dieRails s d →
      ∃ t' : State, exec (.tripComparatorDegraded d t c) s = .next t' ∧ SMap.getD t'.dusk.comparators d 0 = setBit (SMap.getD s.dusk.comparators d 0) (3 * t + c)) ∧
  (∀ (s : State) (req : PortId) (k : Bool), takesWrite s req duskP DUSK_TW_REQ →
      rd s duskP HDR_STATE = 2 →
      awake (wr s duskP DUSK_KEEP_RINGS (ofBool k)) →
      quietPackage (wr s duskP DUSK_KEEP_RINGS (ofBool k)) →
      exec (.twReq req k) s = .next ((liveSlices (wr s duskP DUSK_KEEP_RINGS (ofBool k))).foldl askController (wr (wr (wr s duskP DUSK_KEEP_RINGS (ofBool k)) duskP DUSK_TW_STATE 1) duskP DUSK_WAKE_PENDING 0))) ∧
  (∀ (s : State), plazaUp s →
      rd s duskP DUSK_TW_STATE = 1 →
      (liveSlices s).all (fun n => gateReady (slice s n)) →
      exec (.twEntryDone) s = .next (twEntered s)) ∧
  (∀ (s : State) (req : PortId) (k : Bool), takesWrite s req duskP DUSK_TW_EXIT →
      exec (.twExit req k) s = .next (wake (wr s duskP DUSK_KEEP_RINGS (ofBool k)) 2)) ∧
  (∀ (s : State) (l : List OeStart), l.length = 4 →
      plazaUp s →
      rd s duskP DUSK_TW_STATE = 3 →
      exec (.twExitDone l) s = .next (twLeft s l))

/-- Life cycle, scan, attestation and policy. A transition is checked and begins, its pulses blow fuses, a sag
aborts it, and its end resets the Plaza; scan and test engines erase the key; reports are requested and
written; policies change where they may. -/
def Obligations.SecurityCommands : Prop :=
  (∀ (s : State) (req : PortId) (k : Fin 8) (c : BitVec 16), takesWrite s req secP SEC_TARGET →
      rd s secP HDR_STATE = 2 →
      s.sec.lc = none →
      k ≠ 3 →
      transitionExists (lcState s) k →
      quietPackage (wr s secP SEC_BITS_WRITTEN 0) →
      stagedLacks (wr s secP SEC_BITS_WRITTEN 0) k = false →
      k ≠ 4 ∨ c.toNat = (if lcState s = 0 then 0 else pkgSerial s % 2 ^ 16) →
      gateOk (wr s secP SEC_BITS_WRITTEN 0) →
      exec (.lcReq req k c) s = .next (beginLc (wr s secP SEC_BITS_WRITTEN 0) k)) ∧
  (∀ (s : State) (req : PortId) (k : Fin 8) (c : BitVec 16), takesWrite s req secP SEC_TARGET →
      rd s secP HDR_STATE = 2 →
      s.sec.lc = none →
      transitionExists (lcState s) k = false →
      exec (.lcReq req k c) s = .next (lcFail (wr s secP SEC_BITS_WRITTEN 0) 3)) ∧
  (∀ (s : State) (ok : Bool) (l : LcRun), s.sec.lc = some l →
      plazaUp s →
      l.todo ≠ [] →
      exec (.fusePulse ok) s = .next (fusePulse s ok)) ∧
  (∀ (s : State) (l : LcRun) (mv : Fin 1620), s.sec.lc = some l →
      plazaUp s →
      l.todo ≠ [] →
      exec (.fuseSupplySag mv) s = .next (lcAbort s 7 l.index mv)) ∧
  (∀ (s : State) (l : LcRun), s.sec.lc = some l →
      plazaUp s →
      l.todo = [] →
      exec (.lcTransitionDone) s = .next (leaveReset (plazaReset s))) ∧
  (∀ (s : State) (req : PortId) (a : Bool) (b : Bool), takesWrite s req secP SEC_SCAN_EN →
      testable s →
      a || b →
      exec (.scanEnable req a b) s = .next (wr (wr (scanOn s) secP SEC_SCAN_EN (ofBool a)) secP SEC_ENGINE_EN (ofBool b))) ∧
  (∀ (s : State) (req : PortId) (d : DistId) (k : Bool), takesWrite s req secP SEC_ATT_GO d →
      ownerOnly s req secP (fldOff SEC_ATT_GO d) (1 + 2 * ofBool k) = false →
      rd (if req.val == ownerPort s then wr s secP SEC_ATT_PKG (ofBool k) d else s) secP SEC_ATT_STATUS d ≠ 1 →
      dawnOver s →
      lcState s ≠ 0 →
      s.sec.scanned = false →
      exec (.attGo req d k) s = .next (attGo s req d k)) ∧
  (∀ (s : State) (d : DistId) (x : AttRun), plazaUp s →
      s.sec.att.find? (fun x => x.dist == d.val) = some x →
      exec (.attDone d false) s = .next (raise (wr (bytesOut (emit { s with sec := { s.sec with att := s.sec.att.filter (fun y => y.dist != d.val) } } (.hostWrite x.port x.addr x.bytes)) x.port x.bytes.length) secP SEC_ATT_STATUS 2 d) secP 1)) ∧
  (∀ (s : State) (req : PortId) (d : DistId) (v : BitVec 32), takesWrite s req (districtP d) DISTRICT_SIGN_REQUIRED →
      exec (.signPolicyWrite req d 0 v) s = .next (policyWrite s d (districtP d) DISTRICT_SIGN_REQUIRED 0 3 (bitsOf v.toNat 3 1))) ∧
  (∀ (s : State) (req : PortId) (d : DistId) (w : Fin 9) (v : BitVec 32), w.val ≠ 0 →
      takesWrite s req secP SEC_IMG_KEY_DIGEST (8 * d.val + (w.val - 1)) →
      exec (.signPolicyWrite req d w v) s = .next (policyWrite s d secP SEC_IMG_KEY_DIGEST (8 * d.val + (w.val - 1)) 3 v.toNat))


/-! ### What single commands do -/

/-- Of a command that issues one slot instruction, of any slot, only its own tile's registers,
accumulators and SRAM can change, and no slice's storage: arrays, check bytes, written flags, window. -/
def Obligations.SlotCommandsStayInTheirTile : Prop :=
  ∀ (c : Instr) (k : TileId) (i : Bundle) (s t : State), slotBundle c = some (k, i) →
    exec c s = .next t →
    (∀ n : Nat, n ≠ k.val → sameStores (tile t n) (tile s n)) ∧
    (∀ n : Nat, (slice t n).mem = (slice s n).mem ∧ (slice t n).buf = (slice s n).buf ∧
      (slice t n).check = (slice s n).check ∧ (slice t n).flags = (slice s n).flags ∧
      (slice t n).bflags = (slice s n).bflags)

/-- A VX instruction writes no register as it issues: what stood in the registers, accumulators and
SRAM at the start of the cycle still stands there, and its results are booked for later cycles. -/
def Obligations.VectorResultsAreBooked : Prop :=
  ∀ (o : VxOpc) (k : TileId) (f : VxF) (s : State), issues s k { vx := .op o f } = true →
    ∃ t : State, exec (vxInstr o k f) s = .next t ∧
      sameStores (tile t k) (startCycle (tile s k)) ∧
      (tile t k).cyc = (tile s k).cyc + 1 ∧
      ∀ p ∈ (vxPlan (startCycle (tile s k)) (.op o f)).acts,
        (tile s k).cyc < p.1 ∧ ⟨p.1, (startCycle (tile s k)).pc, 1, p.2⟩ ∈ (tile t k).agenda

/-- A result that lands under a byte mask writes the lanes whose four bits are set, leaves those whose
four bits are clear, and leaves every other register. -/
def Obligations.LandingsKeepMaskedLanes : Prop :=
  ∀ (t : Tile) (n mask : Nat) (lanes : List Word), (t.vreg n).length = 64 → lanes.length = 64 →
    (∀ k : Nat, k < 64 → mask / 16 ^ k % 16 = 15 →
      ((t.setV n mask lanes).vreg n)[k]? = lanes[k]?) ∧
    (∀ k : Nat, k < 64 → mask / 16 ^ k % 16 = 0 →
      ((t.setV n mask lanes).vreg n)[k]? = (t.vreg n)[k]?) ∧
    (∀ m : Nat, m ≠ n → (t.setV n mask lanes).vreg m = t.vreg m)

/-- S0 reads 0 and P0 all ones, a write to either is discarded, and no register page shows a register
or an accumulator of a tile. -/
def Obligations.RegisterFilesAreHidden : Prop :=
  (∀ (t : Tile) (w : Word) (m b : Nat), t.setS 0 w = t ∧ t.setP 0 m b = t ∧ t.sreg 0 = 0 ∧
    t.preg 0 = 2 ^ 64 - 1) ∧
  (∀ (s : State) (n req off : Nat) (q : PageId) (v : SMap (List Word)) (x : SMap Word) (p : SMap Nat)
    (a : SMap (List Word)),
    regWord (setTile s n { tile s n with v := v, s := x, p := p, acc := a }) req q off
      = regWord s req q off)

/-- Every instruction of the CT slot that has a scalar result books it for the cycle that its latency
gives: 3 cycles for a multiplication, else 1. -/
def Obligations.ScalarResultsAreBooked : Prop :=
  ∀ (k : TileId) (s : State),
    (∀ (d : Fin 32) (i : Fin 65536) (h : Bool), issues s k { ct := .li d i h } = true →
      ∃ t : State, exec (.ctLi k d i h) s = .next t ∧
        ⟨(tile s k).cyc + 1, (startCycle (tile s k)).pc, 4,
          .s d (BitVec.ofNat 32 (if h then i.val * 2 ^ 16 + ((startCycle (tile s k)).sreg d).toNat % 2 ^ 16
            else ofSigned 32 (toSigned 16 i)))⟩ ∈ (tile t k).agenda) ∧
    (∀ (d a b : Fin 32) (f : Fin 16), f.val ≤ 12 → issues s k { ct := .alu d a b f } = true →
      ∃ t : State, exec (.ctAlu k d a b f) s = .next t ∧
        ⟨(tile s k).cyc + (if f.val = 8 then 3 else 1), (startCycle (tile s k)).pc, 4,
          .s d (BitVec.ofNat 32 (aluFn f ((startCycle (tile s k)).sreg a).toNat
            ((startCycle (tile s k)).sreg b).toNat))⟩ ∈ (tile t k).agenda) ∧
    (∀ (d a : Fin 32) (i : Fin 65536), issues s k { ct := .addi d a i } = true →
      ∃ t : State, exec (.ctAddi k d a i) s = .next t ∧
        ⟨(tile s k).cyc + 1, (startCycle (tile s k)).pc, 4,
          .s d (BitVec.ofNat 32 ((((startCycle (tile s k)).sreg a).toNat
            + ofSigned 32 (toSigned 16 i)) % 2 ^ 32))⟩ ∈ (tile t k).agenda) ∧
    (∀ (d : Fin 32) (l : Fin 4), issues s k { ct := .rdl d l } = true →
      ∃ t : State, exec (.ctRdl k d l) s = .next t ∧
        ⟨(tile s k).cyc + 1, (startCycle (tile s k)).pc, 4,
          .s d (BitVec.ofNat 32 ((startCycle (tile s k)).loopDone l))⟩ ∈ (tile t k).agenda)

/-- A full-sector write reads back, and its check bytes are stored with it; every other byte of the slice
reads as before, and nothing of any other slice or of any tile changes. Host accesses that waited then go
on (`pollHost`); where none waited, that is all. A narrow write stores nothing: every byte of every
slice's arrays reads as before. -/
def Obligations.SliceWriteReadsBack : Prop :=
  (∀ (s : State) (k : TileId) (d : DistId) (x : SectorId) (b : List Byte), memOk s = true →
    b.length = 32 → tileError s d k = 0 → sliceLives s k = true → sliceBusy s k = false → sliceHolds s k = false →
    ∃ u : State, exec (.sliceWrite k d x b) s = .next (pollHost u) ∧
      memBytes (slice u k).mem (32 * x.val) 32 = b ∧
      memBytes (slice u k).check (4 * x.val) 4 = checkBytes b ∧ (slice u k).flags.copies x = 7 ∧
      (∀ q : Nat, (readSector u k x q none).2 = .good b) ∧
      (∀ a : Nat, a < 32 * x.val ∨ 32 * x.val + 32 ≤ a →
        memRead (slice u k).mem a = memRead (slice s k).mem a) ∧
      (∀ y : Nat, y ≠ x.val → (slice u k).flags.copies y = (slice s k).flags.copies y) ∧
      (∀ n : Nat, n ≠ k.val → slice u n = slice s n) ∧ u.tiles = s.tiles ∧ u.hostHeld = s.hostHeld ∧
      (s.hostHeld = [] → (pollHost u).slices = u.slices ∧ (pollHost u).tiles = u.tiles)) ∧
  (∀ (s t : State) (k : TileId) (d : DistId) (x : SectorId) (lo : Fin 32) (b : List Byte),
    exec (.narrowWrite k d x lo b) s = .next t →
      ∀ n : Nat, (slice t n).mem = (slice s n).mem ∧ (slice t n).flags = (slice s n).flags)

/-- A read of a sector whose written flag reads clear gives what a read with a lasting uncorrectable error
gives; it is not read again, and it is counted, and reported with bit 31 of the syndrome set. -/
def Obligations.UnwrittenReadIsAnError : Prop :=
  ∀ (s : State) (k : TileId) (d : DistId) (x : SectorId) (q : Fin 4) (e : Option SectorErr),
    tileError s d k = 0 → sliceLives s k = true → sliceBusy s k = false → sliceHolds s k = false →
    narrowAhead (slice s k) x = false → regsOk (flushedFor s k x e) = true →
    readsWritten (slice (flushedFor s k x e) k) x (metAfter s k x e) = false →
    ∃ t : State, exec (.sliceRead k d x q e) s = .next t ∧ (sliceSector s k x q e).2 = .bad ∧
      (∀ (u : State) (r : SectorErr), SMap.find (slice u k).lasting x = none →
        (decodeRead (secWord (slice u k) x) r.first).1 = .uncorrectable →
        (decodeRead (secWord (slice u k) x) r.second).2 = none →
        (readSector u k x q (some r)).2 = .bad) ∧
      bitOf (rd t (sliceP k) HDR_ERR_SYNDROME) 31 = true ∧
      rd t (sliceP k) SLICE_UNWRITTEN_READS
        = min (2 ^ 32 - 1) (rd (flushedFor s k x e) (sliceP k) SLICE_UNWRITTEN_READS + 1) ∧
      rd t (sliceP k) HDR_ERR_RETRY_COUNT = rd (flushedFor s k x e) (sliceP k) HDR_ERR_RETRY_COUNT ∧
      bitOf (rd t (sliceP k) HDR_INT_RAW) 0 = true

/-- A mode word with a reserved bit set, or one of 1 while the engine is not ON, is refused; otherwise
the mode changes as the table gives, and the other words have no effect on it. The word counts as it comes
across the link group (`w`), which is as it was sent (`v`) unless an error has passed the CRC-32 (R289); while
the group holds the flow (R18), nothing changes. -/
def Obligations.ModeWordTable : Prop :=
  ∀ (s : State) (k : TileId) (d : DistId) (v w : Nat) (x : Target),
    (resolve s d (windowAt k 0xFFF00)).toOption = some x → sliceLives s k = true → w < 2 ^ 32 →
    (plazaHeld s d k = true → exec (.engineModeWrite k d v) s = .next s) ∧
    (plazaHeld s d k = false → (plazaData s d k (leBytes 4 v)).2 = leBytes 4 w →
    ∃ t : State, exec (.engineModeWrite k d v) s = .next t ∧
      (2 ≤ w ∨ (w = 1 ∧ rd s (engineP k) HDR_STATE ≠ 2) →
        t.slices = s.slices ∧ rd t (engineP k) HDR_LAST_ERR = 6) ∧
      (w = 1 → rd s (engineP k) HDR_STATE = 2 →
        ((slice s k).mode = 0 → (slice t k).mode = 2) ∧
        ((slice s k).mode = 1 ∨ (slice s k).mode = 2 → (slice t k).mode = (slice s k).mode) ∧
        ((slice s k).mode = 3 → (slice t k).mode = 3 ∧ (slice t k).held = some 1)) ∧
      (w = 0 →
        ((slice s k).mode = 1 → (slice t k).mode = 3) ∧
        ((slice s k).mode = 0 ∨ (slice s k).mode = 3 → (slice t k).mode = (slice s k).mode) ∧
        ((slice s k).mode = 2 → (slice t k).mode = 2 ∧ (slice t k).held = some 0)))

/-- A District-interleaved address decodes as R26 gives: outside the District's window it is unmapped,
else it is the slice-direct address of a tile of the slice list, and resolves as that one does. The
premise on the size is what R29 lets the registers hold. -/
def Obligations.GlobalWindowDecodes : Prop :=
  ∀ (s : State) (d : DistId) (a : Nat), a < glbEnd - glbBase →
    rd s pkgswP PKGSW_DIST_GLB_BASE d + rd s pkgswP PKGSW_DIST_GLB_SIZE d ≤ 384 →
    ((sliceList s d).length * rd s pkgswP PKGSW_DIST_GLB_SIZE d * 256 ≤ a / 4096 →
      resolve s d (glbBase + a) = .error errUnmapped) ∧
    (a / 4096 < (sliceList s d).length * rd s pkgswP PKGSW_DIST_GLB_SIZE d * 256 →
      ∃ n : Nat, (sliceList s d)[a / 4096 % (sliceList s d).length]? = some n ∧
        resolve s d (glbBase + a) = resolve s d (2 ^ 29 * n +
          (rd s pkgswP PKGSW_DIST_GLB_BASE d * 2 ^ 20
            + a / 4096 / (sliceList s d).length * 4096 + a % 4096)))

/-- The registers of a District never hold a window that ends beyond a slice: a write that would make them
do so is dropped, and every step of the block, whatever its command, keeps it so for every District. -/
def Obligations.GlobalWindowFitsTheSlices : Prop :=
  (∀ (s t : State) (req : PortId) (d e : DistId) (b z : Option (Fin 512)), regsOk s = true →
    exec (.distGlbWrite req d b z) s = .next t →
    rd s pkgswP PKGSW_DIST_GLB_BASE e + rd s pkgswP PKGSW_DIST_GLB_SIZE e ≤ 384 →
    rd t pkgswP PKGSW_DIST_GLB_BASE e + rd t pkgswP PKGSW_DIST_GLB_SIZE e ≤ 384) ∧
  (∀ s t : State, regsOk s = true →
    (∀ d : DistId, rd s pkgswP PKGSW_DIST_GLB_BASE d + rd s pkgswP PKGSW_DIST_GLB_SIZE d ≤ 384) →
    step s = .next t →
    ∀ d : DistId, rd t pkgswP PKGSW_DIST_GLB_BASE d + rd t pkgswP PKGSW_DIST_GLB_SIZE d ≤ 384)

/-- No two addresses of a District's window name the same byte of a slice, and every byte named lies
between the bounds that the District's registers give. -/
def Obligations.GlobalWindowIsOneToOne : Prop :=
  ∀ (s : State) (d : DistId) (a b n o : Nat), glbBase ≤ a → a < glbEnd → glbBase ≤ b → b < glbEnd →
    decodeAddr s d a = some (.slice n o) →
    n ∈ sliceList s d ∧ rd s pkgswP PKGSW_DIST_GLB_BASE d * 2 ^ 20 ≤ o ∧
      o < (rd s pkgswP PKGSW_DIST_GLB_BASE d + rd s pkgswP PKGSW_DIST_GLB_SIZE d) * 2 ^ 20 ∧
      (decodeAddr s d b = some (.slice n o) → a = b)

/-- A write of a host through one of its windows changes the storage of no tile, slice or command
window that its District does not hold. -/
def Obligations.WindowWriteStaysInTheDistrict : Prop :=
  ∀ (s t : State) (p : PortId) (o : Fin 2147483648) (b : List Byte),
    exec (.windowWrite p o b) s = .next t →
    ∀ n : Nat, tileOwner s n ≠ p.val →
      (slice t n).mem = (slice s n).mem ∧ (slice t n).buf = (slice s n).buf ∧
      (slice t n).flags = (slice s n).flags ∧ sameStores (tile t n) (tile s n)

/-- The interrupt registers of a page: a write of `INT_FORCE` sets the bits as an event would and changes
nothing else of any page's header; one of `INT_STATUS` clears the bits whose condition is not present
(which bits have a lasting condition is DEDUCED: `presentBits`, log entry 36); one of `INT_ENABLE` sets
the enables; `INT_STATUS` reads the bits that are both raised and enabled. -/
def Obligations.InterruptRegistersWorkTogether : Prop :=
  ∀ (s : State) (req : PortId) (n : Fin 16384) (p : PageId) (v : BitVec 32), regsOk s = true →
    (takesHdr s req n HDR_INT_FORCE p = true → ∃ t : State, exec (.intForceWrite req n v) s = .next t ∧
      rd t p HDR_INT_RAW = (rd s p HDR_INT_RAW ||| intMasked p.kind v.toNat) % 2 ^ 32 ∧
      (∀ q : PageId, ∀ f ∈ [HDR_ENABLE, HDR_STATE, HDR_PEND_ENABLE, HDR_FENCED, HDR_MODE, HDR_LOCK, HDR_INT_ENABLE,
          HDR_LAST_ERR, HDR_ERR_ADDR_LO, HDR_ERR_ADDR_HI, HDR_ERR_SYNDROME, HDR_ERR_CORR_COUNT, HDR_ERR_RETRY_COUNT],
        rd t q f = rd s q f) ∧
      (∀ q : PageId, q.base ≠ p.base → rd t q HDR_INT_RAW = rd s q HDR_INT_RAW)) ∧
    (takesHdr s req n HDR_INT_STATUS p = true →
      ∃ t : State, exec (.intStatusClear req n v) s = .next t ∧
        rd t p HDR_INT_RAW = (rd s p HDR_INT_RAW &&& (2 ^ 32 - 1 - v.toNat))
          ||| (rd s p HDR_INT_RAW &&& v.toNat &&& presentBits s p)) ∧
    (takesHdr s req n HDR_INT_ENABLE p = true →
      ∃ t : State, exec (.intEnableWrite req n v) s = .next t ∧
        rd t p HDR_INT_ENABLE = intMasked p.kind v.toNat ∧
        rd t p HDR_INT_RAW = rd s p HDR_INT_RAW) ∧
    (∀ r : Nat, fieldVal s r p HDR_INT_STATUS 0 = rd s p HDR_INT_RAW &&& rd s p HDR_INT_ENABLE)

/-- `INT_FORCE_WRITE`, `INT_STATUS_CLEAR`, `INT_ENABLE_WRITE`, `INT_EOI`, `MSIX_UNMASK`,
`ERR_ADDR_LO_READ`, `LO_HALF_READ`, `SET_OFFSET`, `READ32`, `READ64`, `DIST_GLB_WRITE`, `PWR_CAP_WRITE`,
`THROTTLE_N_ASSERT` and `THROTTLE_N_RELEASE` leave every tile, slice, link, Crossing, collective, image
and fuse as it was. Other writes of registers may act on them, and are not spoken of here. -/
def Obligations.RegisterCommandsFrame : Prop :=
  ∀ (s t : State) (req : PortId) (n : Fin 16384) (v : BitVec 32) (d : DistId) (m : BitVec 8) (k : Fin 8)
    (e : MsixEntry) (w : Bool) (z8 : Nat) (o : Fin 67108864) (b z : Option (Fin 512)) (c : Instr),
    c ∈ [.intForceWrite req n v, .intStatusClear req n v, .intEnableWrite req n v, .intEoi req d m,
      .msixUnmask req k e, .errAddrLoRead req n z8, .loHalfRead req o z8, .setOffset v w, .read32, .read64,
      .distGlbWrite req d b z, .pwrCapWrite req v.toNat, .throttleNAssert, .throttleNRelease] →
    exec c s = .next t →
      t.tiles = s.tiles ∧ t.slices = s.slices ∧ t.links = s.links ∧ t.crossings = s.crossings ∧
      t.colls = s.colls ∧ t.images = s.images ∧ t.procs = s.procs ∧ t.fuses = s.fuses ∧
      t.sec = s.sec ∧ t.topo = s.topo

/-- A read of `ERR_ADDR_LO` captures the rest of the log: whatever those registers hold while the
capture stands, every requester reads what they held at the read, and `STATE` stays live. -/
def Obligations.ErrorLogIsCaptured : Prop :=
  ∀ (s : State) (req : PortId) (n : Fin 16384) (z : Nat) (p : PageId),
    plazaUp s = true → portUp s req = true → pageAt (4096 * n.val + 0x28) = some p →
    regError s req (4096 * n.val + 0x28) z = 0 →
    ∃ t : State, exec (.errAddrLoRead req n z) s = .next t ∧
      ∀ (u : State) (r : Nat), SMap.find u.captures p.base = SMap.find t.captures p.base →
        fieldVal u r p HDR_ERR_ADDR_HI 0 = rd s p HDR_ERR_ADDR_HI ∧
        fieldVal u r p HDR_ERR_SYNDROME 0 = rd s p HDR_ERR_SYNDROME ∧
        fieldVal u r p HDR_LAST_ERR 0 = rd s p HDR_LAST_ERR ∧
        fieldVal u r p HDR_STATE 0 = rd u p HDR_STATE

/-- A soft reset written while a block starts or drains waits, changing nothing else, and a second one
is merged with it; it takes effect when the start ends at ON or the drain at OFF, where a block with
`PEND_ENABLE` set then starts again. A page that defines no soft-reset action has nothing to wait (R340;
which pages define one is DEDUCED, log entry 37). Exceptions: a tile's soft reset takes effect at once,
whatever `STATE` shows; one of a running tile's `MOVER` page, and one of an engine or a slice outside
controller mode, have none. A fence neither ends nor drops what waits: the pages that it turns OFF
(`TILE`, `CDIE`, `OE`) are none that wait. -/
def Obligations.SoftResetWaits : Prop :=
  (∀ (s : State) (req : PortId) (n : Fin 16384) (p : PageId) (y z : ResetIn),
    takesHdr s req n HDR_SOFT_RESET p = true → resetMayWait s p = true →
    rd s p HDR_STATE = 1 ∨ rd s p HDR_STATE = 3 →
    ∃ t : State, exec (.pageSoftReset req n y) s = .next t ∧
      t = { s with resetWaits := SMap.put s.resetWaits (p).base 1 } ∧
      exec (.pageSoftReset req n z) t = .next t) ∧
  (∀ (s : State) (req : PortId) (n : Fin 16384) (p : PageId) (y : ResetIn),
    takesHdr s req n HDR_SOFT_RESET p = true → definesReset p.kind = false →
    exec (.pageSoftReset req n y) s = .next s) ∧
  (∀ (s : State) (req : PortId) (d : DistId) (l : List (List Byte)) (x : Bool),
    takesWrite s req (cmdprocP d) HDR_SOFT_RESET = true →
    rd s (cmdprocP d) HDR_STATE = 1 ∨ rd s (cmdprocP d) HDR_STATE = 3 →
    ∃ t : State, exec (.cmdprocSoftReset req d l x) s = .next t ∧
      t = { s with resetWaits := SMap.put s.resetWaits (cmdprocP d).base 1 } ∧
      exec (.cmdprocSoftReset req d l x) t = .next t) ∧
  (∀ (s : State) (req : PortId) (k : TileId), takesWrite s req (engineP k) HDR_SOFT_RESET = true →
    (slice s k).mode = 0 → rd s (engineP k) HDR_STATE = 1 ∨ rd s (engineP k) HDR_STATE = 3 →
    ∃ t : State, exec (.engineSoftReset req k) s = .next t ∧
      t = { s with resetWaits := SMap.put s.resetWaits (engineP k).base 1 } ∧
      exec (.engineSoftReset req k) t = .next t) ∧
  (∀ (s : State) (req : PortId) (k : TileId), takesWrite s req (engineP k) HDR_SOFT_RESET = true →
    (slice s k).mode ≠ 0 → exec (.engineSoftReset req k) s = .next s) ∧
  (∀ (s : State) (req : PortId) (k : TileId) (e : SectorErrs),
    takesWrite s req (sliceP k) HDR_SOFT_RESET = true → (slice s k).mode ≠ 0 →
    exec (.sliceSoftReset req k e) s = .next s) ∧
  (∀ (s : State) (req : PortId) (k : TileId), takesWrite s req (moverP k) HDR_SOFT_RESET = true →
    (tile s k).runState ≠ 2 → rd s (moverP k) HDR_STATE = 1 ∨ rd s (moverP k) HDR_STATE = 3 →
    ∃ t : State, exec (.moverSoftReset req k) s = .next t ∧
      t = { s with resetWaits := SMap.put s.resetWaits (moverP k).base 1 } ∧
      exec (.moverSoftReset req k) t = .next t) ∧
  (∀ (s : State) (req : PortId) (k : TileId), takesWrite s req (moverP k) HDR_SOFT_RESET = true →
    (tile s k).runState = 2 → exec (.moverSoftReset req k) s = .next s) ∧
  (∀ (s : State) (n : Fin 16384) (p : PageId) (x : ResetIn),
    pageAt (4096 * n.val) = some p → p.kind ≠ .oe → plazaUp s = true → rd s p HDR_STATE = 1 →
    rd (blockStarted s p (drainBlock p)) p HDR_STATE = 2 →
    exec (.blockStartDone n none x) s
      = .next (blockGoesOn (pollLaunches (resetWaited (blockStarted s p (drainBlock p)) p x)) p)) ∧
  (∀ (s : State) (n : Fin 16384) (p : PageId) (x : ResetIn) (u : State),
    pageAt (4096 * n.val) = some p → p.kind ≠ .oe → plazaUp s = true → rd s p HDR_STATE = 3 →
    mayDrain s p = true → u = resetWaited (wr s p HDR_STATE 0) p x →
    (rd u p HDR_PEND_ENABLE ≠ 1 → exec (.blockDrainDone n x) s = .next u) ∧
    (rd u p HDR_PEND_ENABLE = 1 → exec (.blockDrainDone n x) s
      = .next (startBlock p (wr (wr u p HDR_PEND_ENABLE 0) p HDR_STATE 1)))) ∧
  (∀ (s : State) (n : Fin 16384) (p : PageId) (y : OeStart) (x : ResetIn),
    pageAt (4096 * n.val) = some p → p.kind = .oe → plazaUp s = true →
    (rd s p HDR_STATE = 1 →
      rd (blockStarted (engineStarted s p.inst y) p (drainBlock p)) p HDR_STATE = 2 →
      exec (.blockStartDone n (some y) x) s
        = .next (pollLaunches (resetWaited (blockStarted (engineStarted s p.inst y) p (drainBlock p)) p x))) ∧
    (rd s p HDR_STATE = 3 → mayDrain s p = true →
      rd (resetWaited (lasersOff (wr s p HDR_STATE 0) p.inst) p x) p HDR_PEND_ENABLE ≠ 1 →
      exec (.blockDrainDone n x) s = .next (resetWaited (lasersOff (wr s p HDR_STATE 0) p.inst) p x))) ∧
  (∀ (s : State) (p : PageId) (x : ResetIn),
    (SMap.find s.resetWaits p.base = none → resetWaited s p x = s) ∧
    (SMap.find s.resetWaits p.base ≠ none → p.kind = .cmdproc → resetWaited s p x
      = cmdprocReset { s with resetWaits := SMap.del s.resetWaits p.base } p.inst x.entries x.refused) ∧
    (SMap.find s.resetWaits p.base ≠ none → p.kind = .engine → resetWaited s p x
      = engineReset { s with resetWaits := SMap.del s.resetWaits p.base } p.inst) ∧
    (SMap.find s.resetWaits p.base ≠ none → p.kind = .mover → resetWaited s p x
      = moverReset { s with resetWaits := SMap.del s.resetWaits p.base } p.inst)) ∧
  (∀ (s : State) (req : PortId) (k : TileId), takesWrite s req (tileP k) HDR_SOFT_RESET = true →
    exec (.tileSoftReset req k) s = .next (tileReset s k)) ∧
  (∀ (s t : State) (k : TileId) (e : OeId) (w : Fin 3) (c : Instr),
    c ∈ [.tileClockLoss k, .tileRouterLost k, .slicePortLoss k, .oeHeartbeatLost e w] →
    exec c s = .next t → t.resetWaits = s.resetWaits)

/-- While `LOCK` of a page is set, a write of 4 or 8 bytes to registers whose fields are all RWL, or RO,
changes nothing. The one page that states a report of its own is `PKGSW`: a write to a District's
`DIST_GLB_BASE` or `DIST_GLB_SIZE` is dropped with `CFG_REJECTED` (R29). -/
def Obligations.LockedFieldsKeepTheirValue : Prop :=
  (∀ (s : State) (req : PortId) (o : Fin 67108864) (v : Nat) (x : ResetIn) (p : PageId),
    plazaUp s = true → portUp s req = true → putError s req o 4 v = 0 → pageAt o.val = some p →
    locked s p = true →
    (∀ e ∈ fieldsAt p.kind (o.val - p.base), (e.1.acc = .rwl ∨ e.1.acc = .ro) ∧
      e.1 ≠ PKGSW_DIST_GLB_BASE ∧ e.1 ≠ PKGSW_DIST_GLB_SIZE) →
    exec (.registerWrite req o 4 v x) s = .next s) ∧
  (∀ (s : State) (req : PortId) (o : Fin 67108864) (v : Nat) (x : ResetIn) (p : PageId),
    plazaUp s = true → portUp s req = true → putError s req o 8 v = 0 → pageAt o.val = some p →
    locked s p = true →
    (∀ e ∈ fieldsAt p.kind (o.val - p.base) ++ fieldsAt p.kind (o.val - p.base + 4),
      (e.1.acc = .rwl ∨ e.1.acc = .ro) ∧ e.1 ≠ PKGSW_DIST_GLB_BASE ∧ e.1 ≠ PKGSW_DIST_GLB_SIZE) →
    exec (.registerWrite req o 8 v x) s = .next s) ∧
  (∀ (s : State) (req : PortId) (o : Fin 67108864) (v z : Nat) (x : ResetIn) (d : DistId),
    plazaUp s = true → portUp s req = true → putError s req o z v = 0 → locked s pkgswP = true →
    (z = 4 ∧ (o.val = pkgswP.base + fldOff PKGSW_DIST_GLB_BASE d ∨
        o.val = pkgswP.base + fldOff PKGSW_DIST_GLB_SIZE d)) ∨
      (z = 8 ∧ o.val = pkgswP.base + fldOff PKGSW_DIST_GLB_BASE d) →
    exec (.registerWrite req o z v x) s = .next (raise s pkgswP 1))

/-- A cap above the variant's limit, and a target above its fused ceiling, are clamped, and the clamped
value is the one that reads back. That a cap below 300 W reads back as it was written is the model's
choice (DEDUCED, log entry 128). -/
def Obligations.CapsAndTargetsAreClamped : Prop :=
  ∀ (s : State) (req : PortId), regsOk s = true →
    (∀ v : Nat, takesWrite s req pwrP PWR_PWR_CAP_W = true →
      ∃ t : State, exec (.pwrCapWrite req v) s = .next t ∧
        rd t pwrP PWR_PWR_CAP_W = min (v % 2 ^ 16) (fuseLimit s)) ∧
    (∀ (d : DieId) (v : Nat), takesWrite s req pwrP PWR_OP_TARGET d = true →
      ∃ t : State, exec (.opTargetWrite req d v) s = .next t ∧
        rd t pwrP PWR_OP_TARGET d = min (v % 8) (fuseMaxOp s))

/-- A NOP of a command ring that may start is taken from the ring and completes OK: a completion entry
with its tag leaves for the completion ring, whose tail moves on. -/
def Obligations.NopCompletesInTheRing : Prop :=
  ∀ (s : State) (d : DistId) (h : CmdHdr), regsOk s = true → startsNow s d h .nop = true →
    ∃ (t : State) (b : List Byte), exec (.nop d h false) s = .next t ∧
      .completion d (rd s (cmdprocP d) CMDPROC_CPL_TAIL) b ∈ t.sent ∧ b.length = 16 ∧
      leAt b 0 4 = h.tag % 2 ^ 32 ∧ leAt b 4 1 = 0 ∧ leAt b 5 1 = 0 ∧
      leAt b 6 1 = 128 * (proc s d).phase % 256 ∧
      rd t (cmdprocP d) CMDPROC_CPL_TAIL
        = (rd s (cmdprocP d) CMDPROC_CPL_TAIL + 1) % cplEntries s d % 2 ^ 16 ∧
      rd t (cmdprocP d) CMDPROC_CMD_HEAD
        = (rd s (cmdprocP d) CMDPROC_CMD_HEAD + 1) % cmdEntries s d % 2 ^ 16

/-- A doorbell value at or above the size of the ring, or one that would move the tail backward, is
ignored and reported; any other is the new tail. -/
def Obligations.DoorbellMovesTheTail : Prop :=
  ∀ (s : State) (req : PortId) (d : DistId) (v : Nat), regsOk s = true → v < 2 ^ 16 →
    takesWrite s req (cmdprocP d) CMDPROC_CMD_DOORBELL = true →
    ∃ t : State, exec (.cmdDoorbell req d v) s = .next t ∧
      (cmdEntries s d ≤ v ∨ ringDist (cmdHead s d) v (cmdEntries s d)
          < ringDist (cmdHead s d) (proc s d).tail (cmdEntries s d) →
        (proc t d).tail = (proc s d).tail ∧ rd t (cmdprocP d) HDR_LAST_ERR = 5 ∧
        bitOf (rd t (cmdprocP d) HDR_INT_RAW) 2 = true) ∧
      (v < cmdEntries s d → ringDist (cmdHead s d) (proc s d).tail (cmdEntries s d)
          ≤ ringDist (cmdHead s d) v (cmdEntries s d) → (proc t d).tail = v)

/-- A write of the signing policy of a District that is not idle is dropped and reported; one that
changes it empties every image slot of the District, so that a LAUNCH finds no image, and of no other;
one that does not change it changes nothing. The page is unlocked: under `LOCK` nothing changes. -/
def Obligations.SignPolicyEmptiesTheSlots : Prop :=
  ∀ (s : State) (req : PortId) (d : DistId) (v : BitVec 32) (w : Fin 9) (p : PageId) (f : Fld) (i x : Nat),
    (w.val = 0 ∧ p = districtP d ∧ f = DISTRICT_SIGN_REQUIRED ∧ i = 0 ∧ x = bitsOf v.toNat 3 1) ∨
      (w.val ≠ 0 ∧ p = secP ∧ f = SEC_IMG_KEY_DIGEST ∧ i = 8 * d.val + (w.val - 1) ∧ x = v.toNat) →
    regsOk s = true → takesWrite s req p f i = true →
    ∃ t : State, exec (.signPolicyWrite req d w v) s = .next t ∧
      (locked s p = true → t = s) ∧
      (locked s p = false → distIdle s d = false →
        rd t p f i = rd s p f i ∧ t.images = s.images ∧ bitOf (rd t p HDR_INT_RAW) 3 = true) ∧
      (locked s p = false → distIdle s d = true → rd t p f i = x) ∧
      (locked s p = false → distIdle s d = true → rd s p f i = x → t = s) ∧
      (locked s p = false → distIdle s d = true → rd s p f i ≠ x →
        (∀ k : Fin 16, imageAt t d k = none ∧ launchRefusal t d k = some (stImgNone, 0)) ∧
        (∀ (e : Nat) (k : Fin 16), e ≠ d.val → imageAt t e k = imageAt s e k))

/-- A target with two allocated waveguides on one position is refused whole: the result is 5, and nothing
else of the block changes, no allocation (`CURRENT`), no link, and no `BUSY`; one that is taken gives no
two targets one position. -/
def Obligations.CrossingTargetsAreDistinct : Prop :=
  ∀ (s : State) (req : PortId) (e : OeId), takesWrite s req (crossingP e) CROSSING_APPLY = true →
    rd s (crossingP e) HDR_STATE = 2 → rd s (crossingP e) CROSSING_BUSY ≠ 1 →
    ∃ t : State, exec (.crossingApply req e) s = .next t ∧
      (targetsClash (targetsOf s e) = true →
        t = { s with regs := t.regs } ∧ rd t (crossingP e) CROSSING_LAST_RESULT = 5 ∧
        (∀ (g : OeId) (w : Fin 8), rd t (crossingP g) CROSSING_CURRENT w = rd s (crossingP g) CROSSING_CURRENT w) ∧
        (∀ g : OeId, rd t (crossingP g) CROSSING_BUSY = rd s (crossingP g) CROSSING_BUSY ∧
          rd t (crossingP g) CROSSING_PENDING = rd s (crossingP g) CROSSING_PENDING ∧
          rd t (crossingP g) CROSSING_STEP = rd s (crossingP g) CROSSING_STEP) ∧
        (∀ a : AlleyId, rd t (alleyP a) ALLEY_LSTATE = rd s (alleyP a) ALLEY_LSTATE)) ∧
      (targetsClash (targetsOf s e) = false →
        ∀ a b : Fin 8, a ≠ b → wgAlloc ((targetsOf s e).getD a 0) = true →
          wgAlloc ((targetsOf s e).getD b 0) = true →
          wgPos ((targetsOf s e).getD a 0) ≠ wgPos ((targetsOf s e).getD b 0) ∧
          SMap.find (crossing t e).targets a = some ((targetsOf s e).getD a 0))

/-- A transition of the life cycle is begun only toward a state that the table gives, so never toward an
earlier one, and never while another runs. Scan or test access erases the private key, and no report is
begun afterwards. -/
def Obligations.SecurityGoesOneWay : Prop :=
  (∀ (s t : State) (req : PortId) (k : Fin 8) (c : BitVec 16) (l : LcRun),
    exec (.lcReq req k c) s = .next t → s.sec.lc = none → t.sec.lc = some l →
    l.target = k.val ∧ lcState s < k.val ∧ lcState s ≠ 4 ∧ (k.val = lcState s + 1 ∨ k.val = 4) ∧
    t.fuses = s.fuses) ∧
  (∀ (s : State) (req : PortId) (a b : Bool), takesWrite s req secP SEC_SCAN_EN = true →
    testable s = true → (a || b) = true →
    ∃ t : State, exec (.scanEnable req a b) s = .next t ∧ t.sec.key = none ∧ t.sec.scanned = true) ∧
  (∀ (s t : State) (req : PortId) (d : DistId) (k : Bool), s.sec.scanned = true →
    exec (.attGo req d k) s = .next t → t.sec.att = s.sec.att ∧ t.sec.key = s.sec.key)

/-- What one side of a link sends, the other reads. A flit's units, striped over any number of active
lanes, gather to the same flit, and its CRC is good for its receiver and for no receiver with another
link prefix; a word's four side units give the word back, and its check is good (the order of a word's
bits over its side units is the model's: DESIGN CHOICE, log entry 141). -/
def Obligations.WhatTheLanesCarryArrives : Prop :=
  (∀ (n slot : Nat) (flit : List Byte), 0 < n → flit.length = 64 →
    unstripe n slot (stripe n slot flit) = flit) ∧
  (∀ (pre seq : Nat) (payload : List Byte), payload.length = 56 →
    (makeFlit pre seq payload).length = 64 ∧ flitGood pre (makeFlit pre seq payload) = true ∧
    ∀ other : Nat, pre < 2 ^ 32 → other < 2 ^ 32 → other ≠ pre →
      flitGood other (makeFlit pre seq payload) = false) ∧
  (∀ kind word : Nat, kind < 4 → word < 2 ^ 48 →
    sidesWord kind ⟨BitVec.ofNat 16 (sideUnit kind (withCheck word) 0),
      BitVec.ofNat 16 (sideUnit kind (withCheck word) 1),
      BitVec.ofNat 16 (sideUnit kind (withCheck word) 2),
      BitVec.ofNat 16 (sideUnit kind (withCheck word) 3)⟩ = some (withCheck word) ∧
    withCheck word % 2 ^ 48 = word ∧ checkGood (withCheck word) = true)
end

