-- ==== Sys2Proof/Laws/Maps.lean ====
section
/-!
SUPPORT. Laws/Maps.lean: the laws of sparse maps and of addressed memory: what a read after a write
gives, and that every write keeps the canonical form.
-/
open Sys2Proof Sys2Proof.Machine Sys2Proof.Safety
namespace Sys2Proof.Laws

/-! ### Sparse maps -/

theorem keysFrom_mono {α : Type} {a b : Nat} {m : SMap α} (hab : a ≤ b) (h : keysFrom b m = true) :
    keysFrom a m = true := by
  cases m with
  | nil => rfl
  | cons kv m =>
    obtain ⟨k, v⟩ := kv
    simp only [keysFrom, Bool.and_eq_true, decide_eq_true_eq] at h ⊢
    exact ⟨Nat.le_trans hab h.1, h.2⟩

theorem keysFrom_put {α : Type} {lo i : Nat} {m : SMap α} {v : α} (h : keysFrom lo m = true)
    (hi : lo ≤ i) : keysFrom lo (SMap.put m i v) = true := by
  induction m generalizing lo with
  | nil => simp [SMap.put, keysFrom, hi]
  | cons kv m ih =>
    obtain ⟨k, w⟩ := kv
    simp only [keysFrom, Bool.and_eq_true, decide_eq_true_eq] at h
    unfold SMap.put
    split
    · subst i; simp [keysFrom, h]
    · split
      · simp only [keysFrom, Bool.and_eq_true, decide_eq_true_eq]
        exact ⟨hi, by omega, h.2⟩
      · simp only [keysFrom, Bool.and_eq_true, decide_eq_true_eq]
        exact ⟨h.1, ih h.2 (by omega)⟩

theorem keysFrom_del {α : Type} {lo i : Nat} {m : SMap α} (h : keysFrom lo m = true) :
    keysFrom lo (SMap.del m i) = true := by
  induction m generalizing lo with
  | nil => rfl
  | cons kv m ih =>
    obtain ⟨k, w⟩ := kv
    simp only [keysFrom, Bool.and_eq_true, decide_eq_true_eq] at h
    unfold SMap.del
    split
    · exact keysFrom_mono (by omega) h.2
    · split
      · simp [keysFrom, h]
      · simp only [keysFrom, Bool.and_eq_true, decide_eq_true_eq]
        exact ⟨h.1, ih h.2⟩

theorem keysFrom_filter {α : Type} {lo : Nat} {m : SMap α} {p : Nat × α → Bool}
    (h : keysFrom lo m = true) : keysFrom lo (m.filter p) = true := by
  induction m generalizing lo with
  | nil => rfl
  | cons kv m ih =>
    obtain ⟨k, w⟩ := kv
    simp only [keysFrom, Bool.and_eq_true, decide_eq_true_eq] at h
    simp only [List.filter_cons]
    split
    · simp only [keysFrom, Bool.and_eq_true, decide_eq_true_eq]
      exact ⟨h.1, ih h.2⟩
    · exact keysFrom_mono (by omega) (ih h.2)

theorem mem_put {α : Type} {m : SMap α} {i : Nat} {v : α} {x : Nat × α} (h : x ∈ SMap.put m i v) :
    x = (i, v) ∨ x ∈ m := by
  induction m with
  | nil => simpa [SMap.put] using h
  | cons kv m ih =>
    obtain ⟨k, w⟩ := kv
    unfold SMap.put at h
    split at h
    · simp only [List.mem_cons] at h ⊢; exact h.imp id .inr
    · split at h
      · simpa only [List.mem_cons] using h
      · simp only [List.mem_cons] at h ⊢
        rcases h with h | h
        · exact .inr (.inl h)
        · exact (ih h).imp id .inr

theorem mem_of_find {α : Type} {m : SMap α} {i : Nat} {v : α} (h : SMap.find m i = some v) :
    (i, v) ∈ m := by
  induction m with
  | nil => simp [SMap.find] at h
  | cons kv m ih =>
    obtain ⟨k, w⟩ := kv
    unfold SMap.find at h
    split at h
    · simp_all
    · split at h
      · simp at h
      · exact List.mem_cons_of_mem _ (ih h)

/-! ### Addressed memory -/

theorem wfFrom_mono {a b : Nat} {m : Memory} (hab : a ≤ b) (h : Memory.wfFrom b m = true) :
    Memory.wfFrom a m = true := by
  cases m with
  | nil => rfl
  | cons kv m =>
    obtain ⟨k, v⟩ := kv
    simp only [Memory.wfFrom, Bool.and_eq_true, decide_eq_true_eq] at h ⊢
    exact ⟨⟨Nat.le_trans hab h.1.1, h.1.2⟩, h.2⟩

theorem wfFrom_write {lo a : Nat} {m : Memory} {b : Byte} (h : Memory.wfFrom lo m = true)
    (ha : lo ≤ a) : Memory.wfFrom lo (memWrite m a b) = true := by
  induction m generalizing lo with
  | nil =>
    unfold memWrite
    split
    · rfl
    · simp_all [Memory.wfFrom]
  | cons kv m ih =>
    obtain ⟨k, v⟩ := kv
    simp only [Memory.wfFrom, Bool.and_eq_true, decide_eq_true_eq] at h
    unfold memWrite
    split
    · split
      · exact wfFrom_mono (by omega) h.2
      · subst a; simp_all [Memory.wfFrom]
    · split
      · split
        · simp_all [Memory.wfFrom]
        · simp only [Memory.wfFrom, Bool.and_eq_true, decide_eq_true_eq]
          exact ⟨⟨ha, by assumption⟩, ⟨by omega, h.1.2⟩, h.2⟩
      · simp only [Memory.wfFrom, Bool.and_eq_true, decide_eq_true_eq]
        exact ⟨h.1, ih h.2 (by omega)⟩

theorem wf_write {m : Memory} (h : Memory.wf m = true) (a : Nat) (b : Byte) :
    Memory.wf (memWrite m a b) = true := wfFrom_write h (Nat.zero_le a)

theorem wf_store {m : Memory} (h : Memory.wf m = true) (a : Nat) (bs : List Byte) :
    Memory.wf (memStore m a bs) = true := by
  induction bs generalizing m a with
  | nil => exact h
  | cons b bs ih => exact ih (wf_write h a b) (a + 1)

/-! ### Reading a map back -/

theorem find_put {α : Type} (m : SMap α) (i j : Nat) (v : α) :
    SMap.find (SMap.put m i v) j = if j = i then some v else SMap.find m j := by
  induction m with
  | nil => simp only [SMap.put, SMap.find]; split <;> simp_all
  | cons kv m ih =>
    obtain ⟨k, w⟩ := kv
    simp only [SMap.put]
    split
    · subst i; simp only [SMap.find]; split <;> simp_all
    · split
      · simp only [SMap.find]; repeat' split
        all_goals first | rfl | omega
      · simp only [SMap.find, ih]; split <;> split <;> simp_all; omega

theorem getD_put {α : Type} (m : SMap α) (i j : Nat) (v d : α) :
    SMap.getD (SMap.put m i v) j d = if j = i then v else SMap.getD m j d := by
  simp only [SMap.getD, find_put]; split <;> rfl

theorem find_none_of_lt {α : Type} {lo j : Nat} {m : SMap α} (h : keysFrom lo m = true) (hj : j < lo) :
    SMap.find m j = none := by
  cases m with
  | nil => rfl
  | cons kv m =>
    obtain ⟨k, w⟩ := kv
    simp only [keysFrom, Bool.and_eq_true, decide_eq_true_eq] at h
    unfold SMap.find
    rw [if_neg (by omega)]; rw [if_pos (by omega)]

theorem find_del {α : Type} {lo : Nat} {m : SMap α} (h : keysFrom lo m = true) (i j : Nat) :
    SMap.find (SMap.del m i) j = if j = i then none else SMap.find m j := by
  induction m generalizing lo with
  | nil => simp [SMap.del, SMap.find]
  | cons kv m ih =>
    obtain ⟨k, w⟩ := kv
    simp only [keysFrom, Bool.and_eq_true, decide_eq_true_eq] at h
    have ih := ih h.2
    unfold SMap.del
    split
    · subst i
      split
      · subst j; exact find_none_of_lt h.2 (by omega)
      · conv => rhs; unfold SMap.find
        rw [if_neg (by assumption)]
        split
        · exact find_none_of_lt h.2 (by omega)
        · rfl
    · split
      · split
        · subst j; unfold SMap.find; simp_all
        · rfl
      · simp only [SMap.find, ih]; split <;> split <;> simp_all

/-! ### Reading memory back -/

theorem memRead_of_lt {lo a : Nat} {m : Memory} (h : Memory.wfFrom lo m = true) (ha : a < lo) :
    memRead m a = Memory.unlisted := by
  cases m with
  | nil => rfl
  | cons kv m =>
    obtain ⟨k, v⟩ := kv
    simp only [Memory.wfFrom, Bool.and_eq_true, decide_eq_true_eq] at h
    unfold memRead
    rw [if_neg (by omega), if_pos (by omega)]

theorem memRead_write_from {lo : Nat} {m : Memory} (h : Memory.wfFrom lo m = true) (a c : Nat)
    (b : Byte) : memRead (memWrite m a b) c = if c = a then b else memRead m c := by
  induction m generalizing lo with
  | nil =>
    unfold memWrite
    split
    · subst b; split <;> rfl
    · simp only [memRead]; repeat' split
      all_goals rfl
  | cons kv m ih =>
    obtain ⟨k, v⟩ := kv
    simp only [Memory.wfFrom, Bool.and_eq_true, decide_eq_true_eq] at h
    have ih := ih h.2
    have hlt : ∀ x, x < k + 1 → memRead m x = Memory.unlisted := fun x hx => memRead_of_lt h.2 hx
    unfold memWrite
    split
    · subst a
      split
      · subst b
        simp only [memRead]; repeat' split
        all_goals first | rfl | omega | (exact hlt _ (by omega))
      · simp only [memRead]
        repeat' split
        all_goals rfl
    · split
      · split
        · subst b
          simp only [memRead]; repeat' split
          all_goals first | rfl | omega
        · simp only [memRead]; repeat' split
          all_goals first | rfl | omega
      · simp only [memRead, ih]; repeat' split
        all_goals first | rfl | omega

/-- A byte written reads back, and every other byte reads as before. -/
theorem memRead_write {m : Memory} (h : Memory.wf m = true) (a c : Nat) (b : Byte) :
    memRead (memWrite m a b) c = if c = a then b else memRead m c := memRead_write_from h a c b

/-- Bytes stored leave every address outside them. -/
theorem memRead_store_of_out {m : Memory} (h : Memory.wf m = true) (a c : Nat) (bs : List Byte)
    (hc : c < a ∨ a + bs.length ≤ c) : memRead (memStore m a bs) c = memRead m c := by
  induction bs generalizing m a with
  | nil => rfl
  | cons b bs ih =>
    simp only [List.length_cons] at hc
    unfold memStore
    rw [ih (wf_write h a b) (a + 1) (by omega), memRead_write h, if_neg (by omega)]

/-- Bytes stored read back. -/
theorem memBytes_store {m : Memory} (h : Memory.wf m = true) (a : Nat) (bs : List Byte) :
    memBytes (memStore m a bs) a bs.length = bs := by
  induction bs generalizing m a with
  | nil => rfl
  | cons b bs ih =>
    unfold memStore
    rw [List.length_cons]
    unfold memBytes
    rw [ih (wf_write h a b) (a + 1), memRead_store_of_out (wf_write h a b) _ _ _ (by omega),
      memRead_write h, if_pos rfl]

end Sys2Proof.Laws
end

