-- ==== Sys2Proof/Laws/State.lean ====
section
/-!
SUPPORT. Laws/State.lean: for each named update of `State`, what it does to each field; what a unit
and a register field read back as.
-/
open Sys2Proof Sys2Proof.Machine Sys2Proof.Safety
namespace Sys2Proof.Laws

/-! ### `wr` -/

@[simp] theorem wr_pending (s : State) (p : PageId) (f : Fld) (v i : Nat) : (wr s p f v i).pending = s.pending := rfl
@[simp] theorem wr_sent (s : State) (p : PageId) (f : Fld) (v i : Nat) : (wr s p f v i).sent = s.sent := rfl
@[simp] theorem wr_fresh (s : State) (p : PageId) (f : Fld) (v i : Nat) : (wr s p f v i).fresh = s.fresh := rfl
@[simp] theorem wr_latches (s : State) (p : PageId) (f : Fld) (v i : Nat) : (wr s p f v i).latches = s.latches := rfl
@[simp] theorem wr_captures (s : State) (p : PageId) (f : Fld) (v i : Nat) : (wr s p f v i).captures = s.captures := rfl
@[simp] theorem wr_msix (s : State) (p : PageId) (f : Fld) (v i : Nat) : (wr s p f v i).msix = s.msix := rfl
@[simp] theorem wr_pba (s : State) (p : PageId) (f : Fld) (v i : Nat) : (wr s p f v i).pba = s.pba := rfl
@[simp] theorem wr_fuses (s : State) (p : PageId) (f : Fld) (v i : Nat) : (wr s p f v i).fuses = s.fuses := rfl
@[simp] theorem wr_sensed (s : State) (p : PageId) (f : Fld) (v i : Nat) : (wr s p f v i).sensed = s.sensed := rfl
@[simp] theorem wr_sec (s : State) (p : PageId) (f : Fld) (v i : Nat) : (wr s p f v i).sec = s.sec := rfl
@[simp] theorem wr_dawn (s : State) (p : PageId) (f : Fld) (v i : Nat) : (wr s p f v i).dawn = s.dawn := rfl
@[simp] theorem wr_dusk (s : State) (p : PageId) (f : Fld) (v i : Nat) : (wr s p f v i).dusk = s.dusk := rfl
@[simp] theorem wr_tiles (s : State) (p : PageId) (f : Fld) (v i : Nat) : (wr s p f v i).tiles = s.tiles := rfl
@[simp] theorem wr_slices (s : State) (p : PageId) (f : Fld) (v i : Nat) : (wr s p f v i).slices = s.slices := rfl
@[simp] theorem wr_procs (s : State) (p : PageId) (f : Fld) (v i : Nat) : (wr s p f v i).procs = s.procs := rfl
@[simp] theorem wr_images (s : State) (p : PageId) (f : Fld) (v i : Nat) : (wr s p f v i).images = s.images := rfl
@[simp] theorem wr_scrubs (s : State) (p : PageId) (f : Fld) (v i : Nat) : (wr s p f v i).scrubs = s.scrubs := rfl
@[simp] theorem wr_hostHeld (s : State) (p : PageId) (f : Fld) (v i : Nat) : (wr s p f v i).hostHeld = s.hostHeld := rfl
@[simp] theorem wr_glbHeld (s : State) (p : PageId) (f : Fld) (v i : Nat) : (wr s p f v i).glbHeld = s.glbHeld := rfl
@[simp] theorem wr_links (s : State) (p : PageId) (f : Fld) (v i : Nat) : (wr s p f v i).links = s.links := rfl
@[simp] theorem wr_crossings (s : State) (p : PageId) (f : Fld) (v i : Nat) : (wr s p f v i).crossings = s.crossings := rfl
@[simp] theorem wr_topo (s : State) (p : PageId) (f : Fld) (v i : Nat) : (wr s p f v i).topo = s.topo := rfl
@[simp] theorem wr_colls (s : State) (p : PageId) (f : Fld) (v i : Nat) : (wr s p f v i).colls = s.colls := rfl
@[simp] theorem wr_nextColl (s : State) (p : PageId) (f : Fld) (v i : Nat) : (wr s p f v i).nextColl = s.nextColl := rfl
@[simp] theorem wr_collCounts (s : State) (p : PageId) (f : Fld) (v i : Nat) : (wr s p f v i).collCounts = s.collCounts := rfl
@[simp] theorem wr_early (s : State) (p : PageId) (f : Fld) (v i : Nat) : (wr s p f v i).early = s.early := rfl
@[simp] theorem wr_meshIn (s : State) (p : PageId) (f : Fld) (v i : Nat) : (wr s p f v i).meshIn = s.meshIn := rfl
@[simp] theorem wr_collIn (s : State) (p : PageId) (f : Fld) (v i : Nat) : (wr s p f v i).collIn = s.collIn := rfl
@[simp] theorem wr_refusalHeld (s : State) (p : PageId) (f : Fld) (v i : Nat) : (wr s p f v i).refusalHeld = s.refusalHeld := rfl
@[simp] theorem wr_resetWaits (s : State) (p : PageId) (f : Fld) (v i : Nat) : (wr s p f v i).resetWaits = s.resetWaits := rfl
@[simp] theorem wr_smbOffset (s : State) (p : PageId) (f : Fld) (v i : Nat) : (wr s p f v i).smbOffset = s.smbOffset := rfl

/-! ### `emit` -/

@[simp] theorem emit_pending (s : State) (o : Out) : (emit s o).pending = s.pending := rfl
@[simp] theorem emit_fresh (s : State) (o : Out) : (emit s o).fresh = s.fresh := rfl
@[simp] theorem emit_regs (s : State) (o : Out) : (emit s o).regs = s.regs := rfl
@[simp] theorem emit_latches (s : State) (o : Out) : (emit s o).latches = s.latches := rfl
@[simp] theorem emit_captures (s : State) (o : Out) : (emit s o).captures = s.captures := rfl
@[simp] theorem emit_msix (s : State) (o : Out) : (emit s o).msix = s.msix := rfl
@[simp] theorem emit_pba (s : State) (o : Out) : (emit s o).pba = s.pba := rfl
@[simp] theorem emit_fuses (s : State) (o : Out) : (emit s o).fuses = s.fuses := rfl
@[simp] theorem emit_sensed (s : State) (o : Out) : (emit s o).sensed = s.sensed := rfl
@[simp] theorem emit_sec (s : State) (o : Out) : (emit s o).sec = s.sec := rfl
@[simp] theorem emit_dawn (s : State) (o : Out) : (emit s o).dawn = s.dawn := rfl
@[simp] theorem emit_dusk (s : State) (o : Out) : (emit s o).dusk = s.dusk := rfl
@[simp] theorem emit_tiles (s : State) (o : Out) : (emit s o).tiles = s.tiles := rfl
@[simp] theorem emit_slices (s : State) (o : Out) : (emit s o).slices = s.slices := rfl
@[simp] theorem emit_procs (s : State) (o : Out) : (emit s o).procs = s.procs := rfl
@[simp] theorem emit_images (s : State) (o : Out) : (emit s o).images = s.images := rfl
@[simp] theorem emit_scrubs (s : State) (o : Out) : (emit s o).scrubs = s.scrubs := rfl
@[simp] theorem emit_hostHeld (s : State) (o : Out) : (emit s o).hostHeld = s.hostHeld := rfl
@[simp] theorem emit_glbHeld (s : State) (o : Out) : (emit s o).glbHeld = s.glbHeld := rfl
@[simp] theorem emit_links (s : State) (o : Out) : (emit s o).links = s.links := rfl
@[simp] theorem emit_crossings (s : State) (o : Out) : (emit s o).crossings = s.crossings := rfl
@[simp] theorem emit_topo (s : State) (o : Out) : (emit s o).topo = s.topo := rfl
@[simp] theorem emit_colls (s : State) (o : Out) : (emit s o).colls = s.colls := rfl
@[simp] theorem emit_nextColl (s : State) (o : Out) : (emit s o).nextColl = s.nextColl := rfl
@[simp] theorem emit_collCounts (s : State) (o : Out) : (emit s o).collCounts = s.collCounts := rfl
@[simp] theorem emit_early (s : State) (o : Out) : (emit s o).early = s.early := rfl
@[simp] theorem emit_meshIn (s : State) (o : Out) : (emit s o).meshIn = s.meshIn := rfl
@[simp] theorem emit_collIn (s : State) (o : Out) : (emit s o).collIn = s.collIn := rfl
@[simp] theorem emit_refusalHeld (s : State) (o : Out) : (emit s o).refusalHeld = s.refusalHeld := rfl
@[simp] theorem emit_resetWaits (s : State) (o : Out) : (emit s o).resetWaits = s.resetWaits := rfl
@[simp] theorem emit_smbOffset (s : State) (o : Out) : (emit s o).smbOffset = s.smbOffset := rfl
@[simp] theorem rd_emit (s : State) (o : Out) (q : PageId) (g : Fld) (j : Nat) :
    rd (emit s o) q g j = rd s q g j := rfl

/-! ### `setTile` -/

@[simp] theorem setTile_pending (s : State) (n : Nat) (x : Tile) : (setTile s n x).pending = s.pending := rfl
@[simp] theorem setTile_sent (s : State) (n : Nat) (x : Tile) : (setTile s n x).sent = s.sent := rfl
@[simp] theorem setTile_fresh (s : State) (n : Nat) (x : Tile) : (setTile s n x).fresh = s.fresh := rfl
@[simp] theorem setTile_regs (s : State) (n : Nat) (x : Tile) : (setTile s n x).regs = s.regs := rfl
@[simp] theorem setTile_latches (s : State) (n : Nat) (x : Tile) : (setTile s n x).latches = s.latches := rfl
@[simp] theorem setTile_captures (s : State) (n : Nat) (x : Tile) : (setTile s n x).captures = s.captures := rfl
@[simp] theorem setTile_msix (s : State) (n : Nat) (x : Tile) : (setTile s n x).msix = s.msix := rfl
@[simp] theorem setTile_pba (s : State) (n : Nat) (x : Tile) : (setTile s n x).pba = s.pba := rfl
@[simp] theorem setTile_fuses (s : State) (n : Nat) (x : Tile) : (setTile s n x).fuses = s.fuses := rfl
@[simp] theorem setTile_sensed (s : State) (n : Nat) (x : Tile) : (setTile s n x).sensed = s.sensed := rfl
@[simp] theorem setTile_sec (s : State) (n : Nat) (x : Tile) : (setTile s n x).sec = s.sec := rfl
@[simp] theorem setTile_dawn (s : State) (n : Nat) (x : Tile) : (setTile s n x).dawn = s.dawn := rfl
@[simp] theorem setTile_dusk (s : State) (n : Nat) (x : Tile) : (setTile s n x).dusk = s.dusk := rfl
@[simp] theorem setTile_slices (s : State) (n : Nat) (x : Tile) : (setTile s n x).slices = s.slices := rfl
@[simp] theorem setTile_procs (s : State) (n : Nat) (x : Tile) : (setTile s n x).procs = s.procs := rfl
@[simp] theorem setTile_images (s : State) (n : Nat) (x : Tile) : (setTile s n x).images = s.images := rfl
@[simp] theorem setTile_scrubs (s : State) (n : Nat) (x : Tile) : (setTile s n x).scrubs = s.scrubs := rfl
@[simp] theorem setTile_hostHeld (s : State) (n : Nat) (x : Tile) : (setTile s n x).hostHeld = s.hostHeld := rfl
@[simp] theorem setTile_glbHeld (s : State) (n : Nat) (x : Tile) : (setTile s n x).glbHeld = s.glbHeld := rfl
@[simp] theorem setTile_links (s : State) (n : Nat) (x : Tile) : (setTile s n x).links = s.links := rfl
@[simp] theorem setTile_crossings (s : State) (n : Nat) (x : Tile) : (setTile s n x).crossings = s.crossings := rfl
@[simp] theorem setTile_topo (s : State) (n : Nat) (x : Tile) : (setTile s n x).topo = s.topo := rfl
@[simp] theorem setTile_colls (s : State) (n : Nat) (x : Tile) : (setTile s n x).colls = s.colls := rfl
@[simp] theorem setTile_nextColl (s : State) (n : Nat) (x : Tile) : (setTile s n x).nextColl = s.nextColl := rfl
@[simp] theorem setTile_collCounts (s : State) (n : Nat) (x : Tile) : (setTile s n x).collCounts = s.collCounts := rfl
@[simp] theorem setTile_early (s : State) (n : Nat) (x : Tile) : (setTile s n x).early = s.early := rfl
@[simp] theorem setTile_meshIn (s : State) (n : Nat) (x : Tile) : (setTile s n x).meshIn = s.meshIn := rfl
@[simp] theorem setTile_collIn (s : State) (n : Nat) (x : Tile) : (setTile s n x).collIn = s.collIn := rfl
@[simp] theorem setTile_refusalHeld (s : State) (n : Nat) (x : Tile) : (setTile s n x).refusalHeld = s.refusalHeld := rfl
@[simp] theorem setTile_resetWaits (s : State) (n : Nat) (x : Tile) : (setTile s n x).resetWaits = s.resetWaits := rfl
@[simp] theorem setTile_smbOffset (s : State) (n : Nat) (x : Tile) : (setTile s n x).smbOffset = s.smbOffset := rfl
@[simp] theorem rd_setTile (s : State) (n : Nat) (x : Tile) (q : PageId) (g : Fld) (j : Nat) :
    rd (setTile s n x) q g j = rd s q g j := rfl

/-! ### `setSlice` -/

@[simp] theorem setSlice_pending (s : State) (n : Nat) (x : Slice) : (setSlice s n x).pending = s.pending := rfl
@[simp] theorem setSlice_sent (s : State) (n : Nat) (x : Slice) : (setSlice s n x).sent = s.sent := rfl
@[simp] theorem setSlice_fresh (s : State) (n : Nat) (x : Slice) : (setSlice s n x).fresh = s.fresh := rfl
@[simp] theorem setSlice_regs (s : State) (n : Nat) (x : Slice) : (setSlice s n x).regs = s.regs := rfl
@[simp] theorem setSlice_latches (s : State) (n : Nat) (x : Slice) : (setSlice s n x).latches = s.latches := rfl
@[simp] theorem setSlice_captures (s : State) (n : Nat) (x : Slice) : (setSlice s n x).captures = s.captures := rfl
@[simp] theorem setSlice_msix (s : State) (n : Nat) (x : Slice) : (setSlice s n x).msix = s.msix := rfl
@[simp] theorem setSlice_pba (s : State) (n : Nat) (x : Slice) : (setSlice s n x).pba = s.pba := rfl
@[simp] theorem setSlice_fuses (s : State) (n : Nat) (x : Slice) : (setSlice s n x).fuses = s.fuses := rfl
@[simp] theorem setSlice_sensed (s : State) (n : Nat) (x : Slice) : (setSlice s n x).sensed = s.sensed := rfl
@[simp] theorem setSlice_sec (s : State) (n : Nat) (x : Slice) : (setSlice s n x).sec = s.sec := rfl
@[simp] theorem setSlice_dawn (s : State) (n : Nat) (x : Slice) : (setSlice s n x).dawn = s.dawn := rfl
@[simp] theorem setSlice_dusk (s : State) (n : Nat) (x : Slice) : (setSlice s n x).dusk = s.dusk := rfl
@[simp] theorem setSlice_tiles (s : State) (n : Nat) (x : Slice) : (setSlice s n x).tiles = s.tiles := rfl
@[simp] theorem setSlice_procs (s : State) (n : Nat) (x : Slice) : (setSlice s n x).procs = s.procs := rfl
@[simp] theorem setSlice_images (s : State) (n : Nat) (x : Slice) : (setSlice s n x).images = s.images := rfl
@[simp] theorem setSlice_scrubs (s : State) (n : Nat) (x : Slice) : (setSlice s n x).scrubs = s.scrubs := rfl
@[simp] theorem setSlice_hostHeld (s : State) (n : Nat) (x : Slice) : (setSlice s n x).hostHeld = s.hostHeld := rfl
@[simp] theorem setSlice_glbHeld (s : State) (n : Nat) (x : Slice) : (setSlice s n x).glbHeld = s.glbHeld := rfl
@[simp] theorem setSlice_links (s : State) (n : Nat) (x : Slice) : (setSlice s n x).links = s.links := rfl
@[simp] theorem setSlice_crossings (s : State) (n : Nat) (x : Slice) : (setSlice s n x).crossings = s.crossings := rfl
@[simp] theorem setSlice_topo (s : State) (n : Nat) (x : Slice) : (setSlice s n x).topo = s.topo := rfl
@[simp] theorem setSlice_colls (s : State) (n : Nat) (x : Slice) : (setSlice s n x).colls = s.colls := rfl
@[simp] theorem setSlice_nextColl (s : State) (n : Nat) (x : Slice) : (setSlice s n x).nextColl = s.nextColl := rfl
@[simp] theorem setSlice_collCounts (s : State) (n : Nat) (x : Slice) : (setSlice s n x).collCounts = s.collCounts := rfl
@[simp] theorem setSlice_early (s : State) (n : Nat) (x : Slice) : (setSlice s n x).early = s.early := rfl
@[simp] theorem setSlice_meshIn (s : State) (n : Nat) (x : Slice) : (setSlice s n x).meshIn = s.meshIn := rfl
@[simp] theorem setSlice_collIn (s : State) (n : Nat) (x : Slice) : (setSlice s n x).collIn = s.collIn := rfl
@[simp] theorem setSlice_refusalHeld (s : State) (n : Nat) (x : Slice) : (setSlice s n x).refusalHeld = s.refusalHeld := rfl
@[simp] theorem setSlice_resetWaits (s : State) (n : Nat) (x : Slice) : (setSlice s n x).resetWaits = s.resetWaits := rfl
@[simp] theorem setSlice_smbOffset (s : State) (n : Nat) (x : Slice) : (setSlice s n x).smbOffset = s.smbOffset := rfl
@[simp] theorem rd_setSlice (s : State) (n : Nat) (x : Slice) (q : PageId) (g : Fld) (j : Nat) :
    rd (setSlice s n x) q g j = rd s q g j := rfl

/-! ### `setProc` -/

@[simp] theorem setProc_pending (s : State) (n : Nat) (x : Proc) : (setProc s n x).pending = s.pending := rfl
@[simp] theorem setProc_sent (s : State) (n : Nat) (x : Proc) : (setProc s n x).sent = s.sent := rfl
@[simp] theorem setProc_fresh (s : State) (n : Nat) (x : Proc) : (setProc s n x).fresh = s.fresh := rfl
@[simp] theorem setProc_regs (s : State) (n : Nat) (x : Proc) : (setProc s n x).regs = s.regs := rfl
@[simp] theorem setProc_latches (s : State) (n : Nat) (x : Proc) : (setProc s n x).latches = s.latches := rfl
@[simp] theorem setProc_captures (s : State) (n : Nat) (x : Proc) : (setProc s n x).captures = s.captures := rfl
@[simp] theorem setProc_msix (s : State) (n : Nat) (x : Proc) : (setProc s n x).msix = s.msix := rfl
@[simp] theorem setProc_pba (s : State) (n : Nat) (x : Proc) : (setProc s n x).pba = s.pba := rfl
@[simp] theorem setProc_fuses (s : State) (n : Nat) (x : Proc) : (setProc s n x).fuses = s.fuses := rfl
@[simp] theorem setProc_sensed (s : State) (n : Nat) (x : Proc) : (setProc s n x).sensed = s.sensed := rfl
@[simp] theorem setProc_sec (s : State) (n : Nat) (x : Proc) : (setProc s n x).sec = s.sec := rfl
@[simp] theorem setProc_dawn (s : State) (n : Nat) (x : Proc) : (setProc s n x).dawn = s.dawn := rfl
@[simp] theorem setProc_dusk (s : State) (n : Nat) (x : Proc) : (setProc s n x).dusk = s.dusk := rfl
@[simp] theorem setProc_tiles (s : State) (n : Nat) (x : Proc) : (setProc s n x).tiles = s.tiles := rfl
@[simp] theorem setProc_slices (s : State) (n : Nat) (x : Proc) : (setProc s n x).slices = s.slices := rfl
@[simp] theorem setProc_images (s : State) (n : Nat) (x : Proc) : (setProc s n x).images = s.images := rfl
@[simp] theorem setProc_scrubs (s : State) (n : Nat) (x : Proc) : (setProc s n x).scrubs = s.scrubs := rfl
@[simp] theorem setProc_hostHeld (s : State) (n : Nat) (x : Proc) : (setProc s n x).hostHeld = s.hostHeld := rfl
@[simp] theorem setProc_glbHeld (s : State) (n : Nat) (x : Proc) : (setProc s n x).glbHeld = s.glbHeld := rfl
@[simp] theorem setProc_links (s : State) (n : Nat) (x : Proc) : (setProc s n x).links = s.links := rfl
@[simp] theorem setProc_crossings (s : State) (n : Nat) (x : Proc) : (setProc s n x).crossings = s.crossings := rfl
@[simp] theorem setProc_topo (s : State) (n : Nat) (x : Proc) : (setProc s n x).topo = s.topo := rfl
@[simp] theorem setProc_colls (s : State) (n : Nat) (x : Proc) : (setProc s n x).colls = s.colls := rfl
@[simp] theorem setProc_nextColl (s : State) (n : Nat) (x : Proc) : (setProc s n x).nextColl = s.nextColl := rfl
@[simp] theorem setProc_collCounts (s : State) (n : Nat) (x : Proc) : (setProc s n x).collCounts = s.collCounts := rfl
@[simp] theorem setProc_early (s : State) (n : Nat) (x : Proc) : (setProc s n x).early = s.early := rfl
@[simp] theorem setProc_meshIn (s : State) (n : Nat) (x : Proc) : (setProc s n x).meshIn = s.meshIn := rfl
@[simp] theorem setProc_collIn (s : State) (n : Nat) (x : Proc) : (setProc s n x).collIn = s.collIn := rfl
@[simp] theorem setProc_refusalHeld (s : State) (n : Nat) (x : Proc) : (setProc s n x).refusalHeld = s.refusalHeld := rfl
@[simp] theorem setProc_resetWaits (s : State) (n : Nat) (x : Proc) : (setProc s n x).resetWaits = s.resetWaits := rfl
@[simp] theorem setProc_smbOffset (s : State) (n : Nat) (x : Proc) : (setProc s n x).smbOffset = s.smbOffset := rfl
@[simp] theorem rd_setProc (s : State) (n : Nat) (x : Proc) (q : PageId) (g : Fld) (j : Nat) :
    rd (setProc s n x) q g j = rd s q g j := rfl

/-! ### `setDom` -/

@[simp] theorem setDom_pending (s : State) (n : Nat) (x : Dom) : (setDom s n x).pending = s.pending := rfl
@[simp] theorem setDom_sent (s : State) (n : Nat) (x : Dom) : (setDom s n x).sent = s.sent := rfl
@[simp] theorem setDom_fresh (s : State) (n : Nat) (x : Dom) : (setDom s n x).fresh = s.fresh := rfl
@[simp] theorem setDom_regs (s : State) (n : Nat) (x : Dom) : (setDom s n x).regs = s.regs := rfl
@[simp] theorem setDom_latches (s : State) (n : Nat) (x : Dom) : (setDom s n x).latches = s.latches := rfl
@[simp] theorem setDom_captures (s : State) (n : Nat) (x : Dom) : (setDom s n x).captures = s.captures := rfl
@[simp] theorem setDom_msix (s : State) (n : Nat) (x : Dom) : (setDom s n x).msix = s.msix := rfl
@[simp] theorem setDom_pba (s : State) (n : Nat) (x : Dom) : (setDom s n x).pba = s.pba := rfl
@[simp] theorem setDom_fuses (s : State) (n : Nat) (x : Dom) : (setDom s n x).fuses = s.fuses := rfl
@[simp] theorem setDom_sensed (s : State) (n : Nat) (x : Dom) : (setDom s n x).sensed = s.sensed := rfl
@[simp] theorem setDom_sec (s : State) (n : Nat) (x : Dom) : (setDom s n x).sec = s.sec := rfl
@[simp] theorem setDom_dawn (s : State) (n : Nat) (x : Dom) : (setDom s n x).dawn = s.dawn := rfl
@[simp] theorem setDom_tiles (s : State) (n : Nat) (x : Dom) : (setDom s n x).tiles = s.tiles := rfl
@[simp] theorem setDom_slices (s : State) (n : Nat) (x : Dom) : (setDom s n x).slices = s.slices := rfl
@[simp] theorem setDom_procs (s : State) (n : Nat) (x : Dom) : (setDom s n x).procs = s.procs := rfl
@[simp] theorem setDom_images (s : State) (n : Nat) (x : Dom) : (setDom s n x).images = s.images := rfl
@[simp] theorem setDom_scrubs (s : State) (n : Nat) (x : Dom) : (setDom s n x).scrubs = s.scrubs := rfl
@[simp] theorem setDom_hostHeld (s : State) (n : Nat) (x : Dom) : (setDom s n x).hostHeld = s.hostHeld := rfl
@[simp] theorem setDom_glbHeld (s : State) (n : Nat) (x : Dom) : (setDom s n x).glbHeld = s.glbHeld := rfl
@[simp] theorem setDom_links (s : State) (n : Nat) (x : Dom) : (setDom s n x).links = s.links := rfl
@[simp] theorem setDom_crossings (s : State) (n : Nat) (x : Dom) : (setDom s n x).crossings = s.crossings := rfl
@[simp] theorem setDom_topo (s : State) (n : Nat) (x : Dom) : (setDom s n x).topo = s.topo := rfl
@[simp] theorem setDom_colls (s : State) (n : Nat) (x : Dom) : (setDom s n x).colls = s.colls := rfl
@[simp] theorem setDom_nextColl (s : State) (n : Nat) (x : Dom) : (setDom s n x).nextColl = s.nextColl := rfl
@[simp] theorem setDom_collCounts (s : State) (n : Nat) (x : Dom) : (setDom s n x).collCounts = s.collCounts := rfl
@[simp] theorem setDom_early (s : State) (n : Nat) (x : Dom) : (setDom s n x).early = s.early := rfl
@[simp] theorem setDom_meshIn (s : State) (n : Nat) (x : Dom) : (setDom s n x).meshIn = s.meshIn := rfl
@[simp] theorem setDom_collIn (s : State) (n : Nat) (x : Dom) : (setDom s n x).collIn = s.collIn := rfl
@[simp] theorem setDom_refusalHeld (s : State) (n : Nat) (x : Dom) : (setDom s n x).refusalHeld = s.refusalHeld := rfl
@[simp] theorem setDom_resetWaits (s : State) (n : Nat) (x : Dom) : (setDom s n x).resetWaits = s.resetWaits := rfl
@[simp] theorem setDom_smbOffset (s : State) (n : Nat) (x : Dom) : (setDom s n x).smbOffset = s.smbOffset := rfl
@[simp] theorem rd_setDom (s : State) (n : Nat) (x : Dom) (q : PageId) (g : Fld) (j : Nat) :
    rd (setDom s n x) q g j = rd s q g j := rfl

/-! ### `setLink` -/

@[simp] theorem setLink_pending (s : State) (n : Nat) (x : Link) : (setLink s n x).pending = s.pending := rfl
@[simp] theorem setLink_sent (s : State) (n : Nat) (x : Link) : (setLink s n x).sent = s.sent := rfl
@[simp] theorem setLink_fresh (s : State) (n : Nat) (x : Link) : (setLink s n x).fresh = s.fresh := rfl
@[simp] theorem setLink_regs (s : State) (n : Nat) (x : Link) : (setLink s n x).regs = s.regs := rfl
@[simp] theorem setLink_latches (s : State) (n : Nat) (x : Link) : (setLink s n x).latches = s.latches := rfl
@[simp] theorem setLink_captures (s : State) (n : Nat) (x : Link) : (setLink s n x).captures = s.captures := rfl
@[simp] theorem setLink_msix (s : State) (n : Nat) (x : Link) : (setLink s n x).msix = s.msix := rfl
@[simp] theorem setLink_pba (s : State) (n : Nat) (x : Link) : (setLink s n x).pba = s.pba := rfl
@[simp] theorem setLink_fuses (s : State) (n : Nat) (x : Link) : (setLink s n x).fuses = s.fuses := rfl
@[simp] theorem setLink_sensed (s : State) (n : Nat) (x : Link) : (setLink s n x).sensed = s.sensed := rfl
@[simp] theorem setLink_sec (s : State) (n : Nat) (x : Link) : (setLink s n x).sec = s.sec := rfl
@[simp] theorem setLink_dawn (s : State) (n : Nat) (x : Link) : (setLink s n x).dawn = s.dawn := rfl
@[simp] theorem setLink_dusk (s : State) (n : Nat) (x : Link) : (setLink s n x).dusk = s.dusk := rfl
@[simp] theorem setLink_tiles (s : State) (n : Nat) (x : Link) : (setLink s n x).tiles = s.tiles := rfl
@[simp] theorem setLink_slices (s : State) (n : Nat) (x : Link) : (setLink s n x).slices = s.slices := rfl
@[simp] theorem setLink_procs (s : State) (n : Nat) (x : Link) : (setLink s n x).procs = s.procs := rfl
@[simp] theorem setLink_images (s : State) (n : Nat) (x : Link) : (setLink s n x).images = s.images := rfl
@[simp] theorem setLink_scrubs (s : State) (n : Nat) (x : Link) : (setLink s n x).scrubs = s.scrubs := rfl
@[simp] theorem setLink_hostHeld (s : State) (n : Nat) (x : Link) : (setLink s n x).hostHeld = s.hostHeld := rfl
@[simp] theorem setLink_glbHeld (s : State) (n : Nat) (x : Link) : (setLink s n x).glbHeld = s.glbHeld := rfl
@[simp] theorem setLink_crossings (s : State) (n : Nat) (x : Link) : (setLink s n x).crossings = s.crossings := rfl
@[simp] theorem setLink_topo (s : State) (n : Nat) (x : Link) : (setLink s n x).topo = s.topo := rfl
@[simp] theorem setLink_colls (s : State) (n : Nat) (x : Link) : (setLink s n x).colls = s.colls := rfl
@[simp] theorem setLink_nextColl (s : State) (n : Nat) (x : Link) : (setLink s n x).nextColl = s.nextColl := rfl
@[simp] theorem setLink_collCounts (s : State) (n : Nat) (x : Link) : (setLink s n x).collCounts = s.collCounts := rfl
@[simp] theorem setLink_early (s : State) (n : Nat) (x : Link) : (setLink s n x).early = s.early := rfl
@[simp] theorem setLink_meshIn (s : State) (n : Nat) (x : Link) : (setLink s n x).meshIn = s.meshIn := rfl
@[simp] theorem setLink_collIn (s : State) (n : Nat) (x : Link) : (setLink s n x).collIn = s.collIn := rfl
@[simp] theorem setLink_refusalHeld (s : State) (n : Nat) (x : Link) : (setLink s n x).refusalHeld = s.refusalHeld := rfl
@[simp] theorem setLink_resetWaits (s : State) (n : Nat) (x : Link) : (setLink s n x).resetWaits = s.resetWaits := rfl
@[simp] theorem setLink_smbOffset (s : State) (n : Nat) (x : Link) : (setLink s n x).smbOffset = s.smbOffset := rfl
@[simp] theorem rd_setLink (s : State) (n : Nat) (x : Link) (q : PageId) (g : Fld) (j : Nat) :
    rd (setLink s n x) q g j = rd s q g j := rfl

/-! ### `setCrossing` -/

@[simp] theorem setCrossing_pending (s : State) (n : Nat) (x : Cross) : (setCrossing s n x).pending = s.pending := rfl
@[simp] theorem setCrossing_sent (s : State) (n : Nat) (x : Cross) : (setCrossing s n x).sent = s.sent := rfl
@[simp] theorem setCrossing_fresh (s : State) (n : Nat) (x : Cross) : (setCrossing s n x).fresh = s.fresh := rfl
@[simp] theorem setCrossing_regs (s : State) (n : Nat) (x : Cross) : (setCrossing s n x).regs = s.regs := rfl
@[simp] theorem setCrossing_latches (s : State) (n : Nat) (x : Cross) : (setCrossing s n x).latches = s.latches := rfl
@[simp] theorem setCrossing_captures (s : State) (n : Nat) (x : Cross) : (setCrossing s n x).captures = s.captures := rfl
@[simp] theorem setCrossing_msix (s : State) (n : Nat) (x : Cross) : (setCrossing s n x).msix = s.msix := rfl
@[simp] theorem setCrossing_pba (s : State) (n : Nat) (x : Cross) : (setCrossing s n x).pba = s.pba := rfl
@[simp] theorem setCrossing_fuses (s : State) (n : Nat) (x : Cross) : (setCrossing s n x).fuses = s.fuses := rfl
@[simp] theorem setCrossing_sensed (s : State) (n : Nat) (x : Cross) : (setCrossing s n x).sensed = s.sensed := rfl
@[simp] theorem setCrossing_sec (s : State) (n : Nat) (x : Cross) : (setCrossing s n x).sec = s.sec := rfl
@[simp] theorem setCrossing_dawn (s : State) (n : Nat) (x : Cross) : (setCrossing s n x).dawn = s.dawn := rfl
@[simp] theorem setCrossing_dusk (s : State) (n : Nat) (x : Cross) : (setCrossing s n x).dusk = s.dusk := rfl
@[simp] theorem setCrossing_tiles (s : State) (n : Nat) (x : Cross) : (setCrossing s n x).tiles = s.tiles := rfl
@[simp] theorem setCrossing_slices (s : State) (n : Nat) (x : Cross) : (setCrossing s n x).slices = s.slices := rfl
@[simp] theorem setCrossing_procs (s : State) (n : Nat) (x : Cross) : (setCrossing s n x).procs = s.procs := rfl
@[simp] theorem setCrossing_images (s : State) (n : Nat) (x : Cross) : (setCrossing s n x).images = s.images := rfl
@[simp] theorem setCrossing_scrubs (s : State) (n : Nat) (x : Cross) : (setCrossing s n x).scrubs = s.scrubs := rfl
@[simp] theorem setCrossing_hostHeld (s : State) (n : Nat) (x : Cross) : (setCrossing s n x).hostHeld = s.hostHeld := rfl
@[simp] theorem setCrossing_glbHeld (s : State) (n : Nat) (x : Cross) : (setCrossing s n x).glbHeld = s.glbHeld := rfl
@[simp] theorem setCrossing_links (s : State) (n : Nat) (x : Cross) : (setCrossing s n x).links = s.links := rfl
@[simp] theorem setCrossing_topo (s : State) (n : Nat) (x : Cross) : (setCrossing s n x).topo = s.topo := rfl
@[simp] theorem setCrossing_colls (s : State) (n : Nat) (x : Cross) : (setCrossing s n x).colls = s.colls := rfl
@[simp] theorem setCrossing_nextColl (s : State) (n : Nat) (x : Cross) : (setCrossing s n x).nextColl = s.nextColl := rfl
@[simp] theorem setCrossing_collCounts (s : State) (n : Nat) (x : Cross) : (setCrossing s n x).collCounts = s.collCounts := rfl
@[simp] theorem setCrossing_early (s : State) (n : Nat) (x : Cross) : (setCrossing s n x).early = s.early := rfl
@[simp] theorem setCrossing_meshIn (s : State) (n : Nat) (x : Cross) : (setCrossing s n x).meshIn = s.meshIn := rfl
@[simp] theorem setCrossing_collIn (s : State) (n : Nat) (x : Cross) : (setCrossing s n x).collIn = s.collIn := rfl
@[simp] theorem setCrossing_refusalHeld (s : State) (n : Nat) (x : Cross) : (setCrossing s n x).refusalHeld = s.refusalHeld := rfl
@[simp] theorem setCrossing_resetWaits (s : State) (n : Nat) (x : Cross) : (setCrossing s n x).resetWaits = s.resetWaits := rfl
@[simp] theorem setCrossing_smbOffset (s : State) (n : Nat) (x : Cross) : (setCrossing s n x).smbOffset = s.smbOffset := rfl
@[simp] theorem rd_setCrossing (s : State) (n : Nat) (x : Cross) (q : PageId) (g : Fld) (j : Nat) :
    rd (setCrossing s n x) q g j = rd s q g j := rfl

/-! ### `setColl` -/

@[simp] theorem setColl_pending (s : State) (x : Coll) : (setColl s x).pending = s.pending := rfl
@[simp] theorem setColl_sent (s : State) (x : Coll) : (setColl s x).sent = s.sent := rfl
@[simp] theorem setColl_fresh (s : State) (x : Coll) : (setColl s x).fresh = s.fresh := rfl
@[simp] theorem setColl_regs (s : State) (x : Coll) : (setColl s x).regs = s.regs := rfl
@[simp] theorem setColl_latches (s : State) (x : Coll) : (setColl s x).latches = s.latches := rfl
@[simp] theorem setColl_captures (s : State) (x : Coll) : (setColl s x).captures = s.captures := rfl
@[simp] theorem setColl_msix (s : State) (x : Coll) : (setColl s x).msix = s.msix := rfl
@[simp] theorem setColl_pba (s : State) (x : Coll) : (setColl s x).pba = s.pba := rfl
@[simp] theorem setColl_fuses (s : State) (x : Coll) : (setColl s x).fuses = s.fuses := rfl
@[simp] theorem setColl_sensed (s : State) (x : Coll) : (setColl s x).sensed = s.sensed := rfl
@[simp] theorem setColl_sec (s : State) (x : Coll) : (setColl s x).sec = s.sec := rfl
@[simp] theorem setColl_dawn (s : State) (x : Coll) : (setColl s x).dawn = s.dawn := rfl
@[simp] theorem setColl_dusk (s : State) (x : Coll) : (setColl s x).dusk = s.dusk := rfl
@[simp] theorem setColl_tiles (s : State) (x : Coll) : (setColl s x).tiles = s.tiles := rfl
@[simp] theorem setColl_slices (s : State) (x : Coll) : (setColl s x).slices = s.slices := rfl
@[simp] theorem setColl_procs (s : State) (x : Coll) : (setColl s x).procs = s.procs := rfl
@[simp] theorem setColl_images (s : State) (x : Coll) : (setColl s x).images = s.images := rfl
@[simp] theorem setColl_scrubs (s : State) (x : Coll) : (setColl s x).scrubs = s.scrubs := rfl
@[simp] theorem setColl_hostHeld (s : State) (x : Coll) : (setColl s x).hostHeld = s.hostHeld := rfl
@[simp] theorem setColl_glbHeld (s : State) (x : Coll) : (setColl s x).glbHeld = s.glbHeld := rfl
@[simp] theorem setColl_links (s : State) (x : Coll) : (setColl s x).links = s.links := rfl
@[simp] theorem setColl_crossings (s : State) (x : Coll) : (setColl s x).crossings = s.crossings := rfl
@[simp] theorem setColl_topo (s : State) (x : Coll) : (setColl s x).topo = s.topo := rfl
@[simp] theorem setColl_nextColl (s : State) (x : Coll) : (setColl s x).nextColl = s.nextColl := rfl
@[simp] theorem setColl_collCounts (s : State) (x : Coll) : (setColl s x).collCounts = s.collCounts := rfl
@[simp] theorem setColl_early (s : State) (x : Coll) : (setColl s x).early = s.early := rfl
@[simp] theorem setColl_meshIn (s : State) (x : Coll) : (setColl s x).meshIn = s.meshIn := rfl
@[simp] theorem setColl_collIn (s : State) (x : Coll) : (setColl s x).collIn = s.collIn := rfl
@[simp] theorem setColl_refusalHeld (s : State) (x : Coll) : (setColl s x).refusalHeld = s.refusalHeld := rfl
@[simp] theorem setColl_resetWaits (s : State) (x : Coll) : (setColl s x).resetWaits = s.resetWaits := rfl
@[simp] theorem setColl_smbOffset (s : State) (x : Coll) : (setColl s x).smbOffset = s.smbOffset := rfl
@[simp] theorem rd_setColl (s : State) (x : Coll) (q : PageId) (g : Fld) (j : Nat) :
    rd (setColl s x) q g j = rd s q g j := rfl

/-! ### `dropColl` -/

@[simp] theorem dropColl_pending (s : State) (k : Nat) : (dropColl s k).pending = s.pending := rfl
@[simp] theorem dropColl_sent (s : State) (k : Nat) : (dropColl s k).sent = s.sent := rfl
@[simp] theorem dropColl_fresh (s : State) (k : Nat) : (dropColl s k).fresh = s.fresh := rfl
@[simp] theorem dropColl_regs (s : State) (k : Nat) : (dropColl s k).regs = s.regs := rfl
@[simp] theorem dropColl_latches (s : State) (k : Nat) : (dropColl s k).latches = s.latches := rfl
@[simp] theorem dropColl_captures (s : State) (k : Nat) : (dropColl s k).captures = s.captures := rfl
@[simp] theorem dropColl_msix (s : State) (k : Nat) : (dropColl s k).msix = s.msix := rfl
@[simp] theorem dropColl_pba (s : State) (k : Nat) : (dropColl s k).pba = s.pba := rfl
@[simp] theorem dropColl_fuses (s : State) (k : Nat) : (dropColl s k).fuses = s.fuses := rfl
@[simp] theorem dropColl_sensed (s : State) (k : Nat) : (dropColl s k).sensed = s.sensed := rfl
@[simp] theorem dropColl_sec (s : State) (k : Nat) : (dropColl s k).sec = s.sec := rfl
@[simp] theorem dropColl_dawn (s : State) (k : Nat) : (dropColl s k).dawn = s.dawn := rfl
@[simp] theorem dropColl_dusk (s : State) (k : Nat) : (dropColl s k).dusk = s.dusk := rfl
@[simp] theorem dropColl_tiles (s : State) (k : Nat) : (dropColl s k).tiles = s.tiles := rfl
@[simp] theorem dropColl_slices (s : State) (k : Nat) : (dropColl s k).slices = s.slices := rfl
@[simp] theorem dropColl_procs (s : State) (k : Nat) : (dropColl s k).procs = s.procs := rfl
@[simp] theorem dropColl_images (s : State) (k : Nat) : (dropColl s k).images = s.images := rfl
@[simp] theorem dropColl_scrubs (s : State) (k : Nat) : (dropColl s k).scrubs = s.scrubs := rfl
@[simp] theorem dropColl_hostHeld (s : State) (k : Nat) : (dropColl s k).hostHeld = s.hostHeld := rfl
@[simp] theorem dropColl_glbHeld (s : State) (k : Nat) : (dropColl s k).glbHeld = s.glbHeld := rfl
@[simp] theorem dropColl_links (s : State) (k : Nat) : (dropColl s k).links = s.links := rfl
@[simp] theorem dropColl_crossings (s : State) (k : Nat) : (dropColl s k).crossings = s.crossings := rfl
@[simp] theorem dropColl_topo (s : State) (k : Nat) : (dropColl s k).topo = s.topo := rfl
@[simp] theorem dropColl_nextColl (s : State) (k : Nat) : (dropColl s k).nextColl = s.nextColl := rfl
@[simp] theorem dropColl_collCounts (s : State) (k : Nat) : (dropColl s k).collCounts = s.collCounts := rfl
@[simp] theorem dropColl_early (s : State) (k : Nat) : (dropColl s k).early = s.early := rfl
@[simp] theorem dropColl_meshIn (s : State) (k : Nat) : (dropColl s k).meshIn = s.meshIn := rfl
@[simp] theorem dropColl_collIn (s : State) (k : Nat) : (dropColl s k).collIn = s.collIn := rfl
@[simp] theorem dropColl_refusalHeld (s : State) (k : Nat) : (dropColl s k).refusalHeld = s.refusalHeld := rfl
@[simp] theorem dropColl_resetWaits (s : State) (k : Nat) : (dropColl s k).resetWaits = s.resetWaits := rfl
@[simp] theorem dropColl_smbOffset (s : State) (k : Nat) : (dropColl s k).smbOffset = s.smbOffset := rfl
@[simp] theorem rd_dropColl (s : State) (k : Nat) (q : PageId) (g : Fld) (j : Nat) :
    rd (dropColl s k) q g j = rd s q g j := rfl

/-! ### Units read back -/

/-- A unit set reads back, and no other changes. -/
theorem tile_setTile (s : State) (n m : Nat) (x : Tile) :
    tile (setTile s n x) m = if m = n then x else tile s m := getD_put _ _ _ _ _
@[simp] theorem tile_wr (s : State) (p : PageId) (f : Fld) (v i : Nat) (m : Nat) : tile (wr s p f v i) m = tile s m := rfl
@[simp] theorem tile_emit (s : State) (o : Out) (m : Nat) : tile (emit s o) m = tile s m := rfl
@[simp] theorem tile_setSlice (s : State) (n : Nat) (x : Slice) (m : Nat) : tile (setSlice s n x) m = tile s m := rfl
@[simp] theorem tile_setProc (s : State) (n : Nat) (x : Proc) (m : Nat) : tile (setProc s n x) m = tile s m := rfl
@[simp] theorem tile_setDom (s : State) (n : Nat) (x : Dom) (m : Nat) : tile (setDom s n x) m = tile s m := rfl
@[simp] theorem tile_setLink (s : State) (n : Nat) (x : Link) (m : Nat) : tile (setLink s n x) m = tile s m := rfl
@[simp] theorem tile_setCrossing (s : State) (n : Nat) (x : Cross) (m : Nat) : tile (setCrossing s n x) m = tile s m := rfl
@[simp] theorem tile_setColl (s : State) (x : Coll) (m : Nat) : tile (setColl s x) m = tile s m := rfl
@[simp] theorem tile_dropColl (s : State) (k : Nat) (m : Nat) : tile (dropColl s k) m = tile s m := rfl

/-- A unit set reads back, and no other changes. -/
theorem slice_setSlice (s : State) (n m : Nat) (x : Slice) :
    slice (setSlice s n x) m = if m = n then x else slice s m := getD_put _ _ _ _ _
@[simp] theorem slice_wr (s : State) (p : PageId) (f : Fld) (v i : Nat) (m : Nat) : slice (wr s p f v i) m = slice s m := rfl
@[simp] theorem slice_emit (s : State) (o : Out) (m : Nat) : slice (emit s o) m = slice s m := rfl
@[simp] theorem slice_setTile (s : State) (n : Nat) (x : Tile) (m : Nat) : slice (setTile s n x) m = slice s m := rfl
@[simp] theorem slice_setProc (s : State) (n : Nat) (x : Proc) (m : Nat) : slice (setProc s n x) m = slice s m := rfl
@[simp] theorem slice_setDom (s : State) (n : Nat) (x : Dom) (m : Nat) : slice (setDom s n x) m = slice s m := rfl
@[simp] theorem slice_setLink (s : State) (n : Nat) (x : Link) (m : Nat) : slice (setLink s n x) m = slice s m := rfl
@[simp] theorem slice_setCrossing (s : State) (n : Nat) (x : Cross) (m : Nat) : slice (setCrossing s n x) m = slice s m := rfl
@[simp] theorem slice_setColl (s : State) (x : Coll) (m : Nat) : slice (setColl s x) m = slice s m := rfl
@[simp] theorem slice_dropColl (s : State) (k : Nat) (m : Nat) : slice (dropColl s k) m = slice s m := rfl

/-- A unit set reads back, and no other changes. -/
theorem proc_setProc (s : State) (n m : Nat) (x : Proc) :
    proc (setProc s n x) m = if m = n then x else proc s m := getD_put _ _ _ _ _
@[simp] theorem proc_wr (s : State) (p : PageId) (f : Fld) (v i : Nat) (m : Nat) : proc (wr s p f v i) m = proc s m := rfl
@[simp] theorem proc_emit (s : State) (o : Out) (m : Nat) : proc (emit s o) m = proc s m := rfl
@[simp] theorem proc_setTile (s : State) (n : Nat) (x : Tile) (m : Nat) : proc (setTile s n x) m = proc s m := rfl
@[simp] theorem proc_setSlice (s : State) (n : Nat) (x : Slice) (m : Nat) : proc (setSlice s n x) m = proc s m := rfl
@[simp] theorem proc_setDom (s : State) (n : Nat) (x : Dom) (m : Nat) : proc (setDom s n x) m = proc s m := rfl
@[simp] theorem proc_setLink (s : State) (n : Nat) (x : Link) (m : Nat) : proc (setLink s n x) m = proc s m := rfl
@[simp] theorem proc_setCrossing (s : State) (n : Nat) (x : Cross) (m : Nat) : proc (setCrossing s n x) m = proc s m := rfl
@[simp] theorem proc_setColl (s : State) (x : Coll) (m : Nat) : proc (setColl s x) m = proc s m := rfl
@[simp] theorem proc_dropColl (s : State) (k : Nat) (m : Nat) : proc (dropColl s k) m = proc s m := rfl

/-- A unit set reads back, and no other changes. -/
theorem link_setLink (s : State) (n m : Nat) (x : Link) :
    link (setLink s n x) m = if m = n then x else link s m := getD_put _ _ _ _ _
@[simp] theorem link_wr (s : State) (p : PageId) (f : Fld) (v i : Nat) (m : Nat) : link (wr s p f v i) m = link s m := rfl
@[simp] theorem link_emit (s : State) (o : Out) (m : Nat) : link (emit s o) m = link s m := rfl
@[simp] theorem link_setTile (s : State) (n : Nat) (x : Tile) (m : Nat) : link (setTile s n x) m = link s m := rfl
@[simp] theorem link_setSlice (s : State) (n : Nat) (x : Slice) (m : Nat) : link (setSlice s n x) m = link s m := rfl
@[simp] theorem link_setProc (s : State) (n : Nat) (x : Proc) (m : Nat) : link (setProc s n x) m = link s m := rfl
@[simp] theorem link_setDom (s : State) (n : Nat) (x : Dom) (m : Nat) : link (setDom s n x) m = link s m := rfl
@[simp] theorem link_setCrossing (s : State) (n : Nat) (x : Cross) (m : Nat) : link (setCrossing s n x) m = link s m := rfl
@[simp] theorem link_setColl (s : State) (x : Coll) (m : Nat) : link (setColl s x) m = link s m := rfl
@[simp] theorem link_dropColl (s : State) (k : Nat) (m : Nat) : link (dropColl s k) m = link s m := rfl

/-- A unit set reads back, and no other changes. -/
theorem crossing_setCrossing (s : State) (n m : Nat) (x : Cross) :
    crossing (setCrossing s n x) m = if m = n then x else crossing s m := getD_put _ _ _ _ _
@[simp] theorem crossing_wr (s : State) (p : PageId) (f : Fld) (v i : Nat) (m : Nat) : crossing (wr s p f v i) m = crossing s m := rfl
@[simp] theorem crossing_emit (s : State) (o : Out) (m : Nat) : crossing (emit s o) m = crossing s m := rfl
@[simp] theorem crossing_setTile (s : State) (n : Nat) (x : Tile) (m : Nat) : crossing (setTile s n x) m = crossing s m := rfl
@[simp] theorem crossing_setSlice (s : State) (n : Nat) (x : Slice) (m : Nat) : crossing (setSlice s n x) m = crossing s m := rfl
@[simp] theorem crossing_setProc (s : State) (n : Nat) (x : Proc) (m : Nat) : crossing (setProc s n x) m = crossing s m := rfl
@[simp] theorem crossing_setDom (s : State) (n : Nat) (x : Dom) (m : Nat) : crossing (setDom s n x) m = crossing s m := rfl
@[simp] theorem crossing_setLink (s : State) (n : Nat) (x : Link) (m : Nat) : crossing (setLink s n x) m = crossing s m := rfl
@[simp] theorem crossing_setColl (s : State) (x : Coll) (m : Nat) : crossing (setColl s x) m = crossing s m := rfl
@[simp] theorem crossing_dropColl (s : State) (k : Nat) (m : Nat) : crossing (dropColl s k) m = crossing s m := rfl

/-- A unit set reads back, and no other changes. -/
theorem dom_setDom (s : State) (n m : Nat) (x : Dom) :
    dom (setDom s n x) m = if m = n then x else dom s m := getD_put _ _ _ _ _
@[simp] theorem dom_wr (s : State) (p : PageId) (f : Fld) (v i : Nat) (m : Nat) : dom (wr s p f v i) m = dom s m := rfl
@[simp] theorem dom_emit (s : State) (o : Out) (m : Nat) : dom (emit s o) m = dom s m := rfl
@[simp] theorem dom_setTile (s : State) (n : Nat) (x : Tile) (m : Nat) : dom (setTile s n x) m = dom s m := rfl
@[simp] theorem dom_setSlice (s : State) (n : Nat) (x : Slice) (m : Nat) : dom (setSlice s n x) m = dom s m := rfl
@[simp] theorem dom_setProc (s : State) (n : Nat) (x : Proc) (m : Nat) : dom (setProc s n x) m = dom s m := rfl
@[simp] theorem dom_setLink (s : State) (n : Nat) (x : Link) (m : Nat) : dom (setLink s n x) m = dom s m := rfl
@[simp] theorem dom_setCrossing (s : State) (n : Nat) (x : Cross) (m : Nat) : dom (setCrossing s n x) m = dom s m := rfl
@[simp] theorem dom_setColl (s : State) (x : Coll) (m : Nat) : dom (setColl s x) m = dom s m := rfl
@[simp] theorem dom_dropColl (s : State) (k : Nat) (m : Nat) : dom (dropColl s k) m = dom s m := rfl

/-! ### Register fields read back -/

/-- A field written reads back, cut to its width. -/
theorem rd_wr_same {s : State} (h : keysFrom 0 s.regs = true) (p : PageId) (f : Fld) (v i : Nat) :
    rd (wr s p f v i) p f i = v % 2 ^ f.wid := by
  simp only [rd, wr]
  split
  · rename_i e
    simp only [SMap.getD, find_del h]
    exact e.symm
  · rw [getD_put, if_pos rfl]

/-- A write of a field changes no field that stands elsewhere. -/
theorem rd_wr_of_ne {s : State} (h : keysFrom 0 s.regs = true) {p q : PageId} {f g : Fld} {v i j : Nat}
    (hne : fkey q g j ≠ fkey p f i) : rd (wr s p f v i) q g j = rd s q g j := by
  simp only [rd, wr]
  split
  · simp only [SMap.getD, find_del h, if_neg hne]
  · rw [getD_put, if_neg hne]

/-! ### The state after reset -/

theorem reset_keys : keysFrom 0 State.reset.regs = true := rfl
theorem reset_tile (n : Nat) : tile State.reset n = {} := rfl
theorem reset_slice (n : Nat) : slice State.reset n = {} := rfl
theorem reset_rd (p : PageId) (f : Fld) (i : Nat) : rd State.reset p f i = fieldResetAt p f i := rfl

end Sys2Proof.Laws
end

