-- ==== Sys2Proof/Laws/Kept.lean ====
section
/-!
SUPPORT. Laws/Kept.lean: what every operation over the package keeps (`Kept`): the canonical forms,
the queue, what has left, and every blown fuse; and how the lemmas on single operations are put
together.
-/
open Sys2Proof Sys2Proof.Machine Sys2Proof.Safety
namespace Sys2Proof.Laws

/-! ### Blown fuses -/

theorem within_refl (a : Nat) : bitsWithin a a = true := by simp [bitsWithin]

theorem bitsWithin_of_testBit {a b : Nat} (h : ∀ j, a.testBit j = true → b.testBit j = true) :
    bitsWithin a b = true := by
  simp only [bitsWithin, beq_iff_eq]
  refine Nat.eq_of_testBit_eq fun j => ?_
  rw [Nat.testBit_and]
  cases e : a.testBit j
  · rfl
  · rw [h j e]; rfl

theorem bitsWithin_setBit (v i : Nat) : bitsWithin v (setBit v i) = true := by
  unfold setBit
  split
  · exact within_refl v
  · rename_i hb
    have hb : v / 2 ^ i % 2 = 0 := by simp [bitOf] at hb; omega
    obtain ⟨q, r, hr, rfl⟩ : ∃ q r, r < 2 ^ i ∧ v = 2 ^ (i + 1) * q + r := by
      refine ⟨v / 2 ^ i / 2, v % 2 ^ i, Nat.mod_lt _ (Nat.two_pow_pos i), ?_⟩
      have h1 := Nat.div_add_mod v (2 ^ i)
      have h2 : v / 2 ^ i = 2 * (v / 2 ^ i / 2) := by omega
      calc v = 2 ^ i * (v / 2 ^ i) + v % 2 ^ i := h1.symm
        _ = 2 ^ i * (2 * (v / 2 ^ i / 2)) + v % 2 ^ i := by rw [← h2]
        _ = _ := by rw [Nat.pow_succ, Nat.mul_assoc]
    refine bitsWithin_of_testBit fun j hj => ?_
    have h3 : r < 2 ^ (i + 1) := by rw [Nat.pow_succ]; omega
    have h4 : 2 ^ i + r < 2 ^ (i + 1) := by rw [Nat.pow_succ]; omega
    rw [show 2 ^ (i + 1) * q + r + 2 ^ i = 2 ^ (i + 1) * q + (2 ^ i + r) by omega]
    rw [Nat.testBit_two_pow_mul_add _ h3] at hj
    rw [Nat.testBit_two_pow_mul_add _ h4]
    split at hj
    · rename_i h5
      rw [if_pos h5]
      rcases Nat.lt_or_ge j i with h | h
      · rwa [Nat.testBit_two_pow_add_gt h]
      · have : j = i := by omega
        subst this
        rw [Nat.testBit_lt_two_pow hr] at hj; cases hj
    · rename_i h5; rwa [if_neg h5]

theorem within_trans {a b c : Nat} (h : bitsWithin a b = true) (k : bitsWithin b c = true) :
    bitsWithin a c = true := by
  simp only [bitsWithin, beq_iff_eq] at *
  rw [← h, Nat.and_assoc, k]

theorem copy_refl (a : FuseCopy) : copyWithin a a = true := by simp [copyWithin, within_refl]

theorem copy_trans {a b c : FuseCopy} (h : copyWithin a b = true) (k : copyWithin b c = true) :
    copyWithin a c = true := by
  simp only [copyWithin, Bool.and_eq_true] at *
  obtain ⟨⟨⟨⟨⟨h1, h2⟩, h3⟩, h4⟩, h5⟩, h6⟩ := h
  obtain ⟨⟨⟨⟨⟨k1, k2⟩, k3⟩, k4⟩, k5⟩, k6⟩ := k
  exact ⟨⟨⟨⟨⟨within_trans h1 k1, within_trans h2 k2⟩, within_trans h3 k3⟩, within_trans h4 k4⟩,
    within_trans h5 k5⟩, within_trans h6 k6⟩

theorem fuses_refl (f : Fuses) : FusesWithin f f :=
  ⟨copy_refl _, copy_refl _, copy_refl _, fun _ => within_refl _, fun _ => within_refl _⟩

theorem fuses_trans {f g h : Fuses} (a : FusesWithin f g) (b : FusesWithin g h) : FusesWithin f h :=
  ⟨copy_trans a.1 b.1, copy_trans a.2.1 b.2.1, copy_trans a.2.2.1 b.2.2.1,
    fun i => within_trans (a.2.2.2.1 i) (b.2.2.2.1 i), fun i => within_trans (a.2.2.2.2 i) (b.2.2.2.2 i)⟩

/-- What every operation over the package keeps: the canonical forms, the queue, what has left, and
every blown fuse. -/
structure Kept (s t : State) : Prop where
  regs : regsOk s = true → regsOk t = true
  mem : memOk s = true → memOk t = true
  fuses : FusesWithin s.fuses t.fuses
  pend : t.pending = s.pending
  sent : ∃ l : List Out, t.sent = s.sent ++ l

theorem Kept.refl (s : State) : Kept s s := ⟨id, id, fuses_refl _, rfl, [], by simp⟩

theorem Kept.trans {s t u : State} (h : Kept s t) (k : Kept t u) : Kept s u :=
  ⟨k.regs ∘ h.regs, k.mem ∘ h.mem, fuses_trans h.fuses k.fuses, k.pend.trans h.pend,
    by obtain ⟨a, ha⟩ := h.sent; obtain ⟨b, hb⟩ := k.sent; exact ⟨a ++ b, by rw [hb, ha, List.append_assoc]⟩⟩

/-- A change of fields that none of the invariants speaks of. -/
theorem Kept.of_eq {s x y : State} (h : Kept s x) (h1 : y.regs = x.regs) (h2 : y.tiles = x.tiles)
    (h3 : y.slices = x.slices) (h4 : y.fuses = x.fuses) (h5 : y.pending = x.pending)
    (h6 : y.sent = x.sent) (h7 : y.images = x.images) : Kept s y := by
  refine h.trans ⟨?_, ?_, ?_, h5, [], by simp [h6]⟩
  · simp [regsOk, h1, h7]
  · simp [memOk, h2, h3]
  · rw [h4]; exact fuses_refl _

theorem Kept.ite {s x y : State} {c : Prop} [Decidable c] (hx : Kept s x) (hy : Kept s y) :
    Kept s (if c then x else y) := by split <;> assumption

theorem Kept.elim {α : Type} {s x : State} (o : Option α) {f : α → State} (h : Kept s x)
    (hf : ∀ a, Kept s (f a)) : Kept s (o.elim x f) := by cases o with
  | none => exact h
  | some a => exact hf a

theorem Kept.foldl {α : Type} {s x : State} (l : List α) {f : State → α → State} (h : Kept s x)
    (hf : ∀ y a, Kept s y → Kept s (f y a)) : Kept s (l.foldl f x) := by
  induction l generalizing x with
  | nil => exact h
  | cons a l ih => exact ih (hf x a h)

theorem Kept.foldl1 {α β : Type} {s : State} (l : List α) {f : State × β → α → State × β}
    {x : State × β} (h : Kept s x.1) (hf : ∀ y a, Kept s y.1 → Kept s (f y a).1) :
    Kept s (l.foldl f x).1 := by
  induction l generalizing x with
  | nil => exact h
  | cons a l ih => exact ih (hf x a h)

/-- The SRAM of a tile is in its canonical form where the memories of `s` are. -/
structure TOk (s : State) (t : Tile) : Prop where
  ok : memOk s = true → tileMemOk t = true
/-- As `TOk`, for the arrays and the window buffers of a slice. -/
structure XOk (s : State) (x : Slice) : Prop where
  ok : memOk s = true → sliceMemOk x = true
/-- As `TOk`, for one memory. -/
structure MOk (s : State) (m : Memory) : Prop where
  ok : memOk s = true → Memory.wf m = true

theorem TOk.of_eq {s : State} {t u : Tile} (h : TOk s t) (h1 : u.data = t.data) (h2 : u.code = t.code) :
    TOk s u := ⟨fun hm => by have := h.ok hm; simpa [tileMemOk, h1, h2] using this⟩
theorem XOk.of_eq {s : State} {t u : Slice} (h : XOk s t) (h1 : u.mem = t.mem) (h2 : u.check = t.check)
    (h3 : u.buf = t.buf) : XOk s u :=
  ⟨fun hm => by have := h.ok hm; simpa [sliceMemOk, h1, h2, h3] using this⟩
theorem TOk.of {s : State} {t : Tile} (h1 : MOk s t.data) (h2 : MOk s t.code) : TOk s t :=
  ⟨fun hm => by simp [tileMemOk, h1.ok hm, h2.ok hm]⟩
theorem XOk.of {s : State} {t : Slice} (h1 : MOk s t.mem) (h2 : MOk s t.check) (h3 : MOk s t.buf) :
    XOk s t := ⟨fun hm => by simp [sliceMemOk, h1.ok hm, h2.ok hm, h3.ok hm]⟩
theorem TOk.data {s : State} {t : Tile} (h : TOk s t) : MOk s t.data := ⟨fun hm => by
  have := h.ok hm; simp only [tileMemOk, Bool.and_eq_true] at this; exact this.1⟩
theorem TOk.code {s : State} {t : Tile} (h : TOk s t) : MOk s t.code := ⟨fun hm => by
  have := h.ok hm; simp only [tileMemOk, Bool.and_eq_true] at this; exact this.2⟩
theorem XOk.mem {s : State} {t : Slice} (h : XOk s t) : MOk s t.mem := ⟨fun hm => by
  have := h.ok hm; simp only [sliceMemOk, Bool.and_eq_true] at this; exact this.1.1⟩
theorem XOk.check {s : State} {t : Slice} (h : XOk s t) : MOk s t.check := ⟨fun hm => by
  have := h.ok hm; simp only [sliceMemOk, Bool.and_eq_true] at this; exact this.1.2⟩
theorem XOk.buf {s : State} {t : Slice} (h : XOk s t) : MOk s t.buf := ⟨fun hm => by
  have := h.ok hm; simp only [sliceMemOk, Bool.and_eq_true] at this; exact this.2⟩
theorem MOk.nil {s : State} : MOk s [] := ⟨fun _ => rfl⟩
theorem MOk.store {s : State} {m : Memory} (h : MOk s m) (a : Nat) (b : List Byte) :
    MOk s (memStore m a b) := ⟨fun hm => wf_store (h.ok hm) a b⟩
theorem MOk.write {s : State} {m : Memory} (h : MOk s m) (a : Nat) (b : Byte) :
    MOk s (memWrite m a b) := ⟨fun hm => wf_write (h.ok hm) a b⟩
theorem MOk.foldl {α : Type} {s : State} {m : Memory} (l : List α) {f : Memory → α → Memory} (h : MOk s m)
    (hf : ∀ y a, MOk s y → MOk s (f y a)) : MOk s (l.foldl f m) := by
  induction l generalizing m with
  | nil => exact h
  | cons a l ih => exact ih (hf m a h)
theorem TOk.empty {s : State} : TOk s {} := ⟨fun _ => rfl⟩
theorem XOk.empty {s : State} : XOk s {} := ⟨fun _ => rfl⟩

theorem memOk_tile {s : State} (h : memOk s = true) (n : Nat) : tileMemOk (tile s n) = true := by
  simp only [memOk, Bool.and_eq_true, List.all_eq_true] at h
  unfold tile SMap.getD
  cases e : SMap.find s.tiles n with
  | none => rfl
  | some t => exact h.1 _ (mem_of_find e)
theorem memOk_slice {s : State} (h : memOk s = true) (n : Nat) : sliceMemOk (slice s n) = true := by
  simp only [memOk, Bool.and_eq_true, List.all_eq_true] at h
  unfold slice SMap.getD
  cases e : SMap.find s.slices n with
  | none => rfl
  | some t => exact h.2 _ (mem_of_find e)

theorem Kept.tile {s x : State} (h : Kept s x) (n : Nat) : TOk s (tile x n) :=
  ⟨fun hm => memOk_tile (h.mem hm) n⟩
theorem Kept.slice {s x : State} (h : Kept s x) (n : Nat) : XOk s (slice x n) :=
  ⟨fun hm => memOk_slice (h.mem hm) n⟩

theorem Kept.setTile {s x : State} (h : Kept s x) (n : Nat) {t : Tile} (ht : TOk s t) :
    Kept s (setTile x n t) where
  regs := h.regs
  mem hm := by
    have hx := h.mem hm
    simp only [memOk, Bool.and_eq_true, List.all_eq_true] at hx ⊢
    refine ⟨fun y hy => ?_, hx.2⟩
    rcases mem_put hy with rfl | hy
    · exact ht.ok hm
    · exact hx.1 y hy
  fuses := h.fuses
  pend := h.pend
  sent := h.sent

theorem Kept.setSlice {s x : State} (h : Kept s x) (n : Nat) {t : Slice} (ht : XOk s t) :
    Kept s (setSlice x n t) where
  regs := h.regs
  mem hm := by
    have hx := h.mem hm
    simp only [memOk, Bool.and_eq_true, List.all_eq_true] at hx ⊢
    refine ⟨hx.1, fun y hy => ?_⟩
    rcases mem_put hy with rfl | hy
    · exact ht.ok hm
    · exact hx.2 y hy
  fuses := h.fuses
  pend := h.pend
  sent := h.sent

theorem Kept.regsTo {s x y : State} (h : Kept s x) (hr : keysFrom 0 x.regs = true → keysFrom 0 y.regs = true)
    (h2 : y.tiles = x.tiles) (h3 : y.slices = x.slices) (h4 : y.fuses = x.fuses)
    (h5 : y.pending = x.pending) (h6 : y.sent = x.sent) (h7 : y.images = x.images) : Kept s y := by
  refine h.trans ⟨?_, ?_, ?_, h5, [], by simp [h6]⟩
  · simp only [regsOk, h7, Bool.and_eq_true]; exact fun a => ⟨hr a.1, a.2⟩
  · simp [memOk, h2, h3]
  · rw [h4]; exact fuses_refl _

theorem Kept.imagesTo {s x y : State} (h : Kept s x)
    (hr : keysFrom 0 x.images = true → keysFrom 0 y.images = true) (h1 : y.regs = x.regs)
    (h2 : y.tiles = x.tiles) (h3 : y.slices = x.slices) (h4 : y.fuses = x.fuses)
    (h5 : y.pending = x.pending) (h6 : y.sent = x.sent) : Kept s y := by
  refine h.trans ⟨?_, ?_, ?_, h5, [], by simp [h6]⟩
  · simp only [regsOk, h1, Bool.and_eq_true]; exact fun a => ⟨a.1, hr a.2⟩
  · simp [memOk, h2, h3]
  · rw [h4]; exact fuses_refl _

theorem wr_kept {s0 s : State} (h : Kept s0 s) (p : PageId) (f : Fld) (v i : Nat) :
    Kept s0 (wr s p f v i) := by
  refine h.regsTo (fun k => ?_) rfl rfl rfl rfl rfl rfl
  simp only [wr]
  split
  · exact keysFrom_del k
  · exact keysFrom_put k (Nat.zero_le _)

theorem emit_kept {s0 s : State} (h : Kept s0 s) (o : Out) : Kept s0 (emit s o) :=
  ⟨h.regs, h.mem, h.fuses, h.pend, by obtain ⟨l, hl⟩ := h.sent; exact ⟨l ++ [o], by simp [emit, hl]⟩⟩

theorem Kept.upd {s x : State} {v_fresh : _} {v_latches : _} {v_captures : _} {v_msix : _} {v_pba :
    _} {v_sensed : _} {v_sec : _} {v_dawn : _} {v_dusk : _} {v_procs : _} {v_scrubs : _} {v_hostHeld
    : _} {v_glbHeld : _} {v_links : _} {v_crossings : _} {v_topo : _} {v_colls : _} {v_nextColl : _}
    {v_collCounts : _} {v_early : _} {v_meshIn : _} {v_collIn : _} {v_refusalHeld : _} {v_resetWaits
    : _} {v_smbOffset : _} :
    Kept s (State.mk x.pending x.sent v_fresh x.regs v_latches v_captures v_msix v_pba x.fuses
      v_sensed v_sec v_dawn v_dusk x.tiles x.slices v_procs x.images v_scrubs v_hostHeld
      v_glbHeld v_links v_crossings v_topo v_colls v_nextColl v_collCounts v_early v_meshIn
      v_collIn v_refusalHeld v_resetWaits v_smbOffset) = Kept s x :=
  propext ⟨fun h => h.of_eq rfl rfl rfl rfl rfl rfl rfl, fun h => h.of_eq rfl rfl rfl rfl rfl rfl rfl⟩

theorem TOk.upd {s : State} {v_data : Memory} {v_code : Memory} {v_v : _} {v_s : _} {v_p : _} {v_acc
    : _} {v_active : _} {v_shadow : _} {v_pc : _} {v_bundles : _} {v_minor : _} {v_cyc : _} {v_phase
    : _} {v_duty : _} {v_loops : _} {v_pendLoop : _} {v_doneLoops : _} {v_delay : _} {v_redirect :
    _} {v_fetchEnd : _} {v_trapping : _} {v_hold : _} {v_retry : _} {v_bad : _} {v_misroute : _}
    {v_arrayFree : _} {v_wportFree : _} {v_nextId : _} {v_runs : _} {v_agenda : _} {v_resv : _}
    {v_lands : _} {v_bufs : _} {v_inq : _} {v_outq : _} {v_chans : _} {v_nextSeq : _} {v_ev : _}
    {v_evSrc : _} {v_evColl : _} {v_sigs : _} {v_credits : _} {v_owed : _} {v_qMesh : _} {v_qPoison
    : _} {v_routes : _} {v_linesIn : _} {v_linesOut : _} {v_cmdCount : _} {v_runState : _} {v_frozen
    : _} {v_freezeCause : _} {v_trapCause : _} {v_trapBundle : _} {v_trapSlots : _} {v_fpFlags : _}
    {v_runCyc : _} {v_frozenCyc : _} {v_slipCyc : _} {v_slipEvt : _} :
    TOk s (Tile.mk v_data v_code v_v v_s v_p v_acc v_active v_shadow v_pc v_bundles v_minor v_cyc
      v_phase v_duty v_loops v_pendLoop v_doneLoops v_delay v_redirect v_fetchEnd v_trapping
      v_hold v_retry v_bad v_misroute v_arrayFree v_wportFree v_nextId v_runs v_agenda v_resv
      v_lands v_bufs v_inq v_outq v_chans v_nextSeq v_ev v_evSrc v_evColl v_sigs v_credits
      v_owed v_qMesh v_qPoison v_routes v_linesIn v_linesOut v_cmdCount v_runState v_frozen
      v_freezeCause v_trapCause v_trapBundle v_trapSlots v_fpFlags v_runCyc v_frozenCyc
      v_slipCyc v_slipEvt) = (MOk s v_data ∧ MOk s v_code) :=
  propext ⟨fun h => ⟨h.data, h.code⟩, fun h => TOk.of h.1 h.2⟩

theorem XOk.upd {s : State} {v_mem : Memory} {v_check : Memory} {v_flags : _} {v_lasting : _}
    {v_merge : _} {v_narrow : _} {v_refresh : _} {v_mode : _} {v_modeWord : _} {v_held : _} {v_buf :
    Memory} {v_bflags : _} {v_poison : _} {v_run : _} {v_queue : _} {v_relaunch : _} {v_runsDone :
    _} {v_poisonMask : _} {v_portLost : _} :
    XOk s (Slice.mk v_mem v_check v_flags v_lasting v_merge v_narrow v_refresh v_mode v_modeWord
      v_held v_buf v_bflags v_poison v_run v_queue v_relaunch v_runsDone v_poisonMask
      v_portLost) = (MOk s v_mem ∧ MOk s v_check ∧ MOk s v_buf) :=
  propext ⟨fun h => ⟨h.mem, h.check, h.buf⟩, fun h => XOk.of h.1 h.2.1 h.2.2⟩

theorem Kept.putImage {s x : State} {v_fresh : _} {v_latches : _} {v_captures : _} {v_msix : _}
    {v_pba : _} {v_sensed : _} {v_sec : _} {v_dawn : _} {v_dusk : _} {v_procs : _} {v_scrubs : _}
    {v_hostHeld : _} {v_glbHeld : _} {v_links : _} {v_crossings : _} {v_topo : _} {v_colls : _}
    {v_nextColl : _} {v_collCounts : _} {v_early : _} {v_meshIn : _} {v_collIn : _} {v_refusalHeld :
    _} {v_resetWaits : _} {v_smbOffset : _} {i : Nat} {v : Image} (h : Kept s x) :
    Kept s (State.mk x.pending x.sent v_fresh x.regs v_latches v_captures v_msix v_pba x.fuses
      v_sensed v_sec v_dawn v_dusk x.tiles x.slices v_procs (SMap.put x.images i v) v_scrubs
      v_hostHeld v_glbHeld v_links v_crossings v_topo v_colls v_nextColl v_collCounts v_early
      v_meshIn v_collIn v_refusalHeld v_resetWaits v_smbOffset) :=
  h.imagesTo (fun k => keysFrom_put k (Nat.zero_le _)) rfl rfl rfl rfl rfl rfl

theorem fst_of {s x : State} {β : Type} {b : β} {p : State × β} (e : p = (x, b)) (h : Kept s p.1) : Kept s x := by
  subst e; exact h
theorem snd_of {s x : State} {β : Type} {b : β} {p : β × State} (e : p = (b, x)) (h : Kept s p.2) : Kept s x := by
  subst e; exact h

/-- Every next state of an outcome keeps what `Kept` says. -/
structure KeptO (s : State) (o : Host.Outcome State Fault Refusal) : Prop where
  ok : ∀ t, o = .next t → Kept s t
theorem KeptO.next {s x : State} (h : Kept s x) : KeptO s (.next x) := ⟨fun t ht => by cases ht; exact h⟩
theorem KeptO.fault {s : State} {f : Fault} : KeptO s (.fault f) := ⟨fun t ht => by cases ht⟩

theorem TOk.ite {s : State} {x y : Tile} {c : Prop} [Decidable c] (hx : TOk s x) (hy : TOk s y) :
    TOk s (if c then x else y) := by split <;> assumption
theorem XOk.ite {s : State} {x y : Slice} {c : Prop} [Decidable c] (hx : XOk s x) (hy : XOk s y) :
    XOk s (if c then x else y) := by split <;> assumption
theorem MOk.ite {s : State} {x y : Memory} {c : Prop} [Decidable c] (hx : MOk s x) (hy : MOk s y) :
    MOk s (if c then x else y) := by split <;> assumption
theorem KeptO.ite {s : State} {x y : Host.Outcome State Fault Refusal} {c : Prop} [Decidable c] (hx : KeptO s x) (hy : KeptO s y) :
    KeptO s (if c then x else y) := by split <;> assumption
theorem Kept.ite1 {s : State} {β : Type} {x y : State × β} {c : Prop} [Decidable c] (hx : Kept s x.1) (hy : Kept s y.1) :
    Kept s (if c then x else y).1 := by split <;> assumption
theorem Kept.ite2 {s : State} {β : Type} {x y : β × State} {c : Prop} [Decidable c] (hx : Kept s x.2) (hy : Kept s y.2) :
    Kept s (if c then x else y).2 := by split <;> assumption
theorem Tfst_of {s : State} {x : Tile} {β : Type} {b : β} {p : Tile × β} (e : p = (x, b)) (h : TOk s p.1) : TOk s x := by
  subst e; exact h
theorem Tsnd_of {s : State} {x : Tile} {β : Type} {b : β} {p : β × Tile} (e : p = (b, x)) (h : TOk s p.2) : TOk s x := by
  subst e; exact h
theorem TOk.foldl {α : Type} {s : State} {x : Tile} (l : List α) {f : Tile → α → Tile} (h : TOk s x)
    (hf : ∀ y a, TOk s y → TOk s (f y a)) : TOk s (l.foldl f x) := by
  induction l generalizing x with
  | nil => exact h
  | cons a l ih => exact ih (hf x a h)
theorem XOk.foldl {α : Type} {s : State} {x : Slice} (l : List α) {f : Slice → α → Slice} (h : XOk s x)
    (hf : ∀ y a, XOk s y → XOk s (f y a)) : XOk s (l.foldl f x) := by
  induction l generalizing x with
  | nil => exact h
  | cons a l ih => exact ih (hf x a h)

end Sys2Proof.Laws
end

