-- ==== Sys2Proof/Laws/KeptTile.lean ====
section
/-!
SUPPORT. Laws/KeptTile.lean: what `Kept` says, of the operations over one tile. Each lemma says that
an operation keeps it, whatever its arguments are.
-/
set_option linter.unusedVariables false
open Sys2Proof Sys2Proof.Machine Sys2Proof.Safety
namespace Sys2Proof.Laws

theorem markBad_kept {s0 : State} (t : Tile) (hs : List ParHit) (h_t : TOk s0 t) :
    TOk s0 (markBad t hs) := by
  unfold markBad
  with_reducible
    repeat'
      first
      | assumption | apply TOk.data | apply TOk.code | simp only [TOk.upd] | refine And.intro ?_ ?_

theorem Tile_written_kept {s0 : State} (t : Tile) (f : Nat → Bool) (h_t : TOk s0 t) :
    TOk s0 (Tile.written t f) := by
  unfold Tile.written
  with_reducible
    repeat'
      first
      | intro _ | assumption | apply TOk.data | apply TOk.code | simp only [TOk.upd]
      | refine And.intro ?_ ?_

theorem Tile_writtenAt_kept {s0 : State} (t : Tile) (off : Nat) (n : Nat) (h_t : TOk s0 t) :
    TOk s0 (Tile.writtenAt t off n) := by
  unfold Tile.writtenAt
  with_reducible
    repeat'
      first
      | assumption | apply Tile_written_kept

theorem Tile_setAccRow_kept {s0 : State} (t : Tile) (bank : Nat) (row : Nat) (vals : List Word) (h_t
    : TOk s0 t) :
    TOk s0 (Tile.setAccRow t bank row vals) := by
  unfold Tile.setAccRow
  with_reducible
    repeat'
      first
      | assumption | apply Tile_written_kept | apply TOk.data | apply TOk.code
      | simp only [TOk.upd] | refine And.intro ?_ ?_

theorem Tile_setS_kept {s0 : State} (t : Tile) (n : Nat) (v : Word) (h_t : TOk s0 t) :
    TOk s0 (Tile.setS t n v) := by
  unfold Tile.setS
  with_reducible
    repeat'
      first
      | assumption | apply TOk.ite | apply TOk.data | apply TOk.code | simp only [TOk.upd]
      | refine And.intro ?_ ?_

theorem Tile_setP_kept {s0 : State} (t : Tile) (n : Nat) (mask : Nat) (bits : Nat) (h_t : TOk s0 t)
    :
    TOk s0 (Tile.setP t n mask bits) := by
  unfold Tile.setP; dsimp only
  with_reducible
    repeat'
      first
      | assumption | apply TOk.ite | apply TOk.data | apply TOk.code | simp only [TOk.upd]
      | refine And.intro ?_ ?_

theorem Tile_setV_kept {s0 : State} (t : Tile) (n : Nat) (mask : Nat) (lanes : List Word) (h_t : TOk
    s0 t) :
    TOk s0 (Tile.setV t n mask lanes) := by
  unfold Tile.setV
  with_reducible
    repeat'
      first
      | assumption | apply Tile_written_kept | apply TOk.data | apply TOk.code
      | simp only [TOk.upd] | refine And.intro ?_ ?_

theorem Tile_storeData_kept {s0 : State} (t : Tile) (a : Nat) (bs : List Byte) (h_t : TOk s0 t) :
    TOk s0 (Tile.storeData t a bs) := by
  unfold Tile.storeData
  with_reducible
    repeat'
      first
      | assumption | apply Tile_writtenAt_kept | apply MOk.store | apply TOk.data | apply TOk.code
      | simp only [TOk.upd] | refine And.intro ?_ ?_

theorem Tile_storeCode_kept {s0 : State} (t : Tile) (a : Nat) (bs : List Byte) (h_t : TOk s0 t) :
    TOk s0 (Tile.storeCode t a bs) := by
  unfold Tile.storeCode
  with_reducible
    repeat'
      first
      | assumption | apply Tile_writtenAt_kept | apply MOk.store | apply TOk.data | apply TOk.code
      | simp only [TOk.upd] | refine And.intro ?_ ?_

theorem Tile_upset_kept {s0 : State} (t : Tile) (u : Upset) (h_t : TOk s0 t) :
    TOk s0 (Tile.upset t u) := by
  unfold Tile.upset; dsimp only
  with_reducible
    repeat'
      first
      | assumption | apply TOk.ite | apply MOk.write | apply TOk.data | apply TOk.code
      | simp only [TOk.upd] | refine And.intro ?_ ?_

theorem Tile_raiseFlags_kept {s0 : State} (t : Tile) (f : Nat) (h_t : TOk s0 t) :
    TOk s0 (Tile.raiseFlags t f) := by
  unfold Tile.raiseFlags
  with_reducible
    repeat'
      first
      | assumption | apply TOk.data | apply TOk.code | simp only [TOk.upd] | refine And.intro ?_ ?_

theorem Tile_setInQ_kept {s0 : State} (t : Tile) (q : Nat) (x : InQ) (h_t : TOk s0 t) :
    TOk s0 (Tile.setInQ t q x) := by
  unfold Tile.setInQ
  with_reducible
    repeat'
      first
      | assumption | apply TOk.data | apply TOk.code | simp only [TOk.upd] | refine And.intro ?_ ?_

theorem Tile_setOutQ_kept {s0 : State} (t : Tile) (o : Nat) (x : OutQ) (h_t : TOk s0 t) :
    TOk s0 (Tile.setOutQ t o x) := by
  unfold Tile.setOutQ
  with_reducible
    repeat'
      first
      | assumption | apply TOk.data | apply TOk.code | simp only [TOk.upd] | refine And.intro ?_ ?_

theorem Tile_setChan_kept {s0 : State} (t : Tile) (c : Nat) (x : Chan) (h_t : TOk s0 t) :
    TOk s0 (Tile.setChan t c x) := by
  unfold Tile.setChan
  with_reducible
    repeat'
      first
      | assumption | apply TOk.data | apply TOk.code | simp only [TOk.upd] | refine And.intro ?_ ?_

theorem Tile_addEv_kept {s0 : State} (t : Tile) (e : Nat) (src : Cause) (h_t : TOk s0 t) :
    TOk s0 (Tile.addEv t e src) := by
  unfold Tile.addEv
  with_reducible
    repeat'
      first
      | assumption | apply TOk.data | apply TOk.code | simp only [TOk.upd] | refine And.intro ?_ ?_

theorem Tile_countRun_kept {s0 : State} (t : Tile) (h_t : TOk s0 t) :
    TOk s0 (Tile.countRun t) := by
  unfold Tile.countRun
  with_reducible
    repeat'
      first
      | assumption | apply TOk.data | apply TOk.code | simp only [TOk.upd] | refine And.intro ?_ ?_

theorem Tile_countFrozen_kept {s0 : State} (t : Tile) (c : Cause) (h_t : TOk s0 t) :
    TOk s0 (Tile.countFrozen t c) := by
  unfold Tile.countFrozen; dsimp only
  with_reducible
    repeat'
      first
      | assumption | apply TOk.ite | apply TOk.data | apply TOk.code | simp only [TOk.upd]
      | refine And.intro ?_ ?_

theorem Tile_tick_kept {s0 : State} (t : Tile) (duty : Nat) (h_t : TOk s0 t) :
    TOk s0 (Tile.tick t duty) := by
  unfold Tile.tick; dsimp only
  with_reducible
    repeat'
      first
      | assumption | apply TOk.data | apply TOk.code | simp only [TOk.upd] | refine And.intro ?_ ?_

theorem ldwStart_kept {s0 : State} (t : Tile) (f : LdwF) (h_t : TOk s0 t) :
    TOk s0 (ldwStart t f) := by
  unfold ldwStart
  with_reducible
    repeat'
      first
      | assumption | apply TOk.data | apply TOk.code | simp only [TOk.upd] | refine And.intro ?_ ?_

theorem swapBlocks_kept {s0 : State} (t : Tile) (swap : Bool) (h_t : TOk s0 t) :
    TOk s0 (swapBlocks t swap) := by
  unfold swapBlocks
  with_reducible
    repeat'
      first
      | assumption | apply TOk.ite | apply TOk.data | apply TOk.code | simp only [TOk.upd]
      | refine And.intro ?_ ?_

theorem runStart_kept {s0 : State} (t : Tile) (swap : Bool) (add : Bool) (bank : Nat) (m : Nat) (vs
    : Nat) (afmt : Nat) (r0 : Nat) (win : Nat) (src : Nat) (h_t : TOk s0 t) :
    TOk s0 (runStart t swap add bank m vs afmt r0 win src) := by
  unfold runStart; dsimp only
  with_reducible
    repeat'
      first
      | assumption | apply swapBlocks_kept | apply TOk.data | apply TOk.code | simp only [TOk.upd]
      | refine And.intro ?_ ?_ | split

theorem mxStart_kept {s0 : State} (t : Tile) (i : Mx) (h_t : TOk s0 t) :
    TOk s0 (mxStart t i) := by
  unfold mxStart
  with_reducible
    repeat'
      first
      | assumption | apply ldwStart_kept | apply runStart_kept | split

theorem doRow_kept {s0 : State} (t : Tile) (id : Nat) (i : Nat) (h_t : TOk s0 t) :
    TOk s0 (doRow t id i) := by
  unfold doRow; dsimp only
  with_reducible
    repeat'
      first
      | assumption | apply Tile_setAccRow_kept | apply Tile_raiseFlags_kept | apply TOk.ite
      | apply TOk.data | apply TOk.code | simp only [TOk.upd] | refine And.intro ?_ ?_ | split

theorem smStart_kept {s0 : State} (t : Tile) (i : Sm) (h_t : TOk s0 t) :
    TOk s0 (smStart t i) := by
  unfold smStart; dsimp only
  with_reducible
    repeat'
      first
      | assumption | apply Tile_setInQ_kept | split

theorem ctStart_kept {s0 : State} (t : Tile) (b : Nat) (i : Ct) (h_t : TOk s0 t) :
    TOk s0 (ctStart t b i) := by
  unfold ctStart; dsimp only
  with_reducible
    repeat'
      first
      | assumption | apply TOk.data | apply TOk.code | simp only [TOk.upd] | refine And.intro ?_ ?_
      | split

theorem flow_kept {s0 : State} (t : Tile) (b : Nat) (h_t : TOk s0 t) :
    TOk s0 (flow t b) := by
  unfold flow; dsimp only
  with_reducible
    repeat'
      first
      | assumption | apply TOk.ite | apply TOk.data | apply TOk.code | simp only [TOk.upd]
      | refine And.intro ?_ ?_

theorem nxStart_kept {s0 : State} (t : Tile) (i : Nx) (h_t : TOk s0 t) :
    TOk s0 (nxStart t i) := by
  unfold nxStart; dsimp only
  with_reducible
    repeat'
      first
      | assumption | apply Tile_setOutQ_kept | apply TOk.ite | apply TOk.data | apply TOk.code
      | simp only [TOk.upd] | refine And.intro ?_ ?_ | split

theorem acceptCmd_kept {s0 : State} (t : Tile) (c : Nat) (m : MCmd) (h_t : TOk s0 t) :
    TOk s0 (acceptCmd t c m) := by
  unfold acceptCmd; dsimp only
  with_reducible
    repeat'
      first
      | assumption | apply Tile_setChan_kept | apply TOk.ite | apply TOk.data | apply TOk.code
      | simp only [TOk.upd] | refine And.intro ?_ ?_

theorem doAct_kept {s0 : State} (t : Tile) (p : Pend) (h_t : TOk s0 t) :
    TOk s0 (doAct t p) := by
  unfold doAct; dsimp only
  with_reducible
    repeat'
      first
      | assumption | apply Tile_setV_kept | apply Tile_raiseFlags_kept | apply Tile_setP_kept
      | apply Tile_setS_kept | apply Tile_setAccRow_kept | apply doRow_kept
      | apply Tile_storeData_kept | apply Tile_setOutQ_kept | apply acceptCmd_kept | apply TOk.data
      | apply TOk.code | simp only [TOk.upd] | refine And.intro ?_ ?_ | split

theorem comeAbout_kept {s0 : State} (t : Tile) (f : Pend → Bool) (h_t : TOk s0 t) :
    TOk s0 (comeAbout t f) := by
  unfold comeAbout
  with_reducible
    repeat'
      first
      | intro _ | assumption | apply doAct_kept | apply TOk.foldl | apply TOk.data | apply TOk.code
      | simp only [TOk.upd] | refine And.intro ?_ ?_

theorem startCycle_kept {s0 : State} (t : Tile) (h_t : TOk s0 t) :
    TOk s0 (startCycle t) := by
  unfold startCycle
  with_reducible
    repeat'
      first
      | assumption | apply comeAbout_kept

theorem endCycle_kept {s0 : State} (t : Tile) (h_t : TOk s0 t) :
    TOk s0 (endCycle t) := by
  unfold endCycle
  with_reducible
    repeat'
      first
      | assumption | apply comeAbout_kept

theorem nextCycle_kept {s0 : State} (t : Tile) (duty : Nat) (h_t : TOk s0 t) :
    TOk s0 (nextCycle t duty) := by
  unfold nextCycle; dsimp only
  with_reducible
    repeat'
      first
      | assumption | apply endCycle_kept | apply Tile_tick_kept | apply TOk.data | apply TOk.code
      | simp only [TOk.upd] | refine And.intro ?_ ?_

theorem comeDue_kept {s0 : State} (t : Tile) (d : Nat) (h_t : TOk s0 t) :
    TOk s0 (comeDue t d) := by
  unfold comeDue
  with_reducible
    repeat'
      first
      | assumption | apply comeAbout_kept

theorem settleLoop_kept {s0 : State} (z0 : Nat) (z1 : Tile) (h_z1 : TOk s0 z1) :
    TOk s0 (settleLoop z0 z1) := by
  cases z0
  all_goals unfold settleLoop; try dsimp only
  repeat'
    first
    | intro _ | with_reducible apply settleLoop_kept | with_reducible assumption
    | with_reducible apply comeDue_kept | with_reducible apply TOk.ite
    | with_reducible apply TOk.foldl | with_reducible apply MOk.store
    | with_reducible apply MOk.write | with_reducible apply MOk.foldl
    | with_reducible apply MOk.ite | with_reducible apply TOk.data | with_reducible apply TOk.code
    | with_reducible apply Kept.tile | simp only [TOk.upd] | refine And.intro ?_ ?_
    | with_reducible exact TOk.empty | with_reducible exact MOk.nil
    | refine fst_of (by assumption) ?_ | refine snd_of (by assumption) ?_
    | refine Tfst_of (by assumption) ?_ | refine Tsnd_of (by assumption) ?_ | split

theorem settle_kept {s0 : State} (t : Tile) (h_t : TOk s0 t) :
    TOk s0 (settle t) := by
  unfold settle
  with_reducible
    repeat'
      first
      | assumption | apply settleLoop_kept

theorem takeTrap_kept {s0 : State} (t : Tile) (b : Nat) (traps : List (Nat × Nat)) (h_t : TOk s0 t)
    :
    TOk s0 (takeTrap t b traps) := by
  unfold takeTrap
  with_reducible
    repeat'
      first
      | assumption | apply TOk.data | apply TOk.code | simp only [TOk.upd] | refine And.intro ?_ ?_

theorem issueNow_kept {s0 : State} (t : Tile) (tid : Nat) (b : Nat) (duty : Nat) (i : Bundle) (c :
    Checked) (h_t : TOk s0 t) :
    TOk s0 (issueNow t tid b duty i c).1 := by
  unfold issueNow; dsimp only
  with_reducible
    repeat'
      first
      | assumption | apply ctStart_kept | apply nxStart_kept | apply smStart_kept
      | apply mxStart_kept | apply nextCycle_kept | apply flow_kept | apply Tile_countRun_kept
      | apply TOk.data | apply TOk.code | simp only [TOk.upd] | refine And.intro ?_ ?_

theorem tryIssue_kept {s0 : State} (t : Tile) (tid : Nat) (b : Nat) (duty : Nat) (i : Bundle)
    (passed : Bool) (h_t : TOk s0 t) :
    TOk s0 (tryIssue t tid b duty i passed).1 := by
  unfold tryIssue; dsimp only
  with_reducible
    repeat'
      first
      | assumption | apply takeTrap_kept | apply Tile_countFrozen_kept | apply Tile_tick_kept
      | apply issueNow_kept | apply TOk.data | apply TOk.code | simp only [TOk.upd]
      | refine And.intro ?_ ?_ | split

theorem withRetry_kept {s0 : State} (r : Tile × List Eff) (tid : Nat) (hits : List ParHit) (par :
    List ParHit) (h_r : TOk s0 r.1) :
    TOk s0 (withRetry r tid hits par).1 := by
  unfold withRetry; dsimp only
  with_reducible
    repeat'
      first
      | assumption | apply TOk.data | apply TOk.code | simp only [TOk.upd] | refine And.intro ?_ ?_
      | split

theorem bundleCycle_kept {s0 : State} (t0 : Tile) (tid : Nat) (duty : Nat) (i : Bundle) (par : List
    ParHit) (h_t0 : TOk s0 t0) :
    TOk s0 (bundleCycle t0 tid duty i par).1 := by
  unfold bundleCycle; dsimp only
  with_reducible
    repeat'
      first
      | assumption | apply startCycle_kept | apply takeTrap_kept | apply withRetry_kept
      | apply tryIssue_kept | apply TOk.data | apply TOk.code | simp only [TOk.upd]
      | refine And.intro ?_ ?_ | split

theorem drainCycle_kept {s0 : State} (t : Tile) (duty : Nat) (h_t : TOk s0 t) :
    TOk s0 (drainCycle t duty) := by
  unfold drainCycle
  with_reducible
    repeat'
      first
      | assumption | apply nextCycle_kept | apply startCycle_kept

theorem waitCycle_kept {s0 : State} (t0 : Tile) (tid : Nat) (duty : Nat) (h : Hold) (par : List
    ParHit) (h_t0 : TOk s0 t0) :
    TOk s0 (waitCycle t0 tid duty h par).1 := by
  unfold waitCycle
  with_reducible
    repeat'
      first
      | assumption | apply startCycle_kept | apply tryIssue_kept | apply withRetry_kept
      | apply TOk.data | apply TOk.code | simp only [TOk.upd] | refine And.intro ?_ ?_ | split

end Sys2Proof.Laws
end

