-- ==== Sys2Proof/Laws/KeptStore.lean ====
section
/-!
SUPPORT. Laws/KeptStore.lean: what `Kept` says, of the shared operations, those of slices, engines,
runs, completions and links. Each lemma says that an operation keeps it, whatever its arguments are.
-/
set_option linter.unusedVariables false
open Sys2Proof Sys2Proof.Machine Sys2Proof.Safety
namespace Sys2Proof.Laws

theorem bump_kept {s0 : State} (s : State) (p : PageId) (f : Fld) (n : Nat) (i : Nat) (hk : Kept s0
    s) :
    Kept s0 (bump s p f n i) := by
  unfold bump
  with_reducible
    repeat'
      first
      | assumption | apply wr_kept

theorem bump64_kept {s0 : State} (s : State) (p : PageId) (lo : Fld) (hi : Fld) (n : Nat) (hk : Kept
    s0 s) :
    Kept s0 (bump64 s p lo hi n) := by
  unfold bump64; dsimp only
  with_reducible
    repeat'
      first
      | assumption | apply wr_kept

theorem setProc_kept {s0 : State} (s : State) (d : Nat) (x : Proc) (hk : Kept s0 s) :
    Kept s0 (setProc s d x) := by
  unfold setProc
  with_reducible
    repeat'
      first
      | assumption | simp only [Kept.upd]

theorem setDom_kept {s0 : State} (s : State) (i : Nat) (x : Dom) (hk : Kept s0 s) :
    Kept s0 (setDom s i x) := by
  unfold setDom; dsimp only
  with_reducible
    repeat'
      first
      | assumption | simp only [Kept.upd]

theorem freeNat_kept {s0 : State} (s : State) (hk : Kept s0 s) :
    Kept s0 (freeNat s).2 := by
  unfold freeNat; dsimp only
  with_reducible
    repeat'
      first
      | assumption | simp only [Kept.upd]

theorem freeWord_kept {s0 : State} (s : State) (hk : Kept s0 s) :
    Kept s0 (freeWord s).2 := by
  unfold freeWord; dsimp only
  with_reducible
    repeat'
      first
      | assumption | simp only [Kept.upd]

theorem freeBool_kept {s0 : State} (s : State) (hk : Kept s0 s) :
    Kept s0 (freeBool s).2 := by
  unfold freeBool; dsimp only
  with_reducible
    repeat'
      first
      | assumption | simp only [Kept.upd]

theorem assignFlow_kept {s0 : State} (s : State) (g : Nat) (flow : Nat) (hk : Kept s0 s) :
    Kept s0 (assignFlow s g flow) := by
  unfold assignFlow; dsimp only
  with_reducible
    repeat'
      first
      | assumption | simp only [Kept.upd] | split

theorem crossFlow_kept {s0 : State} (s : State) (gs : List Nat) (flow : Nat) (hk : Kept s0 s) :
    Kept s0 (crossFlow s gs flow) := by
  unfold crossFlow
  with_reducible
    repeat'
      first
      | intro _ | assumption | apply assignFlow_kept | apply Kept.foldl

theorem takeFlips_kept {s0 : State} (s : State) (g : Nat) (flow : Nat) (b : List Byte) (hk : Kept s0
    s) :
    Kept s0 (takeFlips s g flow b).1 := by
  unfold takeFlips; dsimp only
  repeat'
    first
    | intro _ | with_reducible assumption | with_reducible apply flow_kept
    | with_reducible apply Kept.ite | with_reducible apply Kept.ite1
    | with_reducible apply Kept.ite2 | with_reducible apply Kept.foldl
    | with_reducible apply Kept.foldl1 | refine fst_of (by assumption) ?_
    | refine snd_of (by assumption) ?_ | simp only [Kept.upd] | split

theorem crossData_kept {s0 : State} (s : State) (gs : List Nat) (flow : Nat) (b : List Byte) (hk :
    Kept s0 s) :
    Kept s0 (crossData s gs flow b).1 := by
  unfold crossData
  repeat'
    first
    | intro _ | with_reducible assumption | with_reducible apply takeFlips_kept
    | with_reducible apply assignFlow_kept | with_reducible apply flow_kept
    | with_reducible apply Kept.ite | with_reducible apply Kept.ite1
    | with_reducible apply Kept.ite2 | with_reducible apply Kept.foldl
    | with_reducible apply Kept.foldl1

theorem crossNat_kept {s0 : State} (s : State) (gs : List Nat) (flow : Nat) (k : Nat) (v : Nat) (hk
    : Kept s0 s) :
    Kept s0 (crossNat s gs flow k v).1 := by
  unfold crossNat; dsimp only
  repeat'
    first
    | intro _ | with_reducible assumption | with_reducible apply crossData_kept

theorem plazaCross_kept {s0 : State} (s : State) (src : Nat) (n : Nat) (hk : Kept s0 s) :
    Kept s0 (plazaCross s src n) := by
  unfold plazaCross
  with_reducible
    repeat'
      first
      | assumption | apply assignFlow_kept

theorem plazaData_kept {s0 : State} (s : State) (src : Nat) (n : Nat) (b : List Byte) (hk : Kept s0
    s) :
    Kept s0 (plazaData s src n b).1 := by
  unfold plazaData
  repeat'
    first
    | intro _ | with_reducible assumption | with_reducible apply crossData_kept

theorem plazaNat_kept {s0 : State} (s : State) (src : Nat) (n : Nat) (k : Nat) (v : Nat) (hk : Kept
    s0 s) :
    Kept s0 (plazaNat s src n k v).1 := by
  unfold plazaNat
  repeat'
    first
    | intro _ | with_reducible assumption | with_reducible apply crossNat_kept

theorem rehash_kept {s0 : State} (s : State) (g : Nat) (m : Nat) (hk : Kept s0 s) :
    Kept s0 (rehash s g m) := by
  unfold rehash; dsimp only
  with_reducible
    repeat'
      first
      | assumption | simp only [Kept.upd]

theorem sendVector_kept {s0 : State} (s : State) (d : Nat) (v : Nat) (hk : Kept s0 s) :
    Kept s0 (sendVector s d v) := by
  unfold sendVector; dsimp only
  with_reducible
    repeat'
      first
      | assumption | apply emit_kept | apply wr_kept | apply Kept.ite | simp only [Kept.upd]

theorem deliver1_kept {s0 : State} (s : State) (d : Nat) (v : Nat) (hk : Kept s0 s) :
    Kept s0 (deliver1 s d v) := by
  unfold deliver1
  with_reducible
    repeat'
      first
      | assumption | apply sendVector_kept | apply Kept.ite

theorem deliver_kept {s0 : State} (s : State) (hk : Kept s0 s) :
    Kept s0 (deliver s) := by
  unfold deliver
  with_reducible
    repeat'
      first
      | intro _ | assumption | apply deliver1_kept | apply Kept.foldl

theorem raise_kept {s0 : State} (s : State) (p : PageId) (b : Nat) (hk : Kept s0 s) :
    Kept s0 (raise s p b) := by
  unfold raise
  with_reducible
    repeat'
      first
      | assumption | apply deliver_kept | apply wr_kept

theorem lastErr_kept {s0 : State} (s : State) (p : PageId) (code : Nat) (hk : Kept s0 s) :
    Kept s0 (lastErr s p code) := by
  unfold lastErr
  with_reducible
    repeat'
      first
      | assumption | apply wr_kept

theorem logErr_kept {s0 : State} (s : State) (p : PageId) (code : Nat) (lo : Nat) (hi : Nat) (synd :
    Nat) (hk : Kept s0 s) :
    Kept s0 (logErr s p code lo hi synd) := by
  unfold logErr
  with_reducible
    repeat'
      first
      | assumption | apply wr_kept

theorem clearFields_kept {s0 : State} (s : State) (p : PageId) (fs : List Fld) (hk : Kept s0 s) :
    Kept s0 (clearFields s p fs) := by
  unfold clearFields
  with_reducible
    repeat'
      first
      | intro _ | assumption | apply deliver_kept | apply wr_kept | apply Kept.foldl

theorem refuse_kept {s0 : State} (s : State) (d : Nat) (a : Nat) (code : Nat) (hk : Kept s0 s) :
    Kept s0 (refuse s d a code) := by
  unfold refuse; dsimp only
  with_reducible
    repeat'
      first
      | assumption | apply bump_kept | apply logErr_kept | apply raise_kept | apply Kept.ite
      | simp only [Kept.upd]

theorem logSector_kept {s0 : State} (s : State) (n : Nat) (code : Nat) (sec : Nat) (req : Nat) (synd
    : Nat) (hk : Kept s0 s) :
    Kept s0 (logSector s n code sec req synd) := by
  unfold logSector; dsimp only
  with_reducible
    repeat'
      first
      | assumption | apply logErr_kept

theorem failSector_kept {s0 : State} (s : State) (n : Nat) (sec : Nat) (p : List (Nat × Nat)) (hk :
    Kept s0 s) :
    Kept s0 (failSector s n sec p) := by
  unfold failSector; dsimp only
  with_reducible
    repeat'
      first
      | assumption | apply Kept.setSlice | apply XOk.mem | apply XOk.check | apply XOk.buf
      | apply Kept.slice | simp only [XOk.upd] | refine And.intro ?_ ?_

theorem controllerRead_kept {s0 : State} (s : State) (n : Nat) (sec : Nat) (req : Nat) (err : Option
    SectorErr) (hk : Kept s0 s) :
    Kept s0 (controllerRead s n sec req err).1 := by
  unfold controllerRead; dsimp only
  with_reducible
    repeat'
      first
      | assumption | apply raise_kept | apply logSector_kept | apply bump_kept
      | apply failSector_kept | apply Kept.ite1 | split

theorem readSector_kept {s0 : State} (s : State) (n : Nat) (sec : Nat) (req : Nat) (err : Option
    SectorErr) (hk : Kept s0 s) :
    Kept s0 (readSector s n sec req err).1 := by
  unfold readSector
  with_reducible
    repeat'
      first
      | assumption | apply controllerRead_kept | apply bump64_kept

theorem encode_kept {s0 : State} (x : Slice) (sec : Nat) (d : List Byte) (h_x : XOk s0 x) :
    XOk s0 (encode x sec d) := by
  unfold encode
  with_reducible
    repeat'
      first
      | assumption | apply MOk.store | apply XOk.mem | apply XOk.check | apply XOk.buf
      | simp only [XOk.upd] | refine And.intro ?_ ?_

theorem putSector_kept {s0 : State} (s : State) (n : Nat) (sec : Nat) (bytes : List Byte) (hk : Kept
    s0 s) :
    Kept s0 (putSector s n sec bytes) := by
  unfold putSector; dsimp only
  with_reducible
    repeat'
      first
      | assumption | apply encode_kept | apply Kept.setSlice | apply bump64_kept | apply MOk.store
      | apply XOk.mem | apply XOk.check | apply XOk.buf | apply Kept.slice | simp only [XOk.upd]
      | refine And.intro ?_ ?_

theorem putWin_kept {s0 : State} (s : State) (n : Nat) (off : Nat) (bytes : List Byte) (hk : Kept s0
    s) :
    Kept s0 (putWin s n off bytes) := by
  unfold putWin; dsimp only
  with_reducible
    repeat'
      first
      | assumption | apply encode_kept | apply Kept.setSlice | apply MOk.store | apply XOk.mem
      | apply XOk.check | apply XOk.buf | apply Kept.slice | simp only [XOk.upd]
      | refine And.intro ?_ ?_

theorem mergeDropped_kept {s0 : State} (s : State) (n : Nat) (sec : Nat) (synd : Nat) (hk : Kept s0
    s) :
    Kept s0 (mergeDropped s n sec synd) := by
  unfold mergeDropped; dsimp only
  with_reducible
    repeat'
      first
      | assumption | apply raise_kept | apply logSector_kept | apply bump_kept

theorem putAny_kept {s0 : State} (s : State) (n : Nat) (sec : Nat) (d : List Byte) (hk : Kept s0 s)
    :
    Kept s0 (putAny s n sec d) := by
  unfold putAny
  with_reducible
    repeat'
      first
      | assumption | apply putSector_kept | apply putWin_kept | apply Kept.ite

theorem flushEntry_kept {s0 : State} (s : State) (n : Nat) (sec : Nat) (err : Option SectorErr) (hk
    : Kept s0 s) :
    Kept s0 (flushEntry s n sec err) := by
  unfold flushEntry; dsimp only
  with_reducible
    repeat'
      first
      | assumption | apply Kept.setSlice | apply putAny_kept | apply readSector_kept
      | apply controllerRead_kept | apply bump64_kept | apply mergeDropped_kept | apply Kept.ite
      | apply XOk.mem | apply XOk.check | apply XOk.buf | apply Kept.slice | simp only [XOk.upd]
      | refine And.intro ?_ ?_ | split

theorem layNarrow_kept {s0 : State} {x y : Slice} {w : Narrow} (h_x : XOk s0 x)
    (h : layNarrow x w = some y) : XOk s0 y := by
  unfold layNarrow at h; dsimp only at h
  split at h
  · cases h; exact h_x.of_eq rfl rfl rfl
  · split at h
    · cases h; exact h_x.of_eq rfl rfl rfl
    · cases h

theorem waitNarrow_kept {s0 : State} (x : Slice) (w : Narrow) (h_x : XOk s0 x) :
    XOk s0 (waitNarrow x w) := by
  unfold waitNarrow; dsimp only
  with_reducible
    repeat'
      first
      | assumption | apply XOk.mem | apply XOk.check | apply XOk.buf | simp only [XOk.upd]
      | refine And.intro ?_ ?_

theorem gather_kept {s0 : State} (s : State) (n : Nat) (w : Narrow) (hk : Kept s0 s) :
    Kept s0 (gather s n w) := by
  unfold gather; dsimp only
  refine hk.setSlice _ ?_
  split
  · cases e : layNarrow (slice s n) w with
    | some y => exact layNarrow_kept (hk.slice n) e
    | none => exact waitNarrow_kept _ _ (hk.slice n)
  · exact waitNarrow_kept _ _ (hk.slice n)

theorem gatherWaiting_kept {s0 : State} (x : Slice) (k : Nat) (h_x : XOk s0 x) :
    XOk s0 (gatherWaiting x k) := by
  induction k generalizing x with
  | zero => exact h_x
  | succ k ih =>
    unfold gatherWaiting
    split
    · exact h_x
    · split
      · rename_i e
        refine ih _ (layNarrow_kept ?_ e)
        exact h_x.of_eq rfl rfl rfl
      · exact h_x

theorem dropMerge_kept {s0 : State} (x : Slice) (sec : Nat) (h_x : XOk s0 x) :
    XOk s0 (dropMerge x sec) := by
  unfold dropMerge
  with_reducible
    repeat'
      first
      | assumption | apply gatherWaiting_kept | apply XOk.mem | apply XOk.check | apply XOk.buf
      | simp only [XOk.upd] | refine And.intro ?_ ?_

theorem flushForGo_kept {s0 : State} (x : Slice) (h_x : XOk s0 x) :
    XOk s0 (flushForGo x) := by
  unfold flushForGo
  with_reducible
    repeat'
      first
      | assumption | apply XOk.ite | apply XOk.mem | apply XOk.check | apply XOk.buf
      | simp only [XOk.upd] | refine And.intro ?_ ?_

theorem putWindow_kept {s0 : State} (s : State) (n : Nat) (off : Nat) (who : Option Nat) (z0 : Nat)
    (z1 : List Byte) (hk : Kept s0 s) :
    Kept s0 (putWindow s n off who z0 z1) := by
  cases z0
  all_goals unfold putWindow; try dsimp only
  repeat'
    first
    | intro _ | with_reducible apply putWindow_kept | with_reducible assumption
    | with_reducible apply putWin_kept | with_reducible apply Kept.setSlice
    | with_reducible apply dropMerge_kept | with_reducible apply gather_kept
    | with_reducible apply Kept.ite | with_reducible apply Kept.foldl
    | with_reducible apply Kept.foldl1 | with_reducible apply XOk.ite
    | with_reducible apply XOk.foldl | with_reducible apply MOk.store
    | with_reducible apply MOk.write | with_reducible apply MOk.foldl
    | with_reducible apply MOk.ite | with_reducible apply XOk.mem | with_reducible apply XOk.check
    | with_reducible apply XOk.buf | with_reducible apply Kept.slice

theorem drainPuts_kept {s0 : State} (s : State) (n : Nat) (z0 : Nat) (hk : Kept s0 s) :
    Kept s0 (drainPuts s n z0) := by
  cases z0
  all_goals unfold drainPuts; try dsimp only
  repeat'
    first
    | intro _ | with_reducible apply drainPuts_kept | with_reducible assumption
    | with_reducible apply putWindow_kept | with_reducible apply Kept.setSlice
    | with_reducible apply Kept.ite | with_reducible apply Kept.foldl
    | with_reducible apply Kept.foldl1 | with_reducible apply XOk.ite
    | with_reducible apply XOk.foldl | with_reducible apply MOk.store
    | with_reducible apply MOk.write | with_reducible apply MOk.foldl
    | with_reducible apply MOk.ite | with_reducible apply XOk.mem | with_reducible apply XOk.check
    | with_reducible apply XOk.buf | with_reducible apply Kept.slice | simp only [XOk.upd]
    | refine And.intro ?_ ?_ | with_reducible exact XOk.empty | with_reducible exact MOk.nil
    | refine fst_of (by assumption) ?_ | refine snd_of (by assumption) ?_ | simp only [Kept.upd]
    | split

theorem settleSlice_kept {s0 : State} (s : State) (n : Nat) (hk : Kept s0 s) :
    Kept s0 (settleSlice s n) := by
  unfold settleSlice; dsimp only
  with_reducible
    repeat'
      first
      | assumption | apply Kept.setSlice | apply gatherWaiting_kept | apply drainPuts_kept
      | apply flushForGo_kept | apply Kept.slice

theorem flushSector_kept {s0 : State} (s : State) (n : Nat) (sec : Nat) (err : Option SectorErr) (hk
    : Kept s0 s) :
    Kept s0 (flushSector s n sec err) := by
  unfold flushSector
  with_reducible
    repeat'
      first
      | assumption | apply settleSlice_kept | apply flushEntry_kept

theorem flushAll_kept {s0 : State} (s : State) (n : Nat) (errs : SectorErrs) (z0 : Nat) (hk : Kept
    s0 s) :
    Kept s0 (flushAll s n errs z0) := by
  cases z0
  all_goals unfold flushAll; try dsimp only
  repeat'
    first
    | intro _ | with_reducible apply flushAll_kept | with_reducible assumption
    | with_reducible apply flushSector_kept | with_reducible apply Kept.ite
    | with_reducible apply Kept.foldl | with_reducible apply Kept.foldl1
    | with_reducible apply XOk.ite | with_reducible apply XOk.foldl
    | with_reducible apply MOk.store | with_reducible apply MOk.write
    | with_reducible apply MOk.foldl | with_reducible apply MOk.ite | with_reducible apply XOk.mem
    | with_reducible apply XOk.check | with_reducible apply XOk.buf
    | with_reducible apply Kept.slice | simp only [XOk.upd] | refine And.intro ?_ ?_
    | with_reducible exact XOk.empty | with_reducible exact MOk.nil
    | refine fst_of (by assumption) ?_ | refine snd_of (by assumption) ?_ | simp only [Kept.upd]
    | split

theorem sliceSector_kept {s0 : State} (s : State) (n : Nat) (sec : Nat) (req : Nat) (err : Option
    SectorErr) (hk : Kept s0 s) :
    Kept s0 (sliceSector s n sec req err).1 := by
  unfold sliceSector
  with_reducible
    repeat'
      first
      | assumption | apply readSector_kept | apply flushSector_kept | split

theorem sliceSectors_kept {s0 : State} (s : State) (n : Nat) (sec : Nat) (req : Nat) (errs :
    SectorErrs) (i : Nat) (z0 : Nat) (hk : Kept s0 s) :
    Kept s0 (sliceSectors s n sec req errs i z0).1 := by
  cases z0
  all_goals unfold sliceSectors; try dsimp only
  repeat'
    first
    | intro _ | with_reducible apply sliceSectors_kept | with_reducible assumption
    | with_reducible apply sliceSector_kept | with_reducible apply Kept.ite
    | with_reducible apply Kept.ite1 | with_reducible apply Kept.ite2
    | with_reducible apply Kept.foldl | with_reducible apply Kept.foldl1
    | with_reducible apply XOk.ite | with_reducible apply XOk.foldl
    | with_reducible apply MOk.store | with_reducible apply MOk.write
    | with_reducible apply MOk.foldl | with_reducible apply MOk.ite | with_reducible apply XOk.mem
    | with_reducible apply XOk.check | with_reducible apply XOk.buf
    | with_reducible apply Kept.slice | simp only [XOk.upd] | refine And.intro ?_ ?_
    | with_reducible exact XOk.empty | with_reducible exact MOk.nil
    | refine fst_of (by assumption) ?_ | refine snd_of (by assumption) ?_ | simp only [Kept.upd]
    | split

theorem sliceWriteSector_kept {s0 : State} (s : State) (n : Nat) (sec : Nat) (bytes : List Byte) (hk
    : Kept s0 s) :
    Kept s0 (sliceWriteSector s n sec bytes) := by
  unfold sliceWriteSector
  with_reducible
    repeat'
      first
      | assumption | apply settleSlice_kept | apply putSector_kept | apply Kept.setSlice
      | apply dropMerge_kept | apply Kept.slice

theorem sliceWriteSectors_kept {s0 : State} (s : State) (n : Nat) (sec : Nat) (z0 : Nat) (z1 : List
    Byte) (hk : Kept s0 s) :
    Kept s0 (sliceWriteSectors s n sec z0 z1) := by
  cases z0
  all_goals unfold sliceWriteSectors; try dsimp only
  repeat'
    first
    | intro _ | with_reducible apply sliceWriteSectors_kept | with_reducible assumption
    | with_reducible apply sliceWriteSector_kept

theorem sliceWriteBytes_kept {s0 : State} (s : State) (n : Nat) (off : Nat) (z0 : Nat) (z1 : List
    Byte) (hk : Kept s0 s) :
    Kept s0 (sliceWriteBytes s n off z0 z1) := by
  cases z0
  all_goals unfold sliceWriteBytes; try dsimp only
  repeat'
    first
    | intro _ | with_reducible apply sliceWriteBytes_kept | with_reducible assumption
    | with_reducible apply sliceWriteSector_kept | with_reducible apply gather_kept
    | with_reducible apply Kept.ite

theorem refreshOps_kept {s0 : State} (s : State) (n : Nat) (k : Nat) (hk : Kept s0 s) :
    Kept s0 (refreshOps s n k) := by
  unfold refreshOps; dsimp only
  with_reducible
    repeat'
      first
      | assumption | apply Kept.setSlice | apply XOk.mem | apply XOk.check | apply XOk.buf
      | apply Kept.slice | simp only [XOk.upd] | refine And.intro ?_ ?_

theorem refreshIntervals_kept {s0 : State} (s : State) (n : Nat) (k : Nat) (hk : Kept s0 s) :
    Kept s0 (refreshIntervals s n k) := by
  unfold refreshIntervals
  with_reducible
    repeat'
      first
      | assumption | apply refreshOps_kept

theorem poisonSector_kept {s0 : State} (x : Slice) (k : Nat) (h_x : XOk s0 x) :
    XOk s0 (poisonSector x k) := by
  unfold poisonSector
  with_reducible
    repeat'
      first
      | assumption | apply XOk.mem | apply XOk.check | apply XOk.buf | simp only [XOk.upd]
      | refine And.intro ?_ ?_

theorem poisonLines_kept {s0 : State} (x : Slice) (b : List Byte) (h_x : XOk s0 x) :
    XOk s0 (poisonLines x b) := by
  unfold poisonLines
  with_reducible
    repeat'
      first
      | intro _ | assumption | apply poisonSector_kept | apply XOk.foldl

theorem EDesc_writeAll_kept {s0 : State} (d : EDesc) (x : Slice) (v : Slice) (l : List Byte) (h_x :
    XOk s0 x) (h_v : XOk s0 v) :
    XOk s0 (EDesc.writeAll d x v l) := by
  unfold EDesc.writeAll; dsimp only
  with_reducible
    repeat'
      first
      | intro _ | assumption | apply encode_kept | apply XOk.foldl | apply MOk.store
      | apply MOk.foldl | apply XOk.mem | apply XOk.check | apply XOk.buf | simp only [XOk.upd]
      | refine And.intro ?_ ?_

theorem logEngine_kept {s0 : State} (s : State) (n : Nat) (code : Nat) (src : Nat) (sec : Nat) (synd
    : Nat) (hk : Kept s0 s) :
    Kept s0 (logEngine s n code src sec synd) := by
  unfold logEngine; dsimp only
  with_reducible
    repeat'
      first
      | assumption | apply logErr_kept

theorem engineRead_kept {s0 : State} (s : State) (n : Nat) (src : Nat) (sec : Nat) (err : Option
    SectorErr) (hk : Kept s0 s) :
    Kept s0 (engineRead s n src sec err).1 := by
  unfold engineRead; dsimp only
  with_reducible
    repeat'
      first
      | assumption | apply logEngine_kept | apply bump_kept | apply failSector_kept
      | apply Kept.ite1 | split

theorem Seen_over_kept {s0 : State} (v : Seen) (p : Nat → Bool) (m : Memory) (h_m : MOk s0 m) :
    MOk s0 (v.over p m) := by
  unfold Seen.over
  refine h_m.foldl _ fun y a h => ?_
  split
  · exact h.store _ _
  · exact h

theorem engineReads_kept {s0 : State} (s : State) (n : Nat) (errs : EngErrs) (z0 : List (Nat × Nat))
    (hk : Kept s0 s) :
    Kept s0 (engineReads s n errs z0).1 := by
  cases z0
  all_goals unfold engineReads; try dsimp only
  repeat'
    first
    | intro _ | with_reducible apply engineReads_kept | with_reducible assumption
    | with_reducible apply engineRead_kept | with_reducible apply Kept.ite
    | with_reducible apply Kept.ite1

theorem countRun_kept {s0 : State} (s : State) (n : Nat) (tag : Nat) (mask : Nat) (hk : Kept s0 s) :
    Kept s0 (countRun s n tag mask) := by
  unfold countRun; dsimp only
  with_reducible
    repeat'
      first
      | assumption | apply Kept.setSlice | apply bump_kept | apply wr_kept | apply raise_kept
      | apply Kept.ite | apply XOk.mem | apply XOk.check | apply XOk.buf | apply Kept.slice
      | simp only [XOk.upd] | refine And.intro ?_ ?_

theorem emptyRun_kept {s0 : State} (s : State) (n : Nat) (tag : Nat) (code : Nat) (bit : Nat) (hk :
    Kept s0 s) :
    Kept s0 (emptyRun s n tag code bit) := by
  unfold emptyRun; dsimp only
  with_reducible
    repeat'
      first
      | intro _ | assumption | apply Kept.setSlice | apply poisonSector_kept | apply raise_kept
      | apply lastErr_kept | apply countRun_kept | apply XOk.foldl | apply Kept.slice

theorem showDesc_kept {s0 : State} (s : State) (n : Nat) (hk : Kept s0 s) :
    Kept s0 (showDesc s n) := by
  unfold showDesc
  with_reducible
    repeat'
      first
      | assumption | apply wr_kept | apply Kept.ite | split

theorem startRun_kept {s0 : State} (s : State) (n : Nat) (w : Nat) (hk : Kept s0 s) :
    Kept s0 (startRun s n w) := by
  unfold startRun; dsimp only
  with_reducible
    repeat'
      first
      | intro _ | assumption | apply Kept.setSlice | apply poisonLines_kept | apply showDesc_kept
      | apply Kept.ite | apply XOk.foldl | apply XOk.mem | apply XOk.check | apply XOk.buf
      | apply Kept.slice | simp only [XOk.upd] | refine And.intro ?_ ?_

theorem poisonRest_kept {s0 : State} (s : State) (n : Nat) (i : Nat) (own : Bool) (hk : Kept s0 s) :
    Kept s0 (poisonRest s n i own) := by
  unfold poisonRest; dsimp only
  with_reducible
    repeat'
      first
      | intro _ | assumption | apply poisonLines_kept | apply Kept.setSlice | apply XOk.foldl
      | apply XOk.mem | apply XOk.check | apply XOk.buf | apply Kept.slice | simp only [XOk.upd]
      | refine And.intro ?_ ?_ | split

theorem haltRun_kept {s0 : State} (s : State) (n : Nat) (i : Nat) (code : Nat) (hk : Kept s0 s) :
    Kept s0 (haltRun s n i code) := by
  unfold haltRun; dsimp only
  with_reducible
    repeat'
      first
      | assumption | apply raise_kept | apply wr_kept | apply lastErr_kept | apply poisonRest_kept

theorem badRun_kept {s0 : State} (s : State) (n : Nat) (i : Nat) (hk : Kept s0 s) :
    Kept s0 (badRun s n i) := by
  unfold badRun
  with_reducible
    repeat'
      first
      | assumption | apply raise_kept | apply lastErr_kept | apply poisonRest_kept

theorem runPass_kept {s0 : State} (s : State) (n : Nat) (errs : EngErrs) (hk : Kept s0 s) :
    Kept s0 (runPass s n errs) := by
  unfold runPass; dsimp only
  with_reducible
    repeat'
      first
      | assumption | apply engineReads_kept | apply haltRun_kept | apply badRun_kept
      | apply bump64_kept | apply Seen_over_kept | apply showDesc_kept | apply Kept.setSlice
      | apply EDesc_writeAll_kept | apply Kept.ite | apply XOk.mem | apply XOk.check
      | apply XOk.buf | apply Kept.slice | simp only [XOk.upd] | refine And.intro ?_ ?_ | split

theorem modeRefused_kept {s0 : State} (s : State) (n : Nat) (hk : Kept s0 s) :
    Kept s0 (modeRefused s n) := by
  unfold modeRefused
  with_reducible
    repeat'
      first
      | assumption | apply raise_kept | apply lastErr_kept

theorem beginEnter_kept {s0 : State} (s : State) (n : Nat) (hk : Kept s0 s) :
    Kept s0 (beginEnter s n) := by
  unfold beginEnter; dsimp only
  with_reducible
    repeat'
      first
      | assumption | apply Kept.setSlice | apply XOk.mem | apply XOk.check | apply XOk.buf
      | apply Kept.slice | simp only [XOk.upd] | refine And.intro ?_ ?_

theorem modeWrite_kept {s0 : State} (s : State) (n : Nat) (w : Nat) (hk : Kept s0 s) :
    Kept s0 (modeWrite s n w) := by
  unfold modeWrite; dsimp only
  with_reducible
    repeat'
      first
      | assumption | apply modeRefused_kept | apply beginEnter_kept | apply Kept.setSlice
      | apply Kept.ite | apply XOk.mem | apply XOk.check | apply XOk.buf | apply Kept.slice
      | simp only [XOk.upd] | refine And.intro ?_ ?_

theorem goWrite_kept {s0 : State} (s : State) (n : Nat) (w : Nat) (who : Option Nat) (hk : Kept s0
    s) :
    Kept s0 (goWrite s n w who) := by
  unfold goWrite; dsimp only
  with_reducible
    repeat'
      first
      | assumption | apply emptyRun_kept | apply Kept.setSlice | apply flushForGo_kept
      | apply Kept.ite | apply XOk.mem | apply XOk.check | apply XOk.buf | apply Kept.slice
      | simp only [XOk.upd] | refine And.intro ?_ ?_

theorem winWrite_kept {s0 : State} (s : State) (n : Nat) (off : Nat) (bytes : List Byte) (who :
    Option Nat) (hk : Kept s0 s) :
    Kept s0 (winWrite s n off bytes who).1 := by
  unfold winWrite; dsimp only
  with_reducible
    repeat'
      first
      | assumption | apply modeWrite_kept | apply goWrite_kept | apply putWindow_kept
      | apply Kept.setSlice | apply Kept.ite1 | apply XOk.mem | apply XOk.check | apply XOk.buf
      | apply Kept.slice | simp only [XOk.upd] | refine And.intro ?_ ?_

theorem winSectorRead_kept {s0 : State} (s : State) (n : Nat) (off : Nat) (req : Nat) (err : Option
    SectorErr) (hk : Kept s0 s) :
    Kept s0 (winSectorRead s n off req err).1 := by
  unfold winSectorRead; dsimp only
  with_reducible
    repeat'
      first
      | assumption | apply flushSector_kept | apply controllerRead_kept | apply Kept.ite
      | apply Kept.ite1

theorem unwriteBuffers_kept {s0 : State} (x : Slice) (h_x : XOk s0 x) :
    XOk s0 (unwriteBuffers x) := by
  unfold unwriteBuffers
  with_reducible
    repeat'
      first
      | assumption | apply XOk.mem | apply XOk.check | apply XOk.buf | simp only [XOk.upd]
      | refine And.intro ?_ ?_

theorem flushWindow_kept {s0 : State} (s : State) (n : Nat) (z0 : Nat) (hk : Kept s0 s) :
    Kept s0 (flushWindow s n z0) := by
  cases z0
  all_goals unfold flushWindow; try dsimp only
  repeat'
    first
    | intro _ | with_reducible apply flushWindow_kept | with_reducible assumption
    | with_reducible apply flushSector_kept | with_reducible apply Kept.ite
    | with_reducible apply Kept.foldl | with_reducible apply Kept.foldl1
    | with_reducible apply XOk.ite | with_reducible apply XOk.foldl
    | with_reducible apply MOk.store | with_reducible apply MOk.write
    | with_reducible apply MOk.foldl | with_reducible apply MOk.ite | with_reducible apply XOk.mem
    | with_reducible apply XOk.check | with_reducible apply XOk.buf
    | with_reducible apply Kept.slice | simp only [XOk.upd] | refine And.intro ?_ ?_
    | with_reducible exact XOk.empty | with_reducible exact MOk.nil
    | refine fst_of (by assumption) ?_ | refine snd_of (by assumption) ?_ | simp only [Kept.upd]
    | split

theorem engineFresh_kept {s0 : State} (s : State) (n : Nat) (hk : Kept s0 s) :
    Kept s0 (engineFresh s n) := by
  unfold engineFresh; dsimp only
  repeat'
    first
    | intro _ | with_reducible assumption | with_reducible apply flushWindow_kept
    | with_reducible apply wr_kept | with_reducible apply Kept.setSlice
    | with_reducible apply unwriteBuffers_kept | with_reducible apply Kept.ite
    | with_reducible apply Kept.foldl | with_reducible apply Kept.foldl1
    | with_reducible apply XOk.ite | with_reducible apply XOk.foldl
    | with_reducible apply MOk.store | with_reducible apply MOk.write
    | with_reducible apply MOk.foldl | with_reducible apply MOk.ite | with_reducible apply XOk.mem
    | with_reducible apply XOk.check | with_reducible apply XOk.buf
    | with_reducible apply Kept.slice | simp only [XOk.upd] | refine And.intro ?_ ?_

theorem engineRelaunch_kept {s0 : State} (s : State) (n : Nat) (hk : Kept s0 s) :
    Kept s0 (engineRelaunch s n) := by
  unfold engineRelaunch; dsimp only
  with_reducible
    repeat'
      first
      | assumption | apply engineFresh_kept | apply Kept.setSlice | apply Kept.ite | apply XOk.mem
      | apply XOk.check | apply XOk.buf | apply Kept.slice | simp only [XOk.upd]
      | refine And.intro ?_ ?_

theorem engineReset_kept {s0 : State} (s : State) (n : Nat) (hk : Kept s0 s) :
    Kept s0 (engineReset s n) := by
  unfold engineReset; dsimp only
  with_reducible
    repeat'
      first
      | assumption | apply Kept.setSlice | apply clearFields_kept | apply Kept.ite | apply XOk.mem
      | apply XOk.check | apply XOk.buf | apply Kept.slice | simp only [XOk.upd]
      | refine And.intro ?_ ?_

theorem repayRefresh_kept {s0 : State} (s : State) (n : Nat) (hk : Kept s0 s) :
    Kept s0 (repayRefresh s n) := by
  unfold repayRefresh
  with_reducible
    repeat'
      first
      | assumption | apply wr_kept | apply refreshIntervals_kept

theorem voidGos_kept {s0 : State} (s : State) (n : Nat) (hk : Kept s0 s) :
    Kept s0 (voidGos s n) := by
  unfold voidGos; dsimp only
  with_reducible
    repeat'
      first
      | intro _ | assumption | apply Kept.setSlice | apply emptyRun_kept | apply drainPuts_kept
      | apply Kept.foldl | apply XOk.mem | apply XOk.check | apply XOk.buf | apply Kept.slice
      | simp only [XOk.upd] | refine And.intro ?_ ?_

theorem leaveDone_kept {s0 : State} (s : State) (n : Nat) (hk : Kept s0 s) :
    Kept s0 (leaveDone s n) := by
  unfold leaveDone; dsimp only
  with_reducible
    repeat'
      first
      | assumption | apply wr_kept | apply repayRefresh_kept | apply Kept.setSlice
      | apply beginEnter_kept | apply engineFresh_kept | apply voidGos_kept
      | apply modeRefused_kept | apply Kept.ite | apply XOk.mem | apply XOk.check | apply XOk.buf
      | apply Kept.slice | simp only [XOk.upd] | refine And.intro ?_ ?_

theorem engineTime_kept {s0 : State} (s : State) (n : Nat) (lo : Fld) (hi : Fld) (ran : Bool) (hk :
    Kept s0 s) :
    Kept s0 (engineTime s n lo hi ran) := by
  unfold engineTime; dsimp only
  with_reducible
    repeat'
      first
      | assumption | apply freeNat_kept | apply bump64_kept | apply Kept.ite

theorem engineFence_kept {s0 : State} (s : State) (n : Nat) (hk : Kept s0 s) :
    Kept s0 (engineFence s n) := by
  unfold engineFence; dsimp only
  with_reducible
    repeat'
      first
      | intro _ | assumption | apply engineTime_kept | apply wr_kept | apply repayRefresh_kept
      | apply poisonLines_kept | apply Kept.setSlice | apply XOk.foldl | apply XOk.mem
      | apply XOk.check | apply XOk.buf | apply Kept.slice | simp only [XOk.upd]
      | refine And.intro ?_ ?_ | split

theorem owe_kept {s0 : State} (s : State) (sender : Nat) (key : Nat) (hk : Kept s0 s) :
    Kept s0 (owe s sender key) := by
  unfold owe; dsimp only
  with_reducible
    repeat'
      first
      | assumption | apply Kept.setTile | apply emit_kept | apply Kept.ite | apply TOk.data
      | apply TOk.code | apply Kept.tile | simp only [TOk.upd] | refine And.intro ?_ ?_

theorem dropInbound_kept {s0 : State} (s : State) (n : Nat) (hk : Kept s0 s) :
    Kept s0 (dropInbound s n) := by
  unfold dropInbound; dsimp only
  with_reducible
    repeat'
      first
      | intro _ | assumption | apply owe_kept | apply Kept.setTile | apply Kept.foldl
      | apply TOk.data | apply TOk.code | apply Kept.tile | simp only [TOk.upd]
      | refine And.intro ?_ ?_

theorem haltChannels_kept {s0 : State} (t : Tile) (h_t : TOk s0 t) :
    TOk s0 (haltChannels t) := by
  unfold haltChannels; dsimp only
  with_reducible
    repeat'
      first
      | assumption | apply TOk.data | apply TOk.code | simp only [TOk.upd] | refine And.intro ?_ ?_

theorem quietTile_kept {s0 : State} (s : State) (n : Nat) (hk : Kept s0 s) :
    Kept s0 (quietTile s n) := by
  unfold quietTile; dsimp only
  with_reducible
    repeat'
      first
      | assumption | apply dropInbound_kept | apply Kept.setTile | apply haltChannels_kept
      | apply TOk.data | apply TOk.code | apply Kept.tile | simp only [TOk.upd]
      | refine And.intro ?_ ?_

theorem landSome_kept {s0 : State} (s : State) (n : Nat) (u : Tile) (z0 : List Pend) (hk : Kept s0
    s) (h_u : TOk s0 u) :
    Kept s0 (landSome s n u z0) := by
  cases z0
  all_goals unfold landSome; try dsimp only
  repeat'
    first
    | intro _ | with_reducible apply landSome_kept | with_reducible assumption
    | with_reducible apply freeBool_kept | with_reducible apply Kept.setTile
    | with_reducible apply doAct_kept | with_reducible apply Kept.ite
    | with_reducible apply Kept.foldl | with_reducible apply Kept.foldl1
    | with_reducible apply TOk.ite | with_reducible apply TOk.foldl
    | with_reducible apply MOk.store | with_reducible apply MOk.write
    | with_reducible apply MOk.foldl | with_reducible apply MOk.ite | with_reducible apply TOk.data
    | with_reducible apply TOk.code | with_reducible apply Kept.tile | simp only [TOk.upd]
    | refine And.intro ?_ ?_

theorem stopTile_kept {s0 : State} (s : State) (n : Nat) (hk : Kept s0 s) :
    Kept s0 (stopTile s n) := by
  unfold stopTile; dsimp only
  with_reducible
    repeat'
      first
      | assumption | apply landSome_kept | apply quietTile_kept | apply Kept.setTile
      | apply TOk.data | apply TOk.code | apply Kept.tile | simp only [TOk.upd]
      | refine And.intro ?_ ?_

theorem softResetTile_kept {s0 : State} (s : State) (n : Nat) (hk : Kept s0 s) :
    Kept s0 (softResetTile s n) := by
  unfold softResetTile
  with_reducible
    repeat'
      first
      | assumption | apply stopTile_kept | apply quietTile_kept | apply Kept.ite

theorem startTile_kept {s0 : State} (s : State) (n : Nat) (pos : Nat) (args : List Nat) (hk : Kept
    s0 s) :
    Kept s0 (startTile s n pos args) := by
  unfold startTile; dsimp only
  with_reducible
    repeat'
      first
      | assumption | apply dropInbound_kept | apply Kept.setTile | apply TOk.data | apply TOk.code
      | apply Kept.tile | simp only [TOk.upd] | refine And.intro ?_ ?_

theorem countStall_kept {s0 : State} (s : State) (d : Nat) (hk : Kept s0 s) :
    Kept s0 (countStall s d) := by
  unfold countStall; dsimp only
  with_reducible
    repeat'
      first
      | assumption | apply bump_kept | apply setProc_kept | apply Kept.ite

theorem fireVector0_kept {s0 : State} (s : State) (d : Nat) (hk : Kept s0 s) :
    Kept s0 (fireVector0 s d) := by
  unfold fireVector0; dsimp only
  with_reducible
    repeat'
      first
      | assumption | apply sendVector_kept | apply setProc_kept

theorem moderate_kept {s0 : State} (s : State) (d : Nat) (irq : Bool) (hk : Kept s0 s) :
    Kept s0 (moderate s d irq) := by
  unfold moderate; dsimp only
  with_reducible
    repeat'
      first
      | assumption | apply fireVector0_kept | apply setProc_kept | apply Kept.ite

theorem brokenOff_kept {s0 : State} (s : State) (d : Nat) (hk : Kept s0 s) :
    Kept s0 (brokenOff s d) := by
  unfold brokenOff; dsimp only
  with_reducible
    repeat'
      first
      | assumption | apply wr_kept | apply Kept.ite

theorem hostRefused_kept {s0 : State} (s : State) (port : Nat) (hk : Kept s0 s) :
    Kept s0 (hostRefused s port) := by
  unfold hostRefused
  with_reducible
    repeat'
      first
      | assumption | apply raise_kept | apply lastErr_kept

theorem writeEntry_kept {s0 : State} (s : State) (d : Nat) (e : CplEntry) (hk : Kept s0 s) :
    Kept s0 (writeEntry s d e) := by
  unfold writeEntry; dsimp only
  with_reducible
    repeat'
      first
      | assumption | apply setProc_kept | apply hostRefused_kept | apply brokenOff_kept
      | apply raise_kept | apply logErr_kept | apply emit_kept | apply wr_kept
      | apply sendVector_kept | apply deliver1_kept | apply moderate_kept | apply Kept.ite

theorem postEntry_kept {s0 : State} (s : State) (d : Nat) (e : CplEntry) (hk : Kept s0 s) :
    Kept s0 (postEntry s d e) := by
  unfold postEntry; dsimp only
  with_reducible
    repeat'
      first
      | assumption | apply countStall_kept | apply setProc_kept | apply writeEntry_kept
      | apply Kept.ite

theorem postHeld_kept {s0 : State} (s : State) (d : Nat) (z0 : Nat) (hk : Kept s0 s) :
    Kept s0 (postHeld s d z0) := by
  cases z0
  all_goals unfold postHeld; try dsimp only
  repeat'
    first
    | intro _ | with_reducible apply postHeld_kept | with_reducible assumption
    | with_reducible apply countStall_kept | with_reducible apply writeEntry_kept
    | with_reducible apply setProc_kept | with_reducible apply Kept.ite
    | with_reducible apply Kept.foldl | with_reducible apply Kept.foldl1
    | refine fst_of (by assumption) ?_ | refine snd_of (by assumption) ?_ | simp only [Kept.upd]
    | split

theorem postNotice_kept {s0 : State} (s : State) (d : Nat) (status : Nat) (data : Nat) (hk : Kept s0
    s) :
    Kept s0 (postNotice s d status data) := by
  unfold postNotice
  with_reducible
    repeat'
      first
      | assumption | apply postEntry_kept

theorem complete_kept {s0 : State} (s : State) (d : Nat) (op : Nat) (h : CmdHdr) (status : Nat)
    (data : Nat) (hk : Kept s0 s) :
    Kept s0 (complete s d op h status data) := by
  unfold complete; dsimp only
  with_reducible
    repeat'
      first
      | assumption | apply bump_kept | apply lastErr_kept | apply postEntry_kept | apply Kept.ite

theorem refuseAt_kept {s0 : State} (s : State) (d : Nat) (a : Nat) (e : Nat) (hk : Kept s0 s) :
    Kept s0 (refuseAt s d a e) := by
  unfold refuseAt
  with_reducible
    repeat'
      first
      | assumption | apply refuse_kept | apply Kept.ite

theorem dropJob_kept {s0 : State} (s : State) (d : Nat) (seq : Nat) (hk : Kept s0 s) :
    Kept s0 (dropJob s d seq) := by
  unfold dropJob; dsimp only
  with_reducible
    repeat'
      first
      | assumption | apply setProc_kept

theorem setJob_kept {s0 : State} (s : State) (d : Nat) (j : Job) (hk : Kept s0 s) :
    Kept s0 (setJob s d j) := by
  unfold setJob; dsimp only
  with_reducible
    repeat'
      first
      | assumption | apply setProc_kept

theorem finishJob_kept {s0 : State} (s : State) (d : Nat) (j : Job) (status : Nat) (data : Nat) (hk
    : Kept s0 s) :
    Kept s0 (finishJob s d j status data) := by
  unfold finishJob; dsimp only
  with_reducible
    repeat'
      first
      | assumption | apply dropJob_kept | apply brokenOff_kept | apply complete_kept

theorem failJob_kept {s0 : State} (s : State) (d : Nat) (j : Job) (status : Nat) (data : Nat) (hk :
    Kept s0 s) :
    Kept s0 (failJob s d j status data) := by
  unfold failJob
  with_reducible
    repeat'
      first
      | assumption | apply finishJob_kept | apply refuseAt_kept

theorem pollWaits_kept {s0 : State} (s : State) (d : Nat) (hk : Kept s0 s) :
    Kept s0 (pollWaits s d) := by
  unfold pollWaits; dsimp only
  with_reducible
    repeat'
      first
      | intro _ | assumption | apply finishJob_kept | apply wr_kept | apply Kept.ite
      | apply Kept.foldl | split

theorem hostEvent_kept {s0 : State} (s : State) (d : Nat) (e : Nat) (hk : Kept s0 s) :
    Kept s0 (hostEvent s d e) := by
  unfold hostEvent; dsimp only
  with_reducible
    repeat'
      first
      | assumption | apply bump_kept | apply postEntry_kept | apply pollWaits_kept | apply Kept.ite

theorem launchPoll_kept {s0 : State} (s : State) (d : Nat) (j : Job) (hk : Kept s0 s) :
    Kept s0 (launchPoll s d j) := by
  unfold launchPoll
  with_reducible
    repeat'
      first
      | assumption | apply finishJob_kept | apply Kept.ite | split

theorem tileEnded_kept {s0 : State} (s : State) (n : Nat) (hk : Kept s0 s) :
    Kept s0 (tileEnded s n) := by
  unfold tileEnded
  with_reducible
    repeat'
      first
      | assumption | apply launchPoll_kept | apply setJob_kept | apply Kept.ite | split

theorem endLaunch_kept {s0 : State} (s : State) (d : Nat) (j : Job) (status : Nat) (data : Nat) (hk
    : Kept s0 s) :
    Kept s0 (endLaunch s d j status data) := by
  unfold endLaunch; dsimp only
  with_reducible
    repeat'
      first
      | intro _ | assumption | apply stopTile_kept | apply finishJob_kept | apply Kept.ite
      | apply Kept.foldl | split

theorem setLink_kept {s0 : State} (s : State) (l : Nat) (x : Link) (hk : Kept s0 s) :
    Kept s0 (setLink s l x) := by
  unfold setLink
  with_reducible
    repeat'
      first
      | assumption | simp only [Kept.upd]

theorem setCrossing_kept {s0 : State} (s : State) (e : Nat) (x : Cross) (hk : Kept s0 s) :
    Kept s0 (setCrossing s e x) := by
  unfold setCrossing
  with_reducible
    repeat'
      first
      | assumption | simp only [Kept.upd]

theorem pinFlow_kept {s0 : State} (s : State) (port : Nat) (flow : Nat) (l : Nat) (hk : Kept s0 s) :
    Kept s0 (pinFlow s port flow l) := by
  unfold pinFlow; dsimp only
  with_reducible
    repeat'
      first
      | assumption | apply Kept.ite | simp only [Kept.upd] | split

theorem setTxLanes_kept {s0 : State} (s : State) (l : Nat) (m : Nat) (hk : Kept s0 s) :
    Kept s0 (setTxLanes s l m) := by
  unfold setTxLanes; dsimp only
  with_reducible
    repeat'
      first
      | assumption | apply setLink_kept | apply wr_kept

theorem setRxLanes_kept {s0 : State} (s : State) (l : Nat) (m : Nat) (hk : Kept s0 s) :
    Kept s0 (setRxLanes s l m) := by
  unfold setRxLanes; dsimp only
  with_reducible
    repeat'
      first
      | assumption | apply setLink_kept | apply wr_kept

theorem sendRound_kept {s0 : State} (s : State) (l : Nat) (lanes : List Nat) (unit : Nat → Nat →
    Nat) (hk : Kept s0 s) :
    Kept s0 (sendRound s l lanes unit) := by
  unfold sendRound; dsimp only
  with_reducible
    repeat'
      first
      | intro _ | assumption | apply setLink_kept | apply emit_kept

theorem makeWord_kept {s0 : State} (s : State) (l : Nat) (hk : Kept s0 s) :
    Kept s0 (makeWord s l) := by
  unfold makeWord; dsimp only
  with_reducible
    repeat'
      first
      | assumption | apply setLink_kept

theorem sendSides_kept {s0 : State} (s : State) (l : Nat) (hk : Kept s0 s) :
    Kept s0 (sendSides s l) := by
  unfold sendSides; dsimp only
  with_reducible
    repeat'
      first
      | assumption | apply sendRound_kept | apply makeWord_kept | apply Kept.ite

theorem sendLinkWord_kept {s0 : State} (s : State) (l : Nat) (hk : Kept s0 s) :
    Kept s0 (sendLinkWord s l) := by
  unfold sendLinkWord; dsimp only
  with_reducible
    repeat'
      first
      | intro _ | assumption | apply sendSides_kept | apply Kept.ite | apply Kept.foldl

theorem sendFlit_kept {s0 : State} (s : State) (l : Nat) (seq : Nat) (payload : List Byte) (hk :
    Kept s0 s) :
    Kept s0 (sendFlit s l seq payload) := by
  unfold sendFlit
  with_reducible
    repeat'
      first
      | assumption | apply emit_kept | apply setLink_kept | apply sendSides_kept | apply Kept.ite

theorem sendTraining_kept {s0 : State} (s : State) (l : Nat) (lanes : List Nat) (hk : Kept s0 s) :
    Kept s0 (sendTraining s l lanes) := by
  unfold sendTraining; dsimp only
  with_reducible
    repeat'
      first
      | intro _ | assumption | apply sendSides_kept | apply sendRound_kept | apply Kept.ite
      | apply Kept.foldl

theorem pumpLink_kept {s0 : State} (s : State) (l : Nat) (z0 : Nat) (hk : Kept s0 s) :
    Kept s0 (pumpLink s l z0) := by
  cases z0
  all_goals unfold pumpLink; try dsimp only
  repeat'
    first
    | intro _ | with_reducible apply pumpLink_kept | with_reducible assumption
    | with_reducible apply sendFlit_kept | with_reducible apply setLink_kept
    | with_reducible apply bump64_kept | with_reducible apply Kept.ite

theorem sendOnLink_kept {s0 : State} (s : State) (l : Nat) (bytes : List Byte) (hk : Kept s0 s) :
    Kept s0 (sendOnLink s l bytes) := by
  unfold sendOnLink; dsimp only
  with_reducible
    repeat'
      first
      | assumption | apply pumpLink_kept | apply setLink_kept

theorem showRetrain_kept {s0 : State} (s : State) (l : Nat) (hk : Kept s0 s) :
    Kept s0 (showRetrain s l) := by
  unfold showRetrain; dsimp only
  with_reducible
    repeat'
      first
      | assumption | apply bump_kept | apply wr_kept | apply Kept.ite

theorem retrainTx_kept {s0 : State} (s : State) (l : Nat) (hk : Kept s0 s) :
    Kept s0 (retrainTx s l) := by
  unfold retrainTx; dsimp only
  with_reducible
    repeat'
      first
      | assumption | apply sendTraining_kept | apply showRetrain_kept | apply setLink_kept
      | apply Kept.ite

theorem retrainRx_kept {s0 : State} (s : State) (l : Nat) (hk : Kept s0 s) :
    Kept s0 (retrainRx s l) := by
  unfold retrainRx; dsimp only
  with_reducible
    repeat'
      first
      | assumption | apply showRetrain_kept | apply setLink_kept | apply Kept.ite

theorem resendAll_kept {s0 : State} (s : State) (l : Nat) (hk : Kept s0 s) :
    Kept s0 (resendAll s l) := by
  unfold resendAll; dsimp only
  with_reducible
    repeat'
      first
      | intro _ | assumption | apply bump64_kept | apply sendFlit_kept | apply Kept.ite
      | apply Kept.foldl

theorem replayLink_kept {s0 : State} (s : State) (l : Nat) (hk : Kept s0 s) :
    Kept s0 (replayLink s l) := by
  unfold replayLink; dsimp only
  with_reducible
    repeat'
      first
      | assumption | apply bump_kept | apply setLink_kept | apply retrainTx_kept
      | apply lastErr_kept | apply resendAll_kept | apply Kept.ite

theorem sendWord_kept {s0 : State} (s : State) (l : Nat) (hk : Kept s0 s) :
    Kept s0 (sendWord s l) := by
  unfold sendWord
  with_reducible
    repeat'
      first
      | assumption | apply sendLinkWord_kept | apply Kept.ite

theorem sendMsg_kept {s0 : State} (s : State) (l : Nat) (msg : Nat) (arg : Nat) (hk : Kept s0 s) :
    Kept s0 (sendMsg s l msg arg) := by
  unfold sendMsg; dsimp only
  with_reducible
    repeat'
      first
      | assumption | apply sendWord_kept | apply setLink_kept

theorem clearMsg_kept {s0 : State} (s : State) (l : Nat) (msg : Nat) (hk : Kept s0 s) :
    Kept s0 (clearMsg s l msg) := by
  unfold clearMsg; dsimp only
  with_reducible
    repeat'
      first
      | assumption | apply setLink_kept | apply Kept.ite

theorem clearMsgOf_kept {s0 : State} (s : State) (l : Nat) (msg : Nat) (arg : Nat) (hk : Kept s0 s)
    :
    Kept s0 (clearMsgOf s l msg arg) := by
  unfold clearMsgOf; dsimp only
  repeat'
    first
    | intro _ | with_reducible assumption | with_reducible apply setLink_kept
    | with_reducible apply Kept.ite

theorem forgetPartner_kept {s0 : State} (s : State) (l : Nat) (hk : Kept s0 s) :
    Kept s0 (forgetPartner s l) := by
  unfold forgetPartner; dsimp only
  repeat'
    first
    | intro _ | with_reducible assumption | with_reducible apply wr_kept

theorem lockLine_kept {s0 : State} (s : State) (e : Nat) (k : Nat) (hk : Kept s0 s) :
    Kept s0 (lockLine s e k) := by
  unfold lockLine
  with_reducible
    repeat'
      first
      | assumption | apply sendTraining_kept | apply wr_kept | apply Kept.ite

theorem lockLines_kept {s0 : State} (s : State) (e : Nat) (hk : Kept s0 s) :
    Kept s0 (lockLines s e) := by
  unfold lockLines
  with_reducible
    repeat'
      first
      | intro _ | assumption | apply lockLine_kept | apply Kept.foldl

theorem recheckLines_kept {s0 : State} (s : State) (e : Nat) (mask : Nat) (hk : Kept s0 s) :
    Kept s0 (recheckLines s e mask) := by
  unfold recheckLines; dsimp only
  with_reducible
    repeat'
      first
      | intro _ | assumption | apply wr_kept | apply lockLines_kept | apply Kept.ite
      | apply Kept.foldl

end Sys2Proof.Laws
end

