-- ==== Sys2Proof/Laws/KeptPackage.lean ====
section
/-!
SUPPORT. Laws/KeptPackage.lean: what `Kept` says, of the operations of the topology, the
collectives, the register pages, the DMA engines, tile runs, movers, the mesh, the Districts,
images, respare, power and Dawn. Each lemma says that an operation keeps it, whatever its arguments
are.
-/
set_option linter.unusedVariables false
open Sys2Proof Sys2Proof.Machine Sys2Proof.Safety
namespace Sys2Proof.Laws

theorem setPortState_kept {s0 : State} (s : State) (port : Nat) (st : Nat) (hk : Kept s0 s) :
    Kept s0 (setPortState s port st) := by
  unfold setPortState
  with_reducible
    repeat'
      first
      | assumption | apply wr_kept | apply Kept.ite

theorem enterPort_kept {s0 : State} (s : State) (port : Nat) (st : Nat) (hk : Kept s0 s) :
    Kept s0 (enterPort s port st) := by
  unfold enterPort; dsimp only
  with_reducible
    repeat'
      first
      | assumption | apply setPortState_kept | apply raise_kept | apply lastErr_kept
      | apply Kept.ite

theorem portAbsent_kept {s0 : State} (s : State) (port : Nat) (hk : Kept s0 s) :
    Kept s0 (portAbsent s port) := by
  unfold portAbsent
  with_reducible
    repeat'
      first
      | assumption | apply enterPort_kept

theorem portBare_kept {s0 : State} (s : State) (port : Nat) (hk : Kept s0 s) :
    Kept s0 (portBare s port) := by
  unfold portBare
  with_reducible
    repeat'
      first
      | assumption | apply enterPort_kept | apply Kept.ite

theorem beaconAt_kept {s0 : State} (s : State) (port : Nat) (engine : Nat) (b : List Byte) (hk :
    Kept s0 s) :
    Kept s0 (beaconAt s port engine b) := by
  unfold beaconAt; dsimp only
  with_reducible
    repeat'
      first
      | assumption | apply bump_kept | apply wr_kept | apply enterPort_kept | apply Kept.ite
      | simp only [Kept.upd]

theorem acceptPort_kept {s0 : State} (s : State) (port : Nat) (hk : Kept s0 s) :
    Kept s0 (acceptPort s port) := by
  unfold acceptPort; dsimp only
  with_reducible
    repeat'
      first
      | assumption | apply setPortState_kept | apply Kept.ite | simp only [Kept.upd]

theorem dropPacket_kept {s0 : State} (s : State) (port : Nat) (reason : Nat) (dest : Nat × Nat) (src
    : Nat × Nat) (quarter : Nat) (hk : Kept s0 s) :
    Kept s0 (dropPacket s port reason dest src quarter) := by
  unfold dropPacket; dsimp only
  with_reducible
    repeat'
      first
      | assumption | apply bump_kept | apply logErr_kept | apply raise_kept

theorem departPacket_kept {s0 : State} (s : State) (port : Nat) (flow : Nat) (bytes : List Byte) (hk
    : Kept s0 s) :
    Kept s0 (departPacket s port flow bytes) := by
  unfold departPacket; dsimp only
  repeat'
    first
    | intro _ | with_reducible assumption | with_reducible apply flow_kept
    | with_reducible apply crossData_kept | with_reducible apply pinFlow_kept
    | with_reducible apply sendOnLink_kept | with_reducible apply emit_kept
    | with_reducible apply Kept.ite | with_reducible apply Kept.foldl
    | with_reducible apply Kept.foldl1 | refine fst_of (by assumption) ?_
    | refine snd_of (by assumption) ?_ | simp only [Kept.upd] | split

theorem deliverHere_kept {s0 : State} (s : State) (i : Nat) (inP : Nat) (b : List Byte) (hk : Kept
    s0 s) :
    Kept s0 (deliverHere s i inP b).1 := by
  unfold deliverHere; dsimp only
  with_reducible
    repeat'
      first
      | assumption | apply dropPacket_kept | apply Kept.ite1 | simp only [Kept.upd]

theorem sendPacket_kept {s0 : State} (s : State) (d : Nat) (flow : Nat) (dest : Nat × Nat) (blvd :
    Bool) (mk : Nat → List Byte) (hk : Kept s0 s) :
    Kept s0 (sendPacket s d flow dest blvd mk).1 := by
  unfold sendPacket; dsimp only
  with_reducible
    repeat'
      first
      | intro _ | assumption | apply dropPacket_kept | apply deliverHere_kept
      | apply departPacket_kept | apply Kept.ite1 | split

theorem arrivePacket_kept {s0 : State} (s : State) (port : Nat) (flow : Nat) (b : List Byte) (hk :
    Kept s0 s) :
    Kept s0 (arrivePacket s port flow b) := by
  unfold arrivePacket; dsimp only
  with_reducible
    repeat'
      first
      | assumption | apply dropPacket_kept | apply deliverHere_kept | apply departPacket_kept
      | apply Kept.ite | split

theorem sendBeacon_kept {s0 : State} (s : State) (l : Nat) (hk : Kept s0 s) :
    Kept s0 (sendBeacon s l) := by
  unfold sendBeacon; dsimp only
  with_reducible
    repeat'
      first
      | assumption | apply sendOnLink_kept | apply emit_kept | apply Kept.ite

theorem sendBeacons_kept {s0 : State} (s : State) (hk : Kept s0 s) :
    Kept s0 (sendBeacons s) := by
  unfold sendBeacons
  with_reducible
    repeat'
      first
      | intro _ | assumption | apply sendBeacon_kept | apply Kept.foldl

theorem countSilent_kept {s0 : State} (s : State) (port : Nat) (hk : Kept s0 s) :
    Kept s0 (countSilent s port) := by
  unfold countSilent; dsimp only
  with_reducible
    repeat'
      first
      | assumption | simp only [Kept.upd] | split

theorem collFailed_kept {s0 : State} (s : State) (e : Nat) (n : Nat) (off : Nat) (hk : Kept s0 s) :
    Kept s0 (collFailed s e n off) := by
  unfold collFailed; dsimp only
  with_reducible
    repeat'
      first
      | assumption | apply wr_kept

theorem collRefused_kept {s0 : State} (s : State) (e : Nat) (n : Nat) (off : Nat) (code : Nat) (hk :
    Kept s0 s) :
    Kept s0 (collRefused s e n off code) := by
  unfold collRefused
  with_reducible
    repeat'
      first
      | assumption | apply collFailed_kept | apply refuse_kept

theorem collSectors_kept {s0 : State} (s : State) (n : Nat) (errs : SectorErrs) (z0 : List Nat) (hk
    : Kept s0 s) :
    Kept s0 (collSectors s n errs z0).1 := by
  cases z0
  all_goals unfold collSectors; try dsimp only
  repeat'
    first
    | intro _ | with_reducible apply collSectors_kept | with_reducible assumption
    | with_reducible apply sliceSector_kept | with_reducible apply Kept.ite
    | with_reducible apply Kept.ite1 | with_reducible apply Kept.ite2
    | with_reducible apply Kept.foldl | with_reducible apply Kept.foldl1
    | with_reducible apply XOk.ite | with_reducible apply XOk.foldl
    | with_reducible apply MOk.store | with_reducible apply MOk.write
    | with_reducible apply MOk.foldl | with_reducible apply MOk.ite | with_reducible apply XOk.mem
    | with_reducible apply XOk.check | with_reducible apply XOk.buf
    | with_reducible apply Kept.slice | simp only [XOk.upd] | refine And.intro ?_ ?_
    | with_reducible exact XOk.empty | with_reducible exact MOk.nil
    | refine fst_of (by assumption) ?_ | refine snd_of (by assumption) ?_ | simp only [Kept.upd]
    | split

theorem collRead_kept {s0 : State} (s : State) (e : Nat) (n : Nat) (off : Nat) (len : Nat) (errs :
    SectorErrs) (hk : Kept s0 s) :
    Kept s0 (collRead s e n off len errs).1 := by
  unfold collRead; dsimp only
  repeat'
    first
    | intro _ | with_reducible assumption | with_reducible apply collRefused_kept
    | with_reducible apply flushAll_kept | with_reducible apply collSectors_kept
    | with_reducible apply plazaData_kept | with_reducible apply collFailed_kept
    | with_reducible apply Kept.ite | with_reducible apply Kept.ite1

theorem collGather_kept {s0 : State} (s : State) (c : Coll) (e : Nat) (base : Nat) (errs :
    SectorErrs) (z0 : List (Nat × Nat × Nat)) (hk : Kept s0 s) :
    Kept s0 (collGather s c e base errs z0).1 := by
  cases z0
  all_goals unfold collGather; try dsimp only
  repeat'
    first
    | intro _ | with_reducible apply collGather_kept | with_reducible assumption
    | with_reducible apply collRead_kept | with_reducible apply Kept.ite
    | with_reducible apply Kept.ite1 | with_reducible apply Kept.ite2
    | with_reducible apply Kept.foldl | with_reducible apply Kept.foldl1
    | refine fst_of (by assumption) ?_ | refine snd_of (by assumption) ?_ | simp only [Kept.upd]
    | split

theorem collSumFrom_kept {s0 : State} (s : State) (c : Coll) (e : Nat) (base : Nat) (k : Nat) (errs
    : SectorErrs) (acc : List Byte) (z0 : Nat) (z1 : Nat) (hk : Kept s0 s) :
    Kept s0 (collSumFrom s c e base k errs acc z0 z1).1 := by
  cases z0
  all_goals unfold collSumFrom; try dsimp only
  repeat'
    first
    | intro _ | with_reducible apply collSumFrom_kept | with_reducible assumption
    | with_reducible apply collGather_kept | with_reducible apply Kept.ite
    | with_reducible apply Kept.ite1 | with_reducible apply Kept.ite2
    | with_reducible apply Kept.foldl | with_reducible apply Kept.foldl1
    | refine fst_of (by assumption) ?_ | refine snd_of (by assumption) ?_ | simp only [Kept.upd]
    | split

theorem contribution_kept {s0 : State} (s : State) (c : Coll) (q : Nat) (k : Nat) (errs :
    SectorErrs) (hk : Kept s0 s) :
    Kept s0 (contribution s c q k errs).1 := by
  unfold contribution; dsimp only
  with_reducible
    repeat'
      first
      | assumption | apply collGather_kept | apply collSumFrom_kept | apply Kept.ite1 | split

theorem collWrite_kept {s0 : State} (s : State) (e : Nat) (n : Nat) (off : Nat) (bytes : List Byte)
    (hk : Kept s0 s) :
    Kept s0 (collWrite s e n off bytes).1 := by
  unfold collWrite; dsimp only
  repeat'
    first
    | intro _ | with_reducible assumption | with_reducible apply collRefused_kept
    | with_reducible apply plazaData_kept | with_reducible apply sliceWriteBytes_kept
    | with_reducible apply Kept.ite | with_reducible apply Kept.ite1

theorem collScatter_kept {s0 : State} (s : State) (c : Coll) (e : Nat) (base : Nat) (z0 : List (Nat
    × Nat × Nat)) (z1 : List Byte) (hk : Kept s0 s) :
    Kept s0 (collScatter s c e base z0 z1).1 := by
  cases z0
  all_goals unfold collScatter; try dsimp only
  repeat'
    first
    | intro _ | with_reducible apply collScatter_kept | with_reducible assumption
    | with_reducible apply collWrite_kept | with_reducible apply Kept.ite
    | with_reducible apply Kept.ite1

theorem collStore_kept {s0 : State} (s : State) (c : Coll) (q : Nat) (k : Nat) (bytes : List Byte)
    (hk : Kept s0 s) :
    Kept s0 (collStore s c q k bytes).1 := by
  unfold collStore; dsimp only
  with_reducible
    repeat'
      first
      | intro _ | assumption | apply collScatter_kept | apply Kept.ite1 | apply Kept.foldl1

theorem setColl_kept {s0 : State} (s : State) (c : Coll) (hk : Kept s0 s) :
    Kept s0 (setColl s c) := by
  unfold setColl
  with_reducible
    repeat'
      first
      | assumption | simp only [Kept.upd]

theorem dropColl_kept {s0 : State} (s : State) (key : Nat) (hk : Kept s0 s) :
    Kept s0 (dropColl s key) := by
  unfold dropColl
  with_reducible
    repeat'
      first
      | assumption | simp only [Kept.upd]

theorem oweTo_kept {s0 : State} (s : State) (key : Nat) (port : Nat) (flow : Nat) (hk : Kept s0 s) :
    Kept s0 (oweTo s key port flow) := by
  unfold oweTo
  with_reducible
    repeat'
      first
      | assumption | apply setColl_kept | split

theorem sendRank_kept {s0 : State} (s : State) (c : Coll) (e : Nat) (r : Nat) (mk : Nat → List Byte)
    (hk : Kept s0 s) :
    Kept s0 (sendRank s c e r mk) := by
  unfold sendRank; dsimp only
  with_reducible
    repeat'
      first
      | intro _ | assumption | apply sendPacket_kept | apply oweTo_kept | apply Kept.ite | split

theorem sendCtl_kept {s0 : State} (s : State) (c : Coll) (r : Nat) (ctl : Nat) (target : Nat) (hk :
    Kept s0 s) :
    Kept s0 (sendCtl s c r ctl target) := by
  unfold sendCtl
  with_reducible
    repeat'
      first
      | assumption | apply sendRank_kept

theorem countBytes_kept {s0 : State} (s : State) (c : Coll) (idx : Nat) (n : Nat) (isIn : Bool) (hk
    : Kept s0 s) :
    Kept s0 (countBytes s c idx n isIn) := by
  unfold countBytes; dsimp only
  with_reducible
    repeat'
      first
      | assumption | apply bump64_kept | apply Kept.ite

theorem sendWave_kept {s0 : State} (s : State) (c : Coll) (target : Nat) (hk : Kept s0 s) :
    Kept s0 (sendWave s c target) := by
  unfold sendWave; dsimp only
  with_reducible
    repeat'
      first
      | intro _ | assumption | apply sendCtl_kept | apply Kept.foldl

theorem collEvent_kept {s0 : State} (s : State) (c : Coll) (p : Nat × Nat × Nat) (hk : Kept s0 s) :
    Kept s0 (collEvent s c p) := by
  unfold collEvent; dsimp only
  with_reducible
    repeat'
      first
      | assumption | apply Kept.setTile | apply Tile_addEv_kept | apply TOk.data | apply TOk.code
      | apply Kept.tile | simp only [TOk.upd] | refine And.intro ?_ ?_ | split

theorem collClose_kept {s0 : State} (s : State) (c : Coll) (status : Nat) (cause : Nat) (origin :
    Option (Nat × Nat)) (hk : Kept s0 s) :
    Kept s0 (collClose s c status cause origin) := by
  unfold collClose; dsimp only
  repeat'
    first
    | intro _ | with_reducible assumption | with_reducible apply dropColl_kept
    | with_reducible apply collWrite_kept | with_reducible apply countBytes_kept
    | with_reducible apply collEvent_kept | with_reducible apply finishJob_kept
    | with_reducible apply wr_kept | with_reducible apply bump_kept
    | with_reducible apply lastErr_kept | with_reducible apply raise_kept
    | with_reducible apply sendWave_kept | with_reducible apply Kept.ite
    | with_reducible apply Kept.foldl | with_reducible apply Kept.foldl1
    | refine fst_of (by assumption) ?_ | refine snd_of (by assumption) ?_ | simp only [Kept.upd]
    | split

theorem collEnd_kept {s0 : State} (s : State) (key : Nat) (status : Nat) (cause : Nat) (origin :
    Option (Nat × Nat)) (hk : Kept s0 s) :
    Kept s0 (collEnd s key status cause origin) := by
  unfold collEnd
  with_reducible
    repeat'
      first
      | assumption | apply setColl_kept | apply collClose_kept | apply Kept.ite | split

theorem collLateEnd_kept {s0 : State} (s : State) (key : Nat) (hk : Kept s0 s) :
    Kept s0 (collLateEnd s key) := by
  unfold collLateEnd
  with_reducible
    repeat'
      first
      | assumption | apply collClose_kept | apply Kept.ite | split

theorem sendBlk_kept {s0 : State} (s : State) (c : Coll) (b : Blk) (hk : Kept s0 s) :
    Kept s0 (sendBlk s c b) := by
  unfold sendBlk; dsimp only
  with_reducible
    repeat'
      first
      | assumption | apply setColl_kept | apply sendRank_kept | apply countBytes_kept
      | apply Kept.ite

theorem sendBlkK_kept {s0 : State} (s : State) (key : Nat) (b : Blk) (hk : Kept s0 s) :
    Kept s0 (sendBlkK s key b) := by
  unfold sendBlkK
  with_reducible
    repeat'
      first
      | assumption | apply sendBlk_kept | split

theorem collCheck_kept {s0 : State} (s : State) (key : Nat) (hk : Kept s0 s) :
    Kept s0 (collCheck s key) := by
  unfold collCheck
  with_reducible
    repeat'
      first
      | assumption | apply collEnd_kept | apply Kept.ite | split

theorem collFinish_kept {s0 : State} (s : State) (key : Nat) (q : Nat) (k : Nat) (bytes : List Byte)
    (hk : Kept s0 s) :
    Kept s0 (collFinish s key q k bytes) := by
  unfold collFinish; dsimp only
  with_reducible
    repeat'
      first
      | assumption | apply collStore_kept | apply collEnd_kept | apply countBytes_kept
      | apply setColl_kept | apply collCheck_kept | apply Kept.ite | split

theorem sendFirst_kept {s0 : State} (s : State) (key : Nat) (r : Nat) (errs : SectorErrs) (hk : Kept
    s0 s) :
    Kept s0 (sendFirst s key r errs) := by
  unfold sendFirst; dsimp only
  with_reducible
    repeat'
      first
      | intro _ | assumption | apply setColl_kept | apply contribution_kept | apply collEnd_kept
      | apply sendBlkK_kept | apply countBytes_kept | apply Kept.foldl | split

theorem collPump_kept {s0 : State} (s : State) (key : Nat) (errs : SectorErrs) (hk : Kept s0 s) :
    Kept s0 (collPump s key errs) := by
  unfold collPump; dsimp only
  with_reducible
    repeat'
      first
      | intro _ | assumption | apply sendFirst_kept | apply setColl_kept | apply collCheck_kept
      | apply sendBlkK_kept | apply Kept.ite | apply Kept.foldl | split

theorem collPumpAll_kept {s0 : State} (s : State) (errs : SectorErrs) (hk : Kept s0 s) :
    Kept s0 (collPumpAll s errs) := by
  unfold collPumpAll
  with_reducible
    repeat'
      first
      | intro _ | assumption | apply collPump_kept | apply collLateEnd_kept | apply Kept.foldl

theorem countHold_kept {s0 : State} (s : State) (c : Coll) (hk : Kept s0 s) :
    Kept s0 (countHold s c) := by
  unfold countHold; dsimp only
  with_reducible
    repeat'
      first
      | intro _ | assumption | apply freeNat_kept | apply bump64_kept | apply Kept.foldl

theorem noteHold_kept {s0 : State} (s : State) (key : Nat) (hk : Kept s0 s) :
    Kept s0 (noteHold s key) := by
  unfold noteHold
  repeat'
    first
    | intro _ | with_reducible assumption | with_reducible apply bump_kept
    | with_reducible apply countHold_kept | with_reducible apply setColl_kept
    | with_reducible apply Kept.ite | with_reducible apply Kept.foldl
    | with_reducible apply Kept.foldl1 | refine fst_of (by assumption) ?_
    | refine snd_of (by assumption) ?_ | simp only [Kept.upd] | split

theorem noteHolds_kept {s0 : State} (s : State) (hk : Kept s0 s) :
    Kept s0 (noteHolds s) := by
  unfold noteHolds
  with_reducible
    repeat'
      first
      | intro _ | assumption | apply noteHold_kept | apply Kept.foldl

theorem takeCount_kept {s0 : State} (s : State) (c : Coll) (hk : Kept s0 s) :
    Kept s0 (takeCount s c) := by
  unfold takeCount; dsimp only
  repeat'
    first
    | intro _ | with_reducible assumption | with_reducible apply Kept.ite
    | with_reducible apply Kept.foldl | with_reducible apply Kept.foldl1 | simp only [Kept.upd]

theorem collStart_kept {s0 : State} (s : State) (key : Nat) (errs : SectorErrs) (hk : Kept s0 s) :
    Kept s0 (collStart s key errs) := by
  unfold collStart; dsimp only
  repeat'
    first
    | intro _ | with_reducible assumption | with_reducible apply takeCount_kept
    | with_reducible apply collEnd_kept | with_reducible apply noteHold_kept
    | with_reducible apply setColl_kept | with_reducible apply sendCtl_kept
    | with_reducible apply collPump_kept | with_reducible apply Kept.ite
    | with_reducible apply Kept.foldl | with_reducible apply Kept.foldl1
    | refine fst_of (by assumption) ?_ | refine snd_of (by assumption) ?_ | simp only [Kept.upd]
    | split

theorem keepEarly_kept {s0 : State} (s : State) (dist : Nat) (b : List Byte) (abort : Bool) (val :
    Nat) (hk : Kept s0 s) :
    Kept s0 (keepEarly s dist b abort val) := by
  unfold keepEarly
  with_reducible
    repeat'
      first
      | assumption | apply Kept.ite | simp only [Kept.upd]

theorem collReady_kept {s0 : State} (s : State) (b : List Byte) (errs : SectorErrs) (hk : Kept s0 s)
    :
    Kept s0 (collReady s b errs) := by
  unfold collReady
  with_reducible
    repeat'
      first
      | assumption | apply collPump_kept | apply setColl_kept | apply keepEarly_kept | split

theorem collAbortIn_kept {s0 : State} (s : State) (b : List Byte) (hk : Kept s0 s) :
    Kept s0 (collAbortIn s b) := by
  unfold collAbortIn; dsimp only
  with_reducible
    repeat'
      first
      | assumption | apply collEnd_kept | apply keepEarly_kept | split

theorem ringArrive_kept {s0 : State} (s : State) (c : Coll) (idx : Nat) (bytes : List Byte) (errs :
    SectorErrs) (hk : Kept s0 s) :
    Kept s0 (ringArrive s c idx bytes errs) := by
  unfold ringArrive; dsimp only
  with_reducible
    repeat'
      first
      | assumption | apply setColl_kept | apply contribution_kept | apply collEnd_kept
      | apply countBytes_kept | apply sendBlkK_kept | apply collFinish_kept | apply Kept.ite
      | split

theorem collData_kept {s0 : State} (s : State) (b : List Byte) (errs : SectorErrs) (hk : Kept s0 s)
    :
    Kept s0 (collData s b errs) := by
  unfold collData; dsimp only
  with_reducible
    repeat'
      first
      | assumption | apply countBytes_kept | apply ringArrive_kept | apply setColl_kept
      | apply collFinish_kept | apply Kept.ite | split

theorem collFold_kept {s0 : State} (s : State) (key : Nat) (idx : Nat) (errs : SectorErrs) (hk :
    Kept s0 s) :
    Kept s0 (collFold s key idx errs) := by
  unfold collFold; dsimp only
  with_reducible
    repeat'
      first
      | intro _ | assumption | apply contribution_kept | apply collEnd_kept | apply countBytes_kept
      | apply setColl_kept | apply sendBlkK_kept | apply collFinish_kept | apply Kept.ite
      | apply Kept.foldl | split

theorem postInstance_kept {s0 : State} (s : State) (dist : Nat) (slot : Nat) (pos : Nat) (desc :
    List Byte) (members : List Nat) (hk : Kept s0 s) :
    Kept s0 (postInstance s dist slot pos desc members).1 := by
  unfold postInstance
  with_reducible
    repeat'
      first
      | assumption | simp only [Kept.upd] | split

theorem postArrive_kept {s0 : State} (s : State) (n : Nat) (z0 : Post) (hk : Kept s0 s) :
    Kept s0 (postArrive s n z0) := by
  unfold postArrive; dsimp only
  repeat'
    first
    | intro _ | with_reducible assumption | with_reducible apply plazaNat_kept
    | with_reducible apply bump_kept | with_reducible apply postInstance_kept
    | with_reducible apply setColl_kept | with_reducible apply hostEvent_kept
    | with_reducible apply Kept.ite | with_reducible apply Kept.foldl
    | with_reducible apply Kept.foldl1 | with_reducible apply TOk.ite
    | with_reducible apply TOk.foldl | with_reducible apply MOk.store
    | with_reducible apply MOk.write | with_reducible apply MOk.foldl
    | with_reducible apply MOk.ite | with_reducible apply TOk.data | with_reducible apply TOk.code
    | with_reducible apply Kept.tile | simp only [TOk.upd] | refine And.intro ?_ ?_
    | with_reducible exact TOk.empty | with_reducible exact MOk.nil
    | refine fst_of (by assumption) ?_ | refine snd_of (by assumption) ?_ | simp only [Kept.upd]
    | split

theorem tilePost_kept {s0 : State} (s : State) (n : Nat) (p : Post) (hk : Kept s0 s) :
    Kept s0 (tilePost s n p) := by
  unfold tilePost; dsimp only
  repeat'
    first
    | intro _ | with_reducible assumption | with_reducible apply postArrive_kept
    | with_reducible apply Kept.ite | with_reducible apply Kept.foldl
    | with_reducible apply Kept.foldl1 | simp only [Kept.upd]

theorem postsGoOn_kept {s0 : State} (s : State) (hk : Kept s0 s) :
    Kept s0 (postsGoOn s) := by
  unfold postsGoOn; dsimp only
  repeat'
    first
    | intro _ | with_reducible assumption | with_reducible apply tilePost_kept
    | with_reducible apply Kept.ite | with_reducible apply Kept.foldl
    | with_reducible apply Kept.foldl1 | with_reducible apply TOk.ite
    | with_reducible apply TOk.foldl | with_reducible apply MOk.store
    | with_reducible apply MOk.write | with_reducible apply MOk.foldl
    | with_reducible apply MOk.ite | with_reducible apply TOk.data | with_reducible apply TOk.code
    | with_reducible apply Kept.tile | simp only [TOk.upd] | refine And.intro ?_ ?_
    | with_reducible exact TOk.empty | with_reducible exact MOk.nil | simp only [Kept.upd]

theorem collPost_kept {s0 : State} (s : State) (n : Nat) (entry : Nat) (e : Nat) (arg : Nat) (hk :
    Kept s0 s) :
    Kept s0 (collPost s n entry e arg) := by
  unfold collPost; dsimp only
  repeat'
    first
    | intro _ | with_reducible assumption | with_reducible apply Kept.setTile
    | with_reducible apply tilePost_kept | with_reducible apply Kept.ite
    | with_reducible apply Kept.foldl | with_reducible apply Kept.foldl1
    | with_reducible apply TOk.ite | with_reducible apply TOk.foldl
    | with_reducible apply MOk.store | with_reducible apply MOk.write
    | with_reducible apply MOk.foldl | with_reducible apply MOk.ite | with_reducible apply TOk.data
    | with_reducible apply TOk.code | with_reducible apply Kept.tile | simp only [TOk.upd]
    | refine And.intro ?_ ?_ | with_reducible exact TOk.empty | with_reducible exact MOk.nil
    | refine fst_of (by assumption) ?_ | refine snd_of (by assumption) ?_ | simp only [Kept.upd]
    | split

theorem collStop_kept {s0 : State} (s : State) (key : Nat) (status : Nat) (cause : Nat) (hk : Kept
    s0 s) :
    Kept s0 (collStop s key status cause) := by
  unfold collStop
  repeat'
    first
    | intro _ | with_reducible assumption | with_reducible apply collEnd_kept
    | with_reducible apply takeCount_kept | with_reducible apply Kept.ite
    | with_reducible apply Kept.foldl | with_reducible apply Kept.foldl1
    | refine fst_of (by assumption) ?_ | refine snd_of (by assumption) ?_ | simp only [Kept.upd]
    | split

theorem collEndAll_kept {s0 : State} (s : State) (p : Coll → Bool) (status : Nat) (cause : Nat) (hk
    : Kept s0 s) :
    Kept s0 (collEndAll s p status cause) := by
  unfold collEndAll
  repeat'
    first
    | intro _ | with_reducible assumption | with_reducible apply collPumpAll_kept
    | with_reducible apply collStop_kept | with_reducible apply Kept.ite
    | with_reducible apply Kept.foldl

theorem dropPosts_kept {s0 : State} (s : State) (d : Nat) (slot : Option Nat) (hk : Kept s0 s) :
    Kept s0 (dropPosts s d slot) := by
  unfold dropPosts; dsimp only
  repeat'
    first
    | intro _ | with_reducible assumption | with_reducible apply Kept.ite
    | with_reducible apply Kept.foldl | with_reducible apply Kept.foldl1
    | refine fst_of (by assumption) ?_ | refine snd_of (by assumption) ?_ | simp only [Kept.upd]

theorem abortColls_kept {s0 : State} (s : State) (d : Nat) (slot : Option Nat) (hk : Kept s0 s) :
    Kept s0 (abortColls s d slot) := by
  unfold abortColls
  repeat'
    first
    | intro _ | with_reducible assumption | with_reducible apply collEndAll_kept
    | with_reducible apply dropPosts_kept

theorem collPathLost_kept {s0 : State} (s : State) (port : Nat) (hk : Kept s0 s) :
    Kept s0 (collPathLost s port) := by
  unfold collPathLost; dsimp only
  with_reducible
    repeat'
      first
      | intro _ | assumption | apply collEnd_kept | apply Kept.foldl

theorem freeFlows_kept {s0 : State} (s : State) (l : Nat) (hk : Kept s0 s) :
    Kept s0 (freeFlows s l) := by
  unfold freeFlows; dsimp only
  with_reducible
    repeat'
      first
      | assumption | simp only [Kept.upd]

theorem discardFlits_kept {s0 : State} (s : State) (l : Nat) (hk : Kept s0 s) :
    Kept s0 (discardFlits s l) := by
  unfold discardFlits; dsimp only
  with_reducible
    repeat'
      first
      | assumption | apply freeFlows_kept | apply setLink_kept | apply bump_kept | apply raise_kept
      | apply lastErr_kept | apply Kept.ite

theorem rxFell_kept {s0 : State} (s : State) (l : Nat) (hk : Kept s0 s) :
    Kept s0 (rxFell s l) := by
  unfold rxFell; dsimp only
  with_reducible
    repeat'
      first
      | assumption | apply setLink_kept | apply noteHolds_kept | apply sendMsg_kept | split

theorem portLost_kept {s0 : State} (s : State) (l : Nat) (port : Nat) (hk : Kept s0 s) :
    Kept s0 (portLost s l port) := by
  unfold portLost; dsimp only
  with_reducible
    repeat'
      first
      | intro _ | assumption | apply discardFlits_kept | apply raise_kept | apply portBare_kept
      | apply collPathLost_kept | apply Kept.ite | apply Kept.foldl

theorem txFell_kept {s0 : State} (s : State) (l : Nat) (hk : Kept s0 s) :
    Kept s0 (txFell s l) := by
  unfold txFell; dsimp only
  with_reducible
    repeat'
      first
      | assumption | apply portLost_kept | apply setLink_kept | apply noteHolds_kept
      | apply bump_kept | apply lastErr_kept | apply Kept.ite

theorem stopTx_kept {s0 : State} (s : State) (l : Nat) (hk : Kept s0 s) :
    Kept s0 (stopTx s l) := by
  unfold stopTx; dsimp only
  with_reducible
    repeat'
      first
      | assumption | apply setLink_kept | apply wr_kept | apply Kept.ite

theorem stopRx_kept {s0 : State} (s : State) (l : Nat) (st : Nat) (hk : Kept s0 s) :
    Kept s0 (stopRx s l st) := by
  unfold stopRx; dsimp only
  repeat'
    first
    | intro _ | with_reducible assumption | with_reducible apply setLink_kept
    | with_reducible apply forgetPartner_kept | with_reducible apply wr_kept
    | with_reducible apply Kept.ite

theorem dirsDown_kept {s0 : State} (s : State) (ts : List Nat) (rs : List (Nat × Nat)) (hk : Kept s0
    s) :
    Kept s0 (dirsDown s ts rs) := by
  unfold dirsDown; dsimp only
  with_reducible
    repeat'
      first
      | intro _ | assumption | apply stopTx_kept | apply stopRx_kept | apply raise_kept
      | apply lastErr_kept | apply txFell_kept | apply rxFell_kept | apply Kept.foldl

theorem linksDown_kept {s0 : State} (s : State) (ls : List (Nat × Nat)) (hk : Kept s0 s) :
    Kept s0 (linksDown s ls) := by
  unfold linksDown
  with_reducible
    repeat'
      first
      | assumption | apply dirsDown_kept

theorem linkDown_kept {s0 : State} (s : State) (l : Nat) (st : Nat) (hk : Kept s0 s) :
    Kept s0 (linkDown s l st) := by
  unfold linkDown; dsimp only
  with_reducible
    repeat'
      first
      | assumption | apply linksDown_kept | apply wr_kept | apply Kept.ite

theorem moveOwed_kept {s0 : State} (s : State) (down : Nat) (survivor : Nat) (hk : Kept s0 s) :
    Kept s0 (moveOwed s down survivor) := by
  unfold moveOwed; dsimp only
  with_reducible
    repeat'
      first
      | assumption | simp only [Kept.upd]

theorem handOver_kept {s0 : State} (s : State) (down : Nat) (survivor : Nat) (lastSeq : Nat) (hk :
    Kept s0 s) :
    Kept s0 (handOver s down survivor lastSeq) := by
  unfold handOver; dsimp only
  with_reducible
    repeat'
      first
      | assumption | apply setLink_kept | apply freeFlows_kept | apply moveOwed_kept
      | apply pumpLink_kept | apply Kept.ite | simp only [Kept.upd]

theorem wake_kept {s0 : State} (s : State) (cause : Nat) (hk : Kept s0 s) :
    Kept s0 (wake s cause) := by
  unfold wake; dsimp only
  with_reducible
    repeat'
      first
      | assumption | apply wr_kept | apply Kept.ite | simp only [Kept.upd]

theorem portRefused_kept {s0 : State} (s : State) (req : Nat) (addr : Nat) (code : Nat) (write :
    Bool) (hk : Kept s0 s) :
    Kept s0 (portRefused s req addr code write) := by
  unfold portRefused; dsimp only
  with_reducible
    repeat'
      first
      | assumption | apply bump_kept | apply logErr_kept | apply raise_kept

theorem regRefused_kept {s0 : State} (s : State) (req : Nat) (o : Nat) (code : Nat) (write : Bool)
    (hk : Kept s0 s) :
    Kept s0 (regRefused s req o code write) := by
  unfold regRefused; dsimp only
  with_reducible
    repeat'
      first
      | assumption | apply portRefused_kept | apply emit_kept | apply Kept.ite

theorem guardedWrite_kept {s0 : State} (s : State) (req : Nat) (p : PageId) (off : Nat) (act : State
    → State) (hk : Kept s0 s) (h_act : ∀ y, Kept s0 y → Kept s0 (act y)) :
    Kept s0 (guardedWrite s req p off act) := by
  unfold guardedWrite
  with_reducible
    repeat'
      first
      | intro _ | assumption | apply h_act | apply regRefused_kept | split

theorem fieldWrite_kept {s0 : State} (s : State) (req : Nat) (p : PageId) (f : Fld) (i : Nat) (act :
    State → State) (hk : Kept s0 s) (h_act : ∀ y, Kept s0 y → Kept s0 (act y)) :
    Kept s0 (fieldWrite s req p f i act) := by
  unfold fieldWrite
  with_reducible
    repeat'
      first
      | intro _ | assumption | apply h_act | apply guardedWrite_kept

theorem resetOrWait_kept {s0 : State} (s : State) (p : PageId) (act : State → State) (hk : Kept s0
    s) (h_act : ∀ y, Kept s0 y → Kept s0 (act y)) :
    Kept s0 (resetOrWait s p act) := by
  unfold resetOrWait; dsimp only
  with_reducible
    repeat'
      first
      | intro _ | assumption | apply h_act | apply Kept.ite | simp only [Kept.upd]

theorem pollAcks_kept {s0 : State} (s : State) (hk : Kept s0 s) :
    Kept s0 (pollAcks s) := by
  unfold pollAcks
  with_reducible
    repeat'
      first
      | intro _ | assumption | apply finishJob_kept | apply Kept.ite | apply Kept.foldl | split

theorem sramWrite_kept {s0 : State} (s : State) (n : Nat) (off : Nat) (bytes : List Byte) (hk : Kept
    s0 s) :
    Kept s0 (sramWrite s n off bytes) := by
  unfold sramWrite; dsimp only
  with_reducible
    repeat'
      first
      | assumption | apply Kept.setTile | apply Tile_storeData_kept | apply Tile_storeCode_kept
      | apply TOk.ite | apply Kept.tile

theorem sramParity_kept {s0 : State} (s : State) (n : Nat) (h : ParHit) (lasting : Bool) (hk : Kept
    s0 s) :
    Kept s0 (sramParity s n h lasting) := by
  unfold sramParity; dsimp only
  with_reducible
    repeat'
      first
      | assumption | apply logErr_kept | apply raise_kept | apply Kept.setTile | apply markBad_kept
      | apply bump_kept | apply Kept.ite | apply Kept.tile

theorem pieceCome_kept {s0 : State} (s : State) (d : Nat) (n : Nat) (b : List Byte) (hk : Kept s0 s)
    :
    Kept s0 (pieceCome s d n b).1 := by
  unfold pieceCome; dsimp only
  repeat'
    first
    | intro _ | with_reducible assumption | with_reducible apply plazaData_kept

theorem pieceRead_kept {s0 : State} (s : State) (d : Nat) (a : Nat) (len : Nat) (err : Option
    SectorErr) (hk : Kept s0 s) :
    Kept s0 (pieceRead s d a len err).1 := by
  unfold pieceRead; dsimp only
  repeat'
    first
    | intro _ | with_reducible assumption | with_reducible apply refuse_kept
    | with_reducible apply sliceSector_kept | with_reducible apply pieceCome_kept
    | with_reducible apply sramParity_kept | with_reducible apply winSectorRead_kept
    | with_reducible apply Kept.ite | with_reducible apply Kept.ite1
    | with_reducible apply Kept.ite2 | with_reducible apply Kept.foldl
    | with_reducible apply Kept.foldl1 | with_reducible apply TOk.ite
    | with_reducible apply TOk.foldl | with_reducible apply MOk.store
    | with_reducible apply MOk.write | with_reducible apply MOk.foldl
    | with_reducible apply MOk.ite | with_reducible apply TOk.data | with_reducible apply TOk.code
    | with_reducible apply Kept.tile | simp only [TOk.upd] | refine And.intro ?_ ?_
    | with_reducible exact TOk.empty | with_reducible exact MOk.nil | with_reducible apply XOk.ite
    | with_reducible apply XOk.foldl | with_reducible apply XOk.mem
    | with_reducible apply XOk.check | with_reducible apply XOk.buf
    | with_reducible apply Kept.slice | simp only [XOk.upd] | with_reducible exact XOk.empty
    | refine fst_of (by assumption) ?_ | refine snd_of (by assumption) ?_ | simp only [Kept.upd]
    | split

theorem pieceWrite_kept {s0 : State} (s : State) (d : Nat) (a : Nat) (bytes : List Byte) (who : Nat)
    (hk : Kept s0 s) :
    Kept s0 (pieceWrite s d a bytes who).1 := by
  unfold pieceWrite; dsimp only
  repeat'
    first
    | intro _ | with_reducible assumption | with_reducible apply refuse_kept
    | with_reducible apply plazaData_kept | with_reducible apply sliceWriteSector_kept
    | with_reducible apply gather_kept | with_reducible apply sramWrite_kept
    | with_reducible apply winWrite_kept | with_reducible apply Kept.ite
    | with_reducible apply Kept.ite1 | with_reducible apply Kept.ite2
    | with_reducible apply Kept.foldl | with_reducible apply Kept.foldl1
    | with_reducible apply TOk.ite | with_reducible apply TOk.foldl
    | with_reducible apply MOk.store | with_reducible apply MOk.write
    | with_reducible apply MOk.foldl | with_reducible apply MOk.ite | with_reducible apply TOk.data
    | with_reducible apply TOk.code | with_reducible apply Kept.tile | simp only [TOk.upd]
    | refine And.intro ?_ ?_ | with_reducible exact TOk.empty | with_reducible exact MOk.nil
    | with_reducible apply XOk.ite | with_reducible apply XOk.foldl | with_reducible apply XOk.mem
    | with_reducible apply XOk.check | with_reducible apply XOk.buf
    | with_reducible apply Kept.slice | simp only [XOk.upd] | with_reducible exact XOk.empty
    | refine fst_of (by assumption) ?_ | refine snd_of (by assumption) ?_ | simp only [Kept.upd]
    | split

theorem pieceFill_kept {s0 : State} (s : State) (d : Nat) (a : Nat) (bytes : List Byte) (hk : Kept
    s0 s) :
    Kept s0 (pieceFill s d a bytes).1 := by
  unfold pieceFill
  repeat'
    first
    | intro _ | with_reducible assumption | with_reducible apply refuse_kept
    | with_reducible apply plazaData_kept | with_reducible apply sliceWriteSectors_kept
    | with_reducible apply Kept.ite | with_reducible apply Kept.ite1
    | with_reducible apply Kept.ite2 | with_reducible apply Kept.foldl
    | with_reducible apply Kept.foldl1 | with_reducible apply XOk.ite
    | with_reducible apply XOk.foldl | with_reducible apply MOk.store
    | with_reducible apply MOk.write | with_reducible apply MOk.foldl
    | with_reducible apply MOk.ite | with_reducible apply XOk.mem | with_reducible apply XOk.check
    | with_reducible apply XOk.buf | with_reducible apply Kept.slice | simp only [XOk.upd]
    | refine And.intro ?_ ?_ | with_reducible exact XOk.empty | with_reducible exact MOk.nil
    | refine fst_of (by assumption) ?_ | refine snd_of (by assumption) ?_ | simp only [Kept.upd]
    | split

theorem dmaRead_kept {s0 : State} (s : State) (d : Nat) (errs : SectorErrs) (i : Nat) (a : Nat) (z0
    : Nat) (z1 : Nat) (hk : Kept s0 s) :
    Kept s0 (dmaRead s d errs i a z0 z1).1 := by
  cases z0
  all_goals unfold dmaRead; try dsimp only
  repeat'
    first
    | intro _ | with_reducible apply dmaRead_kept | with_reducible assumption
    | with_reducible apply pieceRead_kept | with_reducible apply Kept.ite
    | with_reducible apply Kept.ite1 | with_reducible apply Kept.ite2
    | with_reducible apply Kept.foldl | with_reducible apply Kept.foldl1
    | refine fst_of (by assumption) ?_ | refine snd_of (by assumption) ?_ | simp only [Kept.upd]
    | split

theorem dmaWrite_kept {s0 : State} (s : State) (d : Nat) (who : Nat) (a : Nat) (z0 : Nat) (z1 : List
    Byte) (hk : Kept s0 s) :
    Kept s0 (dmaWrite s d who a z0 z1).1 := by
  cases z0
  all_goals unfold dmaWrite; try dsimp only
  repeat'
    first
    | intro _ | with_reducible apply dmaWrite_kept | with_reducible assumption
    | with_reducible apply pieceWrite_kept | with_reducible apply Kept.ite
    | with_reducible apply Kept.ite1 | with_reducible apply Kept.ite2
    | with_reducible apply Kept.foldl | with_reducible apply Kept.foldl1
    | refine fst_of (by assumption) ?_ | refine snd_of (by assumption) ?_ | simp only [Kept.upd]
    | split

theorem dmaFill_kept {s0 : State} (s : State) (d : Nat) (pattern : Nat) (a : Nat) (z0 : Nat) (hk :
    Kept s0 s) :
    Kept s0 (dmaFill s d pattern a z0).1 := by
  cases z0
  all_goals unfold dmaFill; try dsimp only
  repeat'
    first
    | intro _ | with_reducible apply dmaFill_kept | with_reducible assumption
    | with_reducible apply pieceFill_kept | with_reducible apply Kept.ite
    | with_reducible apply Kept.ite1 | with_reducible apply Kept.ite2
    | with_reducible apply Kept.foldl | with_reducible apply Kept.foldl1
    | refine fst_of (by assumption) ?_ | refine snd_of (by assumption) ?_ | simp only [Kept.upd]
    | split

theorem bytesIn_kept {s0 : State} (s : State) (port : Nat) (n : Nat) (hk : Kept s0 s) :
    Kept s0 (bytesIn s port n) := by
  unfold bytesIn
  with_reducible
    repeat'
      first
      | assumption | apply bump64_kept

theorem bytesOut_kept {s0 : State} (s : State) (port : Nat) (n : Nat) (hk : Kept s0 s) :
    Kept s0 (bytesOut s port n) := by
  unfold bytesOut
  with_reducible
    repeat'
      first
      | assumption | apply bump64_kept

theorem dmaEnd_kept {s0 : State} (s : State) (d : Nat) (j : Job) (dev : Nat) (len : Nat) (status :
    Nat) (data : Nat) (hk : Kept s0 s) :
    Kept s0 (dmaEnd s d j dev len status data) := by
  unfold dmaEnd; dsimp only
  with_reducible
    repeat'
      first
      | assumption | apply setJob_kept | apply finishJob_kept | apply Kept.ite

theorem dmaRun_kept {s0 : State} (s : State) (d : Nat) (j : Job) (data : List Byte) (takes : Nat)
    (errs : SectorErrs) (hk : Kept s0 s) :
    Kept s0 (dmaRun s d j data takes errs) := by
  unfold dmaRun; dsimp only
  with_reducible
    repeat'
      first
      | assumption | apply dmaWrite_kept | apply bytesIn_kept | apply dmaEnd_kept
      | apply hostRefused_kept | apply dmaRead_kept | apply bytesOut_kept | apply emit_kept
      | apply dmaFill_kept | apply pollAcks_kept | apply Kept.ite | split

theorem windowRefused_kept {s0 : State} (s : State) (d : Nat) (a : Nat) (code : Nat) (write : Bool)
    (hk : Kept s0 s) :
    Kept s0 (windowRefused s d a code write) := by
  unfold windowRefused; dsimp only
  with_reducible
    repeat'
      first
      | assumption | apply portRefused_kept | apply emit_kept | apply Kept.ite

theorem poisonedCpl_kept {s0 : State} (s : State) (p : Nat) (hk : Kept s0 s) :
    Kept s0 (poisonedCpl s p) := by
  unfold poisonedCpl; dsimp only
  with_reducible
    repeat'
      first
      | assumption | apply emit_kept | apply bump_kept | apply lastErr_kept

theorem hostLoad_kept {s0 s t : State} {q : HostReq} (hk : Kept s0 s) (h : hostLoad s q = some t) :
    Kept s0 t := by
  have hr := dmaRead_kept s q.port q.errs 0 q.addr (q.len + 1) q.len hk
  unfold hostLoad at h
  split at h
  · cases h
  · obtain ⟨x, -, rfl⟩ := Option.map_eq_some_iff.1 h
    with_reducible
      repeat'
        first
        | assumption | apply Kept.ite | apply bytesOut_kept | apply emit_kept | apply poisonedCpl_kept
        | apply windowRefused_kept

theorem hostStore_kept {s0 s t : State} {q : HostReq} (hk : Kept s0 s) (h : hostStore s q = some t)
    :
    Kept s0 t := by
  have hr := dmaWrite_kept s q.port (hostKey q.port) q.addr (q.bytes.length + 1) q.bytes hk
  unfold hostStore at h
  obtain ⟨x, -, rfl⟩ := Option.map_eq_some_iff.1 h
  dsimp only
  with_reducible
    repeat'
      first
      | assumption | apply Kept.ite | apply bytesIn_kept | apply windowRefused_kept

theorem serve_kept {s0 : State} (s : State) (l : List HostReq) (hk : Kept s0 s) :
    Kept s0 (serve s l) := by
  induction l generalizing s with
  | nil => exact hk
  | cons q qs ih =>
    unfold serve; dsimp only
    split
    · rename_i e
      refine ih _ ?_
      split at e
      · cases e
      · split at e
        · exact hostStore_kept hk e
        · exact hostLoad_kept hk e
    · exact ih _ (hk.of_eq rfl rfl rfl rfl rfl rfl rfl)

theorem pollBells_kept {s0 : State} (s : State) (hk : Kept s0 s) :
    Kept s0 (pollBells s) := by
  unfold pollBells; dsimp only
  with_reducible
    repeat'
      first
      | intro _ | assumption | apply setProc_kept | apply Kept.ite | apply Kept.foldl

theorem pollHost_kept {s0 : State} (s : State) (hk : Kept s0 s) :
    Kept s0 (pollHost s) := by
  unfold pollHost; dsimp only
  with_reducible
    repeat'
      first
      | assumption | apply pollAcks_kept | apply pollBells_kept | apply serve_kept
      | simp only [Kept.upd]

theorem logEvent_kept {s0 : State} (s : State) (code : Nat) (domain : Nat) (arg : Nat) (value : Nat)
    (hk : Kept s0 s) :
    Kept s0 (logEvent s code domain arg value) := by
  unfold logEvent; dsimp only
  with_reducible
    repeat'
      first
      | assumption | apply wr_kept | apply raise_kept

theorem vrFrame_kept {s0 : State} (s : State) (die : Nat) (mv : Nat) (hk : Kept s0 s) :
    Kept s0 (vrFrame s die mv) := by
  unfold vrFrame; dsimp only
  with_reducible
    repeat'
      first
      | assumption | apply emit_kept | apply setDom_kept

theorem opMoves_kept {s0 : State} (s : State) (d : Nat) (k : Nat) (hk : Kept s0 s) :
    Kept s0 (opMoves s d k) := by
  unfold opMoves
  with_reducible
    repeat'
      first
      | assumption | apply logEvent_kept | apply raise_kept | apply wr_kept

theorem beginOpStep_kept {s0 : State} (s : State) (d : Nat) (next : Nat) (goal : Nat) (hk : Kept s0
    s) :
    Kept s0 (beginOpStep s d next goal) := by
  unfold beginOpStep; dsimp only
  with_reducible
    repeat'
      first
      | assumption | apply setDom_kept | apply wr_kept | apply vrFrame_kept | apply opMoves_kept
      | apply Kept.ite

theorem requestOp_kept {s0 : State} (s : State) (d : Nat) (k : Nat) (hk : Kept s0 s) :
    Kept s0 (requestOp s d k) := by
  unfold requestOp; dsimp only
  with_reducible
    repeat'
      first
      | assumption | apply setDom_kept | apply beginOpStep_kept | apply Kept.ite

theorem applyCeiling_kept {s0 : State} (s : State) (d : Nat) (c : Nat) (round : Bool) (hk : Kept s0
    s) :
    Kept s0 (applyCeiling s d c round) := by
  unfold applyCeiling; dsimp only
  with_reducible
    repeat'
      first
      | assumption | apply wr_kept | apply setDom_kept | apply requestOp_kept | apply Kept.ite

theorem reapply_kept {s0 : State} (s : State) (d : Nat) (hk : Kept s0 s) :
    Kept s0 (reapply s d) := by
  unfold reapply
  with_reducible
    repeat'
      first
      | assumption | apply applyCeiling_kept | apply Kept.ite

theorem showHints_kept {s0 : State} (s : State) (d : Nat) (hk : Kept s0 s) :
    Kept s0 (showHints s d) := by
  unfold showHints; dsimp only
  with_reducible
    repeat'
      first
      | assumption | apply wr_kept

theorem activate_kept {s0 : State} (s : State) (d : Nat) (cls : Nat) (hk : Kept s0 s) :
    Kept s0 (activate s d cls) := by
  unfold activate; dsimp only
  with_reducible
    repeat'
      first
      | assumption | apply showHints_kept | apply setDom_kept

theorem postHint_kept {s0 : State} (s : State) (d : Nat) (cls : Nat) (lead : Nat) (hk : Kept s0 s) :
    Kept s0 (postHint s d cls lead) := by
  unfold postHint; dsimp only
  with_reducible
    repeat'
      first
      | assumption | apply activate_kept | apply showHints_kept | apply setDom_kept
      | apply Kept.ite

theorem setRate_kept {s0 : State} (s : State) (q : Nat) (rate : Nat) (hk : Kept s0 s) :
    Kept s0 (setRate s q rate) := by
  unfold setRate; dsimp only
  with_reducible
    repeat'
      first
      | intro _ | assumption | apply raise_kept | apply Kept.ite | apply Kept.foldl
      | simp only [Kept.upd]

theorem ledgerStep_kept {s0 : State} (s : State) (d : Nat) (r : Nat) (binds : Bool) (hk : Kept s0 s)
    :
    Kept s0 (ledgerStep s d r binds) := by
  unfold ledgerStep; dsimp only
  with_reducible
    repeat'
      first
      | assumption | apply setDom_kept | apply wr_kept | apply bump_kept | apply logEvent_kept
      | apply Kept.ite | split

theorem bindStep_kept {s0 : State} (s : State) (d : Nat) (hk : Kept s0 s) :
    Kept s0 (bindStep s d) := by
  unfold bindStep; dsimp only
  with_reducible
    repeat'
      first
      | intro _ | assumption | apply ledgerStep_kept | apply wr_kept | apply Kept.ite
      | apply Kept.foldl

theorem cutTiles_kept {s0 : State} (s : State) (d : Nat) (mw : Nat) (avgIcc : Nat) (hk : Kept s0 s)
    :
    Kept s0 (cutTiles s d mw avgIcc).1 := by
  unfold cutTiles; dsimp only
  with_reducible
    repeat'
      first
      | assumption | apply wr_kept | apply Kept.ite1

theorem cutGroup_kept {s0 : State} (s : State) (d : Nat) (mw : Nat) (p : Nat) (hk : Kept s0 s) :
    Kept s0 (cutGroup s d mw p).1 := by
  unfold cutGroup; dsimp only
  with_reducible
    repeat'
      first
      | assumption | apply setDom_kept | apply Kept.ite1

theorem cutDie_kept {s0 : State} (s : State) (d : Nat) (mw : Nat) (tileMw : Nat) (engMw : Nat)
    (avgIcc : Nat) (collMw : Nat) (hk : Kept s0 s) :
    Kept s0 (cutDie s d mw tileMw engMw avgIcc collMw).1 := by
  unfold cutDie; dsimp only
  with_reducible
    repeat'
      first
      | assumption | apply cutGroup_kept | apply cutTiles_kept | split

theorem releaseGroup_kept {s0 : State} (s : State) (d : Nat) (hk : Kept s0 s) :
    Kept s0 (releaseGroup s d) := by
  unfold releaseGroup; dsimp only
  with_reducible
    repeat'
      first
      | assumption | apply setDom_kept

theorem easeTiles_kept {s0 : State} (s : State) (d : Nat) (hk : Kept s0 s) :
    Kept s0 (easeTiles s d) := by
  unfold easeTiles; dsimp only
  with_reducible
    repeat'
      first
      | assumption | apply wr_kept

theorem easeDie_kept {s0 : State} (s : State) (d : Nat) (hk : Kept s0 s) :
    Kept s0 (easeDie s d) := by
  unfold easeDie
  with_reducible
    repeat'
      first
      | assumption | apply easeTiles_kept | apply releaseGroup_kept | apply Kept.ite | split

theorem easeRound_kept {s0 : State} (s : State) (hk : Kept s0 s) :
    Kept s0 (easeRound s) := by
  unfold easeRound
  with_reducible
    repeat'
      first
      | intro _ | assumption | apply releaseGroup_kept | apply easeDie_kept | apply Kept.ite
      | apply Kept.foldl

theorem clearRaw_kept {s0 : State} (s : State) (p : PageId) (v : Nat) (hk : Kept s0 s) :
    Kept s0 (clearRaw s p v) := by
  unfold clearRaw; dsimp only
  with_reducible
    repeat'
      first
      | assumption | apply deliver_kept | apply wr_kept | apply Kept.ite | simp only [Kept.upd]

theorem applyEff_kept {s0 : State} (s : State) (n : Nat) (e : Eff) (hk : Kept s0 s) :
    Kept s0 (applyEff s n e) := by
  unfold applyEff
  repeat'
    first
    | intro _ | with_reducible assumption | with_reducible apply owe_kept
    | with_reducible apply collPost_kept | with_reducible apply tilePost_kept
    | with_reducible apply postHint_kept | with_reducible apply Kept.ite
    | with_reducible apply Kept.foldl | with_reducible apply Kept.foldl1
    | with_reducible apply TOk.ite | with_reducible apply TOk.foldl
    | with_reducible apply MOk.store | with_reducible apply MOk.write
    | with_reducible apply MOk.foldl | with_reducible apply MOk.ite | with_reducible apply TOk.data
    | with_reducible apply TOk.code | with_reducible apply Kept.tile | simp only [TOk.upd]
    | refine And.intro ?_ ?_ | with_reducible exact TOk.empty | with_reducible exact MOk.nil
    | refine fst_of (by assumption) ?_ | refine snd_of (by assumption) ?_ | simp only [Kept.upd]
    | split

theorem applyTile_kept {s0 : State} (s : State) (n : Nat) (r : Tile × List Eff) (hk : Kept s0 s)
    (h_r : TOk s0 r.1) :
    Kept s0 (applyTile s n r) := by
  unfold applyTile
  with_reducible
    repeat'
      first
      | intro _ | assumption | apply applyEff_kept | apply Kept.setTile | apply Kept.foldl

theorem upsetTile_kept {s0 : State} (t : Tile) (e : CycleErrs) (h_t : TOk s0 t) :
    TOk s0 (upsetTile t e) := by
  unfold upsetTile
  with_reducible
    repeat'
      first
      | intro _ | assumption | apply Tile_upset_kept | apply TOk.foldl

theorem bundleIssue_kept {s0 : State} (s : State) (n : Nat) (e : CycleErrs) (hk : Kept s0 s) :
    Kept s0 (bundleIssue s n e) := by
  unfold bundleIssue; dsimp only
  with_reducible
    repeat'
      first
      | assumption | apply upsetTile_kept | apply Kept.setTile | apply drainCycle_kept
      | apply applyTile_kept | apply bundleCycle_kept | apply Kept.ite | apply TOk.data
      | apply TOk.code | apply Kept.tile | simp only [TOk.upd] | refine And.intro ?_ ?_

theorem slotIssue_kept {s0 : State} (s : State) (n : Nat) (i : Bundle) (hk : Kept s0 s) :
    Kept s0 (slotIssue s n i) := by
  unfold slotIssue; dsimp only
  with_reducible
    repeat'
      first
      | assumption | apply applyTile_kept | apply bundleCycle_kept | apply Kept.ite
      | apply Kept.tile

theorem waitRelease_kept {s0 : State} (s : State) (n : Nat) (e : CycleErrs) (hk : Kept s0 s) :
    Kept s0 (waitRelease s n e) := by
  unfold waitRelease; dsimp only
  with_reducible
    repeat'
      first
      | assumption | apply upsetTile_kept | apply applyTile_kept | apply waitCycle_kept
      | apply Kept.ite | apply Kept.tile | split

theorem pacingCycle_kept {s0 : State} (s : State) (n : Nat) (hk : Kept s0 s) :
    Kept s0 (pacingCycle s n) := by
  unfold pacingCycle; dsimp only
  with_reducible
    repeat'
      first
      | assumption | apply Tile_countFrozen_kept | apply Kept.setTile | apply Tile_tick_kept
      | apply Kept.ite | apply TOk.ite | apply Kept.tile

theorem haltChan_kept {s0 : State} (s : State) (n : Nat) (c : Nat) (code : Nat) (a : Nat) (keep :
    List MCmd) (lost : List MCmd) (hk : Kept s0 s) :
    Kept s0 (haltChan s n c code a keep lost) := by
  unfold haltChan; dsimp only
  with_reducible
    repeat'
      first
      | assumption | apply Tile_setChan_kept | apply logErr_kept | apply Kept.setTile
      | apply raise_kept | apply Kept.ite | apply TOk.ite | apply TOk.data | apply TOk.code
      | apply Kept.tile | simp only [TOk.upd] | refine And.intro ?_ ?_ | split

theorem logParity_kept {s0 : State} (s : State) (n : Nat) (code : Nat) (h : ParHit) (lasting : Bool)
    (hk : Kept s0 s) :
    Kept s0 (logParity s n code h lasting) := by
  unfold logParity
  with_reducible
    repeat'
      first
      | assumption | apply logErr_kept

theorem retryCycles_kept {s0 : State} (duty : Nat) (z0 : Nat) (z1 : Tile) (h_z1 : TOk s0 z1) :
    TOk s0 (retryCycles duty z0 z1) := by
  cases z0
  all_goals unfold retryCycles; try dsimp only
  repeat'
    first
    | intro _ | with_reducible apply retryCycles_kept | with_reducible assumption
    | with_reducible apply Tile_countFrozen_kept | with_reducible apply Tile_tick_kept
    | with_reducible apply TOk.ite

theorem freeWords_kept {s0 : State} (s : State) (z0 : Nat) (hk : Kept s0 s) :
    Kept s0 (freeWords s z0).2 := by
  cases z0
  all_goals unfold freeWords; try dsimp only
  repeat'
    first
    | intro _ | with_reducible apply freeWords_kept | with_reducible assumption
    | with_reducible apply freeWord_kept

theorem freeBytes_kept {s0 : State} (s : State) (z0 : Nat) (hk : Kept s0 s) :
    Kept s0 (freeBytes s z0).2 := by
  cases z0
  all_goals unfold freeBytes; try dsimp only
  repeat'
    first
    | intro _ | with_reducible apply freeBytes_kept | with_reducible assumption
    | with_reducible apply Kept.ite | with_reducible apply Kept.ite1
    | with_reducible apply Kept.ite2 | with_reducible apply Kept.foldl
    | with_reducible apply Kept.foldl1 | simp only [Kept.upd]

theorem freeAct_kept {s0 : State} (s : State) (p : Pend) (hk : Kept s0 s) :
    Kept s0 (freeAct s p).2 := by
  unfold freeAct; dsimp only
  with_reducible
    repeat'
      first
      | assumption | apply freeWords_kept | apply freeNat_kept | apply freeWord_kept
      | apply freeBytes_kept | split

theorem freeAgenda_kept {s0 : State} (f : Pend → Bool) (z0 : State) (z1 : List Pend) (hk : Kept s0
    z0) :
    Kept s0 (freeAgenda f z0 z1).2 := by
  cases z1
  all_goals unfold freeAgenda; try dsimp only
  repeat'
    first
    | intro _ | with_reducible apply freeAgenda_kept | with_reducible assumption
    | with_reducible apply freeAct_kept | with_reducible apply Kept.ite
    | with_reducible apply Kept.ite1 | with_reducible apply Kept.ite2

theorem freeCopies_kept {s0 : State} (s : State) (n : Nat) (h : ParHit) (hk : Kept s0 s) :
    Kept s0 (freeCopies s n h) := by
  unfold freeCopies; dsimp only
  with_reducible
    repeat'
      first
      | assumption | apply freeAgenda_kept | apply Kept.setTile | apply TOk.data | apply TOk.code
      | apply Kept.tile | simp only [TOk.upd] | refine And.intro ?_ ?_

theorem freeTaken_kept {s0 : State} (t : Tile) (h : ParHit) (b : List Byte) (h_t : TOk s0 t) :
    TOk s0 (freeTaken t h b) := by
  unfold freeTaken; dsimp only
  with_reducible
    repeat'
      first
      | assumption | apply TOk.data | apply TOk.code | simp only [TOk.upd] | refine And.intro ?_ ?_
      | split

theorem freeRow_kept {s0 : State} (s : State) (n : Nat) (h : ParHit) (hk : Kept s0 s) :
    Kept s0 (freeRow s n h) := by
  unfold freeRow; dsimp only
  with_reducible
    repeat'
      first
      | assumption | apply freeWords_kept | apply freeNat_kept | apply Kept.setTile
      | apply Tile_setAccRow_kept | apply Tile_raiseFlags_kept | apply Kept.tile

theorem freeResults_kept {s0 : State} (s : State) (n : Nat) (h : ParHit) (hk : Kept s0 s) :
    Kept s0 (freeResults s n h) := by
  unfold freeResults; dsimp only
  with_reducible
    repeat'
      first
      | assumption | apply freeCopies_kept | apply freeRow_kept | apply freeBytes_kept
      | apply Kept.setTile | apply freeTaken_kept | apply Kept.ite | apply TOk.data
      | apply TOk.code | apply Kept.tile | simp only [TOk.upd] | refine And.intro ?_ ?_ | split

theorem parityTrap_kept {s0 : State} (s : State) (n : Nat) (hs : List ParHit) (h : ParHit) (hk :
    Kept s0 s) :
    Kept s0 (parityTrap s n hs h) := by
  unfold parityTrap; dsimp only
  with_reducible
    repeat'
      first
      | intro _ | assumption | apply freeResults_kept | apply Kept.setTile | apply Kept.ite
      | apply Kept.foldl | apply TOk.data | apply TOk.code | apply Kept.tile | simp only [TOk.upd]
      | refine And.intro ?_ ?_

theorem haltDesc_kept {s0 : State} (s : State) (n : Nat) (c : Nat) (h : ParHit) (hk : Kept s0 s) :
    Kept s0 (haltDesc s n c h) := by
  unfold haltDesc; dsimp only
  with_reducible
    repeat'
      first
      | assumption | apply Kept.setTile | apply haltChan_kept | apply TOk.data | apply TOk.code
      | apply Kept.tile | simp only [TOk.upd] | refine And.intro ?_ ?_

theorem parityLasting_kept {s0 : State} (s : State) (n : Nat) (hs : List ParHit) (h : ParHit) (hk :
    Kept s0 s) :
    Kept s0 (parityLasting s n hs h) := by
  unfold parityLasting; dsimp only
  with_reducible
    repeat'
      first
      | intro _ | assumption | apply raise_kept | apply logParity_kept | apply Kept.setTile
      | apply markBad_kept | apply haltDesc_kept | apply parityTrap_kept | apply Kept.foldl
      | apply Kept.tile | split

theorem parityRetry_kept {s0 : State} (s : State) (n : Nat) (fails : List Nat) (hk : Kept s0 s) :
    Kept s0 (parityRetry s n fails) := by
  unfold parityRetry; dsimp only
  with_reducible
    repeat'
      first
      | intro _ | assumption | apply Kept.setTile | apply retryCycles_kept | apply bump_kept
      | apply logParity_kept | apply parityLasting_kept | apply Kept.foldl | apply TOk.data
      | apply TOk.code | apply Kept.tile | simp only [TOk.upd] | refine And.intro ?_ ?_ | split

theorem settleTo_kept {s0 : State} (c : Nat) (z0 : Nat) (z1 : Tile) (h_z1 : TOk s0 z1) :
    TOk s0 (settleTo c z0 z1) := by
  cases z0
  all_goals unfold settleTo; try dsimp only
  repeat'
    first
    | intro _ | with_reducible apply settleTo_kept | with_reducible assumption
    | with_reducible apply comeDue_kept | with_reducible apply TOk.ite
    | with_reducible apply TOk.foldl | with_reducible apply MOk.store
    | with_reducible apply MOk.write | with_reducible apply MOk.foldl
    | with_reducible apply MOk.ite | with_reducible apply TOk.data | with_reducible apply TOk.code
    | with_reducible apply Kept.tile | simp only [TOk.upd] | refine And.intro ?_ ?_
    | with_reducible exact TOk.empty | with_reducible exact MOk.nil
    | refine fst_of (by assumption) ?_ | refine snd_of (by assumption) ?_
    | refine Tfst_of (by assumption) ?_ | refine Tsnd_of (by assumption) ?_ | split

theorem resultLand_kept {s0 : State} (s : State) (n : Nat) (f : Act → Bool) (hk : Kept s0 s) :
    Kept s0 (resultLand s n f) := by
  unfold resultLand; dsimp only
  with_reducible
    repeat'
      first
      | intro _ | assumption | apply settleTo_kept | apply comeAbout_kept | apply Kept.setTile
      | apply Kept.ite | apply TOk.data | apply TOk.code | apply Kept.tile | simp only [TOk.upd]
      | refine And.intro ?_ ?_ | split

theorem endOfTile_kept {s0 : State} (s : State) (n : Nat) (hk : Kept s0 s) :
    Kept s0 (endOfTile s n) := by
  unfold endOfTile; dsimp only
  with_reducible
    repeat'
      first
      | assumption | apply tileEnded_kept | apply abortColls_kept | apply Kept.ite | split

theorem trapSettled_kept {s0 : State} (s : State) (n : Nat) (hk : Kept s0 s) :
    Kept s0 (trapSettled s n) := by
  unfold trapSettled; dsimp only
  with_reducible
    repeat'
      first
      | assumption | apply settle_kept | apply Kept.setTile | apply lastErr_kept
      | apply endOfTile_kept | apply raise_kept | apply Kept.ite | apply TOk.data | apply TOk.code
      | apply Kept.tile | simp only [TOk.upd] | refine And.intro ?_ ?_

theorem tileComplete_kept {s0 : State} (s : State) (n : Nat) (hk : Kept s0 s) :
    Kept s0 (tileComplete s n) := by
  unfold tileComplete; dsimp only
  with_reducible
    repeat'
      first
      | assumption | apply settle_kept | apply Kept.setTile | apply endOfTile_kept
      | apply raise_kept | apply Kept.ite | apply TOk.data | apply TOk.code | apply Kept.tile
      | simp only [TOk.upd] | refine And.intro ?_ ?_

theorem slipTimeout_kept {s0 : State} (s : State) (n : Nat) (hk : Kept s0 s) :
    Kept s0 (slipTimeout s n) := by
  unfold slipTimeout; dsimp only
  with_reducible
    repeat'
      first
      | assumption | apply abortColls_kept | apply endLaunch_kept | apply Kept.ite | split

theorem moverRefused_kept {s0 : State} (s : State) (n : Nat) (a : Nat) (code : Nat) (hk : Kept s0 s)
    :
    Kept s0 (moverRefused s n a code) := by
  unfold moverRefused
  with_reducible
    repeat'
      first
      | assumption | apply refuse_kept | apply Kept.ite

theorem storeData_kept {s0 : State} (s : State) (n : Nat) (m : Nat) (b : List Byte) (hk : Kept s0 s)
    :
    Kept s0 (storeData s n m b).1 := by
  unfold storeData
  repeat'
    first
    | intro _ | with_reducible assumption | with_reducible apply crossData_kept

theorem lineRead_kept {s0 : State} (s : State) (n : Nat) (m : Nat) (b : List Byte) (hk : Kept s0 s)
    :
    Kept s0 (lineRead s n m b).1 := by
  unfold lineRead; dsimp only
  repeat'
    first
    | intro _ | with_reducible assumption | with_reducible apply storeData_kept

theorem readLine_kept {s0 : State} (s : State) (n : Nat) (a : Nat) (errs : SectorErrs) (k : Nat) (hk
    : Kept s0 s) :
    Kept s0 (readLine s n a errs k).1 := by
  unfold readLine; dsimp only
  repeat'
    first
    | intro _ | with_reducible assumption | with_reducible apply moverRefused_kept
    | with_reducible apply sliceSectors_kept | with_reducible apply lineRead_kept
    | with_reducible apply winSectorRead_kept | with_reducible apply Kept.ite
    | with_reducible apply Kept.ite1 | with_reducible apply Kept.ite2
    | with_reducible apply Kept.foldl | with_reducible apply Kept.foldl1
    | with_reducible apply XOk.ite | with_reducible apply XOk.foldl
    | with_reducible apply MOk.store | with_reducible apply MOk.write
    | with_reducible apply MOk.foldl | with_reducible apply MOk.ite | with_reducible apply XOk.mem
    | with_reducible apply XOk.check | with_reducible apply XOk.buf
    | with_reducible apply Kept.slice | simp only [XOk.upd] | refine And.intro ?_ ?_
    | with_reducible exact XOk.empty | with_reducible exact MOk.nil
    | refine fst_of (by assumption) ?_ | refine snd_of (by assumption) ?_ | simp only [Kept.upd]
    | split

theorem writeLine_kept {s0 : State} (s : State) (n : Nat) (c : Nat) (a : Nat) (bytes : List Byte)
    (fillOnly : Bool) (hk : Kept s0 s) :
    Kept s0 (writeLine s n c a bytes fillOnly).1 := by
  unfold writeLine; dsimp only
  repeat'
    first
    | intro _ | with_reducible assumption | with_reducible apply moverRefused_kept
    | with_reducible apply storeData_kept | with_reducible apply Tile_storeData_kept
    | with_reducible apply sliceWriteSectors_kept | with_reducible apply winWrite_kept
    | with_reducible apply Kept.ite | with_reducible apply Kept.ite1
    | with_reducible apply Kept.ite2 | with_reducible apply Kept.foldl
    | with_reducible apply Kept.foldl1 | with_reducible apply XOk.ite
    | with_reducible apply XOk.foldl | with_reducible apply MOk.store
    | with_reducible apply MOk.write | with_reducible apply MOk.foldl
    | with_reducible apply MOk.ite | with_reducible apply XOk.mem | with_reducible apply XOk.check
    | with_reducible apply XOk.buf | with_reducible apply Kept.slice | simp only [XOk.upd]
    | refine And.intro ?_ ?_ | with_reducible exact XOk.empty | with_reducible exact MOk.nil
    | refine fst_of (by assumption) ?_ | refine snd_of (by assumption) ?_ | simp only [Kept.upd]
    | split

theorem stepCmd_kept {s0 : State} (s : State) (n : Nat) (c : Nat) (hk : Kept s0 s) :
    Kept s0 (stepCmd s n c) := by
  unfold stepCmd; dsimp only
  with_reducible
    repeat'
      first
      | assumption | apply Kept.setTile | apply Tile_setChan_kept | apply Kept.tile | split

theorem enqueue_kept {s0 : State} (s : State) (n : Nat) (q : Nat) (bytes : List Byte) (cls : Cause)
    (src : Option Nat) (hk : Kept s0 s) :
    Kept s0 (enqueue s n q bytes cls src) := by
  unfold enqueue; dsimp only
  with_reducible
    repeat'
      first
      | assumption | apply Kept.setTile | apply Tile_setInQ_kept | apply TOk.data | apply TOk.code
      | apply Kept.tile | simp only [TOk.upd] | refine And.intro ?_ ?_

theorem countOut_kept {s0 : State} (s : State) (n : Nat) (hk : Kept s0 s) :
    Kept s0 (countOut s n) := by
  unfold countOut; dsimp only
  with_reducible
    repeat'
      first
      | assumption | apply Kept.setTile | apply TOk.data | apply TOk.code | apply Kept.tile
      | simp only [TOk.upd] | refine And.intro ?_ ?_

theorem dequeue_kept {s0 : State} (s : State) (n : Nat) (o : Nat) (cls : Cause) (hk : Kept s0 s) :
    Kept s0 (dequeue s n o cls) := by
  unfold dequeue; dsimp only
  with_reducible
    repeat'
      first
      | assumption | apply countOut_kept | apply Kept.setTile | apply Tile_setOutQ_kept
      | apply Kept.tile

theorem readUnit_kept {s0 : State} (s : State) (n : Nat) (base : Nat) (stride : Nat) (errs :
    SectorErrs) (r : Nat)
    (z0 : Nat) (hk : Kept s0 s) : Kept s0 (readUnit s n base stride errs r z0).1 := by
  induction z0 generalizing s r with
  | zero => exact hk
  | succ k ih =>
    unfold readUnit; dsimp only
    have h1 := readLine_kept s n (base + r * stride) errs (2 * r) hk
    split
    · exact ih _ _ h1
    · exact h1

theorem haltHead_kept {s0 : State} (s : State) (n : Nat) (c : Nat) (code : Nat) (a : Nat) (hk : Kept
    s0 s) :
    Kept s0 (haltHead s n c code a) := by
  unfold haltHead
  with_reducible
    repeat'
      first
      | assumption | apply haltChan_kept

theorem moveLine_kept {s0 : State} (s : State) (n : Nat) (c : Nat) (errs : SectorErrs) (k : Nat) (hk
    : Kept s0 s) :
    Kept s0 (moveLine s n c errs k).1 := by
  unfold moveLine; dsimp only
  with_reducible
    repeat'
      first
      | assumption | apply haltHead_kept | apply readLine_kept | apply stepCmd_kept
      | apply enqueue_kept | apply writeLine_kept | apply dequeue_kept | apply countOut_kept
      | apply readUnit_kept | apply Kept.setTile | apply Tile_setChan_kept | apply Kept.ite1
      | apply Kept.tile | split

theorem moveLines_kept {s0 : State} (s : State) (n : Nat) (c : Nat) (errs : SectorErrs) (i : Nat)
    (z0 : Nat) (hk : Kept s0 s) :
    Kept s0 (moveLines s n c errs i z0) := by
  cases z0
  all_goals unfold moveLines; try dsimp only
  repeat'
    first
    | intro _ | with_reducible apply moveLines_kept | with_reducible assumption
    | with_reducible apply moveLine_kept | with_reducible apply Kept.ite

theorem moverStep_kept {s0 : State} (s : State) (n : Nat) (c : Nat) (op : Nat) (lines : Nat) (errs :
    SectorErrs) (hk : Kept s0 s) :
    Kept s0 (moverStep s n c op lines errs) := by
  unfold moverStep
  with_reducible
    repeat'
      first
      | assumption | apply moveLines_kept | apply Kept.ite | split

theorem moverHalt_kept {s0 : State} (s : State) (n : Nat) (c : Nat) (errs : SectorErrs) (hk : Kept
    s0 s) :
    Kept s0 (moverHalt s n c errs) := by
  unfold moverHalt; dsimp only
  with_reducible
    repeat'
      first
      | assumption | apply moveLine_kept | apply Kept.ite

theorem moverDone_kept {s0 : State} (s : State) (n : Nat) (c : Nat) (hk : Kept s0 s) :
    Kept s0 (moverDone s n c) := by
  unfold moverDone; dsimp only
  with_reducible
    repeat'
      first
      | assumption | apply Kept.setTile | apply Tile_setChan_kept | apply Kept.ite
      | apply Kept.tile | split

theorem misrouted_kept {s0 : State} (t : Tile) (h_t : TOk s0 t) :
    TOk s0 (misrouted t) := by
  unfold misrouted
  with_reducible
    repeat'
      first
      | assumption | apply takeTrap_kept | apply TOk.ite | apply TOk.data | apply TOk.code
      | simp only [TOk.upd] | refine And.intro ?_ ?_

theorem lineInto_kept {s0 : State} (s : State) (n : Nat) (q : Nat) (bytes : List Byte) (cls : Cause)
    (src : Option Nat) (hk : Kept s0 s) :
    Kept s0 (lineInto s n q bytes cls src).1 := by
  unfold lineInto
  with_reducible
    repeat'
      first
      | assumption | apply enqueue_kept | apply Kept.setTile | apply misrouted_kept
      | apply Kept.ite1 | apply Kept.tile

theorem routeFlow_kept {s0 : State} (s : State) (n : Nat) (r : Route) (hk : Kept s0 s) :
    Kept s0 (routeFlow s n r) := by
  unfold routeFlow
  with_reducible
    repeat'
      first
      | assumption | apply crossFlow_kept

theorem useCredits_kept {s0 : State} (s : State) (n : Nat) (r : Route) (k : Nat) (hk : Kept s0 s) :
    Kept s0 (useCredits s n r k) := by
  unfold useCredits; dsimp only
  with_reducible
    repeat'
      first
      | assumption | apply Kept.setTile | apply TOk.data | apply TOk.code | apply Kept.tile
      | simp only [TOk.upd] | refine And.intro ?_ ?_

theorem takeLines_kept {s0 : State} (s : State) (n : Nat) (o : Nat) (k : Nat) (hk : Kept s0 s) :
    Kept s0 (takeLines s n o k) := by
  unfold takeLines; dsimp only
  with_reducible
    repeat'
      first
      | assumption | apply Kept.setTile | apply Tile_setOutQ_kept | apply TOk.data | apply TOk.code
      | apply Kept.tile | simp only [TOk.upd] | refine And.intro ?_ ?_ | split

theorem sendLocal_kept {s0 : State} (s : State) (n : Nat) (o : Nat) (g : Send) (hk : Kept s0 s) :
    Kept s0 (sendLocal s n o g) := by
  unfold sendLocal; dsimp only
  repeat'
    first
    | intro _ | with_reducible assumption | with_reducible apply crossData_kept
    | with_reducible apply lineInto_kept | with_reducible apply takeLines_kept
    | with_reducible apply useCredits_kept | with_reducible apply Kept.ite
    | with_reducible apply Kept.foldl | with_reducible apply Kept.foldl1
    | with_reducible apply TOk.ite | with_reducible apply TOk.foldl
    | with_reducible apply MOk.store | with_reducible apply MOk.write
    | with_reducible apply MOk.foldl | with_reducible apply MOk.ite | with_reducible apply TOk.data
    | with_reducible apply TOk.code | with_reducible apply Kept.tile | simp only [TOk.upd]
    | refine And.intro ?_ ?_ | with_reducible exact TOk.empty | with_reducible exact MOk.nil
    | refine fst_of (by assumption) ?_ | refine snd_of (by assumption) ?_ | simp only [Kept.upd]
    | split

theorem packLines_kept {s0 : State} (s : State) (n : Nat) (o : Nat) (r : Route) (z0 : Nat) (hk :
    Kept s0 s) :
    Kept s0 (packLines s n o r z0).1 := by
  cases z0
  all_goals unfold packLines; try dsimp only
  repeat'
    first
    | intro _ | with_reducible apply packLines_kept | with_reducible assumption
    | with_reducible apply useCredits_kept | with_reducible apply takeLines_kept
    | with_reducible apply Kept.ite | with_reducible apply Kept.ite1
    | with_reducible apply Kept.ite2 | with_reducible apply Kept.foldl
    | with_reducible apply Kept.foldl1 | with_reducible apply TOk.ite
    | with_reducible apply TOk.foldl | with_reducible apply MOk.store
    | with_reducible apply MOk.write | with_reducible apply MOk.foldl
    | with_reducible apply MOk.ite | with_reducible apply TOk.data | with_reducible apply TOk.code
    | with_reducible apply Kept.tile | simp only [TOk.upd] | refine And.intro ?_ ?_
    | with_reducible exact TOk.empty | with_reducible exact MOk.nil
    | refine fst_of (by assumption) ?_ | refine snd_of (by assumption) ?_ | simp only [Kept.upd]
    | split

theorem sendRemote_kept {s0 : State} (s : State) (n : Nat) (o : Nat) (lines : Nat) (g : Send) (hk :
    Kept s0 s) :
    Kept s0 (sendRemote s n o lines g) := by
  unfold sendRemote; dsimp only
  repeat'
    first
    | intro _ | with_reducible assumption | with_reducible apply packLines_kept
    | with_reducible apply routeFlow_kept | with_reducible apply crossData_kept
    | with_reducible apply sendPacket_kept | with_reducible apply Kept.setTile
    | with_reducible apply Kept.ite | with_reducible apply Kept.foldl
    | with_reducible apply Kept.foldl1 | with_reducible apply TOk.ite
    | with_reducible apply TOk.foldl | with_reducible apply MOk.store
    | with_reducible apply MOk.write | with_reducible apply MOk.foldl
    | with_reducible apply MOk.ite | with_reducible apply TOk.data | with_reducible apply TOk.code
    | with_reducible apply Kept.tile | simp only [TOk.upd] | refine And.intro ?_ ?_

theorem sendLines_kept {s0 : State} (s : State) (n : Nat) (o : Nat) (lines : Nat) (hk : Kept s0 s) :
    Kept s0 (sendLines s n o lines) := by
  unfold sendLines
  with_reducible
    repeat'
      first
      | assumption | apply sendRemote_kept | apply sendLocal_kept | apply Kept.ite | split

theorem sendCorrupted_kept {s0 : State} (s : State) (n : Nat) (o : Nat) (lines : Nat) (flips : List
    (Nat × Nat)) (hk : Kept s0 s) :
    Kept s0 (sendCorrupted s n o lines flips) := by
  unfold sendCorrupted; dsimp only
  with_reducible
    repeat'
      first
      | assumption | apply sendLines_kept | apply Kept.setTile | apply Tile_setOutQ_kept
      | apply Kept.ite | apply Kept.tile | split

theorem remoteLine_kept {s0 : State} (s : State) (n : Nat) (hk : Kept s0 s) :
    Kept s0 (remoteLine s n) := by
  unfold remoteLine; dsimp only
  repeat'
    first
    | intro _ | with_reducible assumption | with_reducible apply crossData_kept
    | with_reducible apply lineInto_kept | with_reducible apply owe_kept
    | with_reducible apply Kept.ite | with_reducible apply Kept.foldl
    | with_reducible apply Kept.foldl1 | with_reducible apply TOk.ite
    | with_reducible apply TOk.foldl | with_reducible apply MOk.store
    | with_reducible apply MOk.write | with_reducible apply MOk.foldl
    | with_reducible apply MOk.ite | with_reducible apply TOk.data | with_reducible apply TOk.code
    | with_reducible apply Kept.tile | simp only [TOk.upd] | refine And.intro ?_ ?_
    | with_reducible exact TOk.empty | with_reducible exact MOk.nil
    | refine fst_of (by assumption) ?_ | refine snd_of (by assumption) ?_ | simp only [Kept.upd]
    | split

theorem remoteSig_kept {s0 : State} (s : State) (n : Nat) (hk : Kept s0 s) :
    Kept s0 (remoteSig s n) := by
  unfold remoteSig; dsimp only
  repeat'
    first
    | intro _ | with_reducible assumption | with_reducible apply crossNat_kept
    | with_reducible apply Kept.setTile | with_reducible apply Tile_addEv_kept
    | with_reducible apply Kept.ite | with_reducible apply Kept.foldl
    | with_reducible apply Kept.foldl1 | with_reducible apply TOk.ite
    | with_reducible apply TOk.foldl | with_reducible apply MOk.store
    | with_reducible apply MOk.write | with_reducible apply MOk.foldl
    | with_reducible apply MOk.ite | with_reducible apply TOk.data | with_reducible apply TOk.code
    | with_reducible apply Kept.tile | simp only [TOk.upd] | refine And.intro ?_ ?_
    | with_reducible exact TOk.empty | with_reducible exact MOk.nil
    | refine fst_of (by assumption) ?_ | refine snd_of (by assumption) ?_ | simp only [Kept.upd]
    | split

theorem sendSig_kept {s0 : State} (s : State) (n : Nat) (k : Nat) (hk : Kept s0 s) :
    Kept s0 (sendSig s n k) := by
  unfold sendSig; dsimp only
  repeat'
    first
    | intro _ | with_reducible assumption | with_reducible apply crossNat_kept
    | with_reducible apply Kept.setTile | with_reducible apply sendPacket_kept
    | with_reducible apply Tile_addEv_kept | with_reducible apply Kept.ite
    | with_reducible apply Kept.foldl | with_reducible apply Kept.foldl1
    | with_reducible apply TOk.ite | with_reducible apply TOk.foldl
    | with_reducible apply MOk.store | with_reducible apply MOk.write
    | with_reducible apply MOk.foldl | with_reducible apply MOk.ite | with_reducible apply TOk.data
    | with_reducible apply TOk.code | with_reducible apply Kept.tile | simp only [TOk.upd]
    | refine And.intro ?_ ?_ | with_reducible exact TOk.empty | with_reducible exact MOk.nil
    | refine fst_of (by assumption) ?_ | refine snd_of (by assumption) ?_ | simp only [Kept.upd]
    | split

theorem creditBack_kept {s0 : State} (s : State) (n : Nat) (far : Option FarQueue) (hk : Kept s0 s)
    :
    Kept s0 (creditBack s n far) := by
  unfold creditBack; dsimp only
  repeat'
    first
    | intro _ | with_reducible assumption | with_reducible apply Kept.setTile
    | with_reducible apply plazaCross_kept | with_reducible apply crossFlow_kept
    | with_reducible apply Kept.ite | with_reducible apply Kept.foldl
    | with_reducible apply Kept.foldl1 | with_reducible apply TOk.ite
    | with_reducible apply TOk.foldl | with_reducible apply MOk.store
    | with_reducible apply MOk.write | with_reducible apply MOk.foldl
    | with_reducible apply MOk.ite | with_reducible apply TOk.data | with_reducible apply TOk.code
    | with_reducible apply Kept.tile | simp only [TOk.upd] | refine And.intro ?_ ?_
    | with_reducible exact TOk.empty | with_reducible exact MOk.nil
    | refine fst_of (by assumption) ?_ | refine snd_of (by assumption) ?_ | simp only [Kept.upd]
    | split

theorem emptySlots_kept {s0 : State} (s : State) (d : Nat) (p : Image → Bool) (hk : Kept s0 s) :
    Kept s0 (emptySlots s d p) := hk.imagesTo keysFrom_filter rfl rfl rfl rfl rfl rfl

theorem emptyNaming_kept {s0 : State} (s : State) (p : Nat → Bool) (hk : Kept s0 s) :
    Kept s0 (emptyNaming s p) := hk.imagesTo keysFrom_filter rfl rfl rfl rfl rfl rfl

theorem startLaunch_kept {s0 : State} (s : State) (d : Nat) (j : Job) (hk : Kept s0 s) :
    Kept s0 (startLaunch s d j) := by
  unfold startLaunch; dsimp only
  repeat'
    first
    | intro _ | with_reducible assumption | with_reducible apply plazaData_kept
    | with_reducible apply startTile_kept | with_reducible apply setJob_kept
    | with_reducible apply Kept.ite | with_reducible apply Kept.foldl
    | with_reducible apply Kept.foldl1 | with_reducible apply TOk.ite
    | with_reducible apply TOk.foldl | with_reducible apply MOk.store
    | with_reducible apply MOk.write | with_reducible apply MOk.foldl
    | with_reducible apply MOk.ite | with_reducible apply TOk.data | with_reducible apply TOk.code
    | with_reducible apply Kept.tile | simp only [TOk.upd] | refine And.intro ?_ ?_
    | with_reducible exact TOk.empty | with_reducible exact MOk.nil | with_reducible apply XOk.ite
    | with_reducible apply XOk.foldl | with_reducible apply XOk.mem
    | with_reducible apply XOk.check | with_reducible apply XOk.buf
    | with_reducible apply Kept.slice | simp only [XOk.upd] | with_reducible exact XOk.empty
    | refine fst_of (by assumption) ?_ | refine snd_of (by assumption) ?_ | simp only [Kept.upd]
    | split

theorem pollLaunches_kept {s0 : State} (s : State) (hk : Kept s0 s) :
    Kept s0 (pollLaunches s) := by
  unfold pollLaunches
  with_reducible
    repeat'
      first
      | intro _ | assumption | apply startLaunch_kept | apply Kept.foldl

theorem haltTile_kept {s0 : State} (s : State) (n : Nat) (hk : Kept s0 s) :
    Kept s0 (haltTile s n) := by
  unfold haltTile
  with_reducible
    repeat'
      first
      | assumption | apply stopTile_kept | apply Kept.ite

theorem stopLaunches_kept {s0 : State} (s : State) (d : Nat) (hk : Kept s0 s) :
    Kept s0 (stopLaunches s d) := by
  unfold stopLaunches
  with_reducible
    repeat'
      first
      | intro _ | assumption | apply haltTile_kept | apply Kept.foldl | split

theorem stopDistrict_kept {s0 : State} (s : State) (d : Nat) (hk : Kept s0 s) :
    Kept s0 (stopDistrict s d) := by
  unfold stopDistrict; dsimp only
  with_reducible
    repeat'
      first
      | assumption | apply stopLaunches_kept | apply setProc_kept | apply abortColls_kept
      | apply wr_kept

theorem clearProc_kept {s0 : State} (s : State) (d : Nat) (hk : Kept s0 s) :
    Kept s0 (clearProc s d) := by
  unfold clearProc; dsimp only
  with_reducible
    repeat'
      first
      | intro _ | assumption | apply deliver_kept | apply setProc_kept | apply wr_kept
      | apply Kept.foldl | simp only [Kept.upd]

theorem resetProc_kept {s0 : State} (s : State) (d : Nat) (hk : Kept s0 s) :
    Kept s0 (resetProc s d) := by
  unfold resetProc
  with_reducible
    repeat'
      first
      | assumption | apply clearProc_kept | apply stopDistrict_kept

theorem unwriteSlice_kept {s0 : State} (s : State) (n : Nat) (hk : Kept s0 s) :
    Kept s0 (unwriteSlice s n) := by
  unfold unwriteSlice; dsimp only
  with_reducible
    repeat'
      first
      | assumption | apply Kept.setSlice | apply unwriteBuffers_kept | apply XOk.mem
      | apply XOk.check | apply XOk.buf | apply Kept.slice | simp only [XOk.upd]
      | refine And.intro ?_ ?_

theorem scrubTile_kept {s0 : State} (s : State) (n : Nat) (hk : Kept s0 s) :
    Kept s0 (scrubTile s n) := by
  unfold scrubTile; dsimp only
  with_reducible
    repeat'
      first
      | assumption | apply unwriteSlice_kept | apply Kept.setTile | simp only [TOk.upd]
      | refine And.intro ?_ ?_ | exact MOk.nil

theorem loseLaunches_kept {s0 : State} (s : State) (n : Nat) (p : List Nat → Bool) (hk : Kept s0 s)
    :
    Kept s0 (loseLaunches s n p) := by
  unfold loseLaunches
  repeat'
    first
    | intro _ | with_reducible assumption | with_reducible apply collEndAll_kept
    | with_reducible apply dropPosts_kept | with_reducible apply endLaunch_kept
    | with_reducible apply Kept.ite | with_reducible apply Kept.foldl
    | with_reducible apply Kept.foldl1 | with_reducible apply TOk.ite
    | with_reducible apply TOk.foldl | with_reducible apply MOk.store
    | with_reducible apply MOk.write | with_reducible apply MOk.foldl
    | with_reducible apply MOk.ite | with_reducible apply TOk.data | with_reducible apply TOk.code
    | with_reducible apply Kept.tile | simp only [TOk.upd] | refine And.intro ?_ ?_
    | with_reducible exact TOk.empty | with_reducible exact MOk.nil
    | refine fst_of (by assumption) ?_ | refine snd_of (by assumption) ?_ | simp only [Kept.upd]
    | split

theorem voidRespare_kept {s0 : State} (s : State) (n : Nat) (hk : Kept s0 s) :
    Kept s0 (voidRespare s n) := by
  unfold voidRespare
  with_reducible
    repeat'
      first
      | intro _ | assumption | apply finishJob_kept | apply Kept.ite | apply Kept.foldl | split

theorem Slice_forget_kept {s0 : State} (x : Slice) (who : Nat) (h_x : XOk s0 x) :
    XOk s0 (Slice.forget x who) := by
  unfold Slice.forget
  with_reducible
    repeat'
      first
      | assumption | apply XOk.mem | apply XOk.check | apply XOk.buf | simp only [XOk.upd]
      | refine And.intro ?_ ?_

theorem failWaiter_kept {s0 : State} (s : State) (w : Nat × Nat) (hk : Kept s0 s) :
    Kept s0 (failWaiter s w) := by
  unfold failWaiter; dsimp only
  with_reducible
    repeat'
      first
      | assumption | apply haltHead_kept | apply moverRefused_kept | apply setJob_kept
      | apply refuse_kept | apply windowRefused_kept | apply Kept.ite | split

theorem fenceFirst_kept {s0 : State} (s : State) (n : Nat) (hk : Kept s0 s) :
    Kept s0 (fenceFirst s n) := by
  unfold fenceFirst; dsimp only
  with_reducible
    repeat'
      first
      | intro _ | assumption | apply lastErr_kept | apply wr_kept | apply raise_kept
      | apply bump_kept | apply engineFence_kept | apply Kept.setSlice | apply failWaiter_kept
      | apply collEndAll_kept | apply quietTile_kept | apply loseLaunches_kept
      | apply voidRespare_kept | apply Kept.ite | apply Kept.foldl | refine And.intro ?_ ?_
      | apply XOk.mem | apply XOk.check | apply XOk.buf | apply Kept.slice | simp only [XOk.upd]
      | simp only [Kept.upd]

theorem loseSlice_kept {s0 : State} (s : State) (n : Nat) (hk : Kept s0 s) :
    Kept s0 (loseSlice s n) := by
  unfold loseSlice; dsimp only
  with_reducible
    repeat'
      first
      | assumption | apply unwriteSlice_kept | apply Kept.setSlice | apply XOk.check
      | apply XOk.buf | apply Kept.slice | simp only [XOk.upd] | refine And.intro ?_ ?_
      | exact MOk.nil

theorem loseRequest_kept {s0 : State} (s : State) (n : Nat) (m : Nat) (w : Nat × Nat) (hk : Kept s0
    s) :
    Kept s0 (loseRequest s n m w) := by
  unfold loseRequest; dsimp only
  with_reducible
    repeat'
      first
      | assumption | apply freeBool_kept | apply failWaiter_kept | apply Kept.setSlice
      | apply Slice_forget_kept | apply Kept.ite | apply Kept.slice

theorem loseLines_kept {s0 : State} (s : State) (n : Nat) (m : Nat) (q : Nat) (hk : Kept s0 s) :
    Kept s0 (loseLines s n m q) := by
  unfold loseLines; dsimp only
  with_reducible
    repeat'
      first
      | assumption | apply freeNat_kept | apply Kept.setTile | apply Tile_setInQ_kept
      | apply Kept.ite | apply Kept.tile

theorem loseSent_kept {s0 : State} (s : State) (n : Nat) (k : Nat) (o : Nat) (hk : Kept s0 s) :
    Kept s0 (loseSent s n k o) := by
  unfold loseSent; dsimp only
  repeat'
    first
    | intro _ | with_reducible assumption | with_reducible apply freeNat_kept
    | with_reducible apply useCredits_kept | with_reducible apply takeLines_kept
    | with_reducible apply Kept.ite | with_reducible apply Kept.foldl
    | with_reducible apply Kept.foldl1 | with_reducible apply TOk.ite
    | with_reducible apply TOk.foldl | with_reducible apply MOk.store
    | with_reducible apply MOk.write | with_reducible apply MOk.foldl
    | with_reducible apply MOk.ite | with_reducible apply TOk.data | with_reducible apply TOk.code
    | with_reducible apply Kept.tile | simp only [TOk.upd] | refine And.intro ?_ ?_
    | with_reducible exact TOk.empty | with_reducible exact MOk.nil
    | refine fst_of (by assumption) ?_ | refine snd_of (by assumption) ?_ | simp only [Kept.upd]
    | split

theorem loseThrough_kept {s0 : State} (s : State) (n : Nat) (hk : Kept s0 s) :
    Kept s0 (loseThrough s n) := by
  unfold loseThrough; dsimp only
  repeat'
    first
    | intro _ | with_reducible assumption | with_reducible apply loseRequest_kept
    | with_reducible apply loseLines_kept | with_reducible apply loseSent_kept
    | with_reducible apply Kept.ite | with_reducible apply Kept.foldl

theorem loseRouter_kept {s0 : State} (s : State) (n : Nat) (hk : Kept s0 s) :
    Kept s0 (loseRouter s n) := by
  unfold loseRouter; dsimp only
  with_reducible
    repeat'
      first
      | assumption | apply wr_kept | apply loseThrough_kept | apply loseLaunches_kept
      | simp only [Kept.upd]

theorem fenceTile_kept {s0 : State} (s : State) (n : Nat) (router : Bool) (lost : Bool) (hk : Kept
    s0 s) :
    Kept s0 (fenceTile s n router lost) := by
  unfold fenceTile; dsimp only
  with_reducible
    repeat'
      first
      | assumption | apply fenceFirst_kept | apply loseSlice_kept | apply loseRouter_kept
      | apply collPumpAll_kept | apply pollHost_kept | apply Kept.ite

theorem dieLostEnd_kept {s0 : State} (s : State) (d : Nat) (die : Nat) (j : Job) (hk : Kept s0 s) :
    Kept s0 (dieLostEnd s d die j) := by
  unfold dieLostEnd; dsimp only
  with_reducible
    repeat'
      first
      | assumption | apply setJob_kept | apply failJob_kept | split

theorem distLosesDie_kept {s0 : State} (s : State) (die : Nat) (d : Nat) (hk : Kept s0 s) :
    Kept s0 (distLosesDie s die d) := by
  unfold distLosesDie; dsimp only
  with_reducible
    repeat'
      first
      | intro _ | assumption | apply stopLaunches_kept | apply raise_kept | apply dieLostEnd_kept
      | apply collEndAll_kept | apply postNotice_kept | apply abortColls_kept | apply Kept.ite
      | apply Kept.foldl

theorem loseDie_kept {s0 : State} (s : State) (die : Nat) (hk : Kept s0 s) :
    Kept s0 (loseDie s die) where
  regs := hk.regs
  mem hm := by
    have hx := hk.mem hm
    simp only [memOk, Bool.and_eq_true, List.all_eq_true, loseDie] at hx ⊢
    exact ⟨fun y hy => hx.1 y (List.mem_filter.1 hy).1, fun y hy => hx.2 y (List.mem_filter.1 hy).1⟩
  fuses := hk.fuses
  pend := hk.pend
  sent := hk.sent

theorem setDigest_kept {s0 : State} (s : State) (hk : Kept s0 s) :
    Kept s0 (setDigest s) := by
  unfold setDigest; dsimp only
  with_reducible
    repeat'
      first
      | intro _ | assumption | apply wr_kept | apply Kept.foldl | simp only [Kept.upd]

theorem compareDigest_kept {s0 : State} (s : State) (hk : Kept s0 s) :
    Kept s0 (compareDigest s) := by
  unfold compareDigest
  with_reducible
    repeat'
      first
      | assumption | apply raise_kept | apply wr_kept | apply Kept.ite | split

theorem loseMap_kept {s0 : State} (s : State) (die : Nat) (hk : Kept s0 s) :
    Kept s0 (loseMap s die) := by
  unfold loseMap; dsimp only
  repeat'
    first
    | intro _ | with_reducible assumption | with_reducible apply compareDigest_kept
    | with_reducible apply setDigest_kept | with_reducible apply Kept.ite
    | with_reducible apply Kept.foldl | with_reducible apply Kept.foldl1 | simp only [Kept.upd]

theorem fenceDie_kept {s0 : State} (s : State) (die : Nat) (cause : Nat) (hk : Kept s0 s) :
    Kept s0 (fenceDie s die cause) := by
  unfold fenceDie; dsimp only
  with_reducible
    repeat'
      first
      | intro _ | assumption | apply wr_kept | apply loseMap_kept | apply raise_kept
      | apply distLosesDie_kept | apply failWaiter_kept | apply deliver_kept | apply loseDie_kept
      | apply collPumpAll_kept | apply pollHost_kept | apply Kept.ite | apply Kept.foldl

theorem engineDark_kept {s0 : State} (s : State) (e : Nat) (hk : Kept s0 s) :
    Kept s0 (engineDark s e) := by
  unfold engineDark; dsimp only
  with_reducible
    repeat'
      first
      | intro _ | assumption | apply linksDown_kept | apply wr_kept | apply Kept.foldl

theorem lasersOff_kept {s0 : State} (s : State) (e : Nat) (hk : Kept s0 s) :
    Kept s0 (lasersOff s e) := by
  unfold lasersOff
  with_reducible
    repeat'
      first
      | assumption | apply wr_kept

theorem fenceOe_kept {s0 : State} (s : State) (e : Nat) (cause : Nat) (hk : Kept s0 s) :
    Kept s0 (fenceOe s e cause) := by
  unfold fenceOe; dsimp only
  with_reducible
    repeat'
      first
      | assumption | apply wr_kept | apply raise_kept | apply lasersOff_kept
      | apply engineDark_kept | apply Kept.ite

theorem loadTile_kept {s0 : State} (s : State) (ts : List Nat) (b : List Byte) (minor : Nat) (j :
    Nat) (hk : Kept s0 s) :
    Kept s0 (loadTile s ts b minor j) := by
  unfold loadTile; dsimp only
  with_reducible
    repeat'
      first
      | assumption | apply Kept.setTile | apply Tile_storeCode_kept | apply Tile_storeData_kept
      | apply TOk.data | apply TOk.code | apply Kept.tile | simp only [TOk.upd]
      | refine And.intro ?_ ?_

theorem loadEnd_kept {s0 : State} (s : State) (d : Nat) (j : Job) (data : List Byte) (hk : Kept s0
    s) :
    Kept s0 (loadEnd s d j data) := by
  unfold loadEnd; dsimp only
  with_reducible
    repeat'
      first
      | intro _ | assumption | apply Kept.putImage | apply bytesIn_kept | apply finishJob_kept
      | apply hostRefused_kept | apply failJob_kept | apply plazaCross_kept | apply emptySlots_kept
      | apply loadTile_kept | apply Kept.ite | apply Kept.foldl | split

theorem keysFrom_foldl_put {α : Type} {lo : Nat} (l : SMap α) (g : Nat → Nat) {m : SMap α}
    (h : keysFrom lo m = true) (hg : ∀ k, lo ≤ g k) :
    keysFrom lo (l.foldl (fun r kv => SMap.put r (g kv.1) kv.2) m) = true := by
  induction l generalizing m with
  | nil => exact h
  | cons kv l ih => exact ih (keysFrom_put h (hg _))

theorem moveRow_kept {s0 : State} (s : State) (die row n : Nat) (from' : Nat → Option Nat)
    (hk : Kept s0 s) : Kept s0 (moveRow s die row n from') := by
  unfold moveRow; dsimp only
  refine Kept.foldl _ (Kept.foldl _ ?_ ?_) ?_
  · exact ⟨fun hr => by
        have h := hk.regs hr
        simp only [regsOk, Bool.and_eq_true] at h ⊢
        exact ⟨keysFrom_filter h.1, h.2⟩,
      fun hm => by
        have hx := hk.mem hm
        simp only [memOk, Bool.and_eq_true, List.all_eq_true] at hx ⊢
        exact ⟨fun y hy => hx.1 y (List.mem_filter.1 hy).1, fun y hy => hx.2 y (List.mem_filter.1 hy).1⟩,
      hk.fuses, hk.pend, hk.sent⟩
  · intro y l hy
    split
    · exact hy
    · rename_i m _
      have h1 := hy.regsTo (y := { y with regs := (s.regs.filter (fun kv =>
          decide (groupBit (rowTile die row 0 + m) ≤ kv.1) &&
            decide (kv.1 < groupBit (rowTile die row 0 + m) + groupLen))).foldl (fun r kv =>
          SMap.put r (kv.1 - groupBit (rowTile die row 0 + m) + groupBit (rowTile die row 0 + l)) kv.2) y.regs })
        (fun h => keysFrom_foldl_put _ (fun k => k - groupBit (rowTile die row 0 + m)
          + groupBit (rowTile die row 0 + l)) h (fun _ => Nat.zero_le _)) rfl rfl rfl rfl rfl rfl
      have ht : ∀ n t, SMap.find s.tiles n = some t → TOk s0 t := fun n t e => ⟨fun hm => by
        have hx := hk.mem hm
        simp only [memOk, Bool.and_eq_true, List.all_eq_true] at hx
        exact hx.1 _ (mem_of_find e)⟩
      have hx : ∀ n t, SMap.find s.slices n = some t → XOk s0 t := fun n t e => ⟨fun hm => by
        have hx := hk.mem hm
        simp only [memOk, Bool.and_eq_true, List.all_eq_true] at hx
        exact hx.2 _ (mem_of_find e)⟩
      split
      · rename_i e
        refine Kept.setSlice ?_ _ (hx _ _ e)
        split
        · rename_i e; exact h1.setTile _ (ht _ _ e)
        · exact h1
      · split
        · rename_i e; exact h1.setTile _ (ht _ _ e)
        · exact h1
  · intro y l hy
    exact hy.foldl _ (fun z p h => wr_kept h p HDR_LOCK _ 0)

theorem respareRow_kept {s0 : State} (s : State) (die : Nat) (row : Nat) (bad : List Nat) (hk : Kept
    s0 s) :
    Kept s0 (respareRow s die row bad) := by
  unfold respareRow; dsimp only
  with_reducible
    repeat'
      first
      | intro _ | assumption | apply wr_kept | apply moveRow_kept | apply unwriteSlice_kept
      | apply emptyNaming_kept | apply setDigest_kept | apply deliver_kept | apply raise_kept
      | apply Kept.ite | apply Kept.foldl

theorem respareEnd_kept {s0 : State} (s : State) (d : Nat) (j : Job) (fails : Nat) (hk : Kept s0 s)
    :
    Kept s0 (respareEnd s d j fails) := by
  unfold respareEnd
  with_reducible
    repeat'
      first
      | assumption | apply finishJob_kept | apply respareRow_kept | split

theorem freshChallenge_kept {s0 : State} (s : State) (hk : Kept s0 s) :
    Kept s0 (freshChallenge s) := by
  unfold freshChallenge; dsimp only
  with_reducible
    repeat'
      first
      | intro _ | assumption | apply freeWord_kept | apply wr_kept | apply Kept.foldl

theorem plazaReset_kept {s0 : State} (s : State) (hk : Kept s0 s) : Kept s0 (plazaReset s) where
  regs hr := by
    have h := hk.regs hr
    simp only [regsOk, Bool.and_eq_true] at h ⊢
    exact ⟨keysFrom_filter h.1, rfl⟩
  mem _ := rfl
  fuses := hk.fuses
  pend := hk.pend
  sent := hk.sent

theorem haltDawn_kept {s0 : State} (s : State) (code : Nat) (hk : Kept s0 s) :
    Kept s0 (haltDawn s code) := by
  unfold haltDawn
  with_reducible
    repeat'
      first
      | assumption | apply raise_kept | apply lastErr_kept | apply wr_kept

theorem stageTime_kept {s0 : State} (s : State) (k : Nat) (hk : Kept s0 s) :
    Kept s0 (stageTime s k) := by
  unfold stageTime; dsimp only
  with_reducible
    repeat'
      first
      | assumption | apply freeNat_kept | apply wr_kept

theorem nextStage_kept {s0 : State} (s : State) (k : Nat) (hk : Kept s0 s) :
    Kept s0 (nextStage s k) := by
  unfold nextStage; dsimp only
  with_reducible
    repeat'
      first
      | assumption | apply wr_kept | apply stageTime_kept | simp only [Kept.upd]

theorem dawnAdvance_kept {s0 : State} (s : State) (hk : Kept s0 s) :
    Kept s0 (dawnAdvance s) := by
  unfold dawnAdvance; dsimp only
  with_reducible
    repeat'
      first
      | assumption | apply haltDawn_kept | apply nextStage_kept | apply Kept.ite
      | simp only [Kept.upd]

theorem stageOne_kept {s0 : State} (s : State) (hk : Kept s0 s) :
    Kept s0 (stageOne s) := by
  unfold stageOne; dsimp only
  with_reducible
    repeat'
      first
      | intro _ | assumption | apply wr_kept | apply stageTime_kept | apply lastErr_kept
      | apply bump_kept | apply haltDawn_kept | apply freshChallenge_kept | apply nextStage_kept
      | apply Kept.ite | apply Kept.foldl | simp only [Kept.upd]

theorem leaveReset_kept {s0 : State} (s : State) (hk : Kept s0 s) :
    Kept s0 (leaveReset s) := by
  unfold leaveReset
  with_reducible
    repeat'
      first
      | assumption | apply stageOne_kept | apply Kept.ite

theorem dawnDma_kept {s0 : State} (s : State) (a : Nat) (which : Nat) (hk : Kept s0 s) :
    Kept s0 (dawnDma s a which) := by
  unfold dawnDma; dsimp only
  with_reducible
    repeat'
      first
      | assumption | apply hostRefused_kept | apply wr_kept

theorem takeRecord_kept {s0 : State} (s : State) (got : List Byte) (hk : Kept s0 s) :
    Kept s0 (takeRecord s got) := by
  unfold takeRecord; dsimp only
  with_reducible
    repeat'
      first
      | assumption | apply dawnDma_kept | apply raise_kept | apply lastErr_kept | apply wr_kept
      | apply Kept.ite | simp only [Kept.upd]

theorem trained_kept {s0 : State} (s : State) (k : Nat) (inst : Nat) (ok : Bool) (hk : Kept s0 s) :
    Kept s0 (trained s k inst ok) := by
  unfold trained
  with_reducible
    repeat'
      first
      | assumption | apply bump_kept | apply Kept.ite

theorem logBist_kept {s0 : State} (s : State) (die : Nat) (row : Nat) (col : Nat) (kind : Nat)
    (repaired : Bool) (loc : Nat) (count : Nat) (us : Nat) (hk : Kept s0 s) :
    Kept s0 (logBist s die row col kind repaired loc count us) := by
  unfold logBist; dsimp only
  with_reducible
    repeat'
      first
      | assumption | apply raise_kept | apply lastErr_kept | apply bump_kept | apply wr_kept
      | apply Kept.ite | simp only [Kept.upd]

theorem bistBad_kept {s0 : State} (s : State) (die : Nat) (row : Nat) (col : Nat) (hk : Kept s0 s) :
    Kept s0 (bistBad s die row col) := by
  unfold bistBad; dsimp only
  with_reducible
    repeat'
      first
      | assumption | apply wr_kept

theorem beyondRepair_kept {s0 : State} (s : State) (die : Nat) (row : Nat) (col : Nat) (hk : Kept s0
    s) :
    Kept s0 (beyondRepair s die row col) := by
  unfold beyondRepair
  with_reducible
    repeat'
      first
      | assumption | apply raise_kept | apply lastErr_kept | apply bistBad_kept

theorem useSpare_kept {s0 s t : State} {kind die e : Nat} (hk : Kept s0 s)
    (h : useSpare s kind die e = some t) : Kept s0 t := by
  unfold useSpare at h; dsimp only at h
  rw [Option.ite_none_left_eq_some, Option.some.injEq] at h
  · rw [← h.2]
    refine bump_kept _ _ _ _ _ (bump_kept _ _ _ _ _ ?_)
    exact hk.of_eq rfl rfl rfl rfl rfl rfl rfl

theorem recordRepairs_kept {s0 : State} (s : State) (kind : Nat) (die : Nat) (hk : Kept s0 s) :
    Kept s0 (recordRepairs s kind die) := by
  unfold recordRepairs
  with_reducible
    repeat'
      first
      | intro _ | assumption | apply beyondRepair_kept | apply Kept.foldl
      | refine useSpare_kept ?_ (by assumption) | split

theorem beginEmit_kept {s0 : State} (s : State) (trained : List (Nat × Nat × List Byte)) (hk : Kept
    s0 s) :
    Kept s0 (beginEmit s trained) := by
  unfold beginEmit; dsimp only
  with_reducible
    repeat'
      first
      | assumption | apply Kept.ite | simp only [Kept.upd]

theorem emitFailed_kept {s0 : State} (s : State) (hk : Kept s0 s) :
    Kept s0 (emitFailed s) := by
  unfold emitFailed
  with_reducible
    repeat'
      first
      | assumption | apply raise_kept | apply lastErr_kept

theorem endEmit_kept {s0 : State} (s : State) (takes : Nat) (hk : Kept s0 s) :
    Kept s0 (endEmit s takes) := by
  unfold endEmit; dsimp only
  with_reducible
    repeat'
      first
      | assumption | apply emit_kept | apply emitFailed_kept | apply wr_kept | apply bytesOut_kept
      | apply dawnDma_kept | apply raise_kept | apply Kept.ite | simp only [Kept.upd] | split

end Sys2Proof.Laws
end

