-- ==== Sys2Proof/Laws/KeptCommands.lean ====
section
/-!
SUPPORT. Laws/KeptCommands.lean: what `Kept` says, of the commands of the host interface, power,
Dawn, security, optics, links and collectives. Each lemma says that an operation keeps it, whatever
its arguments are.
-/
set_option linter.unusedVariables false
open Sys2Proof Sys2Proof.Machine Sys2Proof.Safety
namespace Sys2Proof.Laws

theorem fenceGroup_kept {s0 : State} (s : State) (g : Nat) (cause : Nat) (hk : Kept s0 s) :
    Kept s0 (fenceGroup s g cause) := by
  unfold fenceGroup; dsimp only
  with_reducible
    repeat'
      first
      | assumption | apply wr_kept | apply dawnAdvance_kept | apply fenceDie_kept
      | apply fenceOe_kept | apply Kept.ite

theorem checkUsable_kept {s0 : State} (s : State) (g : Nat) (hk : Kept s0 s) :
    Kept s0 (checkUsable s g) := by
  unfold checkUsable; dsimp only
  with_reducible
    repeat'
      first
      | assumption | apply raise_kept | apply lastErr_kept | apply wr_kept | apply fenceGroup_kept
      | apply Kept.ite

theorem flowsGoOn_kept {s0 : State} (s : State) (hk : Kept s0 s) :
    Kept s0 (flowsGoOn s) := by
  unfold flowsGoOn
  repeat'
    first
    | intro _ | with_reducible assumption | with_reducible apply collPumpAll_kept
    | with_reducible apply postsGoOn_kept | with_reducible apply pollLaunches_kept
    | with_reducible apply pollHost_kept

theorem disableModule_kept {s0 : State} (s : State) (g : Nat) (m : Nat) (hk : Kept s0 s) :
    Kept s0 (disableModule s g m) := by
  unfold disableModule; dsimp only
  with_reducible
    repeat'
      first
      | assumption | apply rehash_kept | apply wr_kept | apply flowsGoOn_kept
      | apply checkUsable_kept | apply raise_kept | apply lastErr_kept

theorem d2dReplay_kept {s0 : State} (s : State) (g : Nat) (m : Nat) (hk : Kept s0 s) :
    Kept s0 (d2dReplay s g m) := by
  unfold d2dReplay
  with_reducible
    repeat'
      first
      | assumption | apply bump_kept

theorem d2dUnseen_kept {s0 : State} (s : State) (g : Nat) (m : Nat) (flips : List (Nat × Nat)) (hk :
    Kept s0 s) :
    Kept s0 (d2dUnseen s g m flips) := by
  unfold d2dUnseen; dsimp only
  repeat'
    first
    | intro _ | with_reducible assumption | with_reducible apply Kept.ite
    | with_reducible apply Kept.foldl | with_reducible apply Kept.foldl1 | simp only [Kept.upd]

theorem execD2dFlitCrcError_kept {s0 : State} (g : GroupId) (m : Fin 24) (flips : List (Nat × Nat))
    (s : State) (hk : Kept s0 s) :
    KeptO s0 (execD2dFlitCrcError g m flips s) := by
  unfold execD2dFlitCrcError
  repeat'
    first
    | intro _ | with_reducible assumption | with_reducible apply d2dReplay_kept
    | with_reducible apply d2dUnseen_kept | with_reducible apply KeptO.ite
    | with_reducible apply KeptO.next | with_reducible apply Kept.ite

theorem laneFail_kept {s0 : State} (s : State) (g : Nat) (m : Nat) (dir : Nat) (lane : Nat)
    (halfFree : Bool) (hk : Kept s0 s) :
    Kept s0 (laneFail s g m dir lane halfFree) := by
  unfold laneFail; dsimp only
  with_reducible
    repeat'
      first
      | assumption | apply lastErr_kept | apply wr_kept | apply disableModule_kept
      | apply raise_kept | apply bump_kept | apply Kept.ite | simp only [Kept.upd]

theorem execD2dLaneFail_kept {s0 : State} (g : GroupId) (m : Fin 24) (dir : Bool) (lane : Fin 68)
    (halfFree : Bool) (s : State) (hk : Kept s0 s) :
    KeptO s0 (execD2dLaneFail g m dir lane halfFree s) := by
  unfold execD2dLaneFail
  with_reducible
    repeat'
      first
      | assumption | apply laneFail_kept | apply KeptO.next | apply Kept.ite

theorem execD2dModuleRetrained_kept {s0 : State} (g : GroupId) (m : Fin 24) (ok : Bool) (s : State)
    (hk : Kept s0 s) :
    KeptO s0 (execD2dModuleRetrained g m ok s) := by
  unfold execD2dModuleRetrained
  with_reducible
    repeat'
      first
      | assumption | apply flowsGoOn_kept | apply wr_kept | apply disableModule_kept
      | apply KeptO.next | apply Kept.ite

theorem farSideLost_kept {s0 : State} (s : State) (g : Nat) (code : Nat) (cause : Nat) (hk : Kept s0
    s) :
    Kept s0 (farSideLost s g code cause) := by
  unfold farSideLost; dsimp only
  with_reducible
    repeat'
      first
      | assumption | apply fenceGroup_kept | apply raise_kept | apply lastErr_kept

theorem dieLost_kept {s0 : State} (s : State) (d : Nat) (code : Nat) (cause : Nat) (hk : Kept s0 s)
    :
    Kept s0 (dieLost s d code cause) := by
  unfold dieLost
  with_reducible
    repeat'
      first
      | assumption | apply farSideLost_kept | apply Kept.ite

theorem execDieHeartbeatLost_kept {s0 : State} (d : DieId) (s : State) (hk : Kept s0 s) :
    KeptO s0 (execDieHeartbeatLost d s) := by
  unfold execDieHeartbeatLost
  with_reducible
    repeat'
      first
      | assumption | apply dieLost_kept | apply wr_kept | apply KeptO.next | apply Kept.ite

theorem execDieResetSignalled_kept {s0 : State} (d : DieId) (s : State) (hk : Kept s0 s) :
    KeptO s0 (execDieResetSignalled d s) := by
  unfold execDieResetSignalled
  with_reducible
    repeat'
      first
      | assumption | apply dieLost_kept | apply KeptO.next

theorem execDieClockLoss_kept {s0 : State} (d : DieId) (s : State) (hk : Kept s0 s) :
    KeptO s0 (execDieClockLoss d s) := by
  unfold execDieClockLoss
  with_reducible
    repeat'
      first
      | assumption | apply dieLost_kept | apply KeptO.next

theorem execOeHeartbeatLost_kept {s0 : State} (e : OeId) (why : Fin 3) (s : State) (hk : Kept s0 s)
    :
    KeptO s0 (execOeHeartbeatLost e why s) := by
  unfold execOeHeartbeatLost; dsimp only
  with_reducible
    repeat'
      first
      | assumption | apply wr_kept | apply farSideLost_kept | apply KeptO.next | apply Kept.ite

theorem addJob_kept {s0 : State} (s : State) (d : Nat) (op : Nat) (h : CmdHdr) (w : Work) (hk : Kept
    s0 s) :
    Kept s0 (addJob s d op h w) := by
  unfold addJob; dsimp only
  with_reducible
    repeat'
      first
      | assumption | apply setProc_kept

theorem clearCounts_kept {s0 : State} (s : State) (d : Nat) (im : Image) (hk : Kept s0 s) :
    Kept s0 (clearCounts s d im) := by
  unfold clearCounts
  with_reducible
    repeat'
      first
      | assumption | simp only [Kept.upd]

theorem launchStart_kept {s0 : State} (s : State) (d : Nat) (h : CmdHdr) (slot : Nat) (args : List
    Nat) (hk : Kept s0 s) :
    Kept s0 (launchStart s d h slot args) := by
  unfold launchStart; dsimp only
  repeat'
    first
    | intro _ | with_reducible assumption | with_reducible apply complete_kept
    | with_reducible apply refuseAt_kept | with_reducible apply dropPosts_kept
    | with_reducible apply clearCounts_kept | with_reducible apply pollHost_kept
    | with_reducible apply engineRelaunch_kept | with_reducible apply pollLaunches_kept
    | with_reducible apply addJob_kept | with_reducible apply Kept.ite
    | with_reducible apply Kept.foldl | with_reducible apply Kept.foldl1
    | with_reducible apply TOk.ite | with_reducible apply TOk.foldl
    | with_reducible apply MOk.store | with_reducible apply MOk.write
    | with_reducible apply MOk.foldl | with_reducible apply MOk.ite | with_reducible apply TOk.data
    | with_reducible apply TOk.code | with_reducible apply Kept.tile | simp only [TOk.upd]
    | refine And.intro ?_ ?_ | with_reducible exact TOk.empty | with_reducible exact MOk.nil
    | refine fst_of (by assumption) ?_ | refine snd_of (by assumption) ?_ | simp only [Kept.upd]
    | split

theorem namedRefused_kept {s0 : State} (s : State) (d : Nat) (op : Nat) (h : CmdHdr) (n : Nat) (e :
    Nat) (hk : Kept s0 s) :
    Kept s0 (namedRefused s d op h n e) := by
  unfold namedRefused
  with_reducible
    repeat'
      first
      | assumption | apply complete_kept | apply refuse_kept

theorem signalStart_kept {s0 : State} (s : State) (d : Nat) (h : CmdHdr) (n : Nat) (c : Nat) (hk :
    Kept s0 s) :
    Kept s0 (signalStart s d h n c) := by
  unfold signalStart; dsimp only
  repeat'
    first
    | intro _ | with_reducible assumption | with_reducible apply namedRefused_kept
    | with_reducible apply plazaNat_kept | with_reducible apply complete_kept
    | with_reducible apply Kept.setTile | with_reducible apply Tile_addEv_kept
    | with_reducible apply Kept.ite | with_reducible apply Kept.foldl
    | with_reducible apply Kept.foldl1 | with_reducible apply TOk.ite
    | with_reducible apply TOk.foldl | with_reducible apply MOk.store
    | with_reducible apply MOk.write | with_reducible apply MOk.foldl
    | with_reducible apply MOk.ite | with_reducible apply TOk.data | with_reducible apply TOk.code
    | with_reducible apply Kept.tile

theorem fenceStart_kept {s0 : State} (s : State) (d : Nat) (h : CmdHdr) (n : Nat) (hk : Kept s0 s) :
    Kept s0 (fenceStart s d h n) := by
  unfold fenceStart; dsimp only
  with_reducible
    repeat'
      first
      | assumption | apply namedRefused_kept | apply complete_kept | apply fenceTile_kept
      | apply Kept.ite

theorem hintStart_kept {s0 : State} (s : State) (d : Nat) (h : CmdHdr) (cls : Nat) (lead : Nat)
    (dies : Nat) (hk : Kept s0 s) :
    Kept s0 (hintStart s d h cls lead dies) := by
  unfold hintStart; dsimp only
  repeat'
    first
    | intro _ | with_reducible assumption | with_reducible apply complete_kept
    | with_reducible apply refuseAt_kept | with_reducible apply postHint_kept
    | with_reducible apply Kept.ite | with_reducible apply Kept.foldl
    | with_reducible apply Kept.foldl1 | with_reducible apply TOk.ite
    | with_reducible apply TOk.foldl | with_reducible apply MOk.store
    | with_reducible apply MOk.write | with_reducible apply MOk.foldl
    | with_reducible apply MOk.ite | with_reducible apply TOk.data | with_reducible apply TOk.code
    | with_reducible apply Kept.tile | simp only [TOk.upd] | refine And.intro ?_ ?_
    | with_reducible exact TOk.empty | with_reducible exact MOk.nil
    | refine fst_of (by assumption) ?_ | refine snd_of (by assumption) ?_ | simp only [Kept.upd]
    | split

theorem respareStart_kept {s0 : State} (s : State) (d : Nat) (h : CmdHdr) (die : Nat) (row : Nat)
    (hk : Kept s0 s) :
    Kept s0 (respareStart s d h die row) := by
  unfold respareStart; dsimp only
  with_reducible
    repeat'
      first
      | assumption | apply complete_kept | apply refuseAt_kept | apply addJob_kept | apply Kept.ite

theorem collectiveStart_kept {s0 : State} (s : State) (d : Nat) (h : CmdHdr) (slot : Nat) (arg :
    Nat) (desc : Option (List Byte)) (hk : Kept s0 s) :
    Kept s0 (collectiveStart s d h slot arg desc) := by
  unfold collectiveStart; dsimp only
  with_reducible
    repeat'
      first
      | assumption | apply complete_kept | apply hostRefused_kept | apply bytesIn_kept
      | apply refuseAt_kept | apply addJob_kept | simp only [Kept.upd] | split

theorem startCmd_kept {s0 : State} (s : State) (d : Nat) (h : CmdHdr) (c : Cmd) (desc : Option (List
    Byte)) (hk : Kept s0 s) :
    Kept s0 (startCmd s d h c desc) := by
  unfold startCmd
  with_reducible
    repeat'
      first
      | assumption | apply complete_kept | apply addJob_kept | apply launchStart_kept
      | apply pollWaits_kept | apply signalStart_kept | apply collectiveStart_kept
      | apply hintStart_kept | apply respareStart_kept | apply fenceStart_kept | apply Kept.ite
      | split

theorem withRefuse_kept {s0 : State} (s : State) (d : Nat) (refused : Bool) (act : State → State)
    (hk : Kept s0 s) (h_act : ∀ y, Kept s0 y → Kept s0 (act y)) :
    Kept s0 (withRefuse s d refused act) := by
  unfold withRefuse; dsimp only
  with_reducible
    repeat'
      first
      | intro _ | assumption | apply h_act | apply setProc_kept

theorem takeEntry_kept {s0 : State} (s : State) (d : Nat) (hk : Kept s0 s) :
    Kept s0 (takeEntry s d) := by
  unfold takeEntry
  with_reducible
    repeat'
      first
      | assumption | apply wr_kept

theorem startNext_kept {s0 : State} (s : State) (d : Nat) (h : CmdHdr) (c : Cmd) (desc : Option
    (List Byte)) (refused : Bool) (hk : Kept s0 s) :
    Kept s0 (startNext s d h c desc refused) := by
  unfold startNext
  repeat'
    first
    | intro _ | with_reducible assumption | with_reducible apply countStall_kept
    | with_reducible apply wr_kept | with_reducible apply withRefuse_kept
    | with_reducible apply takeEntry_kept | with_reducible apply startCmd_kept
    | with_reducible apply Kept.ite

theorem ringReadFailed_kept {s0 : State} (s : State) (d : Nat) (hk : Kept s0 s) :
    Kept s0 (ringReadFailed s d) := by
  unfold ringReadFailed; dsimp only
  with_reducible
    repeat'
      first
      | assumption | apply wr_kept | apply raise_kept | apply logErr_kept

theorem fetchNext_kept {s0 : State} (s : State) (d : Nat) (entry : Option (List Byte)) (desc :
    Option (List Byte)) (refused : Bool) (hk : Kept s0 s) :
    Kept s0 (fetchNext s d entry desc refused) := by
  unfold fetchNext; dsimp only
  with_reducible
    repeat'
      first
      | assumption | apply ringReadFailed_kept | apply hostRefused_kept | apply startNext_kept
      | apply Kept.ite | split

theorem doorbell_kept {s0 : State} (s : State) (req : Nat) (d : Nat) (v : Nat) (hk : Kept s0 s) :
    Kept s0 (doorbell s req d v) := by
  unfold doorbell; dsimp only
  with_reducible
    repeat'
      first
      | assumption | apply wake_kept | apply raise_kept | apply lastErr_kept | apply setProc_kept
      | apply Kept.ite

theorem cplHead_kept {s0 : State} (s : State) (d : Nat) (v : Nat) (hk : Kept s0 s) :
    Kept s0 (cplHead s d v) := by
  unfold cplHead; dsimp only
  with_reducible
    repeat'
      first
      | assumption | apply raise_kept | apply lastErr_kept | apply setProc_kept | apply wr_kept
      | apply postHeld_kept | apply Kept.ite

theorem abortAll_kept {s0 : State} (s : State) (d : Nat) (entries : List (List Byte)) (hk : Kept s0
    s) :
    Kept s0 (abortAll s d entries) := by
  unfold abortAll; dsimp only
  repeat'
    first
    | intro _ | with_reducible assumption | with_reducible apply stopLaunches_kept
    | with_reducible apply finishJob_kept | with_reducible apply abortColls_kept
    | with_reducible apply complete_kept | with_reducible apply wr_kept
    | with_reducible apply Kept.ite | with_reducible apply Kept.foldl

theorem fwWaiting_kept {s0 : State} (s : State) (hk : Kept s0 s) :
    Kept s0 (fwWaiting s) := by
  unfold fwWaiting
  with_reducible
    repeat'
      first
      | assumption | apply raise_kept | apply wr_kept

theorem portReset_kept {s0 : State} (s : State) (p : Nat) (hk : Kept s0 s) :
    Kept s0 (portReset s p) := by
  unfold portReset; dsimp only
  with_reducible
    repeat'
      first
      | intro _ | assumption | apply resetProc_kept | apply deliver1_kept | apply fwWaiting_kept
      | apply Kept.ite | apply Kept.foldl | simp only [Kept.upd]

theorem linkTrained_kept {s0 : State} (s : State) (p : Nat) (gen : Nat) (width : Nat) (flit : Bool)
    (hk : Kept s0 s) :
    Kept s0 (linkTrained s p gen width flit) := by
  unfold linkTrained; dsimp only
  with_reducible
    repeat'
      first
      | assumption | apply wr_kept | apply raise_kept | apply fwWaiting_kept | apply Kept.ite

theorem execHostLinkTrained_kept {s0 : State} (p : PortId) (gen : Fin 7) (width : Fin 17) (flit :
    Bool) (s : State) (hk : Kept s0 s) :
    KeptO s0 (execHostLinkTrained p gen width flit s) := by
  unfold execHostLinkTrained
  with_reducible
    repeat'
      first
      | assumption | apply linkTrained_kept | apply KeptO.ite | apply KeptO.next | apply Kept.ite
      | exact KeptO.fault

theorem hostLinkDown_kept {s0 : State} (s : State) (p : Nat) (hk : Kept s0 s) :
    Kept s0 (hostLinkDown s p) := by
  unfold hostLinkDown; dsimp only
  with_reducible
    repeat'
      first
      | assumption | apply wr_kept | apply raise_kept | apply lastErr_kept

theorem execHostLinkDown_kept {s0 : State} (p : PortId) (s : State) (hk : Kept s0 s) :
    KeptO s0 (execHostLinkDown p s) := by
  unfold execHostLinkDown
  with_reducible
    repeat'
      first
      | assumption | apply hostLinkDown_kept | apply KeptO.next | apply Kept.ite

theorem perstFalls_kept {s0 : State} (s : State) (p : Nat) (hk : Kept s0 s) :
    Kept s0 (perstFalls s p) := by
  unfold perstFalls; dsimp only
  with_reducible
    repeat'
      first
      | assumption | apply portReset_kept | apply hostLinkDown_kept | apply Kept.ite
      | simp only [Kept.upd]

theorem execHostPortReset_kept {s0 : State} (p : PortId) (k : PortReset) (s : State) (hk : Kept s0
    s) :
    KeptO s0 (execHostPortReset p k s) := by
  unfold execHostPortReset
  with_reducible
    repeat'
      first
      | assumption | apply perstFalls_kept | apply portReset_kept | apply KeptO.next
      | apply Kept.ite | simp only [Kept.upd] | split

theorem beginScrub_kept {s0 : State} (s : State) (d : Nat) (q : Nat) (hk : Kept s0 s) :
    Kept s0 (beginScrub s d q) := by
  unfold beginScrub; dsimp only
  with_reducible
    repeat'
      first
      | assumption | apply emptySlots_kept | apply wr_kept | simp only [Kept.upd]

theorem maskWrite_kept {s0 : State} (s : State) (d : Nat) (v : Nat) (hk : Kept s0 s) :
    Kept s0 (maskWrite s d v) := by
  unfold maskWrite; dsimp only
  with_reducible
    repeat'
      first
      | intro _ | assumption | apply raise_kept | apply beginScrub_kept | apply wr_kept
      | apply Kept.ite | apply Kept.foldl

theorem execQdieMaskWrite_kept {s0 : State} (req : PortId) (d : DistId) (value : Nat) (s : State)
    (hk : Kept s0 s) :
    KeptO s0 (execQdieMaskWrite req d value s) := by
  unfold execQdieMaskWrite
  repeat'
    first
    | intro _ | with_reducible assumption | with_reducible apply fieldWrite_kept
    | with_reducible apply maskWrite_kept | with_reducible apply KeptO.ite
    | with_reducible apply KeptO.next

theorem scrubDone_kept {s0 : State} (s : State) (q : Nat) (hk : Kept s0 s) :
    Kept s0 (scrubDone s q) := by
  unfold scrubDone; dsimp only
  with_reducible
    repeat'
      first
      | intro _ | assumption | apply scrubTile_kept | apply wr_kept | apply raise_kept
      | apply Kept.foldl | simp only [Kept.upd] | split

theorem execQdieScrubDone_kept {s0 : State} (q : Fin 16) (s : State) (hk : Kept s0 s) :
    KeptO s0 (execQdieScrubDone q s) := by
  unfold execQdieScrubDone
  with_reducible
    repeat'
      first
      | assumption | apply scrubDone_kept | apply KeptO.next | apply Kept.ite

theorem windowAccess_kept {s0 : State} (s : State) (d : Nat) (off : Nat) (q : HostReq) (hk : Kept s0
    s) :
    Kept s0 (windowAccess s d off q) := by
  unfold windowAccess; dsimp only
  with_reducible
    repeat'
      first
      | assumption | apply windowRefused_kept | apply serve_kept | apply Kept.ite

theorem execWindowRead_kept {s0 : State} (p : PortId) (off : Fin 2147483648) (len : Nat) (errs :
    SectorErrs) (s : State) (hk : Kept s0 s) :
    KeptO s0 (execWindowRead p off len errs s) := by
  unfold execWindowRead
  with_reducible
    repeat'
      first
      | assumption | apply windowAccess_kept | apply KeptO.ite | apply KeptO.next | apply Kept.ite
      | exact KeptO.fault

theorem execWindowWrite_kept {s0 : State} (p : PortId) (off : Fin 2147483648) (bytes : List Byte) (s
    : State) (hk : Kept s0 s) :
    KeptO s0 (execWindowWrite p off bytes s) := by
  unfold execWindowWrite
  with_reducible
    repeat'
      first
      | assumption | apply windowAccess_kept | apply KeptO.ite | apply KeptO.next | apply Kept.ite
      | exact KeptO.fault

theorem execCmdDoorbell_kept {s0 : State} (req : PortId) (d : DistId) (value : Nat) (s : State) (hk
    : Kept s0 s) :
    KeptO s0 (execCmdDoorbell req d value s) := by
  unfold execCmdDoorbell
  repeat'
    first
    | intro _ | with_reducible assumption | with_reducible apply fieldWrite_kept
    | with_reducible apply doorbell_kept | with_reducible apply KeptO.ite
    | with_reducible apply KeptO.next

theorem execCplHeadWrite_kept {s0 : State} (req : PortId) (d : DistId) (value : Nat) (refused :
    Bool) (s : State) (hk : Kept s0 s) :
    KeptO s0 (execCplHeadWrite req d value refused s) := by
  unfold execCplHeadWrite
  repeat'
    first
    | intro _ | with_reducible assumption | with_reducible apply fieldWrite_kept
    | with_reducible apply withRefuse_kept | with_reducible apply cplHead_kept
    | with_reducible apply KeptO.ite | with_reducible apply KeptO.next

theorem capWrite_kept {s0 : State} (s : State) (v : Nat) (hk : Kept s0 s) :
    Kept s0 (capWrite s v) := by
  unfold capWrite; dsimp only
  with_reducible
    repeat'
      first
      | assumption | apply wr_kept | apply raise_kept | apply lastErr_kept | apply logEvent_kept
      | apply Kept.ite | simp only [Kept.upd]

theorem execPwrCapWrite_kept {s0 : State} (req : PortId) (value : Nat) (s : State) (hk : Kept s0 s)
    :
    KeptO s0 (execPwrCapWrite req value s) := by
  unfold execPwrCapWrite
  repeat'
    first
    | intro _ | with_reducible assumption | with_reducible apply fieldWrite_kept
    | with_reducible apply capWrite_kept | with_reducible apply KeptO.ite
    | with_reducible apply KeptO.next

theorem opTargetWrite_kept {s0 : State} (s : State) (d : Nat) (v : Nat) (hk : Kept s0 s) :
    Kept s0 (opTargetWrite s d v) := by
  unfold opTargetWrite; dsimp only
  with_reducible
    repeat'
      first
      | assumption | apply wr_kept | apply raise_kept | apply lastErr_kept | apply Kept.ite

theorem execOpTargetWrite_kept {s0 : State} (req : PortId) (d : DieId) (value : Nat) (s : State) (hk
    : Kept s0 s) :
    KeptO s0 (execOpTargetWrite req d value s) := by
  unfold execOpTargetWrite
  repeat'
    first
    | intro _ | with_reducible assumption | with_reducible apply fieldWrite_kept
    | with_reducible apply opTargetWrite_kept | with_reducible apply KeptO.ite
    | with_reducible apply KeptO.next

theorem sampleRound_kept {s0 : State} (s : State) (raw : List (Nat × Int)) (hk : Kept s0 s) :
    Kept s0 (sampleRound s raw) := by
  unfold sampleRound; dsimp only
  with_reducible
    repeat'
      first
      | intro _ | assumption | apply wr_kept | apply Kept.foldl | simp only [Kept.upd]

theorem crossCheck_kept {s0 : State} (s : State) (hk : Kept s0 s) :
    Kept s0 (crossCheck s) := by
  unfold crossCheck; dsimp only
  with_reducible
    repeat'
      first
      | intro _ | assumption | apply Kept.foldl | simp only [Kept.upd]

theorem railsRound_kept {s0 : State} (s : State) (hk : Kept s0 s) :
    Kept s0 (railsRound s) := by
  unfold railsRound; dsimp only
  with_reducible
    repeat'
      first
      | assumption | apply Kept.ite | simp only [Kept.upd]

theorem railCheck_kept {s0 : State} (s : State) (hk : Kept s0 s) :
    Kept s0 (railCheck s) := by
  unfold railCheck; dsimp only
  with_reducible
    repeat'
      first
      | intro _ | assumption | apply wr_kept | apply railsRound_kept | apply Kept.ite
      | apply Kept.foldl | simp only [Kept.upd]

theorem guardEvent_kept {s0 : State} (s : State) (d : Nat) (what : Nat) (arg : Nat) (hk : Kept s0 s)
    :
    Kept s0 (guardEvent s d what arg) := by
  unfold guardEvent
  with_reducible
    repeat'
      first
      | assumption | apply logEvent_kept | apply raise_kept | apply lastErr_kept | apply Kept.ite

theorem tjRound_kept {s0 : State} (old : State) (s : State) (d : Nat) (hk : Kept s0 s) :
    Kept s0 (tjRound old s d) := by
  unfold tjRound; dsimp only
  with_reducible
    repeat'
      first
      | assumption | apply setDom_kept | apply wr_kept | apply raise_kept | apply guardEvent_kept
      | apply Kept.ite

theorem tdRound_kept {s0 : State} (old : State) (s : State) (d : Nat) (hk : Kept s0 s) :
    Kept s0 (tdRound old s d) := by
  unfold tdRound; dsimp only
  with_reducible
    repeat'
      first
      | assumption | apply setDom_kept | apply wr_kept | apply raise_kept | apply lastErr_kept
      | apply guardEvent_kept | apply Kept.ite

theorem refreshRound_kept {s0 : State} (old : State) (s : State) (q : Nat) (hk : Kept s0 s) :
    Kept s0 (refreshRound old s q) := by
  unfold refreshRound; dsimp only
  with_reducible
    repeat'
      first
      | intro _ | assumption | apply wr_kept | apply raise_kept | apply lastErr_kept
      | apply setRate_kept | apply Kept.ite | apply Kept.foldl | simp only [Kept.upd]

theorem watchRound_kept {s0 : State} (old : State) (s : State) (w : Nat) (hk : Kept s0 s) :
    Kept s0 (watchRound old s w) := by
  unfold watchRound; dsimp only
  with_reducible
    repeat'
      first
      | assumption | apply wake_kept | apply raise_kept | apply lastErr_kept | apply Kept.ite

theorem cutDies_kept {s0 : State} (s : State) (ds : List RoundDom) (share : Nat → Nat) (carry : Nat)
    (hk : Kept s0 s) :
    Kept s0 (cutDies s ds share carry).1 := by
  unfold cutDies; dsimp only
  with_reducible
    repeat'
      first
      | intro _ | assumption | apply cutDie_kept | apply Kept.foldl1

theorem cutRound_kept {s0 : State} (s : State) (mw : Nat) (ds : List RoundDom) (hk : Kept s0 s) :
    Kept s0 (cutRound s mw ds) := by
  unfold cutRound; dsimp only
  with_reducible
    repeat'
      first
      | assumption | apply cutDies_kept | apply cutGroup_kept

theorem capRound_kept {s0 : State} (s : State) (r : RoundIn) (hk : Kept s0 s) :
    Kept s0 (capRound s r) := by
  unfold capRound; dsimp only
  with_reducible
    repeat'
      first
      | intro _ | assumption | apply wr_kept | apply cutRound_kept | apply logEvent_kept
      | apply easeRound_kept | apply Kept.ite | apply Kept.foldl | simp only [Kept.upd]

theorem opRound_kept {s0 : State} (s : State) (d : Nat) (avgDuty : Nat) (hk : Kept s0 s) :
    Kept s0 (opRound s d avgDuty) := by
  unfold opRound; dsimp only
  repeat'
    first
    | intro _ | with_reducible assumption | with_reducible apply applyCeiling_kept
    | with_reducible apply setDom_kept

theorem heatRound_kept {s0 : State} (old : State) (s : State) (hk : Kept s0 s) :
    Kept s0 (heatRound old s) := by
  unfold heatRound; dsimp only
  with_reducible
    repeat'
      first
      | intro _ | assumption | apply tjRound_kept | apply tdRound_kept | apply refreshRound_kept
      | apply Kept.foldl

theorem senseRound_kept {s0 : State} (old : State) (s : State) (hk : Kept s0 s) :
    Kept s0 (senseRound old s) := by
  unfold senseRound; dsimp only
  repeat'
    first
    | intro _ | with_reducible assumption | with_reducible apply bump_kept
    | with_reducible apply heatRound_kept | with_reducible apply railCheck_kept
    | with_reducible apply crossCheck_kept | with_reducible apply wr_kept
    | with_reducible apply watchRound_kept | with_reducible apply Kept.ite
    | with_reducible apply Kept.foldl

theorem beaconRound_kept {s0 : State} (s : State) (lines : List (Fin 4 × BitVec 32)) (hk : Kept s0
    s) :
    Kept s0 (beaconRound s lines) := by
  unfold beaconRound; dsimp only
  repeat'
    first
    | intro _ | with_reducible assumption | with_reducible apply recheckLines_kept
    | with_reducible apply countSilent_kept | with_reducible apply sendBeacons_kept
    | with_reducible apply Kept.ite | with_reducible apply Kept.foldl

theorem duskRound_kept {s0 : State} (s : State) (r : RoundIn) (hk : Kept s0 s) :
    Kept s0 (duskRound s r) := by
  unfold duskRound; dsimp only
  repeat'
    first
    | intro _ | with_reducible assumption | with_reducible apply sampleRound_kept
    | with_reducible apply bump64_kept | with_reducible apply senseRound_kept
    | with_reducible apply bump_kept | with_reducible apply capRound_kept
    | with_reducible apply opRound_kept | with_reducible apply beaconRound_kept
    | with_reducible apply Kept.ite | with_reducible apply Kept.foldl
    | with_reducible apply Kept.foldl1 | with_reducible apply XOk.ite
    | with_reducible apply XOk.foldl | with_reducible apply MOk.store
    | with_reducible apply MOk.write | with_reducible apply MOk.foldl
    | with_reducible apply MOk.ite | with_reducible apply XOk.mem | with_reducible apply XOk.check
    | with_reducible apply XOk.buf | with_reducible apply Kept.slice | simp only [XOk.upd]
    | refine And.intro ?_ ?_ | with_reducible exact XOk.empty | with_reducible exact MOk.nil
    | simp only [Kept.upd]

theorem execDuskRound_kept {s0 : State} (r : RoundIn) (s : State) (hk : Kept s0 s) :
    KeptO s0 (execDuskRound r s) := by
  unfold execDuskRound
  with_reducible
    repeat'
      first
      | assumption | apply duskRound_kept | apply KeptO.ite | apply KeptO.next | exact KeptO.fault

theorem sensorEvent_kept {s0 : State} (s : State) (ch : Nat) (hk : Kept s0 s) :
    Kept s0 (sensorEvent s ch) := by
  unfold sensorEvent
  with_reducible
    repeat'
      first
      | assumption | apply wr_kept

theorem setSuspect_kept {s0 : State} (s : State) (f : Fld) (ch : Nat) (on : Bool) (hk : Kept s0 s) :
    Kept s0 (setSuspect s f ch on) := by
  unfold setSuspect; dsimp only
  with_reducible
    repeat'
      first
      | assumption | apply wr_kept

theorem execSensorSuspectLow_kept {s0 : State} (ch : Fin 528) (s : State) (hk : Kept s0 s) :
    KeptO s0 (execSensorSuspectLow ch s) := by
  unfold execSensorSuspectLow; dsimp only
  with_reducible
    repeat'
      first
      | assumption | apply setSuspect_kept | apply logEvent_kept | apply raise_kept
      | apply lastErr_kept | apply sensorEvent_kept | apply KeptO.ite | apply KeptO.next

theorem execSensorRecovered_kept {s0 : State} (ch : Fin 528) (s : State) (hk : Kept s0 s) :
    KeptO s0 (execSensorRecovered ch s) := by
  unfold execSensorRecovered; dsimp only
  with_reducible
    repeat'
      first
      | assumption | apply logEvent_kept | apply sensorEvent_kept | apply setSuspect_kept
      | apply KeptO.ite | apply KeptO.next | simp only [Kept.upd]

theorem execSensorHighSuspect_kept {s0 : State} (ch : Fin 528) (s : State) (hk : Kept s0 s) :
    KeptO s0 (execSensorHighSuspect ch s) := by
  unfold execSensorHighSuspect; dsimp only
  with_reducible
    repeat'
      first
      | assumption | apply setSuspect_kept | apply logEvent_kept | apply raise_kept
      | apply lastErr_kept | apply sensorEvent_kept | apply KeptO.ite | apply KeptO.next

theorem execRailOutOfRange_kept {s0 : State} (ch : Fin 96) (s : State) (hk : Kept s0 s) :
    KeptO s0 (execRailOutOfRange ch s) := by
  unfold execRailOutOfRange; dsimp only
  with_reducible
    repeat'
      first
      | assumption | apply wr_kept | apply logEvent_kept | apply raise_kept | apply lastErr_kept
      | apply KeptO.ite | apply KeptO.next

theorem tempRelease_kept {s0 : State} (s : State) (d : Nat) (td : Bool) (hk : Kept s0 s) :
    Kept s0 (tempRelease s d td) := by
  unfold tempRelease; dsimp only
  with_reducible
    repeat'
      first
      | assumption | apply reapply_kept | apply wr_kept | apply setDom_kept | apply Kept.ite

theorem execTempLevelRelease_kept {s0 : State} (d : Fin 5) (td : Bool) (s : State) (hk : Kept s0 s)
    :
    KeptO s0 (execTempLevelRelease d td s) := by
  unfold execTempLevelRelease
  with_reducible
    repeat'
      first
      | assumption | apply tempRelease_kept | apply KeptO.ite | apply KeptO.next

theorem execRefreshRateFall_kept {s0 : State} (q : Fin 16) (s : State) (hk : Kept s0 s) :
    KeptO s0 (execRefreshRateFall q s) := by
  unfold execRefreshRateFall
  with_reducible
    repeat'
      first
      | assumption | apply setRate_kept | apply KeptO.ite | apply KeptO.next

theorem execOpRaiseQualified_kept {s0 : State} (d : DieId) (s : State) (hk : Kept s0 s) :
    KeptO s0 (execOpRaiseQualified d s) := by
  unfold execOpRaiseQualified; dsimp only
  with_reducible
    repeat'
      first
      | assumption | apply requestOp_kept | apply setDom_kept | apply KeptO.ite | apply KeptO.next

theorem opStepDone_kept {s0 : State} (s : State) (d : Nat) (hk : Kept s0 s) :
    Kept s0 (opStepDone s d) := by
  unfold opStepDone; dsimp only
  with_reducible
    repeat'
      first
      | assumption | apply setDom_kept | apply wr_kept | apply opMoves_kept
      | apply beginOpStep_kept | apply Kept.ite | split

theorem execOpStepDone_kept {s0 : State} (d : DieId) (s : State) (hk : Kept s0 s) :
    KeptO s0 (execOpStepDone d s) := by
  unfold execOpStepDone
  with_reducible
    repeat'
      first
      | assumption | apply opStepDone_kept | apply KeptO.ite | apply KeptO.next

theorem execCapUnattainable_kept {s0 : State} (s : State) (hk : Kept s0 s) :
    KeptO s0 (execCapUnattainable s) := by
  unfold execCapUnattainable
  with_reducible
    repeat'
      first
      | assumption | apply logEvent_kept | apply raise_kept | apply lastErr_kept | apply wr_kept
      | apply KeptO.ite | apply KeptO.next

theorem sampleClasses_kept {s0 : State} (s : State) (d : Nat) (power : Nat) (hk : Kept s0 s) :
    Kept s0 (sampleClasses s d power) := by
  unfold sampleClasses; dsimp only
  with_reducible
    repeat'
      first
      | intro _ | assumption | apply wr_kept | apply setDom_kept | apply Kept.foldl

theorem measureStep_kept {s0 : State} (s : State) (d : Nat) (g : GovIn) (hk : Kept s0 s) :
    Kept s0 (measureStep s d g) := by
  unfold measureStep; dsimp only
  with_reducible
    repeat'
      first
      | assumption | apply bump_kept | apply setDom_kept | apply wr_kept | apply sampleClasses_kept
      | apply Kept.ite

theorem actStep_kept {s0 : State} (s : State) (d : Nat) (hk : Kept s0 s) :
    Kept s0 (actStep s d) := by
  unfold actStep; dsimp only
  with_reducible
    repeat'
      first
      | assumption | apply wr_kept | apply bindStep_kept | apply Kept.ite

theorem heaterStep_kept {s0 : State} (s : State) (e : Nat) (h : Nat × Bool) (hk : Kept s0 s) :
    Kept s0 (heaterStep s e h) := by
  unfold heaterStep; dsimp only
  with_reducible
    repeat'
      first
      | assumption | apply wr_kept | apply raise_kept | apply lastErr_kept | apply Kept.ite

theorem governorStep_kept {s0 : State} (s : State) (gs : List GovIn) (htr : List (Nat × Bool)) (hk :
    Kept s0 s) :
    Kept s0 (governorStep s gs htr) := by
  unfold governorStep; dsimp only
  with_reducible
    repeat'
      first
      | intro _ | assumption | apply actStep_kept | apply measureStep_kept | apply heaterStep_kept
      | apply Kept.foldl | simp only [Kept.upd] | split

theorem execGovernorStep_kept {s0 : State} (doms : List GovIn) (htr : List (Nat × Bool)) (s : State)
    (hk : Kept s0 s) :
    KeptO s0 (execGovernorStep doms htr s) := by
  unfold execGovernorStep
  with_reducible
    repeat'
      first
      | assumption | apply governorStep_kept | apply KeptO.ite | apply KeptO.next
      | exact KeptO.fault

theorem execIccCeilingRise_kept {s0 : State} (d : DieId) (s : State) (hk : Kept s0 s) :
    KeptO s0 (execIccCeilingRise d s) := by
  unfold execIccCeilingRise; dsimp only
  with_reducible
    repeat'
      first
      | assumption | apply setDom_kept | apply KeptO.ite | apply KeptO.next

theorem execThrottleNAssert_kept {s0 : State} (s : State) (hk : Kept s0 s) :
    KeptO s0 (execThrottleNAssert s) := by
  unfold execThrottleNAssert
  with_reducible
    repeat'
      first
      | assumption | apply raise_kept | apply wr_kept | apply KeptO.ite | apply KeptO.next

theorem execThrottleNRelease_kept {s0 : State} (s : State) (hk : Kept s0 s) :
    KeptO s0 (execThrottleNRelease s) := by
  unfold execThrottleNRelease
  with_reducible
    repeat'
      first
      | assumption | apply wr_kept | apply KeptO.next

theorem startRamp_kept {s0 : State} (s : State) (d : Nat) (cls : Nat) (hk : Kept s0 s) :
    Kept s0 (startRamp s d cls) := by
  unfold startRamp; dsimp only
  with_reducible
    repeat'
      first
      | assumption | apply setDom_kept

theorem execPrerampStart_kept {s0 : State} (d : DieId) (cls : Fin 4) (s : State) (hk : Kept s0 s) :
    KeptO s0 (execPrerampStart d cls s) := by
  unfold execPrerampStart
  with_reducible
    repeat'
      first
      | assumption | apply startRamp_kept | apply KeptO.next | apply Kept.ite | split

theorem execHintStart_kept {s0 : State} (d : DieId) (cls : Fin 4) (s : State) (hk : Kept s0 s) :
    KeptO s0 (execHintStart d cls s) := by
  unfold execHintStart
  with_reducible
    repeat'
      first
      | assumption | apply activate_kept | apply KeptO.ite | apply KeptO.next | split

theorem execHintExpire_kept {s0 : State} (d : DieId) (s : State) (hk : Kept s0 s) :
    KeptO s0 (execHintExpire d s) := by
  unfold execHintExpire; dsimp only
  with_reducible
    repeat'
      first
      | assumption | apply showHints_kept | apply setDom_kept | apply KeptO.ite | apply KeptO.next

theorem execVddAonRise_kept {s0 : State} (s : State) (hk : Kept s0 s) :
    KeptO s0 (execVddAonRise s) := by
  unfold execVddAonRise; dsimp only
  with_reducible
    repeat'
      first
      | assumption | apply KeptO.next | apply Kept.ite | simp only [Kept.upd]

theorem execDawnRailsGood_kept {s0 : State} (s : State) (hk : Kept s0 s) :
    KeptO s0 (execDawnRailsGood s) := by
  unfold execDawnRailsGood; dsimp only
  with_reducible
    repeat'
      first
      | assumption | apply leaveReset_kept | apply KeptO.next | apply Kept.ite
      | simp only [Kept.upd]

theorem execDawnRailHalt_kept {s0 : State} (s : State) (hk : Kept s0 s) :
    KeptO s0 (execDawnRailHalt s) := by
  unfold execDawnRailHalt
  with_reducible
    repeat'
      first
      | assumption | apply haltDawn_kept | apply KeptO.next | apply Kept.ite

theorem execPwrgoodRise_kept {s0 : State} (ownerSel : Fin 4) (s : State) (hk : Kept s0 s) :
    KeptO s0 (execPwrgoodRise ownerSel s) := by
  unfold execPwrgoodRise; dsimp only
  with_reducible
    repeat'
      first
      | assumption | apply leaveReset_kept | apply KeptO.next | apply Kept.ite
      | simp only [Kept.upd]

theorem execPwrgoodFall_kept {s0 : State} (s : State) (hk : Kept s0 s) :
    KeptO s0 (execPwrgoodFall s) := by
  unfold execPwrgoodFall; dsimp only
  with_reducible
    repeat'
      first
      | assumption | apply plazaReset_kept | apply KeptO.next | apply Kept.ite
      | simp only [Kept.upd]

theorem execPlazaReset_kept {s0 : State} (s : State) (hk : Kept s0 s) :
    KeptO s0 (execPlazaReset s) := by
  unfold execPlazaReset
  with_reducible
    repeat'
      first
      | assumption | apply leaveReset_kept | apply plazaReset_kept | apply KeptO.next
      | apply Kept.ite

theorem powerDown_kept {s0 : State} (s : State) (hk : Kept s0 s) : Kept s0 (powerDown s) :=
  ⟨fun _ => rfl, fun _ => rfl, hk.fuses, hk.pend, hk.sent⟩

theorem execVddAonRemove_kept {s0 : State} (dip : Bool) (s : State) (hk : Kept s0 s) :
    KeptO s0 (execVddAonRemove dip s) := by
  refine .next (.ite ?_ (powerDown_kept _ ?_))
  · exact ⟨fun hr => by
        have h := hk.regs hr
        simp only [regsOk, Bool.and_eq_true] at h
        simp only [regsOk, Bool.and_eq_true]
        exact ⟨keysFrom_filter h.1, rfl⟩, fun _ => rfl, hk.fuses, hk.pend, hk.sent⟩
  · split
    · exact hk.of_eq rfl rfl rfl rfl rfl rfl rfl
    · exact hk

theorem fwGo_kept {s0 : State} (s : State) (hk : Kept s0 s) :
    Kept s0 (fwGo s) := by
  unfold fwGo
  with_reducible
    repeat'
      first
      | assumption | apply wr_kept | apply Kept.ite

theorem execFwGo_kept {s0 : State} (req : PortId) (s : State) (hk : Kept s0 s) :
    KeptO s0 (execFwGo req s) := by
  unfold execFwGo
  repeat'
    first
    | intro _ | with_reducible assumption | with_reducible apply fieldWrite_kept
    | with_reducible apply fwGo_kept | with_reducible apply KeptO.ite
    | with_reducible apply KeptO.next

theorem bundleRefused_kept {s0 : State} (s : State) (code : Nat) (got : Nat) (hk : Kept s0 s) :
    Kept s0 (bundleRefused s code got) := by
  unfold bundleRefused; dsimp only
  with_reducible
    repeat'
      first
      | assumption | apply dawnDma_kept | apply bump_kept | apply wr_kept | apply fwWaiting_kept
      | apply raise_kept | apply lastErr_kept | apply Kept.ite

theorem bundleAccepted_kept {s0 : State} (s : State) (b : List Byte) (rec : List Byte) (hk : Kept s0
    s) :
    Kept s0 (bundleAccepted s b rec) := by
  unfold bundleAccepted; dsimp only
  with_reducible
    repeat'
      first
      | assumption | apply wr_kept | apply nextStage_kept | apply takeRecord_kept
      | simp only [Kept.upd]

theorem execFwBundleCheck_kept {s0 : State} (bundle : List Byte) (rec : List Byte) (s : State) (hk :
    Kept s0 s) :
    KeptO s0 (execFwBundleCheck bundle rec s) := by
  unfold execFwBundleCheck; dsimp only
  with_reducible
    repeat'
      first
      | assumption | apply bytesIn_kept | apply bundleRefused_kept | apply bundleAccepted_kept
      | apply KeptO.next | apply Kept.ite

theorem reportComparators_kept {s0 : State} (s : State) (d : Nat) (fails : Nat) (hk : Kept s0 s) :
    Kept s0 (reportComparators s d fails) := by
  unfold reportComparators; dsimp only
  with_reducible
    repeat'
      first
      | intro _ | assumption | apply lastErr_kept | apply wr_kept | apply logEvent_kept
      | apply raise_kept | apply Kept.ite | apply Kept.foldl | simp only [Kept.upd]

theorem releaseDie_kept {s0 : State} (s : State) (fails : Nat) (restored : Bool) (hk : Kept s0 s) :
    Kept s0 (releaseDie s fails restored) := by
  unfold releaseDie; dsimp only
  with_reducible
    repeat'
      first
      | assumption | apply trained_kept | apply reportComparators_kept | apply wr_kept
      | apply dawnAdvance_kept | apply Kept.ite | simp only [Kept.upd]

theorem execDieRelease_kept {s0 : State} (fails : BitVec 24) (restored : Bool) (s : State) (hk :
    Kept s0 s) :
    KeptO s0 (execDieRelease fails restored s) := by
  unfold execDieRelease
  with_reducible
    repeat'
      first
      | assumption | apply releaseDie_kept | apply KeptO.next | apply Kept.ite

theorem setModules_kept {s0 : State} (s : State) (g : Nat) (mods : List ModTrain) (hk : Kept s0 s) :
    Kept s0 (setModules s g mods) := by
  unfold setModules; dsimp only
  with_reducible
    repeat'
      first
      | intro _ | assumption | apply wr_kept | apply raise_kept | apply lastErr_kept
      | apply bump_kept | apply Kept.ite | apply Kept.foldl | simp only [Kept.upd]

theorem trainGroup_kept {s0 : State} (s : State) (g : Nat) (partnerMax : Nat) (rate : Nat) (vmin :
    Nat) (vmax : Nat) (mods : List ModTrain) (restored : Bool) (hk : Kept s0 s) :
    Kept s0 (trainGroup s g partnerMax rate vmin vmax mods restored) := by
  unfold trainGroup; dsimp only
  with_reducible
    repeat'
      first
      | assumption | apply wr_kept | apply trained_kept | apply setModules_kept
      | apply fenceGroup_kept | apply lastErr_kept | apply dawnAdvance_kept
      | apply checkUsable_kept | simp only [Kept.upd] | split

theorem execD2dLinkTraining_kept {s0 : State} (g : GroupId) (partnerMax : Fin 64) (rate : Fin 64)
    (vmin : BitVec 16) (vmax : BitVec 16) (mods : List ModTrain) (restored : Bool) (s : State) (hk :
    Kept s0 s) :
    KeptO s0 (execD2dLinkTraining g partnerMax rate vmin vmax mods restored s) := by
  unfold execD2dLinkTraining
  with_reducible
    repeat'
      first
      | assumption | apply trainGroup_kept | apply KeptO.ite | apply KeptO.next | apply Kept.ite
      | exact KeptO.fault

theorem portFail_kept {s0 : State} (s : State) (d : Nat) (f : PortFail) (hk : Kept s0 s) :
    Kept s0 (portFail s d f) := by
  unfold portFail; dsimp only
  with_reducible
    repeat'
      first
      | assumption | apply beyondRepair_kept | apply logBist_kept | apply Kept.ite
      | simp only [Kept.upd]

theorem trainPorts_kept {s0 : State} (s : State) (d : Nat) (fails : List PortFail) (restored : Bool)
    (hk : Kept s0 s) :
    Kept s0 (trainPorts s d fails restored) := by
  unfold trainPorts; dsimp only
  with_reducible
    repeat'
      first
      | intro _ | assumption | apply trained_kept | apply portFail_kept | apply recordRepairs_kept
      | apply dawnAdvance_kept | apply Kept.foldl | simp only [Kept.upd]

theorem execVerticalPortTraining_kept {s0 : State} (d : DieId) (fails : List PortFail) (restored :
    Bool) (s : State) (hk : Kept s0 s) :
    KeptO s0 (execVerticalPortTraining d fails restored s) := by
  unfold execVerticalPortTraining
  with_reducible
    repeat'
      first
      | assumption | apply trainPorts_kept | apply KeptO.next | apply Kept.ite

theorem rowFail_kept {s0 : State} (s : State) (f : BistFail) (hk : Kept s0 s) :
    Kept s0 (rowFail s f) := by
  unfold rowFail; dsimp only
  with_reducible
    repeat'
      first
      | assumption | apply logBist_kept | apply lastErr_kept | apply beyondRepair_kept
      | apply Kept.ite | refine useSpare_kept ?_ (by assumption) | simp only [Kept.upd] | split

theorem unitFail_kept {s0 : State} (s : State) (f : BistFail) (hk : Kept s0 s) :
    Kept s0 (unitFail s f) := by
  unfold unitFail; dsimp only
  with_reducible
    repeat'
      first
      | assumption | apply wr_kept | apply logBist_kept | apply beyondRepair_kept | apply Kept.ite
      | simp only [Kept.upd]

theorem bistWave_kept {s0 : State} (s : State) (tower : Bool) (fails : List BistFail) (hk : Kept s0
    s) :
    Kept s0 (bistWave s tower fails) := by
  unfold bistWave; dsimp only
  with_reducible
    repeat'
      first
      | intro _ | assumption | apply wr_kept | apply rowFail_kept | apply unitFail_kept
      | apply Kept.ite | apply Kept.foldl | simp only [Kept.upd]

theorem execBistWaveStart_kept {s0 : State} (fails : List BistFail) (s : State) (hk : Kept s0 s) :
    KeptO s0 (execBistWaveStart fails s) := by
  unfold execBistWaveStart; dsimp only
  with_reducible
    repeat'
      first
      | intro _ | assumption | apply bistWave_kept | apply nextStage_kept
      | apply recordRepairs_kept | apply KeptO.next | apply Kept.ite | apply Kept.foldl

theorem budgetExpire_kept {s0 : State} (s : State) (d : Nat) (row : Nat) (col : Nat) (tower : Bool)
    (us : Nat) (hk : Kept s0 s) :
    Kept s0 (budgetExpire s d row col tower us) := by
  unfold budgetExpire; dsimp only
  with_reducible
    repeat'
      first
      | assumption | apply bistBad_kept | apply bump_kept | apply raise_kept | apply lastErr_kept
      | apply logBist_kept

theorem execBistBudgetExpire_kept {s0 : State} (d : DieId) (row : Fin 16) (col : Fin 32) (us : Nat)
    (s : State) (hk : Kept s0 s) :
    KeptO s0 (execBistBudgetExpire d row col us s) := by
  unfold execBistBudgetExpire
  with_reducible
    repeat'
      first
      | assumption | apply budgetExpire_kept | apply KeptO.next | apply Kept.ite

theorem takeBadTiles_kept {s0 : State} (s : State) (hk : Kept s0 s) :
    Kept s0 (takeBadTiles s) := by
  unfold takeBadTiles; dsimp only
  with_reducible
    repeat'
      first
      | intro _ | assumption | apply wr_kept | apply Kept.foldl

theorem formMap_kept {s0 : State} (s : State) (hk : Kept s0 s) :
    Kept s0 (formMap s) := by
  unfold formMap; dsimp only
  with_reducible
    repeat'
      first
      | assumption | apply raise_kept | apply wr_kept | apply nextStage_kept | apply haltDawn_kept
      | apply takeBadTiles_kept | apply compareDigest_kept | apply setDigest_kept | apply Kept.ite
      | simp only [Kept.upd]

theorem execYieldMapForm_kept {s0 : State} (s : State) (hk : Kept s0 s) :
    KeptO s0 (execYieldMapForm s) := by
  unfold execYieldMapForm
  with_reducible
    repeat'
      first
      | assumption | apply formMap_kept | apply KeptO.next | apply Kept.ite

theorem finishDawn_kept {s0 : State} (s : State) (sections : List TrainSection) (hk : Kept s0 s) :
    Kept s0 (finishDawn s sections) := by
  unfold finishDawn; dsimp only
  with_reducible
    repeat'
      first
      | intro _ | assumption | apply wr_kept | apply stageTime_kept | apply beginEmit_kept
      | apply raise_kept | apply Kept.foldl

theorem execDawnDone_kept {s0 : State} (sections : List TrainSection) (s : State) (hk : Kept s0 s) :
    KeptO s0 (execDawnDone sections s) := by
  unfold execDawnDone
  with_reducible
    repeat'
      first
      | assumption | apply finishDawn_kept | apply KeptO.ite | apply KeptO.next | apply Kept.ite
      | exact KeptO.fault

theorem recEmit_kept {s0 : State} (s : State) (sections : List TrainSection) (hk : Kept s0 s) :
    Kept s0 (recEmit s sections) := by
  unfold recEmit
  repeat'
    first
    | intro _ | with_reducible assumption | with_reducible apply beginEmit_kept
    | with_reducible apply Kept.ite

theorem execRecEmit_kept {s0 : State} (req : PortId) (sections : List TrainSection) (s : State) (hk
    : Kept s0 s) :
    KeptO s0 (execRecEmit req sections s) := by
  unfold execRecEmit
  repeat'
    first
    | intro _ | with_reducible assumption | with_reducible apply fieldWrite_kept
    | with_reducible apply recEmit_kept | with_reducible apply KeptO.ite
    | with_reducible apply KeptO.next | with_reducible apply Kept.ite
    | with_reducible apply Kept.foldl | with_reducible apply Kept.foldl1
    | with_reducible exact KeptO.fault

theorem execRecordEmitted_kept {s0 : State} (takes : Nat) (s : State) (hk : Kept s0 s) :
    KeptO s0 (execRecordEmitted takes s) := by
  unfold execRecordEmitted
  with_reducible
    repeat'
      first
      | assumption | apply endEmit_kept | apply KeptO.next | apply Kept.ite

theorem tileLost_kept {s0 : State} (s : State) (n : Nat) (router : Bool) (slice : Bool) (hk : Kept
    s0 s) :
    Kept s0 (tileLost s n router slice) := by
  unfold tileLost
  with_reducible
    repeat'
      first
      | assumption | apply fenceTile_kept | apply Kept.ite

theorem execTileClockLoss_kept {s0 : State} (t : TileId) (s : State) (hk : Kept s0 s) :
    KeptO s0 (execTileClockLoss t s) := by
  unfold execTileClockLoss
  with_reducible
    repeat'
      first
      | assumption | apply tileLost_kept | apply KeptO.next

theorem execTileRouterLost_kept {s0 : State} (t : TileId) (s : State) (hk : Kept s0 s) :
    KeptO s0 (execTileRouterLost t s) := by
  unfold execTileRouterLost
  with_reducible
    repeat'
      first
      | assumption | apply tileLost_kept | apply KeptO.next

theorem execSlicePortLoss_kept {s0 : State} (t : TileId) (s : State) (hk : Kept s0 s) :
    KeptO s0 (execSlicePortLoss t s) := by
  unfold execSlicePortLoss
  with_reducible
    repeat'
      first
      | assumption | apply tileLost_kept | apply KeptO.next

theorem midnight_kept {s0 : State} (s : State) (d : Nat) (t : Nat) (hk : Kept s0 s) :
    Kept s0 (midnight s d t) := by
  unfold midnight; dsimp only
  with_reducible
    repeat'
      first
      | assumption | apply plazaReset_kept | apply wr_kept | apply emit_kept

theorem execThermalTrip_kept {s0 : State} (d : DieId) (t : Fin 8) (up : Bool) (s : State) (hk : Kept
    s0 s) :
    KeptO s0 (execThermalTrip d t up s) := by
  unfold execThermalTrip
  with_reducible
    repeat'
      first
      | assumption | apply midnight_kept | apply KeptO.next | apply Kept.ite

theorem execTripComparatorDegraded_kept {s0 : State} (d : DieId) (t : Fin 8) (c : Fin 3) (s : State)
    (hk : Kept s0 s) :
    KeptO s0 (execTripComparatorDegraded d t c s) := by
  unfold execTripComparatorDegraded; dsimp only
  with_reducible
    repeat'
      first
      | assumption | apply lastErr_kept | apply wr_kept | apply logEvent_kept | apply raise_kept
      | apply KeptO.next | apply Kept.ite | simp only [Kept.upd]

theorem FuseCopy_blow_within (c : FuseCopy) (b : FuseBit) : copyWithin c (c.blow b) = true := by
  unfold FuseCopy.blow
  split <;> simp [copyWithin, within_refl, bitsWithin_setBit]

theorem blowBad_within (m : SMap Nat) (b : FuseBit) (i : Nat) :
    bitsWithin (SMap.getD m i 0) (SMap.getD (blowBad m b) i 0) = true := by
  unfold blowBad
  rw [getD_put]
  split
  · subst i; exact bitsWithin_setBit _ _
  · exact within_refl _

theorem Fuses_blow_within (f : Fuses) (b : FuseBit) : FusesWithin f (f.blow b) := by
  have k := fuses_refl f
  unfold Fuses.blow
  split
  · split
    · exact ⟨k.1, k.2.1, k.2.2.1, blowBad_within _ b, k.2.2.2.2⟩
    · exact ⟨k.1, k.2.1, k.2.2.1, k.2.2.2.1, blowBad_within _ b⟩
  · split
    · exact ⟨FuseCopy_blow_within _ b, k.2⟩
    · split
      · exact ⟨k.1, FuseCopy_blow_within _ b, k.2.2⟩
      · exact ⟨k.1, k.2.1, FuseCopy_blow_within _ b, k.2.2.2⟩

theorem Kept.fuse {s0 s t : State} (h : Kept s0 s) (b : FuseBit) (h1 : t.regs = s.regs) (h2 :
    t.tiles = s.tiles)
    (h3 : t.slices = s.slices) (h4 : t.fuses = s.fuses.blow b) (h5 : t.pending = s.pending)
    (h6 : t.sent = s.sent) (h7 : t.images = s.images) : Kept s0 t := by
  refine h.trans ⟨?_, ?_, ?_, h5, [], by simp [h6]⟩
  · simp [regsOk, h1, h7]
  · simp [memOk, h2, h3]
  · rw [h4]; exact Fuses_blow_within _ b

theorem lcFail_kept {s0 : State} (s : State) (code : Nat) (hk : Kept s0 s) :
    Kept s0 (lcFail s code) := by
  unfold lcFail; dsimp only
  with_reducible
    repeat'
      first
      | assumption | apply raise_kept | apply lastErr_kept | apply wr_kept | simp only [Kept.upd]

theorem lcAbort_kept {s0 : State} (s : State) (code : Nat) (index : Nat) (mv : Nat) (hk : Kept s0 s)
    :
    Kept s0 (lcAbort s code index mv) := by
  unfold lcAbort
  with_reducible
    repeat'
      first
      | assumption | apply lcFail_kept | apply wr_kept

theorem drawSeed_kept {s0 : State} (s : State) (hk : Kept s0 s) :
    Kept s0 (drawSeed s).2 := by
  unfold drawSeed; dsimp only
  with_reducible
    repeat'
      first
      | assumption | apply freeNat_kept

theorem beginLc_kept {s0 : State} (s : State) (target : Nat) (hk : Kept s0 s) :
    Kept s0 (beginLc s target) := by
  unfold beginLc; dsimp only
  with_reducible
    repeat'
      first
      | assumption | apply drawSeed_kept | apply wr_kept | simp only [Kept.upd] | split

theorem lcReq_kept {s0 : State} (s : State) (target : Nat) (confirm : Nat) (hk : Kept s0 s) :
    Kept s0 (lcReq s target confirm) := by
  unfold lcReq; dsimp only
  with_reducible
    repeat'
      first
      | assumption | apply wr_kept | apply lcFail_kept | apply freshChallenge_kept
      | apply beginLc_kept | apply Kept.ite

theorem execLcReq_kept {s0 : State} (req : PortId) (target : Fin 8) (confirm : BitVec 16) (s :
    State) (hk : Kept s0 s) :
    KeptO s0 (execLcReq req target confirm s) := by
  unfold execLcReq
  repeat'
    first
    | intro _ | with_reducible assumption | with_reducible apply fieldWrite_kept
    | with_reducible apply lcReq_kept | with_reducible apply KeptO.ite
    | with_reducible apply KeptO.next

theorem fusePulse_kept {s0 : State} (s : State) (ok : Bool) (hk : Kept s0 s) :
    Kept s0 (fusePulse s ok) := by
  unfold fusePulse
  split
  · exact hk
  · split
    · exact hk
    · split
      · exact lcAbort_kept _ _ _ _ hk
      · split
        · refine bump_kept _ _ _ _ _ ?_
          exact hk.fuse _ rfl rfl rfl rfl rfl rfl rfl
        · split
          · exact lcAbort_kept _ _ _ _ hk
          · exact hk.of_eq rfl rfl rfl rfl rfl rfl rfl

theorem execFusePulse_kept {s0 : State} (ok : Bool) (s : State) (hk : Kept s0 s) :
    KeptO s0 (execFusePulse ok s) := by
  unfold execFusePulse
  with_reducible
    repeat'
      first
      | assumption | apply fusePulse_kept | apply KeptO.next | apply Kept.ite

theorem execFuseSupplySag_kept {s0 : State} (mv : Fin 1620) (s : State) (hk : Kept s0 s) :
    KeptO s0 (execFuseSupplySag mv s) := by
  unfold execFuseSupplySag
  with_reducible
    repeat'
      first
      | assumption | apply lcAbort_kept | apply KeptO.next | apply Kept.ite | split

theorem execLcTransitionDone_kept {s0 : State} (s : State) (hk : Kept s0 s) :
    KeptO s0 (execLcTransitionDone s) := by
  unfold execLcTransitionDone
  with_reducible
    repeat'
      first
      | assumption | apply leaveReset_kept | apply plazaReset_kept | apply KeptO.next
      | apply Kept.ite | split

theorem stopLaunch_kept {s0 : State} (s : State) (d : Nat) (j : Job) (hk : Kept s0 s) :
    Kept s0 (stopLaunch s d j) := by
  unfold stopLaunch; dsimp only
  with_reducible
    repeat'
      first
      | intro _ | assumption | apply abortColls_kept | apply launchPoll_kept | apply setJob_kept
      | apply endOfTile_kept | apply haltTile_kept | apply Kept.foldl | split

theorem scanOn_kept {s0 : State} (s : State) (hk : Kept s0 s) :
    Kept s0 (scanOn s) := by
  unfold scanOn; dsimp only
  with_reducible
    repeat'
      first
      | intro _ | assumption | apply stopLaunch_kept | apply wr_kept | apply Kept.foldl
      | simp only [Kept.upd]

theorem testCtrl_kept {s0 : State} (s : State) (scan : Bool) (engine : Bool) (hk : Kept s0 s) :
    Kept s0 (testCtrl s scan engine) := by
  unfold testCtrl; dsimp only
  with_reducible
    repeat'
      first
      | assumption | apply scanOn_kept | apply wr_kept | apply Kept.ite

theorem execScanEnable_kept {s0 : State} (req : PortId) (scan : Bool) (engine : Bool) (s : State)
    (hk : Kept s0 s) :
    KeptO s0 (execScanEnable req scan engine s) := by
  unfold execScanEnable
  repeat'
    first
    | intro _ | with_reducible assumption | with_reducible apply fieldWrite_kept
    | with_reducible apply testCtrl_kept | with_reducible apply KeptO.ite
    | with_reducible apply KeptO.next

theorem makeReport_kept {s0 : State} (s : State) (d : Nat) (pkg : Bool) (hk : Kept s0 s) :
    Kept s0 (makeReport s d pkg).2 := by
  unfold makeReport; dsimp only
  with_reducible
    repeat'
      first
      | assumption | apply freeNat_kept

theorem attGo_kept {s0 : State} (s : State) (port : Nat) (d : Nat) (pkg : Bool) (hk : Kept s0 s) :
    Kept s0 (attGo s port d pkg) := by
  unfold attGo; dsimp only
  with_reducible
    repeat'
      first
      | assumption | apply wr_kept | apply raise_kept | apply makeReport_kept | apply Kept.ite
      | simp only [Kept.upd]

theorem execAttGo_kept {s0 : State} (req : PortId) (d : DistId) (pkg : Bool) (s : State) (hk : Kept
    s0 s) :
    KeptO s0 (execAttGo req d pkg s) := by
  unfold execAttGo
  repeat'
    first
    | intro _ | with_reducible assumption | with_reducible apply fieldWrite_kept
    | with_reducible apply regRefused_kept | with_reducible apply attGo_kept
    | with_reducible apply KeptO.ite | with_reducible apply KeptO.next
    | with_reducible apply Kept.ite

theorem attDone_kept {s0 : State} (s : State) (d : Nat) (refused : Bool) (hk : Kept s0 s) :
    Kept s0 (attDone s d refused) := by
  unfold attDone; dsimp only
  with_reducible
    repeat'
      first
      | assumption | apply freeNat_kept | apply hostRefused_kept | apply wr_kept
      | apply bytesOut_kept | apply emit_kept | apply raise_kept | apply Kept.ite
      | simp only [Kept.upd] | split

theorem execAttDone_kept {s0 : State} (d : DistId) (refused : Bool) (s : State) (hk : Kept s0 s) :
    KeptO s0 (execAttDone d refused s) := by
  unfold execAttDone
  with_reducible
    repeat'
      first
      | assumption | apply attDone_kept | apply KeptO.next | apply Kept.ite

theorem policyWrite_kept {s0 : State} (s : State) (d : Nat) (p : PageId) (f : Fld) (i : Nat) (bit :
    Nat) (v : Nat) (hk : Kept s0 s) :
    Kept s0 (policyWrite s d p f i bit v) := by
  unfold policyWrite; dsimp only
  with_reducible
    repeat'
      first
      | assumption | apply raise_kept | apply emptySlots_kept | apply wr_kept | apply Kept.ite

theorem execSignPolicyWrite_kept {s0 : State} (req : PortId) (d : DistId) (word : Fin 9) (value :
    BitVec 32) (s : State) (hk : Kept s0 s) :
    KeptO s0 (execSignPolicyWrite req d word value s) := by
  unfold execSignPolicyWrite; dsimp only
  repeat'
    first
    | intro _ | with_reducible assumption | with_reducible apply fieldWrite_kept
    | with_reducible apply policyWrite_kept | with_reducible apply KeptO.ite
    | with_reducible apply KeptO.next | with_reducible apply Kept.ite

theorem blockEnable_kept {s0 : State} (s : State) (p : PageId) (on : Bool) (start : State → State)
    (drain : State → State) (hk : Kept s0 s) (h_start : ∀ y, Kept s0 y → Kept s0 (start y)) (h_drain
    : ∀ y, Kept s0 y → Kept s0 (drain y)) :
    Kept s0 (blockEnable s p on start drain) := by
  unfold blockEnable; dsimp only
  with_reducible
    repeat'
      first
      | intro _ | assumption | apply h_start | apply h_drain | apply wr_kept | apply Kept.ite
      | split

theorem blockStarted_kept {s0 : State} (s : State) (p : PageId) (drain : State → State) (hk : Kept
    s0 s) (h_drain : ∀ y, Kept s0 y → Kept s0 (drain y)) :
    Kept s0 (blockStarted s p drain) := by
  unfold blockStarted
  with_reducible
    repeat'
      first
      | intro _ | assumption | apply h_drain | apply wr_kept | apply Kept.ite

theorem txStarts_kept {s0 : State} (s : State) (l : Nat) (hk : Kept s0 s) :
    Kept s0 (txStarts s l) := by
  unfold txStarts
  with_reducible
    repeat'
      first
      | assumption | apply setLink_kept | apply sendBeacon_kept | split

theorem lineTrained_kept {s0 : State} (s : State) (l : Nat) (hk : Kept s0 s) :
    Kept s0 (lineTrained s l) := by
  unfold lineTrained
  with_reducible
    repeat'
      first
      | assumption | apply setLink_kept | apply wr_kept

theorem alleySettle_kept {s0 : State} (s : State) (l : Nat) (hk : Kept s0 s) :
    Kept s0 (alleySettle s l) := by
  unfold alleySettle; dsimp only
  with_reducible
    repeat'
      first
      | assumption | apply wr_kept | apply setLink_kept | apply txStarts_kept | apply Kept.ite

theorem joinLanes_kept {s0 : State} (s : State) (l : Nat) (rx : Nat) (tx : Nat) (hk : Kept s0 s) :
    Kept s0 (joinLanes s l rx tx) := by
  unfold joinLanes; dsimp only
  with_reducible
    repeat'
      first
      | assumption | apply setRxLanes_kept | apply setTxLanes_kept | apply alleySettle_kept
      | apply wr_kept | apply Kept.ite

theorem driveCell_kept {s0 : State} (s : State) (e : Nat) (cell : Nat) (hk : Kept s0 s) :
    Kept s0 (driveCell s e cell) := by
  unfold driveCell; dsimp only
  with_reducible
    repeat'
      first
      | assumption | apply wr_kept

theorem setCells_kept {s0 : State} (s : State) (e : Nat) (cs : List CellSet) (hk : Kept s0 s) :
    Kept s0 (setCells s e cs) := by
  unfold setCells
  with_reducible
    repeat'
      first
      | intro _ | assumption | apply driveCell_kept | apply setCrossing_kept | apply Kept.foldl

theorem calibrate_kept {s0 : State} (s : State) (e : Nat) (cs : List CellCal) (hk : Kept s0 s) :
    Kept s0 (calibrate s e cs) := by
  unfold calibrate; dsimp only
  with_reducible
    repeat'
      first
      | intro _ | assumption | apply setCrossing_kept | apply driveCell_kept | apply Kept.foldl

theorem measureLoss_kept {s0 : State} (s : State) (e : Nat) (hk : Kept s0 s) :
    Kept s0 (measureLoss s e) := by
  unfold measureLoss; dsimp only
  with_reducible
    repeat'
      first
      | assumption | apply freeNat_kept | apply wr_kept

theorem showMove_kept {s0 : State} (s : State) (e : Nat) (hk : Kept s0 s) :
    Kept s0 (showMove s e) := by
  unfold showMove; dsimp only
  with_reducible
    repeat'
      first
      | assumption | apply wr_kept | split

theorem setStep_kept {s0 : State} (s : State) (e : Nat) (m : Move) (k : Nat) (hk : Kept s0 s) :
    Kept s0 (setStep s e m k) := by
  unfold setStep; dsimp only
  with_reducible
    repeat'
      first
      | assumption | apply showMove_kept | apply setCrossing_kept

theorem settleAlloc_kept {s0 : State} (s : State) (l : Nat) (hk : Kept s0 s) :
    Kept s0 (settleAlloc s l) := by
  unfold settleAlloc
  with_reducible
    repeat'
      first
      | assumption | apply wr_kept | apply Kept.ite

theorem vacate_kept {s0 : State} (s : State) (e : Nat) (w : Nat) (hk : Kept s0 s) :
    Kept s0 (vacate s e w) := by
  unfold vacate; dsimp only
  with_reducible
    repeat'
      first
      | assumption | apply wr_kept | apply settleAlloc_kept | apply Kept.ite

theorem forgetLanes_kept {s0 : State} (s : State) (l : Nat) (f : Nat) (hk : Kept s0 s) :
    Kept s0 (forgetLanes s l f) := by
  unfold forgetLanes; dsimp only
  repeat'
    first
    | intro _ | with_reducible assumption | with_reducible apply setLink_kept
    | with_reducible apply forgetPartner_kept | with_reducible apply wr_kept
    | with_reducible apply Kept.ite

theorem rephase_kept {s0 : State} (s : State) (e : Nat) (m : Move) (hk : Kept s0 s) :
    Kept s0 (rephase s e m) := by
  unfold rephase; dsimp only
  with_reducible
    repeat'
      first
      | assumption | apply vacate_kept | apply calibrate_kept | apply bump_kept
      | apply measureLoss_kept | apply setCells_kept | apply setCrossing_kept | apply setStep_kept
      | apply forgetLanes_kept | apply sendMsg_kept | apply wr_kept | apply sendTraining_kept
      | apply Kept.ite

theorem relDone_kept {s0 : State} (s : State) (e : Nat) (w : Nat) (hk : Kept s0 s) :
    Kept s0 (relDone s e w) := by
  unfold relDone; dsimp only
  with_reducible
    repeat'
      first
      | assumption | apply vacate_kept | apply setCrossing_kept | apply rephase_kept
      | apply Kept.ite | split

theorem bothDown_kept {s0 : State} (s : State) (l : Nat) (hk : Kept s0 s) :
    Kept s0 (bothDown s l) := by
  unfold bothDown; dsimp only
  repeat'
    first
    | intro _ | with_reducible assumption | with_reducible apply wr_kept
    | with_reducible apply Kept.ite

theorem fibreLeaves_kept {s0 : State} (s : State) (l : Nat) (f : Nat) (hk : Kept s0 s) :
    Kept s0 (fibreLeaves s l f) := by
  unfold fibreLeaves; dsimp only
  repeat'
    first
    | intro _ | with_reducible assumption | with_reducible apply setRxLanes_kept
    | with_reducible apply setTxLanes_kept | with_reducible apply wr_kept
    | with_reducible apply Kept.ite

theorem lastGone_kept {s0 : State} (s : State) (l : Nat) (st : Nat) (hk : Kept s0 s) :
    Kept s0 (lastGone s l st) := by
  unfold lastGone; dsimp only
  repeat'
    first
    | intro _ | with_reducible assumption | with_reducible apply linkDown_kept
    | with_reducible apply wr_kept | with_reducible apply setLink_kept

theorem fibreGone_kept {s0 : State} (s : State) (e : Nat) (w : Nat) (hk : Kept s0 s) :
    Kept s0 (fibreGone s e w) := by
  unfold fibreGone; dsimp only
  repeat'
    first
    | intro _ | with_reducible assumption | with_reducible apply lastGone_kept
    | with_reducible apply fibreLeaves_kept | with_reducible apply bothDown_kept
    | with_reducible apply dirsDown_kept | with_reducible apply Kept.ite

theorem afterDown_kept {s0 : State} (s : State) (l : Nat) (hk : Kept s0 s) :
    Kept s0 (afterDown s l) := by
  unfold afterDown; dsimp only
  repeat'
    first
    | intro _ | with_reducible assumption | with_reducible apply bothDown_kept
    | with_reducible apply relDone_kept | with_reducible apply fibreGone_kept
    | with_reducible apply Kept.ite | with_reducible apply Kept.foldl
    | with_reducible apply Kept.foldl1 | refine fst_of (by assumption) ?_
    | refine snd_of (by assumption) ?_ | simp only [Kept.upd] | split

theorem checkWidth_kept {s0 : State} (s : State) (l : Nat) (hk : Kept s0 s) :
    Kept s0 (checkWidth s l) := by
  unfold checkWidth
  with_reducible
    repeat'
      first
      | assumption | apply afterDown_kept | apply dirsDown_kept | apply Kept.ite

theorem alleyFalls_kept {s0 : State} (s : State) (l : Nat) (st : Nat) (hk : Kept s0 s) :
    Kept s0 (alleyFalls s l st) := by
  unfold alleyFalls
  with_reducible
    repeat'
      first
      | assumption | apply afterDown_kept | apply linkDown_kept

theorem leaveFibre_kept {s0 : State} (s : State) (l : Nat) (f : Nat) (hk : Kept s0 s) :
    Kept s0 (leaveFibre s l f) := by
  unfold leaveFibre
  repeat'
    first
    | intro _ | with_reducible assumption | with_reducible apply afterDown_kept
    | with_reducible apply lastGone_kept | with_reducible apply checkWidth_kept
    | with_reducible apply fibreLeaves_kept | with_reducible apply Kept.ite

theorem dropLane_kept {s0 : State} (s : State) (l : Nat) (lane : Nat) (cause : Nat) (mine : Bool)
    (hk : Kept s0 s) :
    Kept s0 (dropLane s l lane cause mine) := by
  unfold dropLane; dsimp only
  with_reducible
    repeat'
      first
      | assumption | apply setRxLanes_kept | apply wr_kept | apply setTxLanes_kept
      | apply bump_kept | apply raise_kept | apply lastErr_kept | apply sendMsg_kept
      | apply Kept.ite

theorem logLineDrop_kept {s0 : State} (s : State) (l : Nat) (cause : Nat) (code : Nat) (hk : Kept s0
    s) :
    Kept s0 (logLineDrop s l cause code) := by
  unfold logLineDrop; dsimp only
  with_reducible
    repeat'
      first
      | assumption | apply wr_kept | apply raise_kept | apply bump_kept | apply lastErr_kept

theorem dropLine_kept {s0 : State} (s : State) (l : Nat) (cause : Nat) (code : Nat) (mine : Bool)
    (hk : Kept s0 s) :
    Kept s0 (dropLine s l cause code mine) := by
  unfold dropLine; dsimp only
  with_reducible
    repeat'
      first
      | assumption | apply logLineDrop_kept | apply dirsDown_kept | apply sendMsg_kept
      | apply Kept.ite

theorem logPilot_kept {s0 : State} (s : State) (e : Nat) (cause : Nat) (hk : Kept s0 s) :
    Kept s0 (logPilot s e cause) := by
  unfold logPilot; dsimp only
  with_reducible
    repeat'
      first
      | assumption | apply raise_kept | apply lastErr_kept | apply wr_kept

theorem pilotLost_kept {s0 : State} (s : State) (e : Nat) (cause : Nat) (hk : Kept s0 s) :
    Kept s0 (pilotLost s e cause) := by
  unfold pilotLost; dsimp only
  with_reducible
    repeat'
      first
      | assumption | apply dirsDown_kept | apply wr_kept | apply logPilot_kept | apply Kept.ite

theorem logComb_kept {s0 : State} (s : State) (e : Nat) (k : Nat) (hk : Kept s0 s) :
    Kept s0 (logComb s e k) := by
  unfold logComb
  with_reducible
    repeat'
      first
      | assumption | apply wr_kept

theorem logDfb_kept {s0 : State} (s : State) (e : Nat) (line : Nat) (hk : Kept s0 s) :
    Kept s0 (logDfb s e line) := by
  unfold logDfb
  with_reducible
    repeat'
      first
      | assumption | apply wr_kept

theorem logDark_kept {s0 : State} (s : State) (e : Nat) (k : Nat) (hk : Kept s0 s) :
    Kept s0 (logDark s e k) := by
  unfold logDark; dsimp only
  repeat'
    first
    | intro _ | with_reducible assumption | with_reducible apply raise_kept
    | with_reducible apply lastErr_kept | with_reducible apply wr_kept

theorem lineGoesDark_kept {s0 : State} (s : State) (e : Nat) (k : Nat) (hk : Kept s0 s) :
    Kept s0 (lineGoesDark s e k) := by
  unfold lineGoesDark; dsimp only
  repeat'
    first
    | intro _ | with_reducible assumption | with_reducible apply raise_kept
    | with_reducible apply lastErr_kept | with_reducible apply logComb_kept
    | with_reducible apply pilotLost_kept | with_reducible apply logLineDrop_kept
    | with_reducible apply sendMsg_kept | with_reducible apply linksDown_kept
    | with_reducible apply wr_kept | with_reducible apply logDark_kept
    | with_reducible apply Kept.ite

theorem allocateAll_kept {s0 : State} (s : State) (e : Nat) (hk : Kept s0 s) :
    Kept s0 (allocateAll s e) := by
  unfold allocateAll; dsimp only
  repeat'
    first
    | intro _ | with_reducible assumption | with_reducible apply wr_kept
    | with_reducible apply setCrossing_kept | with_reducible apply forgetPartner_kept
    | with_reducible apply setRxLanes_kept | with_reducible apply setTxLanes_kept
    | with_reducible apply setLink_kept | with_reducible apply sendTraining_kept
    | with_reducible apply Kept.ite | with_reducible apply Kept.foldl

theorem loadCells_kept {s0 : State} (s : State) (e : Nat) (hk : Kept s0 s) :
    Kept s0 (loadCells s e) := by
  unfold loadCells; dsimp only
  repeat'
    first
    | intro _ | with_reducible assumption | with_reducible apply setCrossing_kept
    | with_reducible apply driveCell_kept | with_reducible apply Kept.ite
    | with_reducible apply Kept.foldl

theorem crossingStarted_kept {s0 : State} (s : State) (e : Nat) (st : OeStart) (hk : Kept s0 s) :
    Kept s0 (crossingStarted s e st) := by
  unfold crossingStarted; dsimp only
  repeat'
    first
    | intro _ | with_reducible assumption | with_reducible apply setCrossing_kept
    | with_reducible apply setCells_kept | with_reducible apply calibrate_kept
    | with_reducible apply loadCells_kept | with_reducible apply bump_kept
    | with_reducible apply raise_kept | with_reducible apply lastErr_kept
    | with_reducible apply wr_kept | with_reducible apply Kept.ite
    | with_reducible apply Kept.foldl

theorem engineStarted_kept {s0 : State} (s : State) (e : Nat) (st : OeStart) (hk : Kept s0 s) :
    Kept s0 (engineStarted s e st) := by
  unfold engineStarted; dsimp only
  repeat'
    first
    | intro _ | with_reducible assumption | with_reducible apply wr_kept
    | with_reducible apply raise_kept | with_reducible apply lastErr_kept
    | with_reducible apply logDfb_kept | with_reducible apply logDark_kept
    | with_reducible apply logComb_kept | with_reducible apply allocateAll_kept
    | with_reducible apply crossingStarted_kept | with_reducible apply sendTraining_kept
    | with_reducible apply logPilot_kept | with_reducible apply lockLines_kept
    | with_reducible apply setCrossing_kept | with_reducible apply Kept.ite
    | with_reducible apply Kept.foldl

theorem startApply_kept {s0 : State} (s : State) (e : Nat) (hk : Kept s0 s) :
    Kept s0 (startApply s e) := by
  unfold startApply; dsimp only
  with_reducible
    repeat'
      first
      | assumption | apply wr_kept | apply setCrossing_kept | apply raise_kept | apply Kept.ite

theorem finishApply_kept {s0 : State} (s : State) (e : Nat) (hk : Kept s0 s) :
    Kept s0 (finishApply s e) := by
  unfold finishApply; dsimp only
  with_reducible
    repeat'
      first
      | assumption | apply wr_kept | apply raise_kept | apply startApply_kept | apply Kept.ite

theorem endMove_kept {s0 : State} (s : State) (e : Nat) (m : Move) (result : Nat) (field : Nat) (hk
    : Kept s0 s) :
    Kept s0 (endMove s e m result field) := by
  unfold endMove; dsimp only
  with_reducible
    repeat'
      first
      | assumption | apply wr_kept | apply measureLoss_kept | apply setCrossing_kept
      | apply showMove_kept | apply bump_kept | apply raise_kept | apply lastErr_kept
      | apply finishApply_kept | apply Kept.ite

theorem startRelease_kept {s0 : State} (s : State) (e : Nat) (w : Nat) (hk : Kept s0 s) :
    Kept s0 (startRelease s e w) := by
  unfold startRelease; dsimp only
  with_reducible
    repeat'
      first
      | assumption | apply setCrossing_kept | apply relDone_kept | apply leaveFibre_kept
      | apply sendMsg_kept | apply wr_kept | apply Kept.ite | split

theorem beginMove_kept {s0 : State} (s : State) (e : Nat) (w : Nat) (cells : List CellSet) (recals :
    List CellCal) (others : List Nat) (hk : Kept s0 s) :
    Kept s0 (beginMove s e w cells recals others) := by
  unfold beginMove; dsimp only
  with_reducible
    repeat'
      first
      | intro _ | assumption | apply endMove_kept | apply setCrossing_kept | apply rephase_kept
      | apply startRelease_kept | apply setStep_kept | apply Kept.ite | apply Kept.foldl

theorem opticsStart_kept {s0 : State} (s : State) (e : Nat) (st : OeStart) (hk : Kept s0 s) :
    Kept s0 (opticsStart s e st) := by
  unfold opticsStart; dsimp only
  with_reducible
    repeat'
      first
      | intro _ | assumption | apply engineStarted_kept | apply wr_kept | apply trained_kept
      | apply Kept.foldl | simp only [Kept.upd]

theorem execOpticsStart_kept {s0 : State} (e : OeId) (st : OeStart) (s : State) (hk : Kept s0 s) :
    KeptO s0 (execOpticsStart e st s) := by
  unfold execOpticsStart
  with_reducible
    repeat'
      first
      | assumption | apply opticsStart_kept | apply KeptO.next | apply Kept.ite

theorem execOeEnableWrite_kept {s0 : State} (req : PortId) (e : OeId) (on : Bool) (s : State) (hk :
    Kept s0 s) :
    KeptO s0 (execOeEnableWrite req e on s) := by
  unfold execOeEnableWrite
  repeat'
    first
    | intro _ | with_reducible assumption | with_reducible apply fieldWrite_kept
    | with_reducible apply blockEnable_kept | with_reducible apply engineDark_kept
    | with_reducible apply KeptO.ite | with_reducible apply KeptO.next

theorem blvdEnable_kept {s0 : State} (s : State) (e : Nat) (tx : Bool) (v : Nat) (hk : Kept s0 s) :
    Kept s0 (blvdEnable s e tx v) := by
  unfold blvdEnable; dsimp only
  with_reducible
    repeat'
      first
      | assumption | apply dirsDown_kept | apply lockLines_kept | apply wr_kept | apply Kept.ite

theorem execBlvdEnableWrite_kept {s0 : State} (req : PortId) (e : OeId) (tx : Bool) (value : BitVec
    32) (s : State) (hk : Kept s0 s) :
    KeptO s0 (execBlvdEnableWrite req e tx value s) := by
  unfold execBlvdEnableWrite
  repeat'
    first
    | intro _ | with_reducible assumption | with_reducible apply fieldWrite_kept
    | with_reducible apply blvdEnable_kept | with_reducible apply KeptO.ite
    | with_reducible apply KeptO.next

theorem dfbFault_kept {s0 : State} (s : State) (e : Nat) (line : Nat) (code : Nat) (hk : Kept s0 s)
    :
    Kept s0 (dfbFault s e line code) := by
  unfold dfbFault; dsimp only
  with_reducible
    repeat'
      first
      | assumption | apply wr_kept | apply raise_kept | apply lastErr_kept | apply logDfb_kept

theorem dfbFail_kept {s0 : State} (s : State) (e : Nat) (line : Nat) (hk : Kept s0 s) :
    Kept s0 (dfbFail s e line) := by
  unfold dfbFail; dsimp only
  with_reducible
    repeat'
      first
      | intro _ | assumption | apply dfbFault_kept | apply setCrossing_kept | apply retrainTx_kept
      | apply setLink_kept | apply Kept.ite | apply Kept.foldl

theorem execDfbFail_kept {s0 : State} (e : OeId) (line : Fin 8) (event : DfbEvent) (s : State) (hk :
    Kept s0 s) :
    KeptO s0 (execDfbFail e line event s) := by
  unfold execDfbFail
  with_reducible
    repeat'
      first
      | assumption | apply noteHolds_kept | apply dfbFail_kept | apply dfbFault_kept
      | apply wr_kept | apply KeptO.next | apply Kept.ite | split

theorem execCombLineDark_kept {s0 : State} (e : OeId) (k : Fin 32) (s : State) (hk : Kept s0 s) :
    KeptO s0 (execCombLineDark e k s) := by
  unfold execCombLineDark
  with_reducible
    repeat'
      first
      | assumption | apply lineGoesDark_kept | apply KeptO.next | apply Kept.ite

theorem crossingApply_kept {s0 : State} (s : State) (e : Nat) (hk : Kept s0 s) :
    Kept s0 (crossingApply s e) := by
  unfold crossingApply
  with_reducible
    repeat'
      first
      | assumption | apply wr_kept | apply startApply_kept | apply Kept.ite

theorem execCrossingApply_kept {s0 : State} (req : PortId) (e : OeId) (s : State) (hk : Kept s0 s) :
    KeptO s0 (execCrossingApply req e s) := by
  unfold execCrossingApply
  repeat'
    first
    | intro _ | with_reducible assumption | with_reducible apply fieldWrite_kept
    | with_reducible apply crossingApply_kept | with_reducible apply KeptO.ite
    | with_reducible apply KeptO.next

theorem execCrossingMove_kept {s0 : State} (e : OeId) (cells : List CellSet) (recals : List CellCal)
    (mask : BitVec 8) (s : State) (hk : Kept s0 s) :
    KeptO s0 (execCrossingMove e cells recals mask s) := by
  unfold execCrossingMove; dsimp only
  with_reducible
    repeat'
      first
      | assumption | apply beginMove_kept | apply setCrossing_kept | apply KeptO.next
      | apply Kept.ite | split

theorem moveFails_kept {s0 : State} (s : State) (e : Nat) (m : Move) (result : Nat) (hk : Kept s0 s)
    :
    Kept s0 (moveFails s e m result) := by
  unfold moveFails; dsimp only
  with_reducible
    repeat'
      first
      | intro _ | assumption | apply setCrossing_kept | apply vacate_kept | apply fibreGone_kept
      | apply endMove_kept | apply settleAlloc_kept | apply Kept.ite | apply Kept.foldl

theorem execMoveStepTimeout_kept {s0 : State} (e : OeId) (s : State) (hk : Kept s0 s) :
    KeptO s0 (execMoveStepTimeout e s) := by
  unfold execMoveStepTimeout
  with_reducible
    repeat'
      first
      | assumption | apply moveFails_kept | apply KeptO.next | apply Kept.ite | split

theorem moveDone_kept {s0 : State} (s : State) (e : Nat) (m : Move) (locked : Bool) (tx : Nat) (hk :
    Kept s0 s) :
    Kept s0 (moveDone s e m locked tx) := by
  unfold moveDone; dsimp only
  with_reducible
    repeat'
      first
      | assumption | apply endMove_kept | apply joinLanes_kept | apply moveFails_kept
      | apply Kept.ite

theorem execMoveDone_kept {s0 : State} (e : OeId) (locked : Bool) (tx : BitVec 8) (s : State) (hk :
    Kept s0 s) :
    KeptO s0 (execMoveDone e locked tx s) := by
  unfold execMoveDone
  with_reducible
    repeat'
      first
      | assumption | apply moveDone_kept | apply KeptO.next | apply Kept.ite | split

theorem dither_kept {s0 : State} (s : State) (e : Nat) (cs : List CellCode) (hk : Kept s0 s) :
    Kept s0 (dither s e cs) := by
  unfold dither; dsimp only
  with_reducible
    repeat'
      first
      | intro _ | assumption | apply wr_kept | apply setCrossing_kept | apply raise_kept
      | apply lastErr_kept | apply measureLoss_kept | apply Kept.ite | apply Kept.foldl

theorem execCrossingDither_kept {s0 : State} (e : OeId) (cells : List CellCode) (s : State) (hk :
    Kept s0 s) :
    KeptO s0 (execCrossingDither e cells s) := by
  unfold execCrossingDither
  with_reducible
    repeat'
      first
      | assumption | apply dither_kept | apply KeptO.next | apply Kept.ite

theorem countRelock_kept {s0 : State} (s : State) (l : Nat) (lane : Nat) (hk : Kept s0 s) :
    Kept s0 (countRelock s l lane) := by
  unfold countRelock; dsimp only
  with_reducible
    repeat'
      first
      | assumption | apply setLink_kept | apply bump_kept | apply sendTraining_kept
      | apply Kept.ite

theorem laneDark_kept {s0 : State} (s : State) (l : Nat) (lane : Nat) (hk : Kept s0 s) :
    Kept s0 (laneDark s l lane) := by
  unfold laneDark; dsimp only
  with_reducible
    repeat'
      first
      | assumption | apply retrainRx_kept | apply setLink_kept | apply dropLane_kept
      | apply pilotLost_kept | apply dropLine_kept | apply Kept.ite

theorem relockOrDark_kept {s0 : State} (s : State) (l : Nat) (lane : Nat) (ask : Bool) (hk : Kept s0
    s) :
    Kept s0 (relockOrDark s l lane ask) := by
  unfold relockOrDark; dsimp only
  with_reducible
    repeat'
      first
      | assumption | apply laneDark_kept | apply countRelock_kept | apply sendMsg_kept
      | apply setLink_kept | apply Kept.ite

theorem relocked_kept {s0 : State} (s : State) (l : Nat) (lane : Nat) (hk : Kept s0 s) :
    Kept s0 (relocked s l lane) := by
  unfold relocked; dsimp only
  repeat'
    first
    | intro _ | with_reducible assumption | with_reducible apply setLink_kept
    | with_reducible apply clearMsgOf_kept | with_reducible apply bump_kept
    | with_reducible apply Kept.ite

theorem peerTrained_kept {s0 : State} (s : State) (l : Nat) (hk : Kept s0 s) :
    Kept s0 (peerTrained s l) := by
  unfold peerTrained; dsimp only
  with_reducible
    repeat'
      first
      | assumption | apply txStarts_kept | apply Kept.ite

theorem wordMatches_kept {s0 : State} (s : State) (l : Nat) (lane : Nat) (w : Nat) (peer : Bool)
    (shared : Bool) (hk : Kept s0 s) :
    Kept s0 (wordMatches s l lane w peer shared) := by
  unfold wordMatches; dsimp only
  with_reducible
    repeat'
      first
      | assumption | apply setLink_kept | apply relocked_kept | apply wr_kept
      | apply joinLanes_kept | apply lockLines_kept | apply lineTrained_kept
      | apply peerTrained_kept | apply Kept.ite

theorem miscabled_kept {s0 : State} (s : State) (l : Nat) (lane : Nat) (hk : Kept s0 s) :
    Kept s0 (miscabled s l lane) := by
  unfold miscabled; dsimp only
  with_reducible
    repeat'
      first
      | assumption | apply setLink_kept | apply leaveFibre_kept | apply raise_kept
      | apply lastErr_kept | apply pilotLost_kept | apply dropLine_kept | apply Kept.ite

theorem moveTrains_kept {s0 : State} (s : State) (l : Nat) (lane : Nat) (hk : Kept s0 s) :
    Kept s0 (moveTrains s l lane) := by
  unfold moveTrains; dsimp only
  with_reducible
    repeat'
      first
      | assumption | apply setStep_kept | apply Kept.ite | split

theorem identityWord_kept {s0 : State} (s : State) (l : Nat) (lane : Nat) (w : Nat) (peer : Bool)
    (vers : Nat) (hk : Kept s0 s) :
    Kept s0 (identityWord s l lane w peer vers) := by
  unfold identityWord
  with_reducible
    repeat'
      first
      | assumption | apply moveTrains_kept | apply miscabled_kept | apply relockOrDark_kept
      | apply wordMatches_kept | apply Kept.ite

theorem execLaneIdentityWord_kept {s0 : State} (l : LinkId) (lane : Fin 32) (sides : Sides) (peer :
    Bool) (vers : BitVec 32) (s : State) (hk : Kept s0 s) :
    KeptO s0 (execLaneIdentityWord l lane sides peer vers s) := by
  unfold execLaneIdentityWord
  with_reducible
    repeat'
      first
      | assumption | apply identityWord_kept | apply KeptO.next | split

theorem execIdentityTimeout_kept {s0 : State} (l : LinkId) (lane : Fin 32) (s : State) (hk : Kept s0
    s) :
    KeptO s0 (execIdentityTimeout l lane s) := by
  unfold execIdentityTimeout
  with_reducible
    repeat'
      first
      | assumption | apply relockOrDark_kept | apply moveTrains_kept | apply KeptO.next
      | apply Kept.ite

theorem setNak_kept {s0 : State} (s : State) (l : Nat) (hk : Kept s0 s) :
    Kept s0 (setNak s l) := by
  unfold setNak; dsimp only
  with_reducible
    repeat'
      first
      | assumption | apply bump_kept | apply setLink_kept | apply noteHolds_kept
      | apply sendWord_kept | apply Kept.ite

theorem goodFlit_kept {s0 : State} (s : State) (l : Nat) (b : List Byte) (hk : Kept s0 s) :
    Kept s0 (goodFlit s l b) := by
  unfold goodFlit; dsimp only
  with_reducible
    repeat'
      first
      | assumption | apply setLink_kept | apply bump64_kept | apply clearMsg_kept
      | apply sendWord_kept | apply setNak_kept | apply Kept.ite

theorem countCorrection_kept {s0 : State} (s : State) (l : Nat) (slot : Nat) (byte : Nat) (hk : Kept
    s0 s) :
    Kept s0 (countCorrection s l slot byte) := by
  unfold countCorrection; dsimp only
  with_reducible
    repeat'
      first
      | assumption | apply bump_kept | apply setLink_kept

theorem receiveFlit_kept {s0 : State} (s : State) (l : Nat) (lanes : List (List (BitVec 16))) (hk :
    Kept s0 s) :
    Kept s0 (receiveFlit s l lanes) := by
  unfold receiveFlit; dsimp only
  with_reducible
    repeat'
      first
      | assumption | apply countCorrection_kept | apply setLink_kept | apply goodFlit_kept
      | apply bump_kept | apply setNak_kept | apply wr_kept | apply Kept.ite | split

theorem execFlitReceive_kept {s0 : State} (l : LinkId) (lanes : List (List (BitVec 16))) (s : State)
    (hk : Kept s0 s) :
    KeptO s0 (execFlitReceive l lanes s) := by
  unfold execFlitReceive
  with_reducible
    repeat'
      first
      | assumption | apply receiveFlit_kept | apply KeptO.ite | apply KeptO.next | apply Kept.ite
      | exact KeptO.fault

theorem execNakRepeat_kept {s0 : State} (l : LinkId) (s : State) (hk : Kept s0 s) :
    KeptO s0 (execNakRepeat l s) := by
  unfold execNakRepeat
  repeat'
    first
    | intro _ | with_reducible assumption | with_reducible apply sendWord_kept
    | with_reducible apply setLink_kept | with_reducible apply KeptO.ite
    | with_reducible apply KeptO.next | with_reducible apply Kept.ite

theorem execReplayTimeout_kept {s0 : State} (l : LinkId) (s : State) (hk : Kept s0 s) :
    KeptO s0 (execReplayTimeout l s) := by
  unfold execReplayTimeout
  with_reducible
    repeat'
      first
      | assumption | apply noteHolds_kept | apply replayLink_kept | apply KeptO.next
      | apply Kept.ite

theorem askLater_kept {s0 : State} (s : State) (l : Nat) (msg : Nat) (f : Nat) (hk : Kept s0 s) :
    Kept s0 (askLater s l msg f) := by
  unfold askLater; dsimp only
  with_reducible
    repeat'
      first
      | assumption | apply setLink_kept | apply Kept.ite

theorem msgRelease_kept {s0 : State} (s : State) (l : Nat) (f : Nat) (hk : Kept s0 s) :
    Kept s0 (msgRelease s l f) := by
  unfold msgRelease
  with_reducible
    repeat'
      first
      | assumption | apply leaveFibre_kept | apply sendMsg_kept

theorem msgReleaseDone_kept {s0 : State} (s : State) (l : Nat) (f : Nat) (hk : Kept s0 s) :
    Kept s0 (msgReleaseDone s l f) := by
  unfold msgReleaseDone; dsimp only
  repeat'
    first
    | intro _ | with_reducible assumption | with_reducible apply relDone_kept
    | with_reducible apply fibreGone_kept | with_reducible apply clearMsgOf_kept
    | with_reducible apply Kept.ite | with_reducible apply Kept.foldl
    | with_reducible apply Kept.foldl1 | refine fst_of (by assumption) ?_
    | refine snd_of (by assumption) ?_ | simp only [Kept.upd] | split

theorem msgGrantReq_kept {s0 : State} (s : State) (l : Nat) (f : Nat) (hk : Kept s0 s) :
    Kept s0 (msgGrantReq s l f) := by
  unfold msgGrantReq; dsimp only
  with_reducible
    repeat'
      first
      | assumption | apply sendTraining_kept | apply sendMsg_kept | apply forgetLanes_kept
      | apply Kept.ite

theorem msgGrantAnswer_kept {s0 : State} (s : State) (l : Nat) (f : Nat) (accept : Bool) (hk : Kept
    s0 s) :
    Kept s0 (msgGrantAnswer s l f accept) := by
  unfold msgGrantAnswer; dsimp only
  repeat'
    first
    | intro _ | with_reducible assumption | with_reducible apply clearMsgOf_kept
    | with_reducible apply sendTraining_kept | with_reducible apply setStep_kept
    | with_reducible apply moveFails_kept | with_reducible apply Kept.ite
    | with_reducible apply Kept.foldl | with_reducible apply Kept.foldl1
    | refine fst_of (by assumption) ?_ | refine snd_of (by assumption) ?_ | simp only [Kept.upd]
    | split

theorem msgDrop_kept {s0 : State} (s : State) (l : Nat) (lane : Nat) (hk : Kept s0 s) :
    Kept s0 (msgDrop s l lane) := by
  unfold msgDrop; dsimp only
  with_reducible
    repeat'
      first
      | assumption | apply freeNat_kept | apply checkWidth_kept | apply dropLane_kept
      | apply dropLine_kept | apply Kept.ite

theorem msgRelock_kept {s0 : State} (s : State) (l : Nat) (lane : Nat) (hk : Kept s0 s) :
    Kept s0 (msgRelock s l lane) := by
  unfold msgRelock
  with_reducible
    repeat'
      first
      | assumption | apply bump_kept | apply setLink_kept

theorem msgRetrain_kept {s0 : State} (s : State) (l : Nat) (hk : Kept s0 s) :
    Kept s0 (msgRetrain s l) := by
  unfold msgRetrain
  with_reducible
    repeat'
      first
      | assumption | apply noteHolds_kept | apply retrainTx_kept

theorem msgHandover_kept {s0 : State} (s : State) (l : Nat) (e : Nat) (seq : Nat) (hk : Kept s0 s) :
    Kept s0 (msgHandover s l e seq) := by
  unfold msgHandover; dsimp only
  with_reducible
    repeat'
      first
      | assumption | apply afterDown_kept | apply dirsDown_kept | apply handOver_kept
      | apply Kept.ite

theorem alleyMsg_kept {s0 : State} (s : State) (l : Nat) (msg : Nat) (f : Nat) (hk : Kept s0 s) :
    Kept s0 (alleyMsg s l msg f) := by
  unfold alleyMsg
  with_reducible
    repeat'
      first
      | assumption | apply askLater_kept | apply msgRelease_kept | apply msgReleaseDone_kept
      | apply msgGrantReq_kept | apply msgGrantAnswer_kept | apply Kept.ite

theorem execRelease_kept {s0 : State} (a : AlleyId) (f : Fin 4) (s : State) (hk : Kept s0 s) :
    KeptO s0 (execRelease a f s) := by
  unfold execRelease
  with_reducible
    repeat'
      first
      | assumption | apply alleyMsg_kept | apply KeptO.next | apply Kept.ite

theorem execReleaseDone_kept {s0 : State} (a : AlleyId) (f : Fin 4) (s : State) (hk : Kept s0 s) :
    KeptO s0 (execReleaseDone a f s) := by
  unfold execReleaseDone
  with_reducible
    repeat'
      first
      | assumption | apply alleyMsg_kept | apply KeptO.next | apply Kept.ite

theorem execGrantReq_kept {s0 : State} (a : AlleyId) (f : Fin 4) (s : State) (hk : Kept s0 s) :
    KeptO s0 (execGrantReq a f s) := by
  unfold execGrantReq
  with_reducible
    repeat'
      first
      | assumption | apply alleyMsg_kept | apply KeptO.next | apply Kept.ite

theorem execGrantAccept_kept {s0 : State} (a : AlleyId) (f : Fin 4) (s : State) (hk : Kept s0 s) :
    KeptO s0 (execGrantAccept a f s) := by
  unfold execGrantAccept
  with_reducible
    repeat'
      first
      | assumption | apply alleyMsg_kept | apply KeptO.next | apply Kept.ite

theorem execGrantRefuse_kept {s0 : State} (a : AlleyId) (f : Fin 4) (s : State) (hk : Kept s0 s) :
    KeptO s0 (execGrantRefuse a f s) := by
  unfold execGrantRefuse
  with_reducible
    repeat'
      first
      | assumption | apply alleyMsg_kept | apply KeptO.next | apply Kept.ite

theorem execDropNotice_kept {s0 : State} (l : LinkId) (lane : Fin 32) (s : State) (hk : Kept s0 s) :
    KeptO s0 (execDropNotice l lane s) := by
  unfold execDropNotice
  with_reducible
    repeat'
      first
      | assumption | apply msgDrop_kept | apply KeptO.next | apply Kept.ite

theorem execRelockReq_kept {s0 : State} (l : LinkId) (lane : Fin 32) (s : State) (hk : Kept s0 s) :
    KeptO s0 (execRelockReq l lane s) := by
  unfold execRelockReq
  with_reducible
    repeat'
      first
      | assumption | apply msgRelock_kept | apply KeptO.next | apply Kept.ite

theorem execRetrainReq_kept {s0 : State} (l : LinkId) (s : State) (hk : Kept s0 s) :
    KeptO s0 (execRetrainReq l s) := by
  unfold execRetrainReq
  with_reducible
    repeat'
      first
      | assumption | apply msgRetrain_kept | apply KeptO.next | apply Kept.ite

theorem execHandover_kept {s0 : State} (l : LinkId) (e : OeId) (seq : Fin 65536) (s : State) (hk :
    Kept s0 s) :
    KeptO s0 (execHandover l e seq s) := by
  unfold execHandover
  with_reducible
    repeat'
      first
      | assumption | apply msgHandover_kept | apply KeptO.next | apply Kept.ite

theorem linkMsg_kept {s0 : State} (s : State) (l : Nat) (msg : Nat) (arg : Nat) (hk : Kept s0 s) :
    Kept s0 (linkMsg s l msg arg) := by
  unfold linkMsg; dsimp only
  with_reducible
    repeat'
      first
      | assumption | apply setLink_kept | apply alleyMsg_kept | apply msgDrop_kept
      | apply msgRelock_kept | apply msgRetrain_kept | apply msgHandover_kept | apply Kept.ite

theorem linkWord_kept {s0 : State} (s : State) (l : Nat) (w : Nat) (hk : Kept s0 s) :
    Kept s0 (linkWord s l w) := by
  unfold linkWord; dsimp only
  with_reducible
    repeat'
      first
      | intro _ | assumption | apply setLink_kept | apply noteHolds_kept | apply replayLink_kept
      | apply pumpLink_kept | apply collCheck_kept | apply linkMsg_kept | apply Kept.ite
      | apply Kept.foldl

theorem execLinkWordReceive_kept {s0 : State} (l : LinkId) (sides : Sides) (s : State) (hk : Kept s0
    s) :
    KeptO s0 (execLinkWordReceive l sides s) := by
  unfold execLinkWordReceive
  with_reducible
    repeat'
      first
      | assumption | apply linkWord_kept | apply KeptO.next | apply Kept.ite | split

theorem afterRetrain_kept {s0 : State} (s : State) (l : Nat) (hk : Kept s0 s) :
    Kept s0 (afterRetrain s l) := by
  unfold afterRetrain; dsimp only
  with_reducible
    repeat'
      first
      | intro _ | assumption | apply setLink_kept | apply alleyMsg_kept | apply startRelease_kept
      | apply Kept.foldl | split

theorem retrainEnds_kept {s0 : State} (s : State) (l : Nat) (hk : Kept s0 s) :
    Kept s0 (retrainEnds s l) := by
  unfold retrainEnds; dsimp only
  with_reducible
    repeat'
      first
      | assumption | apply checkWidth_kept | apply alleySettle_kept | apply raise_kept
      | apply wr_kept | apply afterRetrain_kept | apply Kept.ite

theorem resumeTx_kept {s0 : State} (s : State) (l : Nat) (hk : Kept s0 s) :
    Kept s0 (resumeTx s l) := by
  unfold resumeTx; dsimp only
  with_reducible
    repeat'
      first
      | assumption | apply resendAll_kept | apply pumpLink_kept | apply Kept.ite

theorem alleyRxDone_kept {s0 : State} (s : State) (l : Nat) (bad : Nat) (badId : Nat) (hk : Kept s0
    s) :
    Kept s0 (alleyRxDone s l bad badId) := by
  unfold alleyRxDone; dsimp only
  with_reducible
    repeat'
      first
      | intro _ | assumption | apply setRxLanes_kept | apply wr_kept | apply setLink_kept
      | apply dropLane_kept | apply clearMsg_kept | apply retrainEnds_kept | apply Kept.foldl

theorem alleyTxDone_kept {s0 : State} (s : State) (l : Nat) (bad : Nat) (badId : Nat) (hk : Kept s0
    s) :
    Kept s0 (alleyTxDone s l bad badId) := by
  unfold alleyTxDone; dsimp only
  with_reducible
    repeat'
      first
      | intro _ | assumption | apply setTxLanes_kept | apply setLink_kept | apply dropLane_kept
      | apply retrainEnds_kept | apply resumeTx_kept | apply Kept.ite | apply Kept.foldl

theorem lineRetrainDone_kept {s0 : State} (s : State) (l : Nat) (rx : Bool) (bad : Nat) (badId :
    Nat) (hk : Kept s0 s) :
    Kept s0 (lineRetrainDone s l rx bad badId) := by
  unfold lineRetrainDone; dsimp only
  with_reducible
    repeat'
      first
      | assumption | apply clearMsg_kept | apply setLink_kept | apply dropLine_kept
      | apply resumeTx_kept | apply Kept.ite | split

theorem retrainDone_kept {s0 : State} (s : State) (l : Nat) (rx : Bool) (bad : Nat) (badId : Nat)
    (hk : Kept s0 s) :
    Kept s0 (retrainDone s l rx bad badId) := by
  unfold retrainDone; dsimp only
  with_reducible
    repeat'
      first
      | assumption | apply retrainRx_kept | apply noteHolds_kept | apply alleyRxDone_kept
      | apply alleyTxDone_kept | apply lineRetrainDone_kept | apply Kept.ite

theorem execLinkRetrainDone_kept {s0 : State} (l : LinkId) (rx : Bool) (bad : BitVec 32) (badId :
    BitVec 32) (s : State) (hk : Kept s0 s) :
    KeptO s0 (execLinkRetrainDone l rx bad badId s) := by
  unfold execLinkRetrainDone
  with_reducible
    repeat'
      first
      | assumption | apply retrainDone_kept | apply KeptO.next | apply Kept.ite

theorem laneLightLoss_kept {s0 : State} (s : State) (l : Nat) (lane : Nat) (hk : Kept s0 s) :
    Kept s0 (laneLightLoss s l lane) := by
  unfold laneLightLoss; dsimp only
  with_reducible
    repeat'
      first
      | assumption | apply retrainRx_kept | apply setLink_kept | apply noteHolds_kept
      | apply sendMsg_kept

theorem execLaneLightLoss_kept {s0 : State} (l : LinkId) (lane : Fin 32) (s : State) (hk : Kept s0
    s) :
    KeptO s0 (execLaneLightLoss l lane s) := by
  unfold execLaneLightLoss
  with_reducible
    repeat'
      first
      | assumption | apply laneLightLoss_kept | apply KeptO.next | apply Kept.ite

theorem execLinkWordSilence_kept {s0 : State} (a : AlleyId) (s : State) (hk : Kept s0 s) :
    KeptO s0 (execLinkWordSilence a s) := by
  unfold execLinkWordSilence
  with_reducible
    repeat'
      first
      | assumption | apply lastErr_kept | apply alleyFalls_kept | apply KeptO.next | apply Kept.ite

theorem alleyRetrain_kept {s0 : State} (s : State) (l : Nat) (hk : Kept s0 s) :
    Kept s0 (alleyRetrain s l) := by
  unfold alleyRetrain; dsimp only
  repeat'
    first
    | intro _ | with_reducible assumption | with_reducible apply forgetPartner_kept
    | with_reducible apply bump_kept | with_reducible apply wr_kept
    | with_reducible apply setLink_kept | with_reducible apply sendTraining_kept
    | with_reducible apply noteHolds_kept | with_reducible apply sendMsg_kept
    | with_reducible apply Kept.ite

theorem execAlleyRetrain_kept {s0 : State} (req : PortId) (a : AlleyId) (s : State) (hk : Kept s0 s)
    :
    KeptO s0 (execAlleyRetrain req a s) := by
  unfold execAlleyRetrain
  repeat'
    first
    | intro _ | with_reducible assumption | with_reducible apply fieldWrite_kept
    | with_reducible apply alleyRetrain_kept | with_reducible apply KeptO.ite
    | with_reducible apply KeptO.next

theorem takePacket_kept {s0 : State} (s : State) (l : Nat) (rest : List Byte) (hk : Kept s0 s) :
    Kept s0 (takePacket s l rest) := by
  unfold takePacket; dsimp only
  with_reducible
    repeat'
      first
      | assumption | apply setLink_kept | apply sendWord_kept | apply Kept.ite

theorem execPacketReceive_kept {s0 : State} (l : LinkId) (s : State) (hk : Kept s0 s) :
    KeptO s0 (execPacketReceive l s) := by
  unfold execPacketReceive
  repeat'
    first
    | intro _ | with_reducible assumption | with_reducible apply crossData_kept
    | with_reducible apply takePacket_kept | with_reducible apply arrivePacket_kept
    | with_reducible apply KeptO.ite | with_reducible apply KeptO.next
    | with_reducible apply Kept.ite | with_reducible apply Kept.foldl
    | with_reducible apply Kept.foldl1 | with_reducible exact KeptO.fault
    | refine fst_of (by assumption) ?_ | refine snd_of (by assumption) ?_ | simp only [Kept.upd]
    | split

theorem execBeaconReceive_kept {s0 : State} (l : LinkId) (s : State) (hk : Kept s0 s) :
    KeptO s0 (execBeaconReceive l s) := by
  unfold execBeaconReceive
  with_reducible
    repeat'
      first
      | assumption | apply beaconAt_kept | apply takePacket_kept | apply KeptO.next
      | apply Kept.ite | split

theorem execNeighbourAbsent_kept {s0 : State} (p : Fin 36) (s : State) (hk : Kept s0 s) :
    KeptO s0 (execNeighbourAbsent p s) := by
  unfold execNeighbourAbsent
  with_reducible
    repeat'
      first
      | assumption | apply portAbsent_kept | apply portBare_kept | apply KeptO.next
      | apply Kept.ite

theorem execPortAccept_kept {s0 : State} (req : PortId) (mask : BitVec 4) (s : State) (hk : Kept s0
    s) :
    KeptO s0 (execPortAccept req mask s) := by
  unfold execPortAccept
  with_reducible
    repeat'
      first
      | intro _ | assumption | apply fieldWrite_kept | apply acceptPort_kept | apply KeptO.next
      | apply Kept.foldl

theorem execSquareAccept_kept {s0 : State} (req : PortId) (mask : BitVec 32) (s : State) (hk : Kept
    s0 s) :
    KeptO s0 (execSquareAccept req mask s) := by
  unfold execSquareAccept
  with_reducible
    repeat'
      first
      | intro _ | assumption | apply fieldWrite_kept | apply acceptPort_kept | apply KeptO.next
      | apply Kept.foldl

theorem quarterWord_kept {s0 : State} (s : State) (i : Nat) (w : Nat) (v : Nat) (hk : Kept s0 s) :
    Kept s0 (quarterWord s i w v) := by
  unfold quarterWord; dsimp only
  with_reducible
    repeat'
      first
      | assumption | apply wr_kept | apply Kept.ite

theorem quarterWrite_kept {s0 : State} (s : State) (i : Nat) (ws : List (Nat × Nat)) (hk : Kept s0
    s) :
    Kept s0 (quarterWrite s i ws) := by
  unfold quarterWrite; dsimp only
  with_reducible
    repeat'
      first
      | intro _ | assumption | apply raise_kept | apply quarterWord_kept | apply Kept.ite
      | apply Kept.foldl

theorem execQuarterEntryWrite_kept {s0 : State} (req : PortId) (i : Fin 4) (word : Fin 3) (value :
    BitVec 32) (s : State) (hk : Kept s0 s) :
    KeptO s0 (execQuarterEntryWrite req i word value s) := by
  unfold execQuarterEntryWrite
  repeat'
    first
    | intro _ | with_reducible assumption | with_reducible apply guardedWrite_kept
    | with_reducible apply quarterWrite_kept | with_reducible apply KeptO.ite
    | with_reducible apply KeptO.next

theorem execCollInstanceStart_kept {s0 : State} (key : Nat) (errs : SectorErrs) (s : State) (hk :
    Kept s0 s) :
    KeptO s0 (execCollInstanceStart key errs s) := by
  unfold execCollInstanceStart
  with_reducible
    repeat'
      first
      | assumption | apply collPumpAll_kept | apply collStart_kept | apply KeptO.next
      | apply Kept.ite | split

theorem takeColl_kept {s0 s t : State} {p : List Byte → Bool} {b : List Byte} (hk : Kept s0 s)
    (h : takeColl s p = some (b, t)) : Kept s0 t := by
  unfold takeColl at h
  split at h
  · cases h
  · cases h; exact hk.of_eq rfl rfl rfl rfl rfl rfl rfl

theorem onArrival_kept {s0 : State} (s : State) (p : List Byte → Bool) (errs : SectorErrs) (act :
    State → List Byte → State) (hk : Kept s0 s) (h_act : ∀ y p, Kept s0 y → Kept s0 (act y p)) :
    KeptO s0 (onArrival s p errs act) := by
  unfold onArrival
  with_reducible
    repeat'
      first
      | intro _ | assumption | apply h_act | apply collPumpAll_kept | apply KeptO.next
      | apply Kept.ite | refine takeColl_kept ?_ (by assumption) | split

theorem execCollReadyReceive_kept {s0 : State} (errs : SectorErrs) (s : State) (hk : Kept s0 s) :
    KeptO s0 (execCollReadyReceive errs s) := by
  unfold execCollReadyReceive
  repeat'
    first
    | intro _ | with_reducible assumption | with_reducible apply onArrival_kept
    | with_reducible apply collReady_kept

theorem countWait_kept {s0 : State} (s : State) (b : List Byte) (hk : Kept s0 s) :
    Kept s0 (countWait s b) := by
  unfold countWait; dsimp only
  with_reducible
    repeat'
      first
      | assumption | apply freeNat_kept | apply bump64_kept | split

theorem execCollDataReceive_kept {s0 : State} (errs : SectorErrs) (s : State) (hk : Kept s0 s) :
    KeptO s0 (execCollDataReceive errs s) := by
  unfold execCollDataReceive
  repeat'
    first
    | intro _ | with_reducible assumption | with_reducible apply onArrival_kept
    | with_reducible apply collData_kept | with_reducible apply countWait_kept

theorem execCollAbortReceive_kept {s0 : State} (s : State) (hk : Kept s0 s) :
    KeptO s0 (execCollAbortReceive s) := by
  unfold execCollAbortReceive
  with_reducible
    repeat'
      first
      | assumption | apply onArrival_kept | apply collAbortIn_kept

theorem execCollBlockFold_kept {s0 : State} (key : Nat) (idx : Nat) (errs : SectorErrs) (s : State)
    (hk : Kept s0 s) :
    KeptO s0 (execCollBlockFold key idx errs s) := by
  unfold execCollBlockFold
  with_reducible
    repeat'
      first
      | assumption | apply collPumpAll_kept | apply collFold_kept | apply KeptO.next
      | apply Kept.ite

theorem holdIn_kept {s0 : State} (s : State) (b : List Byte) (hk : Kept s0 s) :
    Kept s0 (holdIn s b) := by
  unfold holdIn
  with_reducible
    repeat'
      first
      | assumption | apply noteHold_kept | apply setColl_kept | split

theorem execCollHoldReceive_kept {s0 : State} (s : State) (hk : Kept s0 s) :
    KeptO s0 (execCollHoldReceive s) := by
  unfold execCollHoldReceive
  with_reducible
    repeat'
      first
      | assumption | apply onArrival_kept | apply holdIn_kept

theorem onColl_kept {s0 : State} (s : State) (key : Nat) (p : Coll → Bool) (act : State → Coll →
    State) (hk : Kept s0 s) (h_act : ∀ y p, Kept s0 y → Kept s0 (act y p)) :
    KeptO s0 (onColl s key p act) := by
  unfold onColl
  with_reducible
    repeat'
      first
      | intro _ | assumption | apply h_act | apply KeptO.next | apply Kept.ite | split

theorem execCollHoldSend_kept {s0 : State} (key : Nat) (s : State) (hk : Kept s0 s) :
    KeptO s0 (execCollHoldSend key s) := by
  unfold execCollHoldSend; dsimp only
  with_reducible
    repeat'
      first
      | intro _ | assumption | apply onColl_kept | apply sendCtl_kept | apply countHold_kept
      | apply setColl_kept | apply Kept.foldl

theorem execCollHoldExpire_kept {s0 : State} (key : Nat) (rank : Nat) (s : State) (hk : Kept s0 s) :
    KeptO s0 (execCollHoldExpire key rank s) := by
  unfold execCollHoldExpire
  repeat'
    first
    | intro _ | with_reducible assumption | with_reducible apply onColl_kept
    | with_reducible apply setColl_kept

theorem execCollHoldExhausted_kept {s0 : State} (key : Nat) (s : State) (hk : Kept s0 s) :
    KeptO s0 (execCollHoldExhausted key s) := by
  unfold execCollHoldExhausted; dsimp only
  with_reducible
    repeat'
      first
      | intro _ | assumption | apply onColl_kept | apply countHold_kept | apply raise_kept
      | apply setColl_kept | apply Kept.foldl

theorem execCollStartTimeout_kept {s0 : State} (key : Nat) (s : State) (hk : Kept s0 s) :
    KeptO s0 (execCollStartTimeout key s) := by
  unfold execCollStartTimeout
  repeat'
    first
    | intro _ | with_reducible assumption | with_reducible apply onColl_kept
    | with_reducible apply collPumpAll_kept | with_reducible apply collEnd_kept

theorem execCollProgressTimeout_kept {s0 : State} (key : Nat) (s : State) (hk : Kept s0 s) :
    KeptO s0 (execCollProgressTimeout key s) := by
  unfold execCollProgressTimeout
  repeat'
    first
    | intro _ | with_reducible assumption | with_reducible apply onColl_kept
    | with_reducible apply collPumpAll_kept | with_reducible apply collEnd_kept

theorem collAbort_kept {s0 : State} (s : State) (e : Nat) (hk : Kept s0 s) :
    Kept s0 (collAbort s e) := by
  unfold collAbort
  with_reducible
    repeat'
      first
      | assumption | apply collEndAll_kept

theorem execCollAbort_kept {s0 : State} (req : PortId) (e : CollId) (s : State) (hk : Kept s0 s) :
    KeptO s0 (execCollAbort req e s) := by
  unfold execCollAbort
  repeat'
    first
    | intro _ | with_reducible assumption | with_reducible apply fieldWrite_kept
    | with_reducible apply collAbort_kept | with_reducible apply KeptO.ite
    | with_reducible apply KeptO.next

theorem execCommandFetch_kept {s0 : State} (d : DistId) (entry : Option (List Byte)) (desc : Option
    (List Byte)) (refused : Bool) (s : State) (hk : Kept s0 s) :
    KeptO s0 (execCommandFetch d entry desc refused s) := by
  unfold execCommandFetch
  with_reducible
    repeat'
      first
      | assumption | apply fetchNext_kept | apply KeptO.ite | apply KeptO.next | exact KeptO.fault

theorem startRow_kept {s0 : State} (name : String) (d : DistId) (h : CmdHdr) (c : Cmd) (desc :
    Option (List Byte)) (refused : Bool) (s : State) (hk : Kept s0 s) :
    KeptO s0 (startRow name d h c desc refused s) := by
  unfold startRow
  with_reducible
    repeat'
      first
      | assumption | apply startNext_kept | apply KeptO.ite | apply KeptO.next | exact KeptO.fault

theorem execNop_kept {s0 : State} (d : DistId) (h : CmdHdr) (refused : Bool) (s : State) (hk : Kept
    s0 s) :
    KeptO s0 (execNop d h refused s) := by
  unfold execNop
  with_reducible
    repeat'
      first
      | assumption | apply startRow_kept

theorem execWriteMem_kept {s0 : State} (d : DistId) (h : CmdHdr) (host : Nat) (dev : Nat) (len :
    Nat) (refused : Bool) (s : State) (hk : Kept s0 s) :
    KeptO s0 (execWriteMem d h host dev len refused s) := by
  unfold execWriteMem
  with_reducible
    repeat'
      first
      | assumption | apply startRow_kept

theorem execReadMem_kept {s0 : State} (d : DistId) (h : CmdHdr) (host : Nat) (dev : Nat) (len : Nat)
    (refused : Bool) (s : State) (hk : Kept s0 s) :
    KeptO s0 (execReadMem d h host dev len refused s) := by
  unfold execReadMem
  with_reducible
    repeat'
      first
      | assumption | apply startRow_kept

theorem execFill_kept {s0 : State} (d : DistId) (h : CmdHdr) (dev : Nat) (len : Nat) (pattern : Nat)
    (refused : Bool) (s : State) (hk : Kept s0 s) :
    KeptO s0 (execFill d h dev len pattern refused s) := by
  unfold execFill
  with_reducible
    repeat'
      first
      | assumption | apply startRow_kept

theorem execLoadImage_kept {s0 : State} (d : DistId) (h : CmdHdr) (host : Nat) (size : Nat) (slot :
    Nat) (refused : Bool) (s : State) (hk : Kept s0 s) :
    KeptO s0 (execLoadImage d h host size slot refused s) := by
  unfold execLoadImage
  with_reducible
    repeat'
      first
      | assumption | apply startRow_kept

theorem execLaunch_kept {s0 : State} (d : DistId) (h : CmdHdr) (slot : Nat) (args : List Nat)
    (refused : Bool) (s : State) (hk : Kept s0 s) :
    KeptO s0 (execLaunch d h slot args refused s) := by
  unfold execLaunch
  with_reducible
    repeat'
      first
      | assumption | apply startRow_kept

theorem execWaitEvent_kept {s0 : State} (d : DistId) (h : CmdHdr) (event : Nat) (count : Nat)
    (timeout : Nat) (refused : Bool) (s : State) (hk : Kept s0 s) :
    KeptO s0 (execWaitEvent d h event count timeout refused s) := by
  unfold execWaitEvent
  with_reducible
    repeat'
      first
      | assumption | apply startRow_kept

theorem execSignalEvent_kept {s0 : State} (d : DistId) (h : CmdHdr) (target : Nat) (counter : Nat)
    (refused : Bool) (s : State) (hk : Kept s0 s) :
    KeptO s0 (execSignalEvent d h target counter refused s) := by
  unfold execSignalEvent
  with_reducible
    repeat'
      first
      | assumption | apply startRow_kept

theorem execCollective_kept {s0 : State} (d : DistId) (h : CmdHdr) (addr : Nat) (arg : Nat) (slot :
    Nat) (desc : Option (List Byte)) (refused : Bool) (s : State) (hk : Kept s0 s) :
    KeptO s0 (execCollective d h addr arg slot desc refused s) := by
  unfold execCollective
  with_reducible
    repeat'
      first
      | assumption | apply startRow_kept

theorem execPhaseHint_kept {s0 : State} (d : DistId) (h : CmdHdr) (cls : Nat) (lead : Nat) (dies :
    Nat) (refused : Bool) (s : State) (hk : Kept s0 s) :
    KeptO s0 (execPhaseHint d h cls lead dies refused s) := by
  unfold execPhaseHint
  with_reducible
    repeat'
      first
      | assumption | apply startRow_kept

theorem execRespare_kept {s0 : State} (d : DistId) (h : CmdHdr) (die : Nat) (row : Nat) (refused :
    Bool) (s : State) (hk : Kept s0 s) :
    KeptO s0 (execRespare d h die row refused s) := by
  unfold execRespare
  with_reducible
    repeat'
      first
      | assumption | apply startRow_kept

theorem execFence_kept {s0 : State} (d : DistId) (h : CmdHdr) (target : Nat) (refused : Bool) (s :
    State) (hk : Kept s0 s) :
    KeptO s0 (execFence d h target refused s) := by
  unfold execFence
  with_reducible
    repeat'
      first
      | assumption | apply startRow_kept

theorem endRow_kept {s0 : State} (s : State) (d : Nat) (seq : Nat) (refused : Bool) (act : State →
    Job → State) (hk : Kept s0 s) (h_act : ∀ y p, Kept s0 y → Kept s0 (act y p)) :
    Kept s0 (endRow s d seq refused act) := by
  unfold endRow
  with_reducible
    repeat'
      first
      | intro _ | assumption | apply h_act | apply withRefuse_kept | split

theorem execDmaComplete_kept {s0 : State} (d : DistId) (seq : Nat) (data : List Byte) (takes : Nat)
    (errs : SectorErrs) (refused : Bool) (s : State) (hk : Kept s0 s) :
    KeptO s0 (execDmaComplete d seq data takes errs refused s) := by
  unfold execDmaComplete
  repeat'
    first
    | intro _ | with_reducible assumption | with_reducible apply endRow_kept
    | with_reducible apply dmaRun_kept | with_reducible apply KeptO.ite
    | with_reducible apply KeptO.next

theorem execLoadImageDone_kept {s0 : State} (d : DistId) (seq : Nat) (data : List Byte) (refused :
    Bool) (s : State) (hk : Kept s0 s) :
    KeptO s0 (execLoadImageDone d seq data refused s) := by
  unfold execLoadImageDone
  repeat'
    first
    | intro _ | with_reducible assumption | with_reducible apply endRow_kept
    | with_reducible apply loadEnd_kept | with_reducible apply KeptO.ite
    | with_reducible apply KeptO.next

theorem waitTimeout_kept {s0 : State} (s : State) (d : Nat) (j : Job) (hk : Kept s0 s) :
    Kept s0 (waitTimeout s d j) := by
  unfold waitTimeout
  with_reducible
    repeat'
      first
      | assumption | apply finishJob_kept | apply Kept.ite | split

theorem execWaitEventTimeout_kept {s0 : State} (d : DistId) (refused : Bool) (s : State) (hk : Kept
    s0 s) :
    KeptO s0 (execWaitEventTimeout d refused s) := by
  unfold execWaitEventTimeout
  repeat'
    first
    | intro _ | with_reducible assumption | with_reducible apply withRefuse_kept
    | with_reducible apply waitTimeout_kept | with_reducible apply KeptO.ite
    | with_reducible apply KeptO.next | with_reducible apply Kept.ite
    | with_reducible apply Kept.foldl | with_reducible apply Kept.foldl1
    | with_reducible exact KeptO.fault | refine fst_of (by assumption) ?_
    | refine snd_of (by assumption) ?_ | simp only [Kept.upd] | split

theorem execRespareDone_kept {s0 : State} (d : DistId) (fails : BitVec 32) (refused : Bool) (s :
    State) (hk : Kept s0 s) :
    KeptO s0 (execRespareDone d fails refused s) := by
  unfold execRespareDone
  repeat'
    first
    | intro _ | with_reducible assumption | with_reducible apply withRefuse_kept
    | with_reducible apply respareEnd_kept | with_reducible apply KeptO.ite
    | with_reducible apply KeptO.next | with_reducible apply Kept.ite
    | with_reducible apply Kept.foldl | with_reducible apply Kept.foldl1
    | with_reducible exact KeptO.fault | refine fst_of (by assumption) ?_
    | refine snd_of (by assumption) ?_ | simp only [Kept.upd] | split

theorem execModerationTimer_kept {s0 : State} (d : DistId) (s : State) (hk : Kept s0 s) :
    KeptO s0 (execModerationTimer d s) := by
  unfold execModerationTimer
  with_reducible
    repeat'
      first
      | assumption | apply fireVector0_kept | apply KeptO.next | apply Kept.ite

theorem cmdprocReset_kept {s0 : State} (s : State) (d : Nat) (entries : List (List Byte)) (refused :
    Bool) (hk : Kept s0 s) :
    Kept s0 (cmdprocReset s d entries refused) := by
  unfold cmdprocReset
  repeat'
    first
    | intro _ | with_reducible assumption | with_reducible apply withRefuse_kept
    | with_reducible apply wr_kept | with_reducible apply abortAll_kept

theorem cmdprocSoft_kept {s0 : State} (s : State) (d : Nat) (entries : List (List Byte)) (refused :
    Bool) (hk : Kept s0 s) :
    Kept s0 (cmdprocSoft s d entries refused) := by
  unfold cmdprocSoft
  repeat'
    first
    | intro _ | with_reducible assumption | with_reducible apply resetOrWait_kept
    | with_reducible apply cmdprocReset_kept

theorem execCmdprocSoftReset_kept {s0 : State} (req : PortId) (d : DistId) (entries : List (List
    Byte)) (refused : Bool) (s : State) (hk : Kept s0 s) :
    KeptO s0 (execCmdprocSoftReset req d entries refused s) := by
  unfold execCmdprocSoftReset
  repeat'
    first
    | intro _ | with_reducible assumption | with_reducible apply fieldWrite_kept
    | with_reducible apply cmdprocSoft_kept | with_reducible apply KeptO.ite
    | with_reducible apply KeptO.next

end Sys2Proof.Laws
end

