-- ==== Sys2Proof/Laws/KeptTiles.lean ====
section
/-!
SUPPORT. Laws/KeptTiles.lean: what `Kept` says, of the commands of slices, engines, tiles, the mesh,
Twilight and the register pages. Each lemma says that an operation keeps it, whatever its arguments
are.
-/
set_option linter.unusedVariables false
open Sys2Proof Sys2Proof.Machine Sys2Proof.Safety
namespace Sys2Proof.Laws

theorem sliceRequest_kept {s0 : State} (s : State) (d : Nat) (n : Nat) (off : Nat) (act : State →
    State) (hk : Kept s0 s) (h_act : ∀ y, Kept s0 y → Kept s0 (act y)) :
    Kept s0 (sliceRequest s d n off act) := by
  unfold sliceRequest; dsimp only
  with_reducible
    repeat'
      first
      | intro _ | assumption | apply h_act | apply refuse_kept | apply Kept.ite

theorem execSliceRead_kept {s0 : State} (t : TileId) (d : DistId) (sec : SectorId) (req : Fin 4)
    (err : Option SectorErr) (s : State) (hk : Kept s0 s) :
    KeptO s0 (execSliceRead t d sec req err s) := by
  unfold execSliceRead
  repeat'
    first
    | intro _ | with_reducible assumption | with_reducible apply sliceRequest_kept
    | with_reducible apply sliceSector_kept | with_reducible apply KeptO.ite
    | with_reducible apply KeptO.next | with_reducible apply Kept.ite

theorem execSliceWrite_kept {s0 : State} (t : TileId) (d : DistId) (sec : SectorId) (bytes : List
    Byte) (s : State) (hk : Kept s0 s) :
    KeptO s0 (execSliceWrite t d sec bytes s) := by
  unfold execSliceWrite
  repeat'
    first
    | intro _ | with_reducible assumption | with_reducible apply sliceRequest_kept
    | with_reducible apply pollHost_kept | with_reducible apply sliceWriteSector_kept
    | with_reducible apply KeptO.ite | with_reducible apply KeptO.next
    | with_reducible apply Kept.ite | with_reducible apply Kept.foldl
    | with_reducible apply Kept.foldl1 | with_reducible exact KeptO.fault

theorem execNarrowWrite_kept {s0 : State} (t : TileId) (d : DistId) (sec : SectorId) (lo : Fin 32)
    (bytes : List Byte) (s : State) (hk : Kept s0 s) :
    KeptO s0 (execNarrowWrite t d sec lo bytes s) := by
  unfold execNarrowWrite
  repeat'
    first
    | intro _ | with_reducible assumption | with_reducible apply sliceRequest_kept
    | with_reducible apply gather_kept | with_reducible apply KeptO.ite
    | with_reducible apply KeptO.next | with_reducible apply Kept.ite
    | with_reducible apply Kept.foldl | with_reducible apply Kept.foldl1
    | with_reducible exact KeptO.fault

theorem mergeAged_kept {s0 : State} (s : State) (n : Nat) (sec : Nat) (hk : Kept s0 s) :
    Kept s0 (mergeAged s n sec) := by
  unfold mergeAged; dsimp only
  with_reducible
    repeat'
      first
      | assumption | apply Kept.setSlice | apply XOk.mem | apply XOk.check | apply XOk.buf
      | apply Kept.slice | simp only [XOk.upd] | refine And.intro ?_ ?_

theorem execMergeAgeExpire_kept {s0 : State} (t : TileId) (sec : Nat) (s : State) (hk : Kept s0 s) :
    KeptO s0 (execMergeAgeExpire t sec s) := by
  unfold execMergeAgeExpire
  with_reducible
    repeat'
      first
      | assumption | apply mergeAged_kept | apply KeptO.next | apply Kept.ite

theorem mergeFlush_kept {s0 : State} (s : State) (n : Nat) (sec : Nat) (err : Option SectorErr) (hk
    : Kept s0 s) :
    Kept s0 (mergeFlush s n sec err) := by
  unfold mergeFlush
  with_reducible
    repeat'
      first
      | assumption | apply flushSector_kept | apply Kept.ite | split

theorem execMergeFlush_kept {s0 : State} (t : TileId) (sec : Nat) (err : Option SectorErr) (s :
    State) (hk : Kept s0 s) :
    KeptO s0 (execMergeFlush t sec err s) := by
  unfold execMergeFlush
  with_reducible
    repeat'
      first
      | assumption | apply pollHost_kept | apply mergeFlush_kept | apply KeptO.next
      | apply Kept.ite

theorem execSliceRefresh_kept {s0 : State} (t : TileId) (s : State) (hk : Kept s0 s) :
    KeptO s0 (execSliceRefresh t s) := by
  unfold execSliceRefresh
  with_reducible
    repeat'
      first
      | assumption | apply bump64_kept | apply refreshOps_kept | apply KeptO.next | apply Kept.ite

theorem scrubSector_kept {s0 : State} (s : State) (n : Nat) (err : Option SectorErr) (hk : Kept s0
    s) :
    Kept s0 (scrubSector s n err) := by
  unfold scrubSector; dsimp only
  with_reducible
    repeat'
      first
      | assumption | apply flushSector_kept | apply readSector_kept | apply putSector_kept
      | apply raise_kept | apply lastErr_kept | apply bump_kept | apply wr_kept | apply Kept.ite
      | split

theorem execScrubRead_kept {s0 : State} (t : TileId) (err : Option SectorErr) (s : State) (hk : Kept
    s0 s) :
    KeptO s0 (execScrubRead t err s) := by
  unfold execScrubRead
  with_reducible
    repeat'
      first
      | assumption | apply scrubSector_kept | apply KeptO.next | apply Kept.ite

theorem sliceSoft_kept {s0 : State} (s : State) (n : Nat) (errs : SectorErrs) (hk : Kept s0 s) :
    Kept s0 (sliceSoft s n errs) := by
  unfold sliceSoft
  with_reducible
    repeat'
      first
      | assumption | apply clearFields_kept | apply flushAll_kept | apply Kept.ite

theorem execSliceSoftReset_kept {s0 : State} (req : PortId) (t : TileId) (errs : SectorErrs) (s :
    State) (hk : Kept s0 s) :
    KeptO s0 (execSliceSoftReset req t errs s) := by
  unfold execSliceSoftReset
  repeat'
    first
    | intro _ | with_reducible assumption | with_reducible apply fieldWrite_kept
    | with_reducible apply sliceSoft_kept | with_reducible apply KeptO.ite
    | with_reducible apply KeptO.next

theorem windowRequest_kept {s0 : State} (s : State) (d : Nat) (n : Nat) (off : Nat) (bytes : List
    Byte) (act : State → List Byte → State) (hk : Kept s0 s) (h_act : ∀ y p, Kept s0 y → Kept s0
    (act y p)) :
    Kept s0 (windowRequest s d n off bytes act) := by
  unfold windowRequest
  repeat'
    first
    | intro _ | with_reducible assumption | with_reducible apply h_act
    | with_reducible apply refuse_kept | with_reducible apply plazaData_kept
    | with_reducible apply Kept.ite | with_reducible apply Kept.foldl
    | with_reducible apply Kept.foldl1 | with_reducible apply XOk.ite
    | with_reducible apply XOk.foldl | with_reducible apply MOk.store
    | with_reducible apply MOk.write | with_reducible apply MOk.foldl
    | with_reducible apply MOk.ite | with_reducible apply XOk.mem | with_reducible apply XOk.check
    | with_reducible apply XOk.buf | with_reducible apply Kept.slice | simp only [XOk.upd]
    | refine And.intro ?_ ?_ | with_reducible exact XOk.empty | with_reducible exact MOk.nil
    | refine fst_of (by assumption) ?_ | refine snd_of (by assumption) ?_ | simp only [Kept.upd]
    | split

theorem windowPut_kept {s0 : State} (s : State) (d : Nat) (n : Nat) (off : Nat) (bytes : List Byte)
    (hk : Kept s0 s) :
    Kept s0 (windowPut s d n off bytes) := by
  unfold windowPut; dsimp only
  with_reducible
    repeat'
      first
      | assumption | apply winWrite_kept | apply refuse_kept | split

theorem execEngineWindowAccess_kept {s0 : State} (t : TileId) (d : DistId) (off : Fin 1048576) (req
    : Fin 4) (data : Option (List Byte)) (err : Option SectorErr) (s : State) (hk : Kept s0 s) :
    KeptO s0 (execEngineWindowAccess t d off req data err s) := by
  unfold execEngineWindowAccess
  repeat'
    first
    | intro _ | with_reducible assumption | with_reducible apply windowRequest_kept
    | with_reducible apply winSectorRead_kept | with_reducible apply windowPut_kept
    | with_reducible apply KeptO.ite | with_reducible apply KeptO.next
    | with_reducible apply Kept.ite | with_reducible apply Kept.foldl
    | with_reducible apply Kept.foldl1 | with_reducible exact KeptO.fault
    | refine fst_of (by assumption) ?_ | refine snd_of (by assumption) ?_ | simp only [Kept.upd]
    | split

theorem execEngineModeWrite_kept {s0 : State} (t : TileId) (d : DistId) (word : Nat) (s : State) (hk
    : Kept s0 s) :
    KeptO s0 (execEngineModeWrite t d word s) := by
  unfold execEngineModeWrite
  repeat'
    first
    | intro _ | with_reducible assumption | with_reducible apply windowRequest_kept
    | with_reducible apply modeWrite_kept | with_reducible apply KeptO.ite
    | with_reducible apply KeptO.next

theorem modeEntered_kept {s0 : State} (s : State) (n : Nat) (hk : Kept s0 s) :
    Kept s0 (modeEntered s n) := by
  unfold modeEntered; dsimp only
  with_reducible
    repeat'
      first
      | assumption | apply Kept.setSlice | apply Kept.ite | apply XOk.mem | apply XOk.check
      | apply XOk.buf | apply Kept.slice | simp only [XOk.upd] | refine And.intro ?_ ?_

theorem execEngineModeEntered_kept {s0 : State} (t : TileId) (s : State) (hk : Kept s0 s) :
    KeptO s0 (execEngineModeEntered t s) := by
  unfold execEngineModeEntered
  with_reducible
    repeat'
      first
      | assumption | apply modeEntered_kept | apply KeptO.next | apply Kept.ite

theorem modeLeft_kept {s0 : State} (s : State) (n : Nat) (hk : Kept s0 s) :
    Kept s0 (modeLeft s n) := by
  unfold modeLeft; dsimp only
  with_reducible
    repeat'
      first
      | assumption | apply engineTime_kept | apply pollLaunches_kept | apply leaveDone_kept
      | apply Kept.ite

theorem execEngineModeLeft_kept {s0 : State} (t : TileId) (s : State) (hk : Kept s0 s) :
    KeptO s0 (execEngineModeLeft t s) := by
  unfold execEngineModeLeft
  with_reducible
    repeat'
      first
      | assumption | apply collPumpAll_kept | apply pollHost_kept | apply modeLeft_kept
      | apply KeptO.next | apply Kept.ite

theorem execEngineGo_kept {s0 : State} (t : TileId) (d : DistId) (word : Nat) (s : State) (hk : Kept
    s0 s) :
    KeptO s0 (execEngineGo t d word s) := by
  unfold execEngineGo
  repeat'
    first
    | intro _ | with_reducible assumption | with_reducible apply windowRequest_kept
    | with_reducible apply goWrite_kept | with_reducible apply KeptO.ite
    | with_reducible apply KeptO.next

theorem goAccept_kept {s0 : State} (s : State) (n : Nat) (hk : Kept s0 s) :
    Kept s0 (goAccept s n) := by
  unfold goAccept; dsimp only
  with_reducible
    repeat'
      first
      | assumption | apply startRun_kept | apply repayRefresh_kept | apply Kept.setSlice
      | apply Kept.ite | apply XOk.mem | apply XOk.check | apply XOk.buf | apply Kept.slice
      | simp only [XOk.upd] | refine And.intro ?_ ?_ | split

theorem execEngineGoAccept_kept {s0 : State} (t : TileId) (s : State) (hk : Kept s0 s) :
    KeptO s0 (execEngineGoAccept t s) := by
  unfold execEngineGoAccept
  with_reducible
    repeat'
      first
      | assumption | apply pollHost_kept | apply goAccept_kept | apply KeptO.next | apply Kept.ite

theorem execEnginePass_kept {s0 : State} (t : TileId) (errs : EngErrs) (s : State) (hk : Kept s0 s)
    :
    KeptO s0 (execEnginePass t errs s) := by
  unfold execEnginePass
  with_reducible
    repeat'
      first
      | assumption | apply runPass_kept | apply KeptO.next | apply Kept.ite

theorem runComplete_kept {s0 : State} (s : State) (n : Nat) (hk : Kept s0 s) :
    Kept s0 (runComplete s n) := by
  unfold runComplete; dsimp only
  with_reducible
    repeat'
      first
      | assumption | apply engineTime_kept | apply countRun_kept | apply settleSlice_kept
      | apply Kept.setSlice | apply Kept.ite | apply XOk.mem | apply XOk.check | apply XOk.buf
      | apply Kept.slice | simp only [XOk.upd] | refine And.intro ?_ ?_ | split

theorem execEngineRunComplete_kept {s0 : State} (t : TileId) (s : State) (hk : Kept s0 s) :
    KeptO s0 (execEngineRunComplete t s) := by
  unfold execEngineRunComplete
  with_reducible
    repeat'
      first
      | assumption | apply pollHost_kept | apply runComplete_kept | apply KeptO.next
      | apply Kept.ite

theorem hubRefresh_kept {s0 : State} (s : State) (n : Nat) (hk : Kept s0 s) :
    Kept s0 (hubRefresh s n) := by
  unfold hubRefresh; dsimp only
  with_reducible
    repeat'
      first
      | assumption | apply refreshIntervals_kept | apply wr_kept | apply Kept.ite

theorem execHubRefreshDue_kept {s0 : State} (t : TileId) (s : State) (hk : Kept s0 s) :
    KeptO s0 (execHubRefreshDue t s) := by
  unfold execHubRefreshDue
  with_reducible
    repeat'
      first
      | assumption | apply hubRefresh_kept | apply KeptO.next | apply Kept.ite

theorem execRefreshPause_kept {s0 : State} (t : TileId) (s : State) (hk : Kept s0 s) :
    KeptO s0 (execRefreshPause t s) := by
  unfold execRefreshPause; dsimp only
  with_reducible
    repeat'
      first
      | assumption | apply bump_kept | apply wr_kept | apply KeptO.next | apply Kept.ite

theorem execRefreshPauseEnd_kept {s0 : State} (t : TileId) (s : State) (hk : Kept s0 s) :
    KeptO s0 (execRefreshPauseEnd t s) := by
  unfold execRefreshPauseEnd; dsimp only
  with_reducible
    repeat'
      first
      | assumption | apply freeNat_kept | apply wr_kept | apply repayRefresh_kept
      | apply bump64_kept | apply KeptO.next | apply Kept.ite

theorem engineEnable_kept {s0 : State} (s : State) (n : Nat) (on : Bool) (hk : Kept s0 s) :
    Kept s0 (engineEnable s n on) := by
  unfold engineEnable; dsimp only
  with_reducible
    repeat'
      first
      | assumption | apply wr_kept | apply Kept.setSlice | apply Kept.ite | apply XOk.mem
      | apply XOk.check | apply XOk.buf | apply Kept.slice | simp only [XOk.upd]
      | refine And.intro ?_ ?_

theorem execEngineEnableWrite_kept {s0 : State} (req : PortId) (t : TileId) (on : Bool) (s : State)
    (hk : Kept s0 s) :
    KeptO s0 (execEngineEnableWrite req t on s) := by
  unfold execEngineEnableWrite
  repeat'
    first
    | intro _ | with_reducible assumption | with_reducible apply fieldWrite_kept
    | with_reducible apply wr_kept | with_reducible apply engineEnable_kept
    | with_reducible apply KeptO.ite | with_reducible apply KeptO.next
    | with_reducible apply Kept.ite

theorem engineSoft_kept {s0 : State} (s : State) (n : Nat) (hk : Kept s0 s) :
    Kept s0 (engineSoft s n) := by
  unfold engineSoft
  repeat'
    first
    | intro _ | with_reducible assumption | with_reducible apply resetOrWait_kept
    | with_reducible apply engineReset_kept | with_reducible apply Kept.ite

theorem execEngineSoftReset_kept {s0 : State} (req : PortId) (t : TileId) (s : State) (hk : Kept s0
    s) :
    KeptO s0 (execEngineSoftReset req t s) := by
  unfold execEngineSoftReset
  repeat'
    first
    | intro _ | with_reducible assumption | with_reducible apply fieldWrite_kept
    | with_reducible apply engineSoft_kept | with_reducible apply KeptO.ite
    | with_reducible apply KeptO.next

theorem execMxLdw_kept {s0 : State} (t : TileId) (f : LdwF) (s : State) (hk : Kept s0 s) :
    KeptO s0 (execMxLdw t f s) := by
  unfold execMxLdw
  with_reducible
    repeat'
      first
      | assumption | apply slotIssue_kept | apply KeptO.next

theorem execMxRun_kept {s0 : State} (t : TileId) (f : RunF) (s : State) (hk : Kept s0 s) :
    KeptO s0 (execMxRun t f s) := by
  unfold execMxRun
  with_reducible
    repeat'
      first
      | assumption | apply slotIssue_kept | apply KeptO.ite | apply KeptO.next | exact KeptO.fault

theorem execMxWin_kept {s0 : State} (t : TileId) (f : WinF) (s : State) (hk : Kept s0 s) :
    KeptO s0 (execMxWin t f s) := by
  unfold execMxWin
  with_reducible
    repeat'
      first
      | assumption | apply slotIssue_kept | apply KeptO.ite | apply KeptO.next | exact KeptO.fault

theorem execNxSend_kept {s0 : State} (t : TileId) (o : Fin 16) (route : Fin 64) (n : Nat) (csrc :
    Bool) (sc : Fin 32) (s : State) (hk : Kept s0 s) :
    KeptO s0 (execNxSend t o route n csrc sc s) := by
  unfold execNxSend
  with_reducible
    repeat'
      first
      | assumption | apply slotIssue_kept | apply KeptO.ite | apply KeptO.next | exact KeptO.fault

theorem execNxSig_kept {s0 : State} (t : TileId) (route : Fin 64) (s : State) (hk : Kept s0 s) :
    KeptO s0 (execNxSig t route s) := by
  unfold execNxSig
  with_reducible
    repeat'
      first
      | assumption | apply slotIssue_kept | apply KeptO.next

theorem execNxWait_kept {s0 : State} (t : TileId) (e : Fin 8) (sb : Fin 32) (s : State) (hk : Kept
    s0 s) :
    KeptO s0 (execNxWait t e sb s) := by
  unfold execNxWait
  with_reducible
    repeat'
      first
      | assumption | apply slotIssue_kept | apply KeptO.next

theorem execNxColl_kept {s0 : State} (t : TileId) (entry : Fin 64) (e : Fin 8) (sa : Fin 32) (s :
    State) (hk : Kept s0 s) :
    KeptO s0 (execNxColl t entry e sa s) := by
  unfold execNxColl
  with_reducible
    repeat'
      first
      | assumption | apply slotIssue_kept | apply KeptO.next

theorem execNxHevt_kept {s0 : State} (t : TileId) (event : Fin 256) (s : State) (hk : Kept s0 s) :
    KeptO s0 (execNxHevt t event s) := by
  unfold execNxHevt
  with_reducible
    repeat'
      first
      | assumption | apply slotIssue_kept | apply KeptO.next

theorem execMeshLineArrive_kept {s0 : State} (src : MeshFrom) (lines : Nat) (s : State) (hk : Kept
    s0 s) :
    KeptO s0 (execMeshLineArrive src lines s) := by
  unfold execMeshLineArrive
  with_reducible
    repeat'
      first
      | assumption | apply sendLines_kept | apply remoteLine_kept | apply sendCorrupted_kept
      | apply KeptO.next | split

theorem execMeshSignalArrive_kept {s0 : State} (src : SigFrom) (s : State) (hk : Kept s0 s) :
    KeptO s0 (execMeshSignalArrive src s) := by
  unfold execMeshSignalArrive
  with_reducible
    repeat'
      first
      | assumption | apply sendSig_kept | apply remoteSig_kept | apply KeptO.next | split

theorem execMeshCreditReturn_kept {s0 : State} (t : TileId) (far : Option FarQueue) (s : State) (hk
    : Kept s0 s) :
    KeptO s0 (execMeshCreditReturn t far s) := by
  unfold execMeshCreditReturn
  with_reducible
    repeat'
      first
      | assumption | apply creditBack_kept | apply KeptO.next

theorem execMoverRead_kept {s0 : State} (t : TileId) (ch : Fin 8) (lines : Nat) (errs : SectorErrs)
    (s : State) (hk : Kept s0 s) :
    KeptO s0 (execMoverRead t ch lines errs s) := by
  unfold execMoverRead
  with_reducible
    repeat'
      first
      | assumption | apply moverStep_kept | apply KeptO.next

theorem execMoverWrite_kept {s0 : State} (t : TileId) (ch : Fin 8) (lines : Nat) (s : State) (hk :
    Kept s0 s) :
    KeptO s0 (execMoverWrite t ch lines s) := by
  unfold execMoverWrite
  with_reducible
    repeat'
      first
      | assumption | apply moverStep_kept | apply KeptO.next

theorem execMoverFill_kept {s0 : State} (t : TileId) (ch : Fin 8) (lines : Nat) (s : State) (hk :
    Kept s0 s) :
    KeptO s0 (execMoverFill t ch lines s) := by
  unfold execMoverFill
  with_reducible
    repeat'
      first
      | assumption | apply moverStep_kept | apply KeptO.next

theorem execMoverTread_kept {s0 : State} (t : TileId) (ch : Fin 8) (lines : Nat) (errs : SectorErrs)
    (s : State) (hk : Kept s0 s) :
    KeptO s0 (execMoverTread t ch lines errs s) := by
  unfold execMoverTread
  with_reducible
    repeat'
      first
      | assumption | apply moverStep_kept | apply KeptO.next

theorem execChannelHalt_kept {s0 : State} (t : TileId) (ch : Fin 8) (errs : SectorErrs) (s : State)
    (hk : Kept s0 s) :
    KeptO s0 (execChannelHalt t ch errs s) := by
  unfold execChannelHalt
  with_reducible
    repeat'
      first
      | assumption | apply moverHalt_kept | apply KeptO.next

theorem execMoverCommandDone_kept {s0 : State} (t : TileId) (ch : Fin 8) (s : State) (hk : Kept s0
    s) :
    KeptO s0 (execMoverCommandDone t ch s) := by
  unfold execMoverCommandDone
  with_reducible
    repeat'
      first
      | assumption | apply moverDone_kept | apply KeptO.next

theorem moverWord_kept {s0 : State} (s : State) (n : Nat) (off : Nat) (v : Nat) (hk : Kept s0 s) :
    Kept s0 (moverWord s n off v) := by
  unfold moverWord; dsimp only
  with_reducible
    repeat'
      first
      | assumption | apply Kept.setTile | apply Kept.ite | apply TOk.data | apply TOk.code
      | apply Kept.tile | simp only [TOk.upd] | refine And.intro ?_ ?_

theorem moverConfig_kept {s0 : State} (s : State) (req : Nat) (n : Nat) (route : Option Nat) (value
    : Nat) (hk : Kept s0 s) :
    Kept s0 (moverConfig s req n route value) := by
  unfold moverConfig; dsimp only
  with_reducible
    repeat'
      first
      | assumption | apply regRefused_kept | apply Kept.setTile | apply Kept.ite | apply TOk.data
      | apply TOk.code | apply Kept.tile | simp only [TOk.upd] | refine And.intro ?_ ?_ | split

theorem execMoverConfigWrite_kept {s0 : State} (req : PortId) (t : TileId) (route : Option (Fin 64))
    (value : Nat) (s : State) (hk : Kept s0 s) :
    KeptO s0 (execMoverConfigWrite req t route value s) := by
  unfold execMoverConfigWrite
  with_reducible
    repeat'
      first
      | assumption | apply moverConfig_kept | apply KeptO.next

theorem execBundleIssue_kept {s0 : State} (t : TileId) (errs : CycleErrs) (s : State) (hk : Kept s0
    s) :
    KeptO s0 (execBundleIssue t errs s) := by
  unfold execBundleIssue
  with_reducible
    repeat'
      first
      | assumption | apply bundleIssue_kept | apply KeptO.next

theorem execWaitRelease_kept {s0 : State} (t : TileId) (errs : CycleErrs) (s : State) (hk : Kept s0
    s) :
    KeptO s0 (execWaitRelease t errs s) := by
  unfold execWaitRelease
  with_reducible
    repeat'
      first
      | assumption | apply waitRelease_kept | apply KeptO.next

theorem execPacingCycle_kept {s0 : State} (t : TileId) (s : State) (hk : Kept s0 s) :
    KeptO s0 (execPacingCycle t s) := by
  unfold execPacingCycle
  with_reducible
    repeat'
      first
      | assumption | apply pacingCycle_kept | apply KeptO.next

theorem execParityRetry_kept {s0 : State} (t : TileId) (fails : List Nat) (s : State) (hk : Kept s0
    s) :
    KeptO s0 (execParityRetry t fails s) := by
  unfold execParityRetry
  with_reducible
    repeat'
      first
      | assumption | apply parityRetry_kept | apply KeptO.next

theorem execRegisterResultLand_kept {s0 : State} (t : TileId) (s : State) (hk : Kept s0 s) :
    KeptO s0 (execRegisterResultLand t s) := by
  unfold execRegisterResultLand
  with_reducible
    repeat'
      first
      | assumption | apply resultLand_kept | apply KeptO.next

theorem execArrayResultLand_kept {s0 : State} (t : TileId) (s : State) (hk : Kept s0 s) :
    KeptO s0 (execArrayResultLand t s) := by
  unfold execArrayResultLand
  with_reducible
    repeat'
      first
      | assumption | apply resultLand_kept | apply KeptO.next

theorem execTrapSettled_kept {s0 : State} (t : TileId) (s : State) (hk : Kept s0 s) :
    KeptO s0 (execTrapSettled t s) := by
  unfold execTrapSettled
  with_reducible
    repeat'
      first
      | assumption | apply trapSettled_kept | apply KeptO.next

theorem execTileComplete_kept {s0 : State} (t : TileId) (s : State) (hk : Kept s0 s) :
    KeptO s0 (execTileComplete t s) := by
  unfold execTileComplete
  with_reducible
    repeat'
      first
      | assumption | apply tileComplete_kept | apply KeptO.next

theorem execSlipTimeout_kept {s0 : State} (t : TileId) (s : State) (hk : Kept s0 s) :
    KeptO s0 (execSlipTimeout t s) := by
  unfold execSlipTimeout
  with_reducible
    repeat'
      first
      | assumption | apply slipTimeout_kept | apply KeptO.next

theorem tileReset_kept {s0 : State} (s : State) (n : Nat) (hk : Kept s0 s) :
    Kept s0 (tileReset s n) := by
  unfold tileReset; dsimp only
  with_reducible
    repeat'
      first
      | assumption | apply softResetTile_kept | apply clearFields_kept | apply Kept.setTile
      | apply endOfTile_kept | apply Kept.ite | apply TOk.data | apply TOk.code | apply Kept.tile
      | simp only [TOk.upd] | refine And.intro ?_ ?_

theorem execTileSoftReset_kept {s0 : State} (req : PortId) (t : TileId) (s : State) (hk : Kept s0 s)
    :
    KeptO s0 (execTileSoftReset req t s) := by
  unfold execTileSoftReset
  repeat'
    first
    | intro _ | with_reducible assumption | with_reducible apply fieldWrite_kept
    | with_reducible apply tileReset_kept | with_reducible apply KeptO.ite
    | with_reducible apply KeptO.next

theorem clearMover_kept {s0 : State} (s : State) (n : Nat) (hk : Kept s0 s) :
    Kept s0 (clearMover s n) := by
  unfold clearMover; dsimp only
  with_reducible
    repeat'
      first
      | assumption | apply dropInbound_kept | apply Kept.setTile | apply TOk.data | apply TOk.code
      | apply Kept.tile | simp only [TOk.upd] | refine And.intro ?_ ?_

theorem moverReset_kept {s0 : State} (s : State) (n : Nat) (hk : Kept s0 s) :
    Kept s0 (moverReset s n) := by
  unfold moverReset
  with_reducible
    repeat'
      first
      | assumption | apply clearFields_kept | apply clearMover_kept | apply Kept.ite

theorem moverSoft_kept {s0 : State} (s : State) (n : Nat) (hk : Kept s0 s) :
    Kept s0 (moverSoft s n) := by
  unfold moverSoft
  repeat'
    first
    | intro _ | with_reducible assumption | with_reducible apply resetOrWait_kept
    | with_reducible apply moverReset_kept | with_reducible apply Kept.ite

theorem execMoverSoftReset_kept {s0 : State} (req : PortId) (t : TileId) (s : State) (hk : Kept s0
    s) :
    KeptO s0 (execMoverSoftReset req t s) := by
  unfold execMoverSoftReset
  repeat'
    first
    | intro _ | with_reducible assumption | with_reducible apply fieldWrite_kept
    | with_reducible apply moverSoft_kept | with_reducible apply KeptO.ite
    | with_reducible apply KeptO.next

theorem askController_kept {s0 : State} (s : State) (n : Nat) (hk : Kept s0 s) :
    Kept s0 (askController s n) := by
  unfold askController
  with_reducible
    repeat'
      first
      | assumption | apply modeWrite_kept | apply Kept.setSlice | apply Kept.ite | apply XOk.mem
      | apply XOk.check | apply XOk.buf | apply Kept.slice | simp only [XOk.upd]
      | refine And.intro ?_ ?_

theorem twRequest_kept {s0 : State} (s : State) (keep : Bool) (hk : Kept s0 s) :
    Kept s0 (twRequest s keep) := by
  unfold twRequest; dsimp only
  with_reducible
    repeat'
      first
      | intro _ | assumption | apply wr_kept | apply raise_kept | apply lastErr_kept
      | apply askController_kept | apply Kept.ite | apply Kept.foldl

theorem execTwReq_kept {s0 : State} (req : PortId) (keep : Bool) (s : State) (hk : Kept s0 s) :
    KeptO s0 (execTwReq req keep s) := by
  unfold execTwReq
  repeat'
    first
    | intro _ | with_reducible assumption | with_reducible apply fieldWrite_kept
    | with_reducible apply twRequest_kept | with_reducible apply KeptO.ite
    | with_reducible apply KeptO.next

theorem gateTile_kept {s0 : State} (t : Tile) (h_t : TOk s0 t) :
    TOk s0 (gateTile t) := by
  unfold gateTile
  with_reducible
    repeat'
      first
      | assumption | simp only [TOk.upd] | refine And.intro ?_ ?_ | exact MOk.nil

theorem gateSlice_kept {s0 : State} (s : State) (n : Nat) (hk : Kept s0 s) :
    Kept s0 (gateSlice s n) := by
  unfold gateSlice
  with_reducible
    repeat'
      first
      | assumption | apply Kept.setSlice | apply unwriteBuffers_kept | apply Kept.slice

theorem gateEngine_kept {s0 : State} (s : State) (e : Nat) (hk : Kept s0 s) :
    Kept s0 (gateEngine s e) := by
  unfold gateEngine
  with_reducible
    repeat'
      first
      | assumption | apply wr_kept | apply lasersOff_kept | apply engineDark_kept | apply Kept.ite

theorem beginExit_kept {s0 : State} (s : State) (cause : Nat) (hk : Kept s0 s) :
    Kept s0 (beginExit s cause) := by
  unfold beginExit
  with_reducible
    repeat'
      first
      | assumption | apply wr_kept

theorem Kept.gated {s0 s : State} (h : Kept s0 s) (f : Tile → Tile) (hf : ∀ t, TOk s0 t → TOk s0 (f
    t)) :
    Kept s0 { s with tiles := s.tiles.map (fun kv => (kv.1, f kv.2)), images := [] } where
  regs hr := by
    have k := h.regs hr
    simp only [regsOk, Bool.and_eq_true] at k ⊢
    exact ⟨k.1, rfl⟩
  mem hm := by
    have hx := h.mem hm
    simp only [memOk, Bool.and_eq_true, List.all_eq_true] at hx ⊢
    refine ⟨fun y hy => ?_, hx.2⟩
    obtain ⟨kv, hkv, rfl⟩ := List.mem_map.1 hy
    exact (hf kv.2 ⟨fun _ => hx.1 kv hkv⟩).ok hm
  fuses := h.fuses
  pend := h.pend
  sent := h.sent

theorem twEntered_kept {s0 : State} (s : State) (hk : Kept s0 s) : Kept s0 (twEntered s) := by
  have h1 : Kept s0 ((liveSlices s).foldl gateSlice s) :=
    hk.foldl _ (fun y a h => gateSlice_kept y a h)
  have h2 := h1.gated gateTile (fun t ht => gateTile_kept t ht)
  unfold twEntered; dsimp only
  repeat' (first | intro _ | with_reducible assumption | with_reducible apply beginExit_kept | with_reducible apply wr_kept | with_reducible apply bump_kept | with_reducible apply raise_kept | with_reducible apply logEvent_kept | with_reducible apply gateEngine_kept | with_reducible apply Kept.ite | with_reducible apply Kept.foldl)

theorem execTwEntryDone_kept {s0 : State} (s : State) (hk : Kept s0 s) :
    KeptO s0 (execTwEntryDone s) := by
  unfold execTwEntryDone
  with_reducible
    repeat'
      first
      | assumption | apply twEntered_kept | apply KeptO.next | apply Kept.ite

theorem twExit_kept {s0 : State} (s : State) (keep : Bool) (hk : Kept s0 s) :
    Kept s0 (twExit s keep) := by
  unfold twExit
  with_reducible
    repeat'
      first
      | assumption | apply wake_kept | apply wr_kept

theorem execTwExit_kept {s0 : State} (req : PortId) (keep : Bool) (s : State) (hk : Kept s0 s) :
    KeptO s0 (execTwExit req keep s) := by
  unfold execTwExit
  repeat'
    first
    | intro _ | with_reducible assumption | with_reducible apply fieldWrite_kept
    | with_reducible apply twExit_kept | with_reducible apply KeptO.ite
    | with_reducible apply KeptO.next

theorem twLeft_kept {s0 : State} (s : State) (st : List OeStart) (hk : Kept s0 s) :
    Kept s0 (twLeft s st) := by
  unfold twLeft; dsimp only
  with_reducible
    repeat'
      first
      | intro _ | assumption | apply engineStarted_kept | apply wr_kept | apply logEvent_kept
      | apply raise_kept | apply Kept.ite | apply Kept.foldl | split

theorem execTwExitDone_kept {s0 : State} (st : List OeStart) (s : State) (hk : Kept s0 s) :
    KeptO s0 (execTwExitDone st s) := by
  unfold execTwExitDone
  with_reducible
    repeat'
      first
      | assumption | apply twLeft_kept | apply KeptO.ite | apply KeptO.next | apply Kept.ite
      | exact KeptO.fault

theorem captureErr_kept {s0 : State} (s : State) (p : PageId) (hk : Kept s0 s) :
    Kept s0 (captureErr s p) := by
  unfold captureErr; dsimp only
  with_reducible
    repeat'
      first
      | assumption | simp only [Kept.upd]

theorem readWord_kept {s0 : State} (s : State) (req : Nat) (p : PageId) (off : Nat) (hk : Kept s0 s)
    :
    Kept s0 (readWord s req p off).1 := by
  unfold readWord; dsimp only
  with_reducible
    repeat'
      first
      | assumption | apply captureErr_kept | apply Kept.ite1 | simp only [Kept.upd] | split

theorem readPair_kept {s0 : State} (s : State) (req : Nat) (p : PageId) (off : Nat) (hk : Kept s0 s)
    :
    Kept s0 (readPair s req p off).1 := by
  unfold readPair; dsimp only
  with_reducible
    repeat'
      first
      | assumption | apply captureErr_kept | apply Kept.ite

theorem readReg_kept {s0 : State} (s : State) (req : Nat) (o : Nat) (wide : Bool) (hk : Kept s0 s) :
    Kept s0 (readReg s req o wide).1 := by
  unfold readReg
  with_reducible
    repeat'
      first
      | assumption | apply readPair_kept | apply readWord_kept | apply Kept.ite1 | split

theorem hostRead_kept {s0 : State} (s : State) (req : Nat) (o : Nat) (size : Nat) (hk : Kept s0 s) :
    Kept s0 (hostRead s req o size) := by
  unfold hostRead; dsimp only
  with_reducible
    repeat'
      first
      | assumption | apply regRefused_kept | apply readReg_kept | apply emit_kept | apply Kept.ite

theorem execErrAddrLoRead_kept {s0 : State} (req : PortId) (page : Fin 16384) (size : Nat) (s :
    State) (hk : Kept s0 s) :
    KeptO s0 (execErrAddrLoRead req page size s) := by
  unfold execErrAddrLoRead
  with_reducible
    repeat'
      first
      | assumption | apply hostRead_kept | apply KeptO.next

theorem execLoHalfRead_kept {s0 : State} (req : PortId) (off : Fin 67108864) (size : Nat) (s :
    State) (hk : Kept s0 s) :
    KeptO s0 (execLoHalfRead req off size s) := by
  unfold execLoHalfRead
  with_reducible
    repeat'
      first
      | assumption | apply hostRead_kept | apply KeptO.next

theorem execSetOffset_kept {s0 : State} (offset : BitVec 32) (pec : Bool) (s : State) (hk : Kept s0
    s) :
    KeptO s0 (execSetOffset offset pec s) := by
  unfold execSetOffset
  with_reducible
    repeat'
      first
      | assumption | apply KeptO.next | apply Kept.ite | simp only [Kept.upd]

theorem smbRead_kept {s0 : State} (s : State) (wide : Bool) (hk : Kept s0 s) :
    Kept s0 (smbRead s wide) := by
  unfold smbRead; dsimp only
  with_reducible
    repeat'
      first
      | assumption | apply readReg_kept | apply emit_kept | simp only [Kept.upd] | split

theorem execRead32_kept {s0 : State} (s : State) (hk : Kept s0 s) :
    KeptO s0 (execRead32 s) := by
  unfold execRead32
  with_reducible
    repeat'
      first
      | assumption | apply smbRead_kept | apply KeptO.next | apply Kept.ite

theorem execRead64_kept {s0 : State} (s : State) (hk : Kept s0 s) :
    KeptO s0 (execRead64 s) := by
  unfold execRead64
  with_reducible
    repeat'
      first
      | assumption | apply smbRead_kept | apply KeptO.next | apply Kept.ite

theorem hostWrite_kept {s0 : State} (s : State) (req : Nat) (o : Nat) (size : Nat) (v : Nat) (act :
    PageId → Nat → State → State) (hk : Kept s0 s) (h_act : ∀ p i y, Kept s0 y → Kept s0 (act p i
    y)) :
    Kept s0 (hostWrite s req o size v act) := by
  unfold hostWrite; dsimp only
  with_reducible
    repeat'
      first
      | intro _ | assumption | apply h_act | apply regRefused_kept | apply Kept.ite | split

theorem hdrWrite_kept {s0 : State} (s : State) (req : Nat) (page : Nat) (f : Fld) (act : PageId →
    State → State) (hk : Kept s0 s) (h_act : ∀ p y, Kept s0 y → Kept s0 (act p y)) :
    Kept s0 (hdrWrite s req page f act) := by
  unfold hdrWrite
  with_reducible
    repeat'
      first
      | intro _ | assumption | apply h_act | apply hostWrite_kept

theorem resetWaited_kept {s0 : State} (s : State) (p : PageId) (x : ResetIn) (hk : Kept s0 s) :
    Kept s0 (resetWaited s p x) := by
  unfold resetWaited; dsimp only
  with_reducible
    repeat'
      first
      | assumption | apply cmdprocReset_kept | apply engineReset_kept | apply moverReset_kept
      | apply Kept.ite | simp only [Kept.upd] | split

theorem softReset_kept {s0 : State} (s : State) (p : PageId) (x : ResetIn) (hk : Kept s0 s) :
    Kept s0 (softReset s p x) := by
  unfold softReset
  with_reducible
    repeat'
      first
      | assumption | apply tileReset_kept | apply moverSoft_kept | apply engineSoft_kept
      | apply sliceSoft_kept | apply cmdprocSoft_kept | split

theorem startBlock_kept {s0 : State} (p : PageId) (s : State) (hk : Kept s0 s) :
    Kept s0 (startBlock p s) := by
  unfold startBlock; dsimp only
  with_reducible
    repeat'
      first
      | assumption | apply setProc_kept | apply Kept.ite

theorem drainBlock_kept {s0 : State} (p : PageId) (s : State) (hk : Kept s0 s) :
    Kept s0 (drainBlock p s) := by
  unfold drainBlock
  with_reducible
    repeat'
      first
      | assumption | apply engineDark_kept | apply Kept.ite

theorem enableWrite_kept {s0 : State} (s : State) (p : PageId) (on : Bool) (hk : Kept s0 s) :
    Kept s0 (enableWrite s p on) := by
  unfold enableWrite
  with_reducible
    repeat'
      first
      | assumption | apply wr_kept | apply engineEnable_kept | apply raise_kept
      | apply lastErr_kept | apply blockEnable_kept | apply startBlock_kept | apply drainBlock_kept
      | apply Kept.ite

theorem execBlockEnableWrite_kept {s0 : State} (req : PortId) (page : Fin 16384) (on : Bool) (s :
    State) (hk : Kept s0 s) :
    KeptO s0 (execBlockEnableWrite req page on s) := by
  unfold execBlockEnableWrite
  repeat'
    first
    | intro _ | with_reducible assumption | with_reducible apply hdrWrite_kept
    | with_reducible apply enableWrite_kept | with_reducible apply KeptO.ite
    | with_reducible apply KeptO.next

theorem blockGoesOn_kept {s0 : State} (s : State) (p : PageId) (hk : Kept s0 s) :
    Kept s0 (blockGoesOn s p) := by
  unfold blockGoesOn
  repeat'
    first
    | intro _ | with_reducible assumption | with_reducible apply reapply_kept
    | with_reducible apply flowsGoOn_kept | with_reducible apply Kept.ite
    | with_reducible apply Kept.foldl | with_reducible apply Kept.foldl1
    | refine fst_of (by assumption) ?_ | refine snd_of (by assumption) ?_ | simp only [Kept.upd]
    | split

theorem startDone_kept {s0 : State} (s : State) (p : PageId) (st : Option OeStart) (x : ResetIn) (hk
    : Kept s0 s) :
    Kept s0 (startDone s p st x) := by
  unfold startDone; dsimp only
  repeat'
    first
    | intro _ | with_reducible assumption | with_reducible apply engineStarted_kept
    | with_reducible apply blockStarted_kept | with_reducible apply drainBlock_kept
    | with_reducible apply blockGoesOn_kept | with_reducible apply pollLaunches_kept
    | with_reducible apply resetWaited_kept | with_reducible apply Kept.ite
    | with_reducible apply Kept.foldl | with_reducible apply Kept.foldl1
    | refine fst_of (by assumption) ?_ | refine snd_of (by assumption) ?_ | simp only [Kept.upd]
    | split

theorem onPage_kept {s0 : State} (s : State) (page : Nat) (act : PageId → State) (hk : Kept s0 s)
    (h_act : ∀ p, Kept s0 (act p)) :
    Kept s0 (onPage s page act) := by
  unfold onPage
  with_reducible
    repeat'
      first
      | intro _ | assumption | apply h_act | apply Kept.ite | split

theorem execBlockStartDone_kept {s0 : State} (page : Fin 16384) (st : Option OeStart) (x : ResetIn)
    (s : State) (hk : Kept s0 s) :
    KeptO s0 (execBlockStartDone page st x s) := by
  unfold execBlockStartDone
  repeat'
    first
    | intro _ | with_reducible assumption | with_reducible apply onPage_kept
    | with_reducible apply startDone_kept | with_reducible apply KeptO.ite
    | with_reducible apply KeptO.next | with_reducible apply Kept.ite
    | with_reducible apply Kept.foldl | with_reducible apply Kept.foldl1
    | with_reducible exact KeptO.fault

theorem drainDone_kept {s0 : State} (s : State) (p : PageId) (x : ResetIn) (hk : Kept s0 s) :
    Kept s0 (drainDone s p x) := by
  unfold drainDone; dsimp only
  with_reducible
    repeat'
      first
      | assumption | apply wr_kept | apply lasersOff_kept | apply resetWaited_kept
      | apply startBlock_kept | apply Kept.ite

theorem execBlockDrainDone_kept {s0 : State} (page : Fin 16384) (x : ResetIn) (s : State) (hk : Kept
    s0 s) :
    KeptO s0 (execBlockDrainDone page x s) := by
  unfold execBlockDrainDone
  repeat'
    first
    | intro _ | with_reducible assumption | with_reducible apply onPage_kept
    | with_reducible apply drainDone_kept | with_reducible apply KeptO.ite
    | with_reducible apply KeptO.next

theorem execPageSoftReset_kept {s0 : State} (req : PortId) (page : Fin 16384) (x : ResetIn) (s :
    State) (hk : Kept s0 s) :
    KeptO s0 (execPageSoftReset req page x s) := by
  unfold execPageSoftReset
  repeat'
    first
    | intro _ | with_reducible assumption | with_reducible apply hdrWrite_kept
    | with_reducible apply softReset_kept | with_reducible apply KeptO.ite
    | with_reducible apply KeptO.next

theorem ctrlWrite_kept {s0 : State} (s : State) (req : Nat) (p : PageId) (lock : Bool) (on : Bool)
    (soft : Option ResetIn) (hk : Kept s0 s) :
    Kept s0 (ctrlWrite s req p lock on soft) := by
  unfold ctrlWrite; dsimp only
  with_reducible
    repeat'
      first
      | assumption | apply wr_kept | apply softReset_kept | apply enableWrite_kept | apply Kept.ite
      | split

theorem execLockWrite_kept {s0 : State} (req : PortId) (page : Fin 16384) (lock : Bool) (on : Bool)
    (soft : Option ResetIn) (s : State) (hk : Kept s0 s) :
    KeptO s0 (execLockWrite req page lock on soft s) := by
  unfold execLockWrite
  repeat'
    first
    | intro _ | with_reducible assumption | with_reducible apply hdrWrite_kept
    | with_reducible apply ctrlWrite_kept | with_reducible apply KeptO.ite
    | with_reducible apply KeptO.next

theorem forceWrite_kept {s0 : State} (s : State) (p : PageId) (v : Nat) (hk : Kept s0 s) :
    Kept s0 (forceWrite s p v) := by
  unfold forceWrite
  with_reducible
    repeat'
      first
      | assumption | apply deliver_kept | apply wr_kept

theorem intEnable_kept {s0 : State} (s : State) (p : PageId) (v : Nat) (hk : Kept s0 s) :
    Kept s0 (intEnable s p v) := by
  unfold intEnable
  with_reducible
    repeat'
      first
      | assumption | apply deliver_kept | apply wr_kept

theorem execIntForceWrite_kept {s0 : State} (req : PortId) (page : Fin 16384) (value : BitVec 32) (s
    : State) (hk : Kept s0 s) :
    KeptO s0 (execIntForceWrite req page value s) := by
  unfold execIntForceWrite
  repeat'
    first
    | intro _ | with_reducible assumption | with_reducible apply hdrWrite_kept
    | with_reducible apply forceWrite_kept | with_reducible apply KeptO.ite
    | with_reducible apply KeptO.next

theorem execIntStatusClear_kept {s0 : State} (req : PortId) (page : Fin 16384) (value : BitVec 32)
    (s : State) (hk : Kept s0 s) :
    KeptO s0 (execIntStatusClear req page value s) := by
  unfold execIntStatusClear
  repeat'
    first
    | intro _ | with_reducible assumption | with_reducible apply hdrWrite_kept
    | with_reducible apply clearRaw_kept | with_reducible apply KeptO.ite
    | with_reducible apply KeptO.next

theorem execIntEnableWrite_kept {s0 : State} (req : PortId) (page : Fin 16384) (value : BitVec 32)
    (s : State) (hk : Kept s0 s) :
    KeptO s0 (execIntEnableWrite req page value s) := by
  unfold execIntEnableWrite
  repeat'
    first
    | intro _ | with_reducible assumption | with_reducible apply hdrWrite_kept
    | with_reducible apply intEnable_kept | with_reducible apply KeptO.ite
    | with_reducible apply KeptO.next

theorem eoi_kept {s0 : State} (s : State) (d : Nat) (mask : Nat) (hk : Kept s0 s) :
    Kept s0 (eoi s d mask) := by
  unfold eoi; dsimp only
  with_reducible
    repeat'
      first
      | intro _ | assumption | apply wr_kept | apply deliver1_kept | apply Kept.ite
      | apply Kept.foldl

theorem execIntEoi_kept {s0 : State} (req : PortId) (d : DistId) (mask : BitVec 8) (s : State) (hk :
    Kept s0 s) :
    KeptO s0 (execIntEoi req d mask s) := by
  unfold execIntEoi
  repeat'
    first
    | intro _ | with_reducible assumption | with_reducible apply fieldWrite_kept
    | with_reducible apply eoi_kept | with_reducible apply KeptO.ite
    | with_reducible apply KeptO.next

theorem msixWrite_kept {s0 : State} (s : State) (d : Nat) (v : Nat) (e : MsixEntry) (hk : Kept s0 s)
    :
    Kept s0 (msixWrite s d v e) := by
  unfold msixWrite; dsimp only
  with_reducible
    repeat'
      first
      | assumption | apply sendVector_kept | apply Kept.ite | simp only [Kept.upd]

theorem execMsixUnmask_kept {s0 : State} (f : PortId) (v : Fin 8) (e : MsixEntry) (s : State) (hk :
    Kept s0 s) :
    KeptO s0 (execMsixUnmask f v e s) := by
  unfold execMsixUnmask
  with_reducible
    repeat'
      first
      | assumption | apply msixWrite_kept | apply KeptO.next | apply Kept.ite

theorem glbApply_kept {s0 : State} (s : State) (d : Nat) (base : Nat) (size : Nat) (hk : Kept s0 s)
    :
    Kept s0 (glbApply s d base size) := by
  unfold glbApply; dsimp only
  with_reducible
    repeat'
      first
      | assumption | apply raise_kept | apply wr_kept | apply Kept.ite | simp only [Kept.upd]

theorem glbWrite_kept {s0 : State} (s : State) (req : Nat) (d : Nat) (base : Option Nat) (size :
    Option Nat) (hk : Kept s0 s) :
    Kept s0 (glbWrite s req d base size) := by
  unfold glbWrite
  with_reducible
    repeat'
      first
      | assumption | apply raise_kept | apply glbApply_kept | apply Kept.ite | simp only [Kept.upd]
      | split

theorem execDistGlbWrite_kept {s0 : State} (req : PortId) (d : DistId) (base : Option (Fin 512))
    (size : Option (Fin 512)) (s : State) (hk : Kept s0 s) :
    KeptO s0 (execDistGlbWrite req d base size s) := by
  unfold execDistGlbWrite; dsimp only
  with_reducible
    repeat'
      first
      | assumption | apply regRefused_kept | apply glbWrite_kept | apply KeptO.ite
      | apply KeptO.next | apply Kept.ite | exact KeptO.fault

theorem afterWrite_kept {s0 : State} (old : State) (s : State) (p : PageId) (f : Fld) (refused :
    Bool) (hk : Kept s0 s) :
    Kept s0 (afterWrite old s p f refused) := by
  unfold afterWrite
  with_reducible
    repeat'
      first
      | intro _ | assumption | apply raise_kept | apply lockLines_kept | apply stopTx_kept
      | apply dirsDown_kept | apply txFell_kept | apply withRefuse_kept | apply pollWaits_kept
      | apply Kept.ite | apply Kept.foldl

theorem fieldApply_kept {s0 : State} (s : State) (p : PageId) (f : Fld) (i : Nat) (v : Nat) (refused
    : Bool) (hk : Kept s0 s) :
    Kept s0 (fieldApply s p f i v refused) := by
  unfold fieldApply; dsimp only
  with_reducible
    repeat'
      first
      | assumption | apply Kept.setTile | apply afterWrite_kept | apply wr_kept | apply Kept.ite
      | apply TOk.data | apply TOk.code | apply Kept.tile | simp only [TOk.upd]
      | refine And.intro ?_ ?_

theorem headerApply_kept {s0 : State} (s : State) (req : Nat) (p : PageId) (off : Nat) (v : Nat) (x
    : ResetIn) (hk : Kept s0 s) :
    Kept s0 (headerApply s req p off v x) := by
  unfold headerApply
  with_reducible
    repeat'
      first
      | assumption | apply ctrlWrite_kept | apply clearRaw_kept | apply intEnable_kept
      | apply forceWrite_kept | apply Kept.ite

theorem onBit_kept {s0 : State} (s : State) (v : Nat) (f : Fld) (off : Nat) (act : State → State)
    (hk : Kept s0 s) (h_act : ∀ y, Kept s0 y → Kept s0 (act y)) :
    Kept s0 (onBit s v f off act) := by
  unfold onBit
  with_reducible
    repeat'
      first
      | intro _ | assumption | apply h_act | split

theorem linkApply_kept {s0 : State} (s : State) (p : PageId) (off : Nat) (v : Nat) (hk : Kept s0 s)
    :
    Kept s0 (linkApply s p off v) := by
  unfold linkApply; dsimp only
  with_reducible
    repeat'
      first
      | intro _ | assumption | apply blvdEnable_kept | apply onBit_kept | apply alleyRetrain_kept
      | apply crossingApply_kept | apply acceptPort_kept | apply quarterWrite_kept
      | apply collAbort_kept | apply Kept.ite | apply Kept.foldl | split

theorem packageApply_kept {s0 : State} (s : State) (req : Nat) (p : PageId) (off : Nat) (v : Nat) (x
    : ResetIn) (hk : Kept s0 s) :
    Kept s0 (packageApply s req p off v x) := by
  unfold packageApply; dsimp only
  repeat'
    first
    | intro _ | with_reducible assumption | with_reducible apply eoi_kept
    | with_reducible apply glbWrite_kept | with_reducible apply maskWrite_kept
    | with_reducible apply policyWrite_kept | with_reducible apply doorbell_kept
    | with_reducible apply withRefuse_kept | with_reducible apply cplHead_kept
    | with_reducible apply lcReq_kept | with_reducible apply testCtrl_kept
    | with_reducible apply attGo_kept | with_reducible apply capWrite_kept
    | with_reducible apply opTargetWrite_kept | with_reducible apply onBit_kept
    | with_reducible apply twRequest_kept | with_reducible apply twExit_kept
    | with_reducible apply fwGo_kept | with_reducible apply recEmit_kept
    | with_reducible apply Kept.ite | with_reducible apply Kept.foldl
    | with_reducible apply Kept.foldl1 | with_reducible apply Kept.elim
    | refine fst_of (by assumption) ?_ | refine snd_of (by assumption) ?_ | simp only [Kept.upd]
    | split

theorem ownApply_kept {s0 : State} (s : State) (req : Nat) (p : PageId) (off : Nat) (v : Nat) (x :
    ResetIn) (hk : Kept s0 s) :
    Kept s0 (ownApply s req p off v x) := by
  unfold ownApply
  with_reducible
    repeat'
      first
      | assumption | apply headerApply_kept | apply moverWord_kept | apply packageApply_kept
      | apply linkApply_kept | apply Kept.ite

theorem plainApply_kept {s0 : State} (s : State) (p : PageId) (off : Nat) (v : Nat) (refused : Bool)
    (hk : Kept s0 s) :
    Kept s0 (plainApply s p off v refused) := by
  unfold plainApply
  with_reducible
    repeat'
      first
      | intro _ | assumption | apply fieldApply_kept | apply Kept.foldl

theorem wordApply_kept {s0 : State} (s : State) (req : Nat) (p : PageId) (off : Nat) (v : Nat) (x :
    ResetIn) (hk : Kept s0 s) :
    Kept s0 (wordApply s req p off v x) := by
  unfold wordApply
  with_reducible
    repeat'
      first
      | assumption | apply plainApply_kept | apply ownApply_kept

theorem pairApply_kept {s0 : State} (s : State) (req : Nat) (p : PageId) (off : Nat) (v : Nat) (x :
    ResetIn) (hk : Kept s0 s) :
    Kept s0 (pairApply s req p off v x) := by
  unfold pairApply; dsimp only
  with_reducible
    repeat'
      first
      | assumption | apply glbWrite_kept | apply quarterWrite_kept | apply wordApply_kept
      | apply Kept.ite | split

theorem execRegisterWrite_kept {s0 : State} (req : PortId) (off : Fin 67108864) (size : Nat) (value
    : Nat) (x : ResetIn) (s : State) (hk : Kept s0 s) :
    KeptO s0 (execRegisterWrite req off size value x s) := by
  unfold execRegisterWrite
  repeat'
    first
    | intro _ | with_reducible assumption | with_reducible apply hostWrite_kept
    | with_reducible apply regRefused_kept | with_reducible apply pairApply_kept
    | with_reducible apply wordApply_kept | with_reducible apply KeptO.ite
    | with_reducible apply KeptO.next | with_reducible apply Kept.ite

theorem execCtLi_kept {s0 : State} (t : TileId) (sd : Fin 32) (imm : Fin 65536) (hi : Bool) (s :
    State) (hk : Kept s0 s) :
    KeptO s0 (execCtLi t sd imm hi s) := by
  unfold execCtLi
  with_reducible
    repeat'
      first
      | assumption | apply slotIssue_kept | apply KeptO.next

theorem execCtAlu_kept {s0 : State} (t : TileId) (sd : Fin 32) (sa : Fin 32) (sb : Fin 32) (fn : Fin
    16) (s : State) (hk : Kept s0 s) :
    KeptO s0 (execCtAlu t sd sa sb fn s) := by
  unfold execCtAlu
  with_reducible
    repeat'
      first
      | assumption | apply slotIssue_kept | apply KeptO.next

theorem execCtAddi_kept {s0 : State} (t : TileId) (sd : Fin 32) (sa : Fin 32) (imm : Fin 65536) (s :
    State) (hk : Kept s0 s) :
    KeptO s0 (execCtAddi t sd sa imm s) := by
  unfold execCtAddi
  with_reducible
    repeat'
      first
      | assumption | apply slotIssue_kept | apply KeptO.next

theorem execCtLoop_kept {s0 : State} (t : TileId) (l : Fin 4) (sc : Fin 32) (endB : Fin 4096) (s :
    State) (hk : Kept s0 s) :
    KeptO s0 (execCtLoop t l sc endB s) := by
  unfold execCtLoop
  with_reducible
    repeat'
      first
      | assumption | apply slotIssue_kept | apply KeptO.next

theorem execCtRdl_kept {s0 : State} (t : TileId) (sd : Fin 32) (l : Fin 4) (s : State) (hk : Kept s0
    s) :
    KeptO s0 (execCtRdl t sd l s) := by
  unfold execCtRdl
  with_reducible
    repeat'
      first
      | assumption | apply slotIssue_kept | apply KeptO.next

theorem execCtBr_kept {s0 : State} (t : TileId) (sa : Fin 32) (sb : Fin 32) (cond : Fin 8) (target :
    Fin 4096) (s : State) (hk : Kept s0 s) :
    KeptO s0 (execCtBr t sa sb cond target s) := by
  unfold execCtBr
  with_reducible
    repeat'
      first
      | assumption | apply slotIssue_kept | apply KeptO.next

theorem execCtPhase_kept {s0 : State} (t : TileId) (cls : Fin 4) (lead : Fin 4096) (s : State) (hk :
    Kept s0 s) :
    KeptO s0 (execCtPhase t cls lead s) := by
  unfold execCtPhase
  with_reducible
    repeat'
      first
      | assumption | apply slotIssue_kept | apply KeptO.next

theorem execCtEnd_kept {s0 : State} (t : TileId) (s : State) (hk : Kept s0 s) :
    KeptO s0 (execCtEnd t s) := by
  unfold execCtEnd
  with_reducible
    repeat'
      first
      | assumption | apply slotIssue_kept | apply KeptO.next

theorem execCtTrap_kept {s0 : State} (t : TileId) (code : Fin 256) (s : State) (hk : Kept s0 s) :
    KeptO s0 (execCtTrap t code s) := by
  unfold execCtTrap
  with_reducible
    repeat'
      first
      | assumption | apply slotIssue_kept | apply KeptO.next

theorem execSmVld_kept {s0 : State} (t : TileId) (vd : Fin 64) (sb : Fin 32) (loff : Nat) (pmask :
    Fin 16) (lmask : Fin 16) (s : State) (hk : Kept s0 s) :
    KeptO s0 (execSmVld t vd sb loff pmask lmask s) := by
  unfold execSmVld
  with_reducible
    repeat'
      first
      | assumption | apply slotIssue_kept | apply KeptO.next

theorem execSmVst_kept {s0 : State} (t : TileId) (va : Fin 64) (sb : Fin 32) (loff : Nat) (pmask :
    Fin 4) (lmask : Fin 16) (s : State) (hk : Kept s0 s) :
    KeptO s0 (execSmVst t va sb loff pmask lmask s) := by
  unfold execSmVst
  with_reducible
    repeat'
      first
      | assumption | apply slotIssue_kept | apply KeptO.next

theorem execSmQtov_kept {s0 : State} (t : TileId) (vd : Fin 64) (q : Fin 16) (lmask : Fin 16) (s :
    State) (hk : Kept s0 s) :
    KeptO s0 (execSmQtov t vd q lmask s) := by
  unfold execSmQtov
  with_reducible
    repeat'
      first
      | assumption | apply slotIssue_kept | apply KeptO.next

theorem execSmVtoq_kept {s0 : State} (t : TileId) (va : Fin 64) (o : Fin 16) (lmask : Fin 16) (s :
    State) (hk : Kept s0 s) :
    KeptO s0 (execSmVtoq t va o lmask s) := by
  unfold execSmVtoq
  with_reducible
    repeat'
      first
      | assumption | apply slotIssue_kept | apply KeptO.next

theorem execSmQtos_kept {s0 : State} (t : TileId) (n : Nat) (q : Fin 16) (port : Fin 2) (sb : Fin
    32) (loff : Nat) (s : State) (hk : Kept s0 s) :
    KeptO s0 (execSmQtos t n q port sb loff s) := by
  unfold execSmQtos
  with_reducible
    repeat'
      first
      | assumption | apply slotIssue_kept | apply KeptO.ite | apply KeptO.next | exact KeptO.fault

theorem execSmStoq_kept {s0 : State} (t : TileId) (n : Nat) (o : Fin 16) (port : Fin 4) (sb : Fin
    32) (loff : Nat) (s : State) (hk : Kept s0 s) :
    KeptO s0 (execSmStoq t n o port sb loff s) := by
  unfold execSmStoq
  with_reducible
    repeat'
      first
      | assumption | apply slotIssue_kept | apply KeptO.ite | apply KeptO.next | exact KeptO.fault

theorem execSmCh_kept {s0 : State} (t : TileId) (f : ChF) (s : State) (hk : Kept s0 s) :
    KeptO s0 (execSmCh t f s) := by
  unfold execSmCh
  with_reducible
    repeat'
      first
      | assumption | apply slotIssue_kept | apply KeptO.next

theorem execSmFence_kept {s0 : State} (t : TileId) (mask : Fin 256) (s : State) (hk : Kept s0 s) :
    KeptO s0 (execSmFence t mask s) := by
  unfold execSmFence
  with_reducible
    repeat'
      first
      | assumption | apply slotIssue_kept | apply KeptO.next

theorem execVxAdd_kept {s0 : State} (t : TileId) (f : VxF) (s : State) (hk : Kept s0 s) :
    KeptO s0 (execVxAdd t f s) := by
  unfold execVxAdd
  with_reducible
    repeat'
      first
      | assumption | apply slotIssue_kept | apply KeptO.next

theorem execVxSub_kept {s0 : State} (t : TileId) (f : VxF) (s : State) (hk : Kept s0 s) :
    KeptO s0 (execVxSub t f s) := by
  unfold execVxSub
  with_reducible
    repeat'
      first
      | assumption | apply slotIssue_kept | apply KeptO.next

theorem execVxMul_kept {s0 : State} (t : TileId) (f : VxF) (s : State) (hk : Kept s0 s) :
    KeptO s0 (execVxMul t f s) := by
  unfold execVxMul
  with_reducible
    repeat'
      first
      | assumption | apply slotIssue_kept | apply KeptO.next

theorem execVxMax_kept {s0 : State} (t : TileId) (f : VxF) (s : State) (hk : Kept s0 s) :
    KeptO s0 (execVxMax t f s) := by
  unfold execVxMax
  with_reducible
    repeat'
      first
      | assumption | apply slotIssue_kept | apply KeptO.next

theorem execVxMin_kept {s0 : State} (t : TileId) (f : VxF) (s : State) (hk : Kept s0 s) :
    KeptO s0 (execVxMin t f s) := by
  unfold execVxMin
  with_reducible
    repeat'
      first
      | assumption | apply slotIssue_kept | apply KeptO.next

theorem execVxFma_kept {s0 : State} (t : TileId) (f : VxF) (s : State) (hk : Kept s0 s) :
    KeptO s0 (execVxFma t f s) := by
  unfold execVxFma
  with_reducible
    repeat'
      first
      | assumption | apply slotIssue_kept | apply KeptO.next

theorem execVxFnma_kept {s0 : State} (t : TileId) (f : VxF) (s : State) (hk : Kept s0 s) :
    KeptO s0 (execVxFnma t f s) := by
  unfold execVxFnma
  with_reducible
    repeat'
      first
      | assumption | apply slotIssue_kept | apply KeptO.next

theorem execVxCmp_kept {s0 : State} (t : TileId) (f : VxF) (s : State) (hk : Kept s0 s) :
    KeptO s0 (execVxCmp t f s) := by
  unfold execVxCmp
  with_reducible
    repeat'
      first
      | assumption | apply slotIssue_kept | apply KeptO.next

theorem execVxSel_kept {s0 : State} (t : TileId) (f : VxF) (s : State) (hk : Kept s0 s) :
    KeptO s0 (execVxSel t f s) := by
  unfold execVxSel
  with_reducible
    repeat'
      first
      | assumption | apply slotIssue_kept | apply KeptO.next

theorem execVxPlog_kept {s0 : State} (t : TileId) (f : VxF) (s : State) (hk : Kept s0 s) :
    KeptO s0 (execVxPlog t f s) := by
  unfold execVxPlog
  with_reducible
    repeat'
      first
      | assumption | apply slotIssue_kept | apply KeptO.next

theorem execVxAnd_kept {s0 : State} (t : TileId) (f : VxF) (s : State) (hk : Kept s0 s) :
    KeptO s0 (execVxAnd t f s) := by
  unfold execVxAnd
  with_reducible
    repeat'
      first
      | assumption | apply slotIssue_kept | apply KeptO.next

theorem execVxOr_kept {s0 : State} (t : TileId) (f : VxF) (s : State) (hk : Kept s0 s) :
    KeptO s0 (execVxOr t f s) := by
  unfold execVxOr
  with_reducible
    repeat'
      first
      | assumption | apply slotIssue_kept | apply KeptO.next

theorem execVxXor_kept {s0 : State} (t : TileId) (f : VxF) (s : State) (hk : Kept s0 s) :
    KeptO s0 (execVxXor t f s) := by
  unfold execVxXor
  with_reducible
    repeat'
      first
      | assumption | apply slotIssue_kept | apply KeptO.next

theorem execVxShl_kept {s0 : State} (t : TileId) (f : VxF) (s : State) (hk : Kept s0 s) :
    KeptO s0 (execVxShl t f s) := by
  unfold execVxShl
  with_reducible
    repeat'
      first
      | assumption | apply slotIssue_kept | apply KeptO.next

theorem execVxShr_kept {s0 : State} (t : TileId) (f : VxF) (s : State) (hk : Kept s0 s) :
    KeptO s0 (execVxShr t f s) := by
  unfold execVxShr
  with_reducible
    repeat'
      first
      | assumption | apply slotIssue_kept | apply KeptO.next

theorem execVxSra_kept {s0 : State} (t : TileId) (f : VxF) (s : State) (hk : Kept s0 s) :
    KeptO s0 (execVxSra t f s) := by
  unfold execVxSra
  with_reducible
    repeat'
      first
      | assumption | apply slotIssue_kept | apply KeptO.next

theorem execVxPerm_kept {s0 : State} (t : TileId) (f : VxF) (s : State) (hk : Kept s0 s) :
    KeptO s0 (execVxPerm t f s) := by
  unfold execVxPerm
  with_reducible
    repeat'
      first
      | assumption | apply slotIssue_kept | apply KeptO.next

theorem execVxSplat_kept {s0 : State} (t : TileId) (f : VxF) (s : State) (hk : Kept s0 s) :
    KeptO s0 (execVxSplat t f s) := by
  unfold execVxSplat
  with_reducible
    repeat'
      first
      | assumption | apply slotIssue_kept | apply KeptO.next

theorem execVxIota_kept {s0 : State} (t : TileId) (f : VxF) (s : State) (hk : Kept s0 s) :
    KeptO s0 (execVxIota t f s) := by
  unfold execVxIota
  with_reducible
    repeat'
      first
      | assumption | apply slotIssue_kept | apply KeptO.next

theorem execVxExt_kept {s0 : State} (t : TileId) (f : VxF) (s : State) (hk : Kept s0 s) :
    KeptO s0 (execVxExt t f s) := by
  unfold execVxExt
  with_reducible
    repeat'
      first
      | assumption | apply slotIssue_kept | apply KeptO.next

theorem execVxCvt_kept {s0 : State} (t : TileId) (f : VxF) (s : State) (hk : Kept s0 s) :
    KeptO s0 (execVxCvt t f s) := by
  unfold execVxCvt
  with_reducible
    repeat'
      first
      | assumption | apply slotIssue_kept | apply KeptO.next

theorem execVxCvtfmx_kept {s0 : State} (t : TileId) (f : VxF) (s : State) (hk : Kept s0 s) :
    KeptO s0 (execVxCvtfmx t f s) := by
  unfold execVxCvtfmx
  with_reducible
    repeat'
      first
      | assumption | apply slotIssue_kept | apply KeptO.next

theorem execVxCvtmx_kept {s0 : State} (t : TileId) (f : VxF) (s : State) (hk : Kept s0 s) :
    KeptO s0 (execVxCvtmx t f s) := by
  unfold execVxCvtmx
  with_reducible
    repeat'
      first
      | assumption | apply slotIssue_kept | apply KeptO.next

theorem execVxExp2_kept {s0 : State} (t : TileId) (f : VxF) (s : State) (hk : Kept s0 s) :
    KeptO s0 (execVxExp2 t f s) := by
  unfold execVxExp2
  with_reducible
    repeat'
      first
      | assumption | apply slotIssue_kept | apply KeptO.next

theorem execVxLog2_kept {s0 : State} (t : TileId) (f : VxF) (s : State) (hk : Kept s0 s) :
    KeptO s0 (execVxLog2 t f s) := by
  unfold execVxLog2
  with_reducible
    repeat'
      first
      | assumption | apply slotIssue_kept | apply KeptO.next

theorem execVxRcp_kept {s0 : State} (t : TileId) (f : VxF) (s : State) (hk : Kept s0 s) :
    KeptO s0 (execVxRcp t f s) := by
  unfold execVxRcp
  with_reducible
    repeat'
      first
      | assumption | apply slotIssue_kept | apply KeptO.next

theorem execVxRsq_kept {s0 : State} (t : TileId) (f : VxF) (s : State) (hk : Kept s0 s) :
    KeptO s0 (execVxRsq t f s) := by
  unfold execVxRsq
  with_reducible
    repeat'
      first
      | assumption | apply slotIssue_kept | apply KeptO.next

theorem execVxRsum_kept {s0 : State} (t : TileId) (f : VxF) (s : State) (hk : Kept s0 s) :
    KeptO s0 (execVxRsum t f s) := by
  unfold execVxRsum
  with_reducible
    repeat'
      first
      | assumption | apply slotIssue_kept | apply KeptO.next

theorem execVxRmax_kept {s0 : State} (t : TileId) (f : VxF) (s : State) (hk : Kept s0 s) :
    KeptO s0 (execVxRmax t f s) := by
  unfold execVxRmax
  with_reducible
    repeat'
      first
      | assumption | apply slotIssue_kept | apply KeptO.next

theorem execVxRmin_kept {s0 : State} (t : TileId) (f : VxF) (s : State) (hk : Kept s0 s) :
    KeptO s0 (execVxRmin t f s) := by
  unfold execVxRmin
  with_reducible
    repeat'
      first
      | assumption | apply slotIssue_kept | apply KeptO.next

theorem execVxAcrd_kept {s0 : State} (t : TileId) (f : VxF) (s : State) (hk : Kept s0 s) :
    KeptO s0 (execVxAcrd t f s) := by
  unfold execVxAcrd
  with_reducible
    repeat'
      first
      | assumption | apply slotIssue_kept | apply KeptO.next

theorem execVxAcwr_kept {s0 : State} (t : TileId) (f : VxF) (s : State) (hk : Kept s0 s) :
    KeptO s0 (execVxAcwr t f s) := by
  unfold execVxAcwr
  with_reducible
    repeat'
      first
      | assumption | apply slotIssue_kept | apply KeptO.next

end Sys2Proof.Laws
end

