-- ==== Sys2Proof/Tests/Slice0.lean ====
section
/-!
SUPPORT. Tests/Slice0.lean: small tests on fixed values, the refusals of WellFormed, and for every
statement with hypotheses a state and operands that meet them all.
-/
namespace Sys2Proof.Tests
set_option Elab.async false
open Sys2Proof.Machine Sys2Proof.Safety

/-! ### The small states that the witnesses use -/

/-- What District 0's host, tile 0's posts and credits of tile 0 take across die 0's link group: module 0. -/
def wRoutes : SMap Nat :=
  [(8 * plazaFlow 0 0, 0), (8 * plazaFlow 8 0, 0), (8 * plazaFlow 9 0, 0)]

/-- The package running: Dawn over, every die up, District 0 with every quarter-die and a host. -/
def wUp : State :=
  let s : State := { State.reset with
    dawn := { aon := true, pwrgood := true, railsGood := true, perst := 0, released := 255, nextDie := 4,
              groups := 255, ports := 15, engines := 15, mapFormed := true, mapDies := 15,
              flows := wRoutes } }
  let s := wr s dawnP DAWN_STAGE 15
  let s := wr (wr s (hostportP 0) HOSTPORT_LINK_UP 1) (d2dP 0) D2D_STATE 0
  wr s (districtP 0) DISTRICT_QDIE_MASK 0xFFFF

/-- Dawn in stage `k`, with the dies that are up by then and no unit of the stage done. -/
def wStage (k : Nat) : State :=
  let s : State := { State.reset with
    dawn := { aon := true, pwrgood := true, railsGood := decide (0 < k),
              released := if k < 4 then 0 else 255, nextDie := if k < 4 then 0 else 4,
              engines := 15 } }
  let s := wr s dawnP DAWN_STAGE k
  let s := wr s (hostportP 0) HOSTPORT_LINK_UP 1
  if k = 0 then { s with dusk := { s.dusk with inRange := 2 } }
  else if k = 9 then { s with dawn := { s.dawn with engines := 0 } } else s

/-- Stage 9 with every engine started. -/
def wNine : State := { wStage 9 with dawn := { (wStage 9).dawn with engines := 15 } }

/-- A rail has been out of range for 100 rounds. -/
def wRailOut : State :=
  { State.reset with dawn := { aon := true, pwrgood := true }, dusk := { oor := [(0, 100)] } }
def wAon : State := { State.reset with dawn := { aon := true } }

/-- Stage 2, with `FW_STATE` `k`; and on a BLANK part with the size of a bundle given. -/
def wFw (k : Nat) : State := wr (wStage 2) dawnP DAWN_FW_STATE k
def wBundle : List Byte :=
  ascii [0x57, 0x58, 0x46, 0x42] ++ leBytes 2 128 ++ leBytes 2 0 ++ leBytes 4 128
    ++ leBytes 2 0x100 ++ leBytes 2 0x102 ++ List.replicate 112 0
def wFwBlank : State :=
  let b : FuseCopy := { state := 0 }
  { wr (wFw 2) dawnP DAWN_FW_SIZE 128 with sensed := { c0 := b, c1 := b, c2 := b } }

def wEmit : State := { wUp with dawn := { wUp.dawn with emit := some [7] } }

/-- Stage `k` after its fourth wave. -/
def wWaves (k : Nat) : State := { wStage k with dawn := { (wStage k).dawn with waves := 4 } }

/-- Module 0 of group 0 in state `k`, and module 23 in training. -/
def wD2d (k : Nat) : State := wr (wr wUp (d2dP 0) D2D_STATE k 0) (d2dP 0) D2D_STATE k 23

/-! Tiles -/

/-- A tile that runs a schedule of 16 bundles, with route 0 valid and a line in each queue. -/
def wRunning : Tile :=
  { runState := 2, bundles := 16, routes := [(0, 2 ^ 63 + 1)], qMesh := 0,
    inq := [(15, { lines := [⟨List.replicate 64 1, none⟩] })] }
def wTileOf (t : Tile) : State := setTile wUp 0 t
def wTile : State := wTileOf wRunning
/-- The shadow buffer holds a block of FP8 weights. -/
def wArray : State := wTileOf { wRunning with shadow := some ⟨3, 0, [], [], 0, 0⟩, cyc := 100 }
def wTileHold : State := wTileOf { wRunning with hold := some ⟨0, { nx := .wait 0 1 }, false, []⟩ }
def wTilePace : State := wTileOf { wRunning with duty := 8, phase := 0 }
def wTilePaceEnd : State := wTileOf { wRunning with duty := 8, phase := 0, fetchEnd := true }
def wTileRetry : State := wTileOf { wRunning with retry := [⟨1, 0, 0, 0, 0, 1, none, 4⟩] }
def wTileTrap : State := wTileOf { wRunning with fetchEnd := true, trapping := true, trapCause := 3 }
def wTileEnd : State := wTileOf { wRunning with fetchEnd := true, inq := [] }

/-- A launch of image slot 0 that runs on tile 0, which waits under a limit of 1 µs. -/
def wSlipImage : Image := { tiles := [0], slipUs := 1 }
def wSlipJob : Job := ⟨0, 5, {}, .launch 0 wSlipImage [] true []⟩
def wSlip : State :=
  setProc wTileHold 0 { running := [wSlipJob] }

/-- A mover command of operation `k` of one line, and the tile whose channel 7 has it. -/
def wCmd (k : Nat) : MCmd :=
  { seq := 0, op := k, queue := 0, esz := 0, rowLines := 1, rows := 1, stride := 0, addr := 0,
    pattern := 0, bad := if k = 0 then 8 else 0 }
def wMover (k : Nat) : State :=
  let m : MCmd := if k = 5 then { wCmd 1 with moved := 1 } else wCmd k
  let t : Tile := { wRunning with chans := [(7, { cmds := [m] })],
                                  outq := [(0, { lines := [List.replicate 64 9] })] }
  -- the sectors that a read finds written
  let m : SMap Nat := [(0, 0xFFFFFFFF), (1, 0xFFFFFFFF), (2, 0xFFFFFFFF), (3, 0xFFFFFFFF)]
  setSlice (wTileOf t) 0 { flags := ⟨m, m, m⟩ }
/-- The `MOVER` page of tile 0 is starting. -/
def wMoverOff : State := wr wUp (moverP 0) HDR_STATE 1

/-- A send of outbound queue 15, to this package or another, a signal, and a credit owed. -/
def wSnd (b : Bool) : Send := ⟨0, ⟨1, 0, b, 0, 0, 0⟩, 1⟩
def wSg : Sig := ⟨⟨1, 0, false, 0, 0, 0⟩, 0⟩
def wSend (b : Bool) : State :=
  let s := wTileOf { wRunning with outq := [(15, { lines := [List.replicate 64 7], sends := [wSnd b] })],
                                   sigs := [wSg], owed := [3] }
  { wr s (d2dP 0) D2D_STATE 0 0 with
    dawn := { s.dawn with flows := SMap.put wRoutes (8 * tileFlow 0 (wSnd b).route) 0 } }
/-- Module 0 of each link group runs at x64, and some flows have been assigned to it. -/
def wFlows (s : State) (f : List (Nat × Nat)) : State :=
  let s := (List.range 8).foldl (fun s g => wr s (d2dP g) D2D_STATE 0) s
  { s with dawn := { s.dawn with flows := f } }
/-- A packet of type `k` from another package waits for tile 0: queue 0, or event 0. -/
def wMeshIn (k : Nat) : State :=
  let b := leBytes 1 k ++ List.replicate 79 0
  { wFlows (wTileOf { wRunning with qMesh := 1 }) [(8 * pktFlow b, 0)] with meshIn := [b] }

/-! Slices and engines -/

/-- An entry of the merge buffer gathers, or flushes. -/
def wGather : State := setSlice wUp 0 { merge := [{ sector := 0, mask := 1, data := List.replicate 32 7 }] }
def wMerge : State :=
  setSlice wUp 0 { merge := [{ sector := 0, mask := 1, data := List.replicate 32 7, flush := true }] }
def wScrub : State := wr wUp (sliceP 0) SLICE_SCRUB_EN 1
/-- The slice of tile 0 in mode `k`. -/
def wMode (k : Nat) : State := setSlice wUp 0 { mode := k }
/-- Entering mode, with a mode write of 0 held. -/
def wModeHeld : State := setSlice wUp 0 { mode := 2, held := some 0 }
/-- A run of one descriptor of which `k` have been done. -/
def wEngRun (k : Nat) : EngRun :=
  { first := 0, count := 1, tag := 0, descs := [List.replicate 64 0], lists := [[]], next := k }
def wRun (k : Nat) : State := setSlice wUp 0 { mode := 1, run := some (wEngRun k) }
def wOwed : State := wr (wRun 0) (engineP 0) ENGINE_OWED 8
def wPaused : State := wr (wRun 0) (engineP 0) ENGINE_PAUSED 1
def wGo : State := setSlice wUp 0 { mode := 1, queue := [.go 16 false none] }

/-! Optics -/

/-- Engine 0 is ON with every line lit, and its Crossing applies an allocation: none in progress, or
a move at step `k`. -/
def wOe (k : Nat) : State :=
  let s := wr (wr (wr wUp (oeP 0) HDR_STATE 2) (oeP 0) OE_ELS_DARK 0) (oeP 0) OE_DFB_OK 0xFF
  let s := wr (wr s (crossingP 0) CROSSING_BUSY 1) (crossingP 0) CROSSING_DITHER_EN 1
  setCrossing s 0 (if k = 0 then { todo := [0] } else { cur := some ⟨0, 0, 2, [], [], [], []⟩ })
/-- Alley 0 is up with every lane. -/
def wLink : State :=
  let s := wr (wr wUp (oeP 0) HDR_STATE 2) (alleyP 0) ALLEY_LSTATE 2
  let s := wr (wr s (alleyP 0) ALLEY_TX_LANES 0xFFFFFFFF) (alleyP 0) ALLEY_RX_LANES 0xFFFFFFFF
  setLink (wr s (alleyP 0) ALLEY_FIBRE_MASK 15) 0 { credit := 64, txOn := true, rxOn := true }
/-- As `wLink`, while the Alley retrains. -/
def wLinkRetrain : State := wr wLink (alleyP 0) ALLEY_LSTATE 3
/-- Line 1 of engine 0's Boulevard is up in both directions, and its transmit direction retrains. -/
def wLineId : LinkId := 17
def wLine : State :=
  let p := blvdP 0
  let s := wr (wr (wr wUp (oeP 0) HDR_STATE 2) (oeP 0) OE_ELS_DARK 0) p BLVD_UP 1
  let s := wr (wr (wr s p BLVD_CFG_VALID 1) p BLVD_TX_ENABLE 0xFFFFFFFF) p BLVD_LINE_STATE 2 1
  setLink s 17 { txOn := true, txTrain := true }
/-- A waveguide of engine 0 that moves, at step `k`: released from Alley 0, or granted. -/
def wMove (k : Nat) : State :=
  let s := wr wLink (crossingP 0) CROSSING_CURRENT 0x80 0
  setCrossing s 0 { cur := some ⟨0, if k = 1 then 0x84 else 0x81, k, [], [], if k = 1 then [0] else [], []⟩ }
/-- Alley 0 in training, with fibre 0 held; an identity word; and an Alley with a flit to repeat. -/
def wLinkTrain : State :=
  setLink (wr wLink (crossingP 0) CROSSING_CURRENT 0x80 0) 0 { rxTrain := true, txTrain := true, credit := 64, txOn := true, rxOn := true }
/-- Four side units that hold the identity word 0, whose check is 0. -/
def wSides : Sides := ⟨0x4000, 0x4000, 0x4000, 0x4000⟩
def wLinkNak : State :=
  setLink wLink 0 { nak := true, credit := 64, txOn := true, rxOn := true, retry := [(0, List.replicate 56 0)] }
/-- Square port 31 has been silent for three rounds. -/
def wSilent : State := { wUp with topo := { silent := [(35, 3)] } }

/-! Topology and collectives -/

def wPktBytes (k : Nat) : List Byte := leBytes 1 k ++ List.replicate 79 0
/-- The first packet that Alley 0 has received is of type `k`. -/
def wPkt (k : Nat) : State :=
  wFlows (setLink wLink 0 { rx := wPktBytes k }) [(8 * pktFlow (wPktBytes k) + 4, 0)]

/-- A collective of District 0 on engine 0 that copies 64 bytes within the package. -/
def wDesc : List Byte :=
  leBytes 1 3 ++ leBytes 1 0 ++ leBytes 1 1 ++ leBytes 1 1 ++ leBytes 2 0 ++ leBytes 2 1
    ++ List.replicate 8 0 ++ leBytes 4 64 ++ List.replicate 44 0
/-- As `wDesc`, around the ring of a rectangle of 2 × 1 packages. -/
def wRingDesc : List Byte :=
  leBytes 1 3 ++ leBytes 1 0x10 ++ leBytes 1 1 ++ leBytes 1 1 ++ leBytes 2 0 ++ leBytes 2 1
    ++ List.replicate 8 0 ++ leBytes 4 64 ++ leBytes 4 0 ++ leBytes 4 0x01020000
    ++ List.replicate 36 0
def wCollC : Coll := { key := 0, dist := 0, desc := wDesc, slot := 0, members := [0], job := some 0 }
def wCollF : Coll := { wCollC with started := true }
def wCollH : Coll := { wCollF with desc := wRingDesc, holds := [1] }
def wCollR : Coll := { wCollF with desc := wDesc }
def wColl : State := { wr wUp (collP 0) HDR_STATE 2 with colls := [wCollC] }
def wCollFold : State :=
  { wFlows wUp ((List.range 8).map (fun e => (8 * plazaFlow (16 + e) 0, 0))) with colls := [wCollF] }
def wCollHold : State := { wUp with colls := [wCollH] }
def wCollReady : State := { wUp with colls := [wCollR] }
/-- A packet for the collective engines: 0 DATA, else a control packet of kind `k`. -/
def wCtl (k : Nat) : List Byte :=
  leBytes 1 (if k = 0 then 3 else 4) ++ List.replicate 14 0 ++ leBytes 1 (8 * k)
def wCollEmpty : State := wUp
def wCollPkt (k : Nat) : State := { wUp with collIn := [wCtl k] }

/-! Districts and command processors -/

def wScrubQ : State := { wUp with scrubs := [{ qdie := 15, old := 0 }] }
def wMod : State := setProc (wr wUp (cmdprocP 0) CMDPROC_TIMER_US 1) 0 { moderated := 1 }
/-- The command processor of District 0 is ON with a ring of 64 entries, one of them filled. -/
def wRing : State :=
  let p := cmdprocP 0
  let s := wr (wr (wr wUp p HDR_STATE 2) p CMDPROC_CMD_SIZE 6) p CMDPROC_CPL_SIZE 6
  setProc s 0 { tail := 1 }
def wRingSig : State := wFlows wRing [(8 * plazaFlow 0 0, 0)]
def wJobMem : Job := ⟨0, 1, {}, .dma 0 0 1 0⟩
def wJobWait : Job := ⟨1, 6, {}, .waitEvt 0 1 1⟩
def wJobRespare : Job := ⟨2, 0x0A, {}, .respare 0 0⟩
def wJob : State := setProc wRing 0 { running := [wJobMem, wJobWait, wJobRespare], nextSeq := 3 }

/-! Pages and Dusk -/

/-- The command processor of District 0 and optical engine 0 in block state `k`. -/
def wBlk (k : Nat) : State := wr (wr wUp (cmdprocP 0) HDR_STATE k) (oeP 0) HDR_STATE k
/-- Halves of the pairs of Districts 2 and 3 that are held: a base of 383, and a size of 0. -/
def wGlbHeld : State := { wUp with glbHeld := [(4, 383), (7, 0)] }
/-- A round in which nothing is measured anew. -/
def wRound : RoundIn := { raw := [], power := 0, doms := List.replicate 5 { power := 0 } }
def wCounts : State := { wUp with dusk := { low := [(527, 3)], high := [(527, 10)], oor := [(95, 2)],
                                            fall := [(15, 4)] } }
def wLow : State := { wr wUp thermP THERM_SUSPECT_LOW 1 0 with dusk := { ok := [(0, 10)] } }
def wHint : Hint := ⟨1, 0, some 0⟩
def wDom : State :=
  { wUp with dusk := { overCap := 2, dom := [(0, { opStep := some 3, iccLow := 8, hints := [wHint] }),
      (3, { coolD := 3 }), (4, { coolJ := 3 })] } }
/-- R261 has given die 0 point 5 for 10 rounds. -/
def wRaise : State := { wUp with dusk := { dom := [(0, { given := List.replicate 10 5 })] } }
def wActive : State := { wUp with dusk := { us := 20000, dom := [(0, { active := some 1 })] } }
/-- Twilight in state `k`. -/
def wTw (k : Nat) : State := wr wUp duskP DUSK_TW_STATE k

/-! Security -/

/-- VDD_FUSE up and the Plaza warm. -/
def wGate : State :=
  let s := wr (wr wUp thermP THERM_READING 1800 606) thermP THERM_READING 1800 607
  (List.range 16).foldl (fun s i => wr s thermP THERM_READING 480 (512 + i)) s
def wLcRun : LcRun := ⟨3, [⟨.state, 0, 2⟩], 0, 0, true⟩
def wLc : State := { wUp with sec := { lc := some wLcRun } }
def wGateLc : State := { wGate with sec := { lc := some wLcRun } }
def wLcEnd : State := { wUp with sec := { lc := some ⟨3, [], 0, 0, true⟩ } }
/-- A part in life-cycle state RETURN. -/
def wReturn : State :=
  let c : FuseCopy := { state := 7 }
  { wUp with sensed := { c0 := c, c1 := c, c2 := c } }
def wAtt : State := { wUp with sec := { att := [⟨0, 0, 4096, [7]⟩] } }

theorem witness_RailsAndResets_1 :
    ((State.reset).dawn.aon = false) := by
  decide

theorem witness_RailsAndResets_2 :
    (duskRuns (wStage 0)) ∧ (stage (wStage 0) = 0) ∧ (dawnHalted (wStage 0) = false) ∧ (2 ≤ (wStage 0).dusk.inRange) := by
  decide +kernel

theorem witness_RailsAndResets_3 :
    (duskRuns (wRailOut)) ∧ (stage (wRailOut) = 0) ∧ (dawnHalted (wRailOut) = false) ∧ (100 ≤ SMap.getD (wRailOut).dusk.oor (0 : Fin 96) 0) := by
  decide

theorem witness_RailsAndResets_4 :
    ((wAon).dawn.aon) ∧ ((wAon).dawn.pwrgood = false) := by
  decide

theorem witness_RailsAndResets_5 :
    ((wUp).dawn.aon) ∧ ((wUp).dawn.pwrgood) := by
  decide

theorem witness_RailsAndResets_6 :
    ((wUp).dawn.aon) ∧ ((wUp).dawn.pwrgood) := by
  decide

theorem witness_FirmwareAndRecord_1 :
    (takesWrite (wFw 1) (0 : PortId) dawnP DAWN_FW_GO) ∧ (rd (wFw 1) dawnP DAWN_FW_STATE = 1) := by
  decide

theorem witness_FirmwareAndRecord_2 :
    (inStage (wFw 2) 2) ∧ (rd (wFw 2) dawnP DAWN_FW_STATE = 2) ∧ (bundleReject (wFw 2) ([] : List Byte) ≠ 0) := by
  decide

theorem witness_FirmwareAndRecord_3 :
    (inStage (wFwBlank) 2) ∧ (rd (wFwBlank) dawnP DAWN_FW_STATE = 2) ∧ (bundleReject (wFwBlank) (wBundle : List Byte) = 0) := by
  decide +kernel

theorem witness_FirmwareAndRecord_4 :
    (trainOk ([] : List TrainSection)) ∧ (inStage (wNine) 9) ∧ ((upOes (wNine)).all (fun e => bitOf (wNine).dawn.engines e)) := by
  decide

theorem witness_FirmwareAndRecord_5 :
    (trainOk ([] : List TrainSection)) ∧ (takesWrite (wUp) (0 : PortId) dawnP DAWN_REC_EMIT) ∧ (dawnOver (wUp)) := by
  decide

theorem witness_FirmwareAndRecord_6 :
    (plazaUp (wEmit)) ∧ ((wEmit).dawn.emit = some ([7] : List Byte)) := by
  decide

theorem witness_ReleaseAndTraining_1 :
    (inStage (wStage 3) 3) ∧ ((wStage 3).dawn.nextDie < 4) := by
  decide

theorem witness_ReleaseAndTraining_2 :
    ((List.replicate 24 ⟨0, 0, 0⟩ : List ModTrain).length = modulesOf (0 : GroupId)) ∧ ((16 : Fin 64).val ≠ 0) ∧ ((16 : Fin 64).val ≠ 0) ∧ (inStage (wStage 4) 4) ∧ (groupUp (wStage 4) (0 : GroupId)) ∧ (bitOf (wStage 4).dawn.groups (0 : GroupId) = false) := by
  decide

theorem witness_ReleaseAndTraining_3 :
    (inStage (wStage 5) 5) ∧ (dieUp (wStage 5) (0 : DieId)) ∧ (bitOf (wStage 5).dawn.ports (0 : DieId) = false) := by
  decide

theorem witness_ReleaseAndTraining_4 :
    (inStage (wStage 9) 9) ∧ (oeUp (wStage 9) (0 : OeId)) ∧ (bitOf (wStage 9).dawn.engines (0 : OeId) = false) := by
  decide

theorem witness_SelfTestAndMap_1 :
    (inStage (wStage 6) 6) ∧ ((wStage 6).dawn.waves < 4) := by
  decide

theorem witness_SelfTestAndMap_2 :
    (inStage (wWaves 6) 6) ∧ (4 ≤ (wWaves 6).dawn.waves) := by
  decide

theorem witness_SelfTestAndMap_3 :
    (inStage (wStage 7) 7) ∧ ((wStage 7).dawn.waves < 4) := by
  decide

theorem witness_SelfTestAndMap_4 :
    (inStage (wWaves 6) 6 || inStage (wWaves 6) 7) ∧ (dieUp (wWaves 6) (0 : DieId)) ∧ ((31 : Fin 32).val / 8 + 1 = (wWaves 6).dawn.waves) ∧ (bistBudget (wWaves 6) (inStage (wWaves 6) 6) ≤ (200000 : Nat)) := by
  decide

theorem witness_SelfTestAndMap_5 :
    (inStage (wWaves 7) 7) ∧ ((wWaves 7).dawn.waves = 4) := by
  decide

theorem witness_DieFaults_1 :
    (plazaUp (wUp)) ∧ (dieUp (wUp) (3 : DieId)) := by
  decide

theorem witness_DieFaults_2 :
    (plazaUp (wUp)) ∧ (dieUp (wUp) (3 : DieId)) := by
  decide

theorem witness_DieFaults_3 :
    (plazaUp (wUp)) ∧ (dieUp (wUp) (0 : DieId)) := by
  decide

theorem witness_DieFaults_4 :
    (plazaUp (wUp)) ∧ (oeUp (wUp) (3 : OeId)) := by
  decide

theorem witness_DieFaults_5 :
    (plazaUp (wUp)) ∧ (oeUp (wUp) (0 : OeId)) ∧ ((2 : Fin 3) ≠ 0) := by
  decide

theorem witness_DieFaults_6 :
    (groupRuns (wD2d 0) (0 : GroupId)) ∧ ((23 : Fin 24).val < groupModules (0 : GroupId)) ∧ (modState (wD2d 0) (0 : GroupId) (23 : Fin 24) ≠ 2) := by
  decide

theorem witness_DieFaults_7 :
    (([(0, 255)] : List (Nat × Nat)) ≠ []) ∧ (groupRuns (wD2d 0) (0 : GroupId)) ∧ ((23 : Fin 24).val < groupModules (0 : GroupId)) ∧ (modState (wD2d 0) (0 : GroupId) (23 : Fin 24) ≠ 2) := by
  decide

theorem witness_DieFaults_8 :
    (groupRuns (wD2d 0) (0 : GroupId)) ∧ ((0 : Fin 24).val < groupModules (0 : GroupId)) ∧ (modState (wD2d 0) (0 : GroupId) (0 : Fin 24) ≠ 2) := by
  decide

theorem witness_DieFaults_9 :
    (groupRuns (wD2d 3) (0 : GroupId)) ∧ ((0 : Fin 24).val < groupModules (0 : GroupId)) ∧ (modState (wD2d 3) (0 : GroupId) (0 : Fin 24) = 3) := by
  decide

theorem witness_DieFaults_10 :
    (groupRuns (wD2d 3) (0 : GroupId)) ∧ ((23 : Fin 24).val < groupModules (0 : GroupId)) ∧ (modState (wD2d 3) (0 : GroupId) (23 : Fin 24) = 3) := by
  decide

theorem witness_HostLinksAndTileFaults_1 :
    ((6 : Fin 7).val ≠ 0) ∧ ([1, 2, 4, 8, 16].contains (16 : Fin 17).val) ∧ (plazaUp (wUp)) ∧ (2 ≤ rd (wUp) dawnP DAWN_STAGE) ∧ (bitOf (wUp).dawn.perst (3 : PortId) = false) ∧ ((6 : Fin 7).val ≤ rd (wUp) (hostportP (3 : PortId)) HOSTPORT_MAX_GEN) := by
  decide

theorem witness_HostLinksAndTileFaults_2 :
    (plazaUp (wUp)) ∧ (portUp (wUp) (0 : PortId)) := by
  decide

theorem witness_HostLinksAndTileFaults_3 :
    (plazaUp (wUp)) ∧ (portUp (wUp) (0 : PortId)) := by
  decide

theorem witness_HostLinksAndTileFaults_4 :
    (plazaUp (State.reset) = false) := by
  decide

theorem witness_HostLinksAndTileFaults_6 :
    (plazaUp (wUp)) ∧ (portUp (wUp) (0 : PortId)) := by
  decide

theorem witness_HostLinksAndTileFaults_7 :
    (plazaUp (wUp)) ∧ (portUp (wUp) (0 : PortId)) := by
  decide

theorem witness_HostLinksAndTileFaults_8 :
    (plazaUp (wUp)) := by
  decide

theorem witness_HostLinksAndTileFaults_9 :
    (plazaUp (wUp)) := by
  decide

theorem witness_HostLinksAndTileFaults_10 :
    (plazaUp (wUp)) := by
  decide

theorem witness_SlotCommandsIssue_1 :
    (issues (wTile) (0 : TileId) { mx := .ldw (⟨9, false, 0, 0, 0⟩ : LdwF) }) := by
  decide

theorem witness_SlotCommandsIssue_2 :
    ((⟨3, true, false, 1, 2, 0, 0, 2, 0, 254⟩ : RunF).ok) ∧ (issues (wArray) (0 : TileId) { mx := .run (⟨3, true, false, 1, 2, 0, 0, 2, 0, 254⟩ : RunF) }) := by
  decide

theorem witness_SlotCommandsIssue_3 :
    ((⟨3, true, false, 0, 3, 0, 0, 1, 0, 255⟩ : WinF).ok) ∧ (issues (wArray) (0 : TileId) { mx := .win (⟨3, true, false, 0, 3, 0, 0, 1, 0, 255⟩ : WinF) }) := by
  decide

theorem witness_SlotCommandsIssue_4 :
    (issues (wTile) (0 : TileId) { sm := .vld (63 : Fin 64) (0 : Fin 32) (0 : Nat) (15 : Fin 16) (15 : Fin 16) }) := by
  decide

theorem witness_SlotCommandsIssue_5 :
    (issues (wTile) (0 : TileId) { sm := .vst (63 : Fin 64) (0 : Fin 32) (0 : Nat) (3 : Fin 4) (15 : Fin 16) }) := by
  decide

theorem witness_SlotCommandsIssue_6 :
    (issues (wTile) (0 : TileId) { sm := .qtov (63 : Fin 64) (15 : Fin 16) (1 : Fin 16) }) := by
  decide

theorem witness_SlotCommandsIssue_7 :
    (issues (wTile) (0 : TileId) { sm := .vtoq (63 : Fin 64) (15 : Fin 16) (15 : Fin 16) }) := by
  decide

theorem witness_SlotCommandsIssue_8 :
    (0 < (1 : Nat)) ∧ ((1 : Nat) ≤ 16) ∧ (issues (wTile) (0 : TileId) { sm := .qtos (1 : Nat) (15 : Fin 16) (1 : Fin 2) (0 : Fin 32) (0 : Nat) }) := by
  decide

theorem witness_SlotCommandsIssue_9 :
    (0 < (16 : Nat)) ∧ ((16 : Nat) ≤ 16) ∧ (issues (wTile) (0 : TileId) { sm := .stoq (16 : Nat) (15 : Fin 16) (3 : Fin 4) (0 : Fin 32) (0 : Nat) }) := by
  decide

theorem witness_SlotCommandsIssue_10 :
    ((⟨0, 0, 0, 0, false, 0, 0, false, 0⟩ : ChF).ok) ∧ (issues (wTile) (0 : TileId) { sm := .ch (⟨0, 0, 0, 0, false, 0, 0, false, 0⟩ : ChF) }) := by
  decide

theorem witness_SlotCommandsIssue_11 :
    (issues (wTile) (0 : TileId) { sm := .fence (255 : Fin 256) }) := by
  decide

theorem witness_SlotCommandsIssue_12 :
    (0 < (65536 : Nat)) ∧ ((65536 : Nat) ≤ 65536) ∧ (issues (wTile) (0 : TileId) { nx := .send (0 : Fin 16) (0 : Fin 64) (65536 : Nat) (false : Bool) (0 : Fin 32) }) := by
  decide

theorem witness_SlotCommandsIssue_13 :
    (issues (wTile) (0 : TileId) { nx := .sig (0 : Fin 64) }) := by
  decide

theorem witness_SlotCommandsIssue_14 :
    (issues (wTile) (0 : TileId) { nx := .wait (7 : Fin 8) (0 : Fin 32) }) := by
  decide

theorem witness_SlotCommandsIssue_15 :
    (issues (wTile) (0 : TileId) { nx := .coll (63 : Fin 64) (0 : Fin 8) (0 : Fin 32) }) := by
  decide

theorem witness_SlotCommandsIssue_16 :
    (issues (wTile) (0 : TileId) { nx := .hevt (255 : Fin 256) }) := by
  decide

theorem witness_SlotCommandsIssue_17 :
    (issues (wTile) (0 : TileId) { ct := .li (31 : Fin 32) (65535 : Fin 65536) (false : Bool) }) := by
  decide

theorem witness_SlotCommandsIssue_18 :
    ((12 : Fin 16).val ≤ 12) ∧ (issues (wTile) (0 : TileId) { ct := .alu (31 : Fin 32) (0 : Fin 32) (0 : Fin 32) (12 : Fin 16) }) := by
  decide

theorem witness_SlotCommandsIssue_19 :
    (issues (wTile) (0 : TileId) { ct := .addi (0 : Fin 32) (31 : Fin 32) (32768 : Fin 65536) }) := by
  decide

theorem witness_SlotCommandsIssue_20 :
    (issues (wTile) (0 : TileId) { ct := .loop (3 : Fin 4) (0 : Fin 32) (8 : Fin 4096) }) := by
  decide

theorem witness_SlotCommandsIssue_21 :
    (issues (wTile) (0 : TileId) { ct := .rdl (1 : Fin 32) (3 : Fin 4) }) := by
  decide

theorem witness_SlotCommandsIssue_22 :
    ((6 : Fin 8).val ≠ 7) ∧ (issues (wTile) (0 : TileId) { ct := .br (0 : Fin 32) (0 : Fin 32) (6 : Fin 8) (9 : Fin 4096) }) := by
  decide

theorem witness_SlotCommandsIssue_23 :
    (issues (wTile) (0 : TileId) { ct := .phase (3 : Fin 4) (4095 : Fin 4096) }) := by
  decide

theorem witness_SlotCommandsIssue_24 :
    (issues (wTile) (0 : TileId) { ct := .done }) := by
  decide

theorem witness_SlotCommandsIssue_25 :
    (128 ≤ (128 : Fin 256).val) ∧ (fetchesNow (wTile) (0 : TileId)) := by
  decide

theorem witness_SlotCommandsIssue_26 :
    ((127 : Fin 256).val < 128) ∧ (fetchesNow (wTile) (0 : TileId)) := by
  decide

theorem witness_SlotCommandsIssue_27 :
    (12 < (13 : Fin 16).val) ∧ (fetchesNow (wTile) (0 : TileId)) := by
  decide

theorem witness_SlotCommandsIssue_28 :
    ((7 : Fin 8).val = 7) ∧ (fetchesNow (wTile) (0 : TileId)) := by
  decide

theorem witness_VectorCommandsIssue_1 :
    (issues (wTile) (0 : TileId) { vx := .op (.add : VxOpc) ({} : VxF) }) := by
  decide

theorem witness_VectorCommandsIssue_2 :
    (vxLegal (.cmp : VxOpc) ({ x := 7 } : VxF) = false) ∧ (fetchesNow (wTile) (0 : TileId)) := by
  decide

theorem witness_TileCyclesRun_1 :
    ((upsetTile (tile (wTile) (0 : TileId)) ({} : CycleErrs)).ready) ∧ ((upsetTile (tile (wTile) (0 : TileId)) ({} : CycleErrs)).hold = none) ∧ ((upsetTile (tile (wTile) (0 : TileId)) ({} : CycleErrs)).fetchEnd = false) := by
  decide

theorem witness_TileCyclesRun_2 :
    ((upsetTile (tile (wTileEnd) (0 : TileId)) ({} : CycleErrs)).ready) ∧ ((upsetTile (tile (wTileEnd) (0 : TileId)) ({} : CycleErrs)).hold = none) ∧ ((upsetTile (tile (wTileEnd) (0 : TileId)) ({} : CycleErrs)).fetchEnd) := by
  decide

theorem witness_TileCyclesRun_3 :
    ((upsetTile (tile (wTileHold) (0 : TileId)) ({} : CycleErrs)).ready) ∧ ((upsetTile (tile (wTileHold) (0 : TileId)) ({} : CycleErrs)).hold = some (⟨0, { nx := .wait 0 1 }, false, []⟩ : Hold)) := by
  decide

theorem witness_TileCyclesRun_4 :
    ((tile (wTilePace) (0 : TileId)).runState = 2) ∧ ((tile (wTilePace) (0 : TileId)).retry = []) ∧ (isPacing (tile (wTilePace) (0 : TileId)).duty (tile (wTilePace) (0 : TileId)).phase) ∧ ((tile (wTilePace) (0 : TileId)).fetchEnd = false) := by
  decide

theorem witness_TileCyclesRun_5 :
    ((tile (wTilePaceEnd) (0 : TileId)).runState = 2) ∧ ((tile (wTilePaceEnd) (0 : TileId)).retry = []) ∧ (isPacing (tile (wTilePaceEnd) (0 : TileId)).duty (tile (wTilePaceEnd) (0 : TileId)).phase) ∧ ((tile (wTilePaceEnd) (0 : TileId)).fetchEnd) := by
  decide

theorem witness_TileCyclesRun_6 :
    ((tile (wTileRetry) (0 : TileId)).retry ≠ []) := by
  decide

theorem witness_TileCyclesRun_7 :
    ((tile (wTile) (0 : TileId)).runState = 2) ∧ ((tile (wTile) (0 : TileId)).retry = []) ∧ ((tile (wTile) (0 : TileId)).readsBad = false) ∧ ((tile (wTile) (0 : TileId)).fetchEnd = false) := by
  decide

theorem witness_TileCyclesRun_8 :
    ((tile (wTile) (0 : TileId)).runState = 2) ∧ ((tile (wTile) (0 : TileId)).retry = []) ∧ ((tile (wTile) (0 : TileId)).readsBad = false) ∧ ((tile (wTile) (0 : TileId)).fetchEnd = false) := by
  decide

theorem witness_TileCyclesRun_9 :
    ((tile (wTileTrap) (0 : TileId)).runState = 2) ∧ ((tile (wTileTrap) (0 : TileId)).trapping) ∧ ((tile (wTileTrap) (0 : TileId)).retry = []) ∧ ((tile (wTileTrap) (0 : TileId)).readsBad = false) ∧ (tileQuiet (settle (tile (wTileTrap) (0 : TileId)))) := by
  decide

theorem witness_TileCyclesRun_10 :
    ((tile (wTileEnd) (0 : TileId)).runState = 2) ∧ ((tile (wTileEnd) (0 : TileId)).fetchEnd) ∧ ((tile (wTileEnd) (0 : TileId)).trapping = false) ∧ ((tile (wTileEnd) (0 : TileId)).retry = []) ∧ ((tile (wTileEnd) (0 : TileId)).readsBad = false) ∧ (tileDone (settle (tile (wTileEnd) (0 : TileId)))) := by
  decide

theorem witness_TileCyclesRun_11 :
    (launchOf (wSlip) (0 : TileId) = some ((0 : Nat), (wSlipJob : Job))) ∧ ((wSlipJob : Job).work = .launch (0 : Nat) (wSlipImage : Image) ([] : List Nat) (true : Bool) ([] : SMap (Nat × Nat))) ∧ ((wSlipImage : Image).slipUs ≠ 0) ∧ ((tile (wSlip) (0 : TileId)).runState = 2) ∧ (slipRuns (tile (wSlip) (0 : TileId))) := by
  decide

theorem witness_TilePageWrites_1 :
    (takesWrite (wUp) (0 : PortId) (tileP (0 : TileId)) HDR_SOFT_RESET) := by
  decide

theorem witness_TilePageWrites_2 :
    (takesWrite (wUp) (0 : PortId) (moverP (0 : TileId)) HDR_SOFT_RESET) ∧ (rd (wUp) (moverP (0 : TileId)) HDR_STATE ≠ 1) ∧ (rd (wUp) (moverP (0 : TileId)) HDR_STATE ≠ 3) ∧ ((tile (wUp) (0 : TileId)).runState ≠ 2) := by
  decide

theorem witness_TilePageWrites_3 :
    (takesWrite (wr wTile (moverP 0) HDR_STATE 3) (0 : PortId) (moverP (0 : TileId)) HDR_SOFT_RESET) ∧ ((tile (wr wTile (moverP 0) HDR_STATE 3) (0 : TileId)).runState = 2) := by
  decide

theorem witness_TilePageWrites_4 :
    (takesWrite (wMoverOff) (0 : PortId) (moverP (0 : TileId)) HDR_SOFT_RESET) ∧ (rd (wMoverOff) (moverP (0 : TileId)) HDR_STATE = 1 ∨ rd (wMoverOff) (moverP (0 : TileId)) HDR_STATE = 3) ∧ ((tile (wMoverOff) (0 : TileId)).runState ≠ 2) := by
  decide

theorem witness_TilePageWrites_5 :
    (writeError (wUp) (0 : PortId) (moverP (0 : TileId)) (0x800 + 8 * (63 : Fin 64).val) = some 0) ∧ ((tile (wUp) (0 : TileId)).runState ≠ 2) := by
  decide

theorem witness_TilePageWrites_6 :
    (writeError (wUp) (0 : PortId) (moverP (0 : TileId)) 0x124 = some 0) ∧ ((tile (wUp) (0 : TileId)).runState ≠ 2) := by
  decide

theorem witness_TilePageWrites_7 :
    (writeError (wTile) (0 : PortId) (moverP (0 : TileId)) 0x124 = some 0) ∧ ((tile (wTile) (0 : TileId)).runState = 2) := by
  decide

theorem witness_MoverAndMesh_1 :
    (headCmd (wMover 1) (0 : TileId) (7 : Fin 8) = some (wCmd 1 : MCmd)) ∧ ((wCmd 1 : MCmd).op = 1) ∧ ((moveLine (wMover 1) (0 : TileId) (7 : Fin 8) ([] : SectorErrs) 0).2 = .yes) := by
  decide

theorem witness_MoverAndMesh_2 :
    (headCmd (wMover 2) (0 : TileId) (7 : Fin 8) = some (wCmd 2 : MCmd)) ∧ ((wCmd 2 : MCmd).op = 2) ∧ ((moveLine (wMover 2) (0 : TileId) (7 : Fin 8) [] 0).2 = .yes) := by
  decide

theorem witness_MoverAndMesh_3 :
    (headCmd (wMover 3) (0 : TileId) (7 : Fin 8) = some (wCmd 3 : MCmd)) ∧ ((wCmd 3 : MCmd).op = 3) ∧ ((moveLine (wMover 3) (0 : TileId) (7 : Fin 8) [] 0).2 = .yes) := by
  decide

theorem witness_MoverAndMesh_4 :
    (headCmd (wMover 4) (0 : TileId) (7 : Fin 8) = some (wCmd 4 : MCmd)) ∧ ((wCmd 4 : MCmd).op = 4) ∧ ((moveLine (wMover 4) (0 : TileId) (7 : Fin 8) ([] : SectorErrs) 0).2 = .yes) := by
  decide

theorem witness_MoverAndMesh_5 :
    ((moveLine (wMover 0) (0 : TileId) (7 : Fin 8) ([] : SectorErrs) 0).2 = .halted) := by
  decide

theorem witness_MoverAndMesh_6 :
    (((tile (wMover 5) (0 : TileId)).chan (7 : Fin 8)).cmds = ({ wCmd 1 with moved := 1 } : MCmd) :: ([] : List MCmd)) ∧ (({ wCmd 1 with moved := 1 } : MCmd).bad = 0) ∧ (({ wCmd 1 with moved := 1 } : MCmd).unfinished = false) ∧ (waitsAtWindow (wMover 5) (8 * (0 : TileId) + (7 : Fin 8)) = false) := by
  decide

theorem witness_MoverAndMesh_7 :
    (((tile (wSend false) (0 : TileId)).outQ (15 : Fin 16)).sends = (wSnd false : Send) :: ([] : List Send)) ∧ (((tile (wSend false) (0 : TileId)).outQ (15 : Fin 16)).lines = (List.replicate 64 7 : List Byte) :: ([] : List (List Byte))) ∧ (sendReady (wSend false) (0 : TileId) (15 : Fin 16) (wSnd false : Send)) ∧ ((wSnd false : Send).route.remote = false) ∧ (lineFits (wSend false) (wSnd false : Send).route.tile (wSnd false : Send).route.queue) := by
  decide

theorem witness_MoverAndMesh_8 :
    (((tile (wSend true) (0 : TileId)).outQ (15 : Fin 16)).sends = (wSnd true : Send) :: ([] : List Send)) ∧ (((tile (wSend true) (0 : TileId)).outQ (15 : Fin 16)).lines = (List.replicate 64 7 : List Byte) :: ([] : List (List Byte))) ∧ (sendReady (wSend true) (0 : TileId) (15 : Fin 16) (wSnd true : Send)) ∧ ((wSnd true : Send).route.remote) ∧ (0 < (1 : Nat)) ∧ (0 < (wSnd true : Send).left) := by
  decide

theorem witness_MoverAndMesh_10 :
    (meshInAt (wMeshIn 1) (0 : TileId) = some (0 : Nat)) ∧ (pktType ((wMeshIn 1).meshIn.getD (0 : Nat) []) = 1) ∧ (flowHeld (wMeshIn 1) (tileDie (0 : TileId)) (pktFlow ((wMeshIn 1).meshIn.getD (0 : Nat) [])) = false) ∧ (lineWanted (wMeshIn 1) (0 : TileId) (pktQueue ((wMeshIn 1).meshIn.getD (0 : Nat) []))) ∧ (((tile (wMeshIn 1) (0 : TileId)).inQ (pktQueue ((wMeshIn 1).meshIn.getD (0 : Nat) []))).lines.length < 16) ∧ (crossData (wMeshIn 1) [tileDie (0 : TileId)] (pktFlow ((wMeshIn 1).meshIn.getD (0 : Nat) [])) ((((wMeshIn 1).meshIn.getD (0 : Nat) []).drop 16).take 64) = (crossData (wMeshIn 1) [0] (pktFlow ((wMeshIn 1).meshIn.getD 0 [])) ((((wMeshIn 1).meshIn.getD 0 []).drop 16).take 64) : State × List Byte)) := by
  decide +kernel

theorem witness_MoverAndMesh_11 :
    ((tile (wSend false) (0 : TileId)).sigs[(0 : Nat)]? = some (wSg : Sig)) ∧ (sigAhead (tile (wSend false) (0 : TileId)) (wSg : Sig).route (wSg : Sig).seq = false) ∧ (routeHeld (wSend false) (0 : TileId) (wSg : Sig).route = false) ∧ ((wSg : Sig).route.remote = false) ∧ (meshTakes (wSend false) (wSg : Sig).route.tile) ∧ (crossNat (setTile (wSend false) (0 : TileId) { tile (wSend false) (0 : TileId) with sigs := (tile (wSend false) (0 : TileId)).sigs.eraseIdx (0 : Nat) }) (routeGroups (0 : TileId) (wSg : Sig).route) (tileFlow (0 : TileId) (wSg : Sig).route) 1 ((wSg : Sig).route.queue % 8) = (crossNat (setTile (wSend false) 0 { tile (wSend false) 0 with sigs := (tile (wSend false) 0).sigs.eraseIdx 0 }) (routeGroups 0 wSg.route) (tileFlow 0 wSg.route) 1 (wSg.route.queue % 8) : State × Nat)) := by
  decide

theorem witness_MoverAndMesh_12 :
    (meshInAt (wMeshIn 2) (0 : TileId) = some (0 : Nat)) ∧ (pktType ((wMeshIn 2).meshIn.getD (0 : Nat) []) = 2) ∧ (flowHeld (wMeshIn 2) (tileDie (0 : TileId)) (pktFlow ((wMeshIn 2).meshIn.getD (0 : Nat) [])) = false) ∧ (meshTakes (wMeshIn 2) (0 : TileId)) ∧ (crossNat (wMeshIn 2) [tileDie (0 : TileId)] (pktFlow ((wMeshIn 2).meshIn.getD (0 : Nat) [])) 1 (pktEvent ((wMeshIn 2).meshIn.getD (0 : Nat) [])) = (crossNat (wMeshIn 2) [0] (pktFlow ((wMeshIn 2).meshIn.getD 0 [])) 1 (pktEvent ((wMeshIn 2).meshIn.getD 0 [])) : State × Nat)) := by
  decide +kernel

theorem witness_MoverAndMesh_13 :
    ((tile (wSend false) (0 : TileId)).owed = (3 : Nat) :: ([] : List Nat)) ∧ (creditHeld (wSend false) (0 : TileId) (3 : Nat) = false) := by
  decide

theorem witness_MoverAndMesh_14 :
    (plazaUp (wSend true)) ∧ (tileExists (wSend true) (0 : TileId)) ∧ (plazaHeld (wSend true) 9 (0 : TileId) = false) := by
  decide

theorem witness_SliceCommands_1 :
    (tileError (wUp) (0 : DistId) (0 : TileId) = 0) ∧ (sliceLives (wUp) (0 : TileId)) ∧ (sliceBusy (wUp) (0 : TileId) = false) ∧ (sliceHolds (wUp) (0 : TileId) = false) ∧ (narrowAhead (slice (wUp) (0 : TileId)) (0 : SectorId) = false) := by
  decide

theorem witness_SliceCommands_2 :
    ((List.replicate 32 5 : List Byte).length = 32) ∧ (tileError (wUp) (0 : DistId) (0 : TileId) = 0) ∧ (sliceLives (wUp) (0 : TileId)) ∧ (sliceBusy (wUp) (0 : TileId) = false) ∧ (sliceHolds (wUp) (0 : TileId) = false) := by
  decide

theorem witness_SliceCommands_3 :
    (0 < ([5] : List Byte).length) ∧ (([5] : List Byte).length ≤ 31) ∧ ((31 : Fin 32).val + ([5] : List Byte).length ≤ 32) ∧ (tileError (wUp) (0 : DistId) (0 : TileId) = 0) ∧ (sliceLives (wUp) (0 : TileId)) ∧ (sliceBusy (wUp) (0 : TileId) = false) ∧ (sliceHolds (wUp) (0 : TileId) = false) := by
  decide

theorem witness_SliceCommands_4 :
    (sliceLives (wGather) (0 : TileId)) ∧ ((mergeOf (slice (wGather) (0 : TileId)) (0 : Nat)).any (fun e => !e.flush)) := by
  decide

theorem witness_SliceCommands_5 :
    (sliceLives (wMerge) (0 : TileId)) ∧ (mergeOf (slice (wMerge) (0 : TileId)) (0 : Nat) = some ({ sector := 0, mask := 1, data := List.replicate 32 7, flush := true } : Merge)) ∧ (({ sector := 0, mask := 1, data := List.replicate 32 7, flush := true } : Merge).flush) := by
  decide

theorem witness_SliceCommands_6 :
    (sliceLives (wUp) (0 : TileId)) ∧ ((slice (wUp) (0 : TileId)).mode = 0) ∧ ((slice (wUp) (0 : TileId)).portLost = false) := by
  decide

theorem witness_SliceCommands_7 :
    (sliceLives (wScrub) (0 : TileId)) ∧ (rd (wScrub) (sliceP (0 : TileId)) SLICE_SCRUB_EN = 1) ∧ ((slice (wScrub) (0 : TileId)).mode = 0) ∧ (narrowAhead (slice (wScrub) (0 : TileId)) (rd (wScrub) (sliceP (0 : TileId)) SLICE_SCRUB_POS) = false) := by
  decide

theorem witness_SliceCommands_8 :
    (takesWrite (wUp) (0 : PortId) (sliceP (0 : TileId)) HDR_SOFT_RESET) ∧ ((slice (wUp) (0 : TileId)).mode = 0) := by
  decide

theorem witness_SliceCommands_9 :
    (takesWrite (wMode 1) (0 : PortId) (sliceP (0 : TileId)) HDR_SOFT_RESET) ∧ ((slice (wMode 1) (0 : TileId)).mode ≠ 0) := by
  decide

theorem witness_EngineCommands_1 :
    ((resolve (wUp) (0 : DistId) (windowAt (0 : TileId) (0 : Fin 1048576))).toOption = some (.win 0 0 : Target)) ∧ (sliceLives (wUp) (0 : TileId)) ∧ (plazaHeld (wUp) (0 : DistId) (0 : TileId) = false) := by
  decide

theorem witness_EngineCommands_2 :
    (0 < ([5] : List Byte).length) ∧ ((1048575 : Fin 1048576).val % 64 + ([5] : List Byte).length ≤ 64) ∧ ((resolve (wUp) (0 : DistId) (windowAt (0 : TileId) (1048575 : Fin 1048576))).toOption = some (.win 0 1048575 : Target)) ∧ (sliceLives (wUp) (0 : TileId)) ∧ (plazaHeld (wUp) (0 : DistId) (0 : TileId) = false) := by
  decide

theorem witness_EngineCommands_3 :
    ((resolve (wUp) (0 : DistId) (windowAt (0 : TileId) 0xFFF00)).toOption = some (.win 0 0xFFF00 : Target)) ∧ (sliceLives (wUp) (0 : TileId)) ∧ (plazaHeld (wUp) (0 : DistId) (0 : TileId) = false) ∧ (plazaData (wUp) (0 : DistId) (0 : TileId) (leBytes 4 1) = (((plazaData wUp 0 0 (leBytes 4 1)).1), leBytes 4 1)) ∧ (rd ((plazaData wUp 0 0 (leBytes 4 1)).1) (engineP (0 : TileId)) HDR_STATE = 2) ∧ ((slice ((plazaData wUp 0 0 (leBytes 4 1)).1) (0 : TileId)).mode = 0) := by
  decide

theorem witness_EngineCommands_4 :
    ((resolve (wMode 1) (0 : DistId) (windowAt (0 : TileId) 0xFFF00)).toOption = some (.win 0 0xFFF00 : Target)) ∧ (sliceLives (wMode 1) (0 : TileId)) ∧ (plazaHeld (wMode 1) (0 : DistId) (0 : TileId) = false) ∧ (plazaData (wMode 1) (0 : DistId) (0 : TileId) (leBytes 4 0) = (((plazaData (wMode 1) 0 0 (leBytes 4 0)).1), leBytes 4 0)) ∧ ((slice ((plazaData (wMode 1) 0 0 (leBytes 4 0)).1) (0 : TileId)).mode = 1) := by
  decide

theorem witness_EngineCommands_5 :
    (sliceLives (wMode 2) (0 : TileId)) ∧ ((slice (wMode 2) (0 : TileId)).mode = 2) ∧ (flushedIn (slice (wMode 2) (0 : TileId))) ∧ ((slice (wMode 2) (0 : TileId)).held ≠ some 0) ∧ (rd (wMode 2) duskP DUSK_TW_STATE ≠ 1) := by
  decide

theorem witness_EngineCommands_6 :
    (sliceLives (wModeHeld) (0 : TileId)) ∧ ((slice (wModeHeld) (0 : TileId)).mode = 2) ∧ (flushedIn (slice (wModeHeld) (0 : TileId))) ∧ ((slice (wModeHeld) (0 : TileId)).held = some 0) := by
  decide

theorem witness_EngineCommands_7 :
    (sliceLives (wMode 3) (0 : TileId)) ∧ (canLeave (slice (wMode 3) (0 : TileId))) := by
  decide

theorem witness_EngineCommands_8 :
    ((resolve (wMode 1) (0 : DistId) (windowAt (0 : TileId) 0xFFF40)).toOption = some (.win 0 0xFFF40 : Target)) ∧ (sliceLives (wMode 1) (0 : TileId)) ∧ (plazaHeld (wMode 1) (0 : DistId) (0 : TileId) = false) ∧ ((16 : Nat) < 2 ^ 32) ∧ (plazaData (wMode 1) (0 : DistId) (0 : TileId) (leBytes 4 (16 : Nat)) = (((plazaData (wMode 1) 0 0 (leBytes 4 16)).1), leBytes 4 (16 : Nat))) ∧ ((slice ((plazaData (wMode 1) 0 0 (leBytes 4 16)).1) (0 : TileId)).mode = 1) ∧ (goBad (16 : Nat) = false) := by
  decide

theorem witness_EngineCommands_9 :
    (sliceLives (wGo) (0 : TileId)) ∧ (goReady (slice (wGo) (0 : TileId))) := by
  decide

theorem witness_EngineCommands_10 :
    (sliceLives (wRun 0) (0 : TileId)) ∧ (passDue (slice (wRun 0) (0 : TileId))) ∧ (rd (wRun 0) (engineP (0 : TileId)) ENGINE_PAUSED = 0) := by
  decide

theorem witness_EngineCommands_11 :
    (sliceLives (wRun 1) (0 : TileId)) ∧ ((slice (wRun 1) (0 : TileId)).run = some (wEngRun 1 : EngRun)) ∧ ((wEngRun 1 : EngRun).count ≤ (wEngRun 1 : EngRun).next) := by
  decide

theorem witness_EngineCommands_12 :
    (sliceLives (wRun 0) (0 : TileId)) ∧ ((slice (wRun 0) (0 : TileId)).mode ≠ 0) ∧ ((slice (wRun 0) (0 : TileId)).run ≠ none) ∧ (rd (wRun 0) (engineP (0 : TileId)) ENGINE_OWED < 8) := by
  decide

theorem witness_EngineCommands_13 :
    (sliceLives (wMode 1) (0 : TileId)) ∧ ((slice (wMode 1) (0 : TileId)).mode ≠ 0) ∧ ((slice (wMode 1) (0 : TileId)).run = none) := by
  decide

theorem witness_EngineCommands_14 :
    (sliceLives (wOwed) (0 : TileId)) ∧ (passDue (slice (wOwed) (0 : TileId))) ∧ (rd (wOwed) (engineP (0 : TileId)) ENGINE_OWED = 8) ∧ (rd (wOwed) (engineP (0 : TileId)) ENGINE_PAUSED = 0) := by
  decide

theorem witness_EngineCommands_15 :
    (regsOk (wPaused)) ∧ (sliceLives (wPaused) (0 : TileId)) ∧ (rd (wPaused) (engineP (0 : TileId)) ENGINE_PAUSED = 1) := by
  decide

theorem witness_EngineCommands_16 :
    (takesWrite (wUp) (0 : PortId) (engineP (0 : TileId)) HDR_ENABLE) ∧ (tileFenced (wUp) (0 : TileId) = false) := by
  decide

theorem witness_EngineCommands_17 :
    (takesWrite (wUp) (0 : PortId) (engineP (0 : TileId)) HDR_SOFT_RESET) ∧ ((slice (wUp) (0 : TileId)).mode = 0) ∧ (rd (wUp) (engineP (0 : TileId)) HDR_STATE ≠ 1) ∧ (rd (wUp) (engineP (0 : TileId)) HDR_STATE ≠ 3) := by
  decide

theorem witness_EngineCommands_18 :
    (takesWrite (wMode 1) (0 : PortId) (engineP (0 : TileId)) HDR_SOFT_RESET) ∧ ((slice (wMode 1) (0 : TileId)).mode ≠ 0) := by
  decide

theorem witness_CrossingAndEngines_1 :
    (takesWrite (wOe 0) (0 : PortId) (crossingP (0 : OeId)) CROSSING_APPLY) ∧ (rd (wOe 0) (crossingP (0 : OeId)) HDR_STATE = 2) ∧ (rd (wOe 0) (crossingP (0 : OeId)) CROSSING_BUSY = 1) := by
  decide

theorem witness_CrossingAndEngines_2 :
    (takesWrite (wUp) (0 : PortId) (crossingP (3 : OeId)) CROSSING_APPLY) ∧ (rd (wUp) (crossingP (3 : OeId)) HDR_STATE = 2) ∧ (rd (wUp) (crossingP (3 : OeId)) CROSSING_BUSY ≠ 1) := by
  decide

theorem witness_CrossingAndEngines_3 :
    ((crossing (wOe 0) (0 : OeId)).cur = none) ∧ ((crossing (wOe 0) (0 : OeId)).todo = (0 : Nat) :: ([] : List Nat)) ∧ (oeOn (wOe 0) (0 : OeId)) ∧ (rd (wOe 0) (crossingP (0 : OeId)) CROSSING_BUSY = 1) := by
  decide

theorem witness_CrossingAndEngines_4 :
    ((crossing (wOe 1) (0 : OeId)).cur = some (⟨0, 0, 2, [], [], [], []⟩ : Move)) ∧ (oeOn (wOe 1) (0 : OeId)) := by
  decide

theorem witness_CrossingAndEngines_5 :
    ((crossing (wOe 1) (0 : OeId)).cur = some (⟨0, 0, 2, [], [], [], []⟩ : Move)) ∧ (oeOn (wOe 1) (0 : OeId)) ∧ ((⟨0, 0, 2, [], [], [], []⟩ : Move).step ≠ 1) := by
  decide

theorem witness_CrossingAndEngines_6 :
    (oeOn (wOe 0) (0 : OeId)) ∧ (rd (wOe 0) (crossingP (0 : OeId)) CROSSING_DITHER_EN = 1) := by
  decide

theorem witness_CrossingAndEngines_7 :
    (takesWrite (wOe 0) (0 : PortId) (oeP (0 : OeId)) HDR_ENABLE) := by
  decide

theorem witness_CrossingAndEngines_8 :
    (takesWrite (wOe 0) (0 : PortId) (blvdP (0 : OeId)) (if (true : Bool) then BLVD_TX_ENABLE else BLVD_RX_ENABLE)) := by
  decide

theorem witness_CrossingAndEngines_9 :
    (oeOn (wOe 0) (0 : OeId)) ∧ (bitOf (crossing (wOe 0) (0 : OeId)).dfbDead (7 : Fin 8) = false) := by
  decide

theorem witness_CrossingAndEngines_10 :
    (oeOn (wOe 0) (0 : OeId)) ∧ (bitOf (crossing (wOe 0) (0 : OeId)).dfbDead (7 : Fin 8) = false) ∧ (bitOf (rd (wOe 0) (oeP (0 : OeId)) OE_DFB_OK) (7 : Fin 8)) := by
  decide

theorem witness_CrossingAndEngines_11 :
    (oeOn (wOe 0) (0 : OeId)) ∧ (bitOf (crossing (wOe 0) (0 : OeId)).dfbDead (7 : Fin 8) = false) := by
  decide

theorem witness_CrossingAndEngines_12 :
    (oeOn (wOe 0) (0 : OeId)) ∧ (lineDark (wOe 0) (0 : OeId) (31 : Fin 32) = false) := by
  decide

theorem witness_LinkMessages_1 :
    (hears (wLink) (0 : AlleyId)) ∧ (alleyRetrains (wLink) (0 : AlleyId) = false) := by
  decide

theorem witness_LinkMessages_2 :
    (hears (wLinkRetrain) (0 : AlleyId)) ∧ (alleyRetrains (wLinkRetrain) (0 : AlleyId)) := by
  decide

theorem witness_LinkMessages_3 :
    (hears (wMove 1) (0 : AlleyId)) ∧ (alleyRetrains (wMove 1) (0 : AlleyId) = false) ∧ ((crossing (wMove 1) (linkEngine (0 : AlleyId))).cur = some (⟨0, 0x84, 1, [], [], [0], []⟩ : Move)) ∧ ((⟨0, 0x84, 1, [], [], [0], []⟩ : Move).rels.find? (fun v => !(⟨0, 0x84, 1, [], [], [0], []⟩ : Move).waits.contains v && wgLink (wMove 1) (linkEngine (0 : AlleyId)) v == (0 : AlleyId).val && wgFibre (wMove 1) (linkEngine (0 : AlleyId)) v == (0 : Fin 4).val) = some (0 : Nat)) := by
  decide

theorem witness_LinkMessages_4 :
    (hears (wMove 1) (0 : AlleyId)) ∧ (alleyRetrains (wMove 1) (0 : AlleyId) = false) ∧ (posHeld (wMove 1) (linkEngine (0 : AlleyId)) (4 * linkDir (0 : AlleyId) + (0 : Fin 4)) || posTarget (wMove 1) (linkEngine (0 : AlleyId)) (4 * linkDir (0 : AlleyId) + (0 : Fin 4))) := by
  decide

theorem witness_LinkMessages_5 :
    (hears (wLink) (0 : AlleyId)) ∧ (alleyRetrains (wLink) (0 : AlleyId) = false) ∧ ((posHeld (wLink) (linkEngine (0 : AlleyId)) (4 * linkDir (0 : AlleyId) + (3 : Fin 4)) || posTarget (wLink) (linkEngine (0 : AlleyId)) (4 * linkDir (0 : AlleyId) + (3 : Fin 4))) = false) := by
  decide

theorem witness_LinkMessages_6 :
    (hears (wMove 3) (0 : AlleyId)) ∧ ((crossing (wMove 3) (linkEngine (0 : AlleyId))).cur = some (⟨0, 0x81, 3, [], [], [], []⟩ : Move)) ∧ ((⟨0, 0x81, 3, [], [], [], []⟩ : Move).step = 3) ∧ (posLink (linkEngine (0 : AlleyId)) (wgPos (⟨0, 0x81, 3, [], [], [], []⟩ : Move).target) = (0 : AlleyId)) ∧ (posFibre (wgPos (⟨0, 0x81, 3, [], [], [], []⟩ : Move).target) = (1 : Fin 4)) := by
  decide

theorem witness_LinkMessages_7 :
    (hears (wMove 3) (0 : AlleyId)) ∧ ((crossing (wMove 3) (linkEngine (0 : AlleyId))).cur = some (⟨0, 0x81, 3, [], [], [], []⟩ : Move)) ∧ ((⟨0, 0x81, 3, [], [], [], []⟩ : Move).step = 3) ∧ (posLink (linkEngine (0 : AlleyId)) (wgPos (⟨0, 0x81, 3, [], [], [], []⟩ : Move).target) = (0 : AlleyId)) ∧ (posFibre (wgPos (⟨0, 0x81, 3, [], [], [], []⟩ : Move).target) = (1 : Fin 4)) := by
  decide

theorem witness_LinkMessages_8 :
    (hears (wLink) (0 : LinkId)) ∧ (isAlley (0 : LinkId)) ∧ (txUp (wLink) (0 : LinkId)) ∧ (bitOf (rd (wLink) (alleyP (0 : LinkId)) ALLEY_TX_LANES) (31 : Fin 32)) := by
  decide

theorem witness_LinkMessages_9 :
    (hears (wLine) (wLineId : LinkId)) ∧ (isAlley (wLineId : LinkId) = false) ∧ (txUp (wLine) (blvdLink (linkEngine (wLineId : LinkId)) (1 : Fin 32))) := by
  decide

theorem witness_LinkMessages_10 :
    (linkLive (wLink) (0 : LinkId)) := by
  decide

theorem witness_LinkMessages_11 :
    (hears (wLink) (0 : LinkId)) := by
  decide

theorem witness_LinkMessages_12 :
    (hears (wLink) (0 : LinkId)) := by
  decide

theorem witness_LinkCommands_1 :
    (sidesWord 1 (wSides : Sides) = some (0 : Nat)) ∧ (linkLive (wLinkTrain) (0 : LinkId)) ∧ (laneTested (wLinkTrain) (0 : LinkId) (0 : Fin 32)) ∧ (checkGood (0 : Nat)) := by
  decide +kernel

theorem witness_LinkCommands_2 :
    (linkLive (wLinkTrain) (0 : LinkId)) ∧ (laneTested (wLinkTrain) (0 : LinkId) (0 : Fin 32)) := by
  decide

theorem witness_LinkCommands_3 :
    ((List.replicate 32 [0] : List (List (BitVec 16))).flatten.length = 32) ∧ (linkHears (wLink) (0 : LinkId)) := by
  decide

theorem witness_LinkCommands_4 :
    (sidesWord 0 (⟨0, 0, 0, 0⟩ : Sides) = some (0 : Nat)) ∧ (hears (wLink) (0 : LinkId)) := by
  decide

theorem witness_LinkCommands_5 :
    (linkHears (wLinkNak) (0 : LinkId)) ∧ ((link (wLinkNak) (0 : LinkId)).nak) := by
  decide

theorem witness_LinkCommands_6 :
    (plazaUp (wLinkNak)) ∧ (linkSends (wLinkNak) (0 : LinkId)) ∧ ((link (wLinkNak) (0 : LinkId)).retry ≠ []) := by
  decide

theorem witness_LinkCommands_7 :
    (linkLive (wLinkTrain) (0 : LinkId)) ∧ ((link (wLinkTrain) (0 : LinkId)).rxTrain || rxUp (wLinkTrain) (0 : LinkId)) ∧ (isAlley (0 : LinkId)) := by
  decide

theorem witness_LinkCommands_8 :
    (linkLive (wLinkTrain) (0 : LinkId)) ∧ ((link (wLinkTrain) (0 : LinkId)).txTrain) ∧ (isAlley (0 : LinkId)) := by
  decide

theorem witness_LinkCommands_9 :
    (linkLive (wLine) (wLineId : LinkId)) ∧ ((link (wLine) (wLineId : LinkId)).rxTrain || rxUp (wLine) (wLineId : LinkId)) ∧ (isAlley (wLineId : LinkId) = false) := by
  decide

theorem witness_LinkCommands_10 :
    (linkLive (wLine) (wLineId : LinkId)) ∧ ((link (wLine) (wLineId : LinkId)).txTrain) ∧ (isAlley (wLineId : LinkId) = false) := by
  decide

theorem witness_LinkCommands_11 :
    (linkLive (wLink) (0 : LinkId)) ∧ (rxUp (wLink) (0 : LinkId)) ∧ (isAlley (0 : LinkId)) ∧ (bitOf (rd (wLink) (alleyP (0 : LinkId)) ALLEY_RX_LANES) (0 : Fin 32)) := by
  decide

theorem witness_LinkCommands_12 :
    (linkLive (wLine) (wLineId : LinkId)) ∧ (rxUp (wLine) (wLineId : LinkId)) ∧ (isAlley (wLineId : LinkId) = false) := by
  decide

theorem witness_LinkCommands_13 :
    (linkLive (wLink) (0 : AlleyId)) ∧ (alleyUp (wLink) (0 : AlleyId)) := by
  decide

theorem witness_LinkCommands_14 :
    (takesWrite (wLink) (0 : PortId) (alleyP (0 : AlleyId)) ALLEY_RETRAIN) := by
  decide

theorem witness_TopologyCommands_1 :
    (nextPacket (link (wPkt 1) (0 : LinkId)).rx = some ((wPktBytes 1 : List Byte), ([] : List Byte))) ∧ (plazaUp (wPkt 1)) ∧ (pktType (wPktBytes 1 : List Byte) ≠ 5) ∧ (packetHeld (wPkt 1) (0 : LinkId) (wPktBytes 1 : List Byte) = false) := by
  decide +kernel

theorem witness_TopologyCommands_2 :
    (nextPacket (link (wPkt 5) (0 : LinkId)).rx = some ((wPktBytes 5 : List Byte), ([] : List Byte))) ∧ (plazaUp (wPkt 5)) ∧ (topoOn (wPkt 5)) ∧ (pktType (wPktBytes 5 : List Byte) = 5) := by
  decide

theorem witness_TopologyCommands_3 :
    (plazaUp (wUp)) ∧ (SMap.getD (wUp).topo.silent (35 : Fin 36) 0 < 3) ∧ ((portLinks (wUp) (35 : Fin 36)).isEmpty) := by
  decide

theorem witness_TopologyCommands_4 :
    (plazaUp (wSilent)) ∧ (3 ≤ SMap.getD (wSilent).topo.silent (35 : Fin 36) 0) := by
  decide

theorem witness_TopologyCommands_5 :
    (takesWrite (wUp) (0 : PortId) topoP TOPO_PORT_ACCEPT) := by
  decide

theorem witness_TopologyCommands_6 :
    (takesWrite (wUp) (0 : PortId) topoP TOPO_SQUARE_ACCEPT) := by
  decide

theorem witness_TopologyCommands_7 :
    (writeError (wUp) (0 : PortId) topoP (0x140 + 0x10 * (3 : Fin 4).val + 4 * (2 : Fin 3).val) = some 0) := by
  decide

theorem witness_CollectiveCommands_1 :
    (collOf (wColl) (0 : Nat) = some (wCollC : Coll)) ∧ (plazaUp (wColl)) ∧ (mayStart (wColl) (wCollC : Coll)) := by
  decide

theorem witness_CollectiveCommands_2 :
    (takeColl (wCollPkt 1) (isCtl 1) = some ((wCtl 1 : List Byte), (wCollEmpty))) ∧ (plazaUp (wCollPkt 1)) := by
  decide

theorem witness_CollectiveCommands_3 :
    (takeColl (wCollPkt 0) (dataTaken (wCollPkt 0)) = some ((wCtl 0 : List Byte), (wCollEmpty))) ∧ (plazaUp (wCollPkt 0)) := by
  decide

theorem witness_CollectiveCommands_4 :
    (plazaUp (wCollFold)) ∧ (collOf (wCollFold) (0 : Nat) = some (wCollF : Coll)) ∧ (foldable (wCollFold) (wCollF : Coll) (0 : Nat)) := by
  decide +kernel

theorem witness_CollectiveCommands_5 :
    (takeColl (wCollPkt 2) (isCtl 2) = some ((wCtl 2 : List Byte), (wCollEmpty))) ∧ (plazaUp (wCollPkt 2)) := by
  decide

theorem witness_CollectiveCommands_6 :
    (takeColl (wCollPkt 3) (isCtl 3) = some ((wCtl 3 : List Byte), (wCollEmpty))) ∧ (plazaUp (wCollPkt 3)) := by
  decide

theorem witness_CollectiveCommands_7 :
    (collOf (wCollHold) (0 : Nat) = some (wCollH : Coll)) ∧ (plazaUp (wCollHold)) ∧ ((wCollH : Coll).started) ∧ ((wCollH : Coll).ending = none) ∧ (inHold (wCollHold) (wCollH : Coll)) ∧ (({ wCollH with holdUsed := 10 } : Coll) = { (wCollH : Coll) with holdUsed := min 200 ((wCollH : Coll).holdUsed + 10) }) := by
  decide

theorem witness_CollectiveCommands_8 :
    (collOf (wCollHold) (0 : Nat) = some (wCollH : Coll)) ∧ (plazaUp (wCollHold)) ∧ ((wCollH : Coll).started) ∧ ((wCollH : Coll).ending = none) ∧ ((wCollH : Coll).holds.contains (1 : Nat)) := by
  decide

theorem witness_CollectiveCommands_9 :
    (collOf (wCollHold) (0 : Nat) = some (wCollH : Coll)) ∧ (plazaUp (wCollHold)) ∧ ((wCollH : Coll).started) ∧ ((wCollH : Coll).ending = none) ∧ (inHold (wCollHold) (wCollH : Coll)) := by
  decide

theorem witness_CollectiveCommands_10 :
    (collOf (wCollHold) (0 : Nat) = some (wCollH : Coll)) ∧ (plazaUp (wCollHold)) ∧ ((wCollH : Coll).started) ∧ ((wCollH : Coll).ending = none) ∧ ((wCollH : Coll).d.startMs ≠ 0) ∧ (allReady (wCollHold) (wCollH : Coll) = false) := by
  decide

theorem witness_CollectiveCommands_11 :
    (collOf (wCollReady) (0 : Nat) = some (wCollR : Coll)) ∧ (plazaUp (wCollReady)) ∧ ((wCollR : Coll).started) ∧ ((wCollR : Coll).ending = none) ∧ (allReady (wCollReady) (wCollR : Coll)) ∧ (inHold (wCollReady) (wCollR : Coll) = false) := by
  decide

theorem witness_CollectiveCommands_12 :
    (takesWrite (wUp) (0 : PortId) (collP (0 : CollId)) COLL_COLL_ABORT) := by
  decide

theorem witness_DistrictCommands_1 :
    (takesWrite (wUp) (0 : PortId) (districtP (3 : DistId)) DISTRICT_QDIE_MASK) := by
  decide

theorem witness_DistrictCommands_2 :
    (plazaUp (wScrubQ)) ∧ ((wScrubQ).scrubs.find? (fun x_ => x_.qdie == (15 : Fin 16).val) = some ({ qdie := 15, old := 0 } : Scrub)) := by
  decide

theorem witness_DistrictCommands_3 :
    (oneRequest 4096 (0 : Fin 2147483648) (4096 : Nat)) ∧ (barOpen (wUp) (0 : PortId)) := by
  decide

theorem witness_DistrictCommands_4 :
    (oneRequest 512 (2147483136 : Fin 2147483648) (List.replicate 512 1 : List Byte).length) ∧ (barOpen (wUp) (0 : PortId)) := by
  decide +kernel

theorem witness_DistrictCommands_5 :
    (takesWrite (wUp) (0 : PortId) (cmdprocP (0 : DistId)) CMDPROC_CMD_DOORBELL) := by
  decide

theorem witness_DistrictCommands_6 :
    (takesWrite (wUp) (0 : PortId) (cmdprocP (0 : DistId)) CMDPROC_CPL_HEAD) := by
  decide

theorem witness_DistrictCommands_7 :
    (plazaUp (wMod)) ∧ (0 < (proc (wMod) (0 : DistId)).moderated) := by
  decide

theorem witness_DistrictCommands_8 :
    (takesWrite (wUp) (0 : PortId) (cmdprocP (0 : DistId)) HDR_SOFT_RESET) ∧ (rd (wUp) (cmdprocP (0 : DistId)) HDR_STATE ≠ 1) ∧ (rd (wUp) (cmdprocP (0 : DistId)) HDR_STATE ≠ 3) := by
  decide

theorem witness_RingCommandsStart_1 :
    ((List.replicate 64 0 : List Byte).length = 64) ∧ (entryOk (none : Option (List Byte))) ∧ (startsNow (wRing) (0 : DistId) (readHdr (List.replicate 64 0 : List Byte)) (if reservedZero (List.replicate 64 0 : List Byte) then readCmd (List.replicate 64 0 : List Byte) else .other (readCmd (List.replicate 64 0 : List Byte)).op)) := by
  decide

theorem witness_RingCommandsStart_2 :
    (startsNow (wRing) (0 : DistId) ({ tag := 4294967295 } : CmdHdr) .nop) := by
  decide

theorem witness_RingCommandsStart_3 :
    ((Cmd.mem 1 (0 : Nat) (0 : Nat) (1 : Nat) 0).fits) ∧ (startsNow (wRing) (0 : DistId) ({} : CmdHdr) (.mem 1 (0 : Nat) (0 : Nat) (1 : Nat) 0)) := by
  decide

theorem witness_RingCommandsStart_4 :
    ((Cmd.mem 2 (0 : Nat) (0 : Nat) (1 : Nat) 0).fits) ∧ (startsNow (wRing) (0 : DistId) ({} : CmdHdr) (.mem 2 (0 : Nat) (0 : Nat) (1 : Nat) 0)) := by
  decide

theorem witness_RingCommandsStart_5 :
    ((Cmd.mem 3 0 (0 : Nat) (64 : Nat) (0 : Nat)).fits) ∧ (startsNow (wRing) (0 : DistId) ({} : CmdHdr) (.mem 3 0 (0 : Nat) (64 : Nat) (0 : Nat))) := by
  decide

theorem witness_RingCommandsStart_6 :
    ((Cmd.load (0 : Nat) (0 : Nat) (15 : Nat)).fits) ∧ (startsNow (wRing) (0 : DistId) ({} : CmdHdr) (.load (0 : Nat) (0 : Nat) (15 : Nat))) := by
  decide

theorem witness_RingCommandsStart_7 :
    ((Cmd.launch (15 : Nat) (List.replicate 8 0 : List Nat)).fits) ∧ (startsNow (wRing) (0 : DistId) ({} : CmdHdr) (.launch (15 : Nat) (List.replicate 8 0 : List Nat))) := by
  decide

theorem witness_RingCommandsStart_8 :
    ((Cmd.wait (255 : Nat) (1 : Nat) (0 : Nat)).fits) ∧ (startsNow (wRing) (0 : DistId) ({} : CmdHdr) (.wait (255 : Nat) (1 : Nat) (0 : Nat))) := by
  decide

theorem witness_RingCommandsStart_9 :
    ((Cmd.signal (0 : Nat) (7 : Nat)).fits) ∧ (startsNow (wRingSig) (0 : DistId) ({} : CmdHdr) (.signal (0 : Nat) (7 : Nat))) := by
  decide

theorem witness_RingCommandsStart_10 :
    (entryOk (none : Option (List Byte))) ∧ ((Cmd.coll (0 : Nat) (0 : Nat) (0 : Nat)).fits) ∧ (startsNow (wRing) (0 : DistId) ({} : CmdHdr) (.coll (0 : Nat) (0 : Nat) (0 : Nat))) := by
  decide

theorem witness_RingCommandsStart_11 :
    ((Cmd.hint (3 : Nat) (4095 : Nat) (15 : Nat)).fits) ∧ (startsNow (wRing) (0 : DistId) ({} : CmdHdr) (.hint (3 : Nat) (4095 : Nat) (15 : Nat))) := by
  decide

theorem witness_RingCommandsStart_12 :
    ((Cmd.respare (3 : Nat) (15 : Nat)).fits) ∧ (startsNow (wRing) (0 : DistId) ({} : CmdHdr) (.respare (3 : Nat) (15 : Nat))) := by
  decide

theorem witness_RingCommandsStart_13 :
    ((Cmd.fence (0 : Nat)).fits) ∧ (startsNow (wRing) (0 : DistId) ({} : CmdHdr) (.fence (0 : Nat))) := by
  decide

theorem witness_RingCommandsEnd_1 :
    (jobOf (wJob) (0 : DistId) (0 : Nat) = some (wJobMem : Job)) := by
  decide

theorem witness_RingCommandsEnd_2 :
    (jobOf (wJob) (0 : DistId) (0 : Nat) = some (wJobMem : Job)) := by
  decide

theorem witness_RingCommandsEnd_3 :
    (jobWithOp (wJob) (0 : DistId) 6 = some (wJobWait : Job)) := by
  decide

theorem witness_RingCommandsEnd_4 :
    (jobWithOp (wJob) (0 : DistId) 0x0A = some (wJobRespare : Job)) := by
  decide

theorem witness_BlockControls_1 :
    (takesHdr (wUp) (0 : PortId) (5 : Fin 16384) HDR_ENABLE (pwrP : PageId)) := by
  decide

theorem witness_BlockControls_2 :
    (pageAt (4096 * (20 : Fin 16384).val) = some (cmdprocP 0 : PageId)) ∧ ((cmdprocP 0 : PageId).kind ≠ .oe) ∧ (plazaUp (wBlk 1)) ∧ (rd (wBlk 1) (cmdprocP 0 : PageId) HDR_STATE = 1) := by
  decide

theorem witness_BlockControls_3 :
    (pageAt (4096 * (36 : Fin 16384).val) = some (oeP 0 : PageId)) ∧ ((oeP 0 : PageId).kind = .oe) ∧ (plazaUp (wBlk 1)) ∧ (rd (wBlk 1) (oeP 0 : PageId) HDR_STATE = 1) := by
  decide

theorem witness_BlockControls_4 :
    (pageAt (4096 * (20 : Fin 16384).val) = some (cmdprocP 0 : PageId)) ∧ (plazaUp (wBlk 3)) ∧ (rd (wBlk 3) (cmdprocP 0 : PageId) HDR_STATE = 3) ∧ (mayDrain (wBlk 3) (cmdprocP 0 : PageId)) := by
  decide

theorem witness_BlockControls_5 :
    (takesHdr (wUp) (0 : PortId) (5 : Fin 16384) HDR_SOFT_RESET (pwrP : PageId)) ∧ (definesReset (pwrP : PageId).kind = false) := by
  decide

theorem witness_BlockControls_6 :
    (takesHdr (wBlk 3) (0 : PortId) (20 : Fin 16384) HDR_SOFT_RESET (cmdprocP 0 : PageId)) ∧ (resetMayWait (wBlk 3) (cmdprocP 0 : PageId)) ∧ (rd (wBlk 3) (cmdprocP 0 : PageId) HDR_STATE = 1 ∨ rd (wBlk 3) (cmdprocP 0 : PageId) HDR_STATE = 3) := by
  decide

theorem witness_BlockControls_7 :
    (takesHdr (wUp) (0 : PortId) (4096 : Fin 16384) HDR_SOFT_RESET (tileP 0 : PageId)) ∧ ((tileP 0 : PageId).kind = .tile) := by
  decide

theorem witness_BlockControls_8 :
    (takesHdr (wUp) (0 : PortId) (4099 : Fin 16384) HDR_SOFT_RESET (moverP 0 : PageId)) ∧ ((moverP 0 : PageId).kind = .mover) ∧ ((tile (wUp) (moverP 0 : PageId).inst).runState ≠ 2) ∧ (rd (wUp) (moverP 0 : PageId) HDR_STATE ≠ 1) ∧ (rd (wUp) (moverP 0 : PageId) HDR_STATE ≠ 3) := by
  decide

theorem witness_BlockControls_9 :
    (takesHdr (wr wTile (moverP 0) HDR_STATE 1) (0 : PortId) (4099 : Fin 16384) HDR_SOFT_RESET (moverP 0 : PageId)) ∧ ((moverP 0 : PageId).kind = .mover) ∧ ((tile (wr wTile (moverP 0) HDR_STATE 1) (moverP 0 : PageId).inst).runState = 2) := by
  decide

theorem witness_BlockControls_10 :
    (takesHdr (wUp) (0 : PortId) (4098 : Fin 16384) HDR_SOFT_RESET (engineP 0 : PageId)) ∧ ((engineP 0 : PageId).kind = .engine) ∧ ((slice (wUp) (engineP 0 : PageId).inst).mode = 0) ∧ (rd (wUp) (engineP 0 : PageId) HDR_STATE ≠ 1) ∧ (rd (wUp) (engineP 0 : PageId) HDR_STATE ≠ 3) := by
  decide

theorem witness_BlockControls_11 :
    (takesHdr (wMode 1) (0 : PortId) (4098 : Fin 16384) HDR_SOFT_RESET (engineP 0 : PageId)) ∧ ((engineP 0 : PageId).kind = .engine ∨ (engineP 0 : PageId).kind = .slice) ∧ ((slice (wMode 1) (engineP 0 : PageId).inst).mode ≠ 0) := by
  decide

theorem witness_BlockControls_12 :
    (takesHdr (wUp) (0 : PortId) (4097 : Fin 16384) HDR_SOFT_RESET (sliceP 0 : PageId)) ∧ ((sliceP 0 : PageId).kind = .slice) ∧ ((slice (wUp) (sliceP 0 : PageId).inst).mode = 0) := by
  decide

theorem witness_BlockControls_13 :
    (takesHdr (wUp) (0 : PortId) (20 : Fin 16384) HDR_SOFT_RESET (cmdprocP 0 : PageId)) ∧ ((cmdprocP 0 : PageId).kind = .cmdproc) ∧ (rd (wUp) (cmdprocP 0 : PageId) HDR_STATE ≠ 1) ∧ (rd (wUp) (cmdprocP 0 : PageId) HDR_STATE ≠ 3) := by
  decide

theorem witness_BlockControls_14 :
    (takesHdr (wUp) (0 : PortId) (5 : Fin 16384) HDR_LOCK (pwrP : PageId)) := by
  decide

theorem witness_BlockControls_15 :
    (takesHdr (wUp) (0 : PortId) (4096 : Fin 16384) HDR_LOCK (tileP 0 : PageId)) := by
  decide

theorem witness_InterruptCommands_1 :
    (takesHdr (wUp) (0 : PortId) (5 : Fin 16384) HDR_INT_FORCE (pwrP : PageId)) := by
  decide

theorem witness_InterruptCommands_2 :
    (takesHdr (wUp) (0 : PortId) (5 : Fin 16384) HDR_INT_STATUS (pwrP : PageId)) := by
  decide

theorem witness_InterruptCommands_3 :
    (takesHdr (wUp) (0 : PortId) (5 : Fin 16384) HDR_INT_ENABLE (pwrP : PageId)) := by
  decide

theorem witness_InterruptCommands_4 :
    (takesWrite (wUp) (0 : PortId) plazaP PLAZA_INT_EOI (0 : DistId)) := by
  decide

theorem witness_InterruptCommands_5 :
    (plazaUp (wUp)) ∧ (portUp (wUp) (0 : PortId)) := by
  decide

theorem witness_RegisterAccess_1 :
    (plazaUp (wUp)) ∧ (portUp (wUp) (0 : PortId)) ∧ (regError (wUp) (0 : PortId) (4096 * (5 : Fin 16384).val + 0x28) (8 : Nat) = 0) := by
  decide

theorem witness_RegisterAccess_2 :
    (plazaUp (wUp)) ∧ (portUp (wUp) (0 : PortId)) ∧ (regError (wUp) (0 : PortId) (48234492 : Fin 67108864) (4 : Nat) = 0) := by
  decide

theorem witness_RegisterAccess_3 :
    (plazaUp (wUp)) ∧ (portUp (wUp) (0 : PortId)) ∧ (putError (wUp) (0 : PortId) (20736 : Fin 67108864) 4 (0 : Nat) = 0) ∧ (pageAt (20736 : Fin 67108864) = some (pwrP : PageId)) ∧ (moverBusy (wUp) (pwrP : PageId) ((20736 : Fin 67108864) - (pwrP : PageId).base) = false) := by
  decide

theorem witness_RegisterAccess_4 :
    (plazaUp (wUp)) ∧ (portUp (wUp) (0 : PortId)) ∧ (putError (wUp) (0 : PortId) (20736 : Fin 67108864) 8 (0 : Nat) = 0) ∧ (pageAt (20736 : Fin 67108864) = some (pwrP : PageId)) ∧ (moverBusy (wUp) (pwrP : PageId) ((20736 : Fin 67108864) - (pwrP : PageId).base) = false) ∧ (moverBusy (wUp) (pwrP : PageId) ((20736 : Fin 67108864) - (pwrP : PageId).base + 4) = false) := by
  decide

theorem witness_RegisterAccess_5 :
    (plazaUp (wUp)) ∧ (portUp (wUp) (0 : PortId)) ∧ (regError (wUp) (0 : PortId) (pkgswP.base + fldOff PKGSW_DIST_GLB_BASE (3 : DistId)) 4 = 0) ∧ ((0 : PortId).val = ownerPort (wUp) ∨ (0 : PortId).val = (3 : DistId).val) ∧ (locked (wUp) pkgswP = false) ∧ (distLaunched (wUp) (3 : DistId) = false) ∧ (SMap.find (wUp).glbHeld (2 * (3 : DistId).val + 1) = none) := by
  decide

theorem witness_RegisterAccess_6 :
    (plazaUp (wUp)) ∧ (portUp (wUp) (0 : PortId)) ∧ (regError (wUp) (0 : PortId) (pkgswP.base + fldOff PKGSW_DIST_GLB_SIZE (3 : DistId)) 4 = 0) ∧ ((0 : PortId).val = ownerPort (wUp) ∨ (0 : PortId).val = (3 : DistId).val) ∧ (locked (wUp) pkgswP = false) ∧ (distLaunched (wUp) (3 : DistId) = false) ∧ (SMap.find (wUp).glbHeld (2 * (3 : DistId).val) = none) := by
  decide

theorem witness_RegisterAccess_7 :
    (regsOk (wGlbHeld)) ∧ (plazaUp (wGlbHeld)) ∧ (portUp (wGlbHeld) (0 : PortId)) ∧ (regError (wGlbHeld) (0 : PortId) (pkgswP.base + fldOff PKGSW_DIST_GLB_BASE (3 : DistId)) 4 = 0) ∧ ((0 : PortId).val = ownerPort (wGlbHeld) ∨ (0 : PortId).val = (3 : DistId).val) ∧ (locked (wGlbHeld) pkgswP = false) ∧ (distLaunched (wGlbHeld) (3 : DistId) = false) ∧ (SMap.find (wGlbHeld).glbHeld (2 * (3 : DistId).val + 1) = some (0 : Nat)) ∧ ((384 : Fin 512).val + (0 : Nat) ≤ 384) := by
  decide

theorem witness_RegisterAccess_8 :
    (regsOk (wGlbHeld)) ∧ (plazaUp (wGlbHeld)) ∧ (portUp (wGlbHeld) (0 : PortId)) ∧ (regError (wGlbHeld) (0 : PortId) (pkgswP.base + fldOff PKGSW_DIST_GLB_SIZE (2 : DistId)) 4 = 0) ∧ ((0 : PortId).val = ownerPort (wGlbHeld) ∨ (0 : PortId).val = (2 : DistId).val) ∧ (locked (wGlbHeld) pkgswP = false) ∧ (distLaunched (wGlbHeld) (2 : DistId) = false) ∧ (SMap.find (wGlbHeld).glbHeld (2 * (2 : DistId).val) = some (383 : Nat)) ∧ ((383 : Nat) + (1 : Fin 512).val ≤ 384) := by
  decide

theorem witness_RegisterAccess_9 :
    (plazaUp (wGlbHeld)) ∧ (portUp (wGlbHeld) (0 : PortId)) ∧ (regError (wGlbHeld) (0 : PortId) (pkgswP.base + fldOff PKGSW_DIST_GLB_BASE (3 : DistId)) 4 = 0) ∧ ((0 : PortId).val = ownerPort (wGlbHeld) ∨ (0 : PortId).val = (3 : DistId).val) ∧ (locked (wGlbHeld) pkgswP = false) ∧ (distLaunched (wGlbHeld) (3 : DistId) = false) ∧ (SMap.find (wGlbHeld).glbHeld (2 * (3 : DistId).val + 1) = some (0 : Nat)) ∧ (384 < (385 : Fin 512).val + (0 : Nat)) := by
  decide

theorem witness_RegisterAccess_10 :
    (regsOk (wUp)) ∧ (plazaUp (wUp)) ∧ (portUp (wUp) (0 : PortId)) ∧ (regError (wUp) (0 : PortId) (pkgswP.base + fldOff PKGSW_DIST_GLB_BASE (0 : DistId)) 8 = 0) ∧ ((0 : PortId).val = ownerPort (wUp) ∨ (0 : PortId).val = (0 : DistId).val) ∧ (locked (wUp) pkgswP = false) ∧ (distLaunched (wUp) (0 : DistId) = false) ∧ ((383 : Fin 512).val + (1 : Fin 512).val ≤ 384) := by
  decide

theorem witness_RegisterAccess_11 :
    (plazaUp (wUp)) ∧ (portUp (wUp) (0 : PortId)) ∧ (regError (wUp) (0 : PortId) (pkgswP.base + fldOff PKGSW_DIST_GLB_BASE (0 : DistId)) 8 = 0) ∧ ((0 : PortId).val = ownerPort (wUp) ∨ (0 : PortId).val = (0 : DistId).val) ∧ (locked (wUp) pkgswP = false) ∧ (distLaunched (wUp) (0 : DistId) = false) ∧ (384 < (511 : Fin 512).val + (1 : Fin 512).val) := by
  decide

theorem witness_RegisterAccess_12 :
    (plazaUp (wr wUp pkgswP HDR_LOCK 1)) ∧ (portUp (wr wUp pkgswP HDR_LOCK 1) (0 : PortId)) ∧ (regError (wr wUp pkgswP HDR_LOCK 1) (0 : PortId) (pkgswP.base + fldOff PKGSW_DIST_GLB_BASE (0 : DistId)) 4 = 0) ∧ (((0 : PortId).val ≠ ownerPort (wr wUp pkgswP HDR_LOCK 1) ∧ (0 : PortId).val ≠ (0 : DistId).val) ∨ locked (wr wUp pkgswP HDR_LOCK 1) pkgswP = true ∨ distLaunched (wr wUp pkgswP HDR_LOCK 1) (0 : DistId) = true) := by
  decide

theorem witness_RegisterAccess_13 :
    (plazaUp (wr wUp pkgswP HDR_LOCK 1)) ∧ (portUp (wr wUp pkgswP HDR_LOCK 1) (0 : PortId)) ∧ (regError (wr wUp pkgswP HDR_LOCK 1) (0 : PortId) (pkgswP.base + fldOff PKGSW_DIST_GLB_SIZE (0 : DistId)) 4 = 0) ∧ (((0 : PortId).val ≠ ownerPort (wr wUp pkgswP HDR_LOCK 1) ∧ (0 : PortId).val ≠ (0 : DistId).val) ∨ locked (wr wUp pkgswP HDR_LOCK 1) pkgswP = true ∨ distLaunched (wr wUp pkgswP HDR_LOCK 1) (0 : DistId) = true) := by
  decide

theorem witness_RegisterAccess_14 :
    ((wAon).dawn.aon) := by
  decide

theorem witness_RegisterAccess_16 :
    ((wAon).dawn.aon) := by
  decide

theorem witness_RegisterAccess_17 :
    ((wAon).dawn.aon) := by
  decide

theorem witness_DuskRounds_1 :
    (takesWrite (wUp) (0 : PortId) pwrP PWR_PWR_CAP_W) := by
  decide

theorem witness_DuskRounds_2 :
    (takesWrite (wUp) (0 : PortId) pwrP PWR_OP_TARGET (3 : DieId)) := by
  decide

theorem witness_DuskRounds_3 :
    ((wRound : RoundIn).ok) ∧ (duskRuns (wUp)) := by
  decide

theorem witness_DuskRounds_4 :
    (sensorsRun (wCounts)) ∧ (3 ≤ SMap.getD (wCounts).dusk.low (527 : Fin 528) 0) ∧ (suspectLow (wCounts) (527 : Fin 528) = false) := by
  decide

theorem witness_DuskRounds_5 :
    (sensorsRun (wLow)) ∧ (10 ≤ SMap.getD (wLow).dusk.ok (0 : Fin 528) 0) ∧ (suspectLow (wLow) (0 : Fin 528)) := by
  decide

theorem witness_DuskRounds_6 :
    (sensorsRun (wCounts)) ∧ (10 ≤ SMap.getD (wCounts).dusk.high (527 : Fin 528) 0) ∧ (highSuspect (wCounts) (527 : Fin 528) = false) := by
  decide

theorem witness_DuskRounds_7 :
    (sensorsRun (wCounts)) ∧ (2 ≤ SMap.getD (wCounts).dusk.oor (95 : Fin 96) 0) ∧ (bitOf (rd (wCounts) duskP DUSK_RAIL_OOR ((95 : Fin 96).val / 32)) ((95 : Fin 96).val % 32) = false) := by
  decide

theorem witness_DuskRounds_8 :
    (sensorsRun (wDom)) ∧ (3 ≤ (dom (wDom) (4 : Fin 5)).coolJ) := by
  decide

theorem witness_DuskRounds_9 :
    (sensorsRun (wDom)) ∧ ((3 : Fin 5).val < 4) ∧ (3 ≤ (dom (wDom) (3 : Fin 5)).coolD) := by
  decide

theorem witness_DuskRounds_10 :
    (sensorsRun (wCounts)) ∧ (4 ≤ SMap.getD (wCounts).dusk.fall (15 : Fin 16) 0) := by
  decide

theorem witness_GovernorCommands_1 :
    (plazaUp (wRaise)) ∧ (pwrOn (wRaise)) ∧ (opGoal (wRaise) (0 : DieId) < raiseTo (dom (wRaise) (0 : DieId))) := by
  decide

theorem witness_GovernorCommands_2 :
    (plazaUp (wDom)) ∧ ((dom (wDom) (0 : DieId)).opStep = some (3 : Nat)) := by
  decide

theorem witness_GovernorCommands_3 :
    (plazaUp (wDom)) ∧ (2 ≤ (wDom).dusk.overCap) ∧ (rd (wDom) pwrP PWR_CAP_UNATTAINABLE = 0) := by
  decide

theorem witness_GovernorCommands_4 :
    ((List.replicate 5 { work := 0 } : List GovIn).length = 5) ∧ (([] : List (Nat × Bool)).length ≤ 4) ∧ (aonRuns (wUp)) := by
  decide

theorem witness_GovernorCommands_5 :
    (8 ≤ (dom (wDom) (0 : DieId)).iccLow) := by
  decide

theorem witness_GovernorCommands_6 :
    ((wUp).dawn.aon) ∧ (extActive (wUp) = false) := by
  decide

theorem witness_GovernorCommands_8 :
    ((dom (wDom) (0 : DieId)).hints.find? (fun h_ => h_.cls == (1 : Fin 4).val) = some (⟨1, 0, some 0⟩ : Hint)) ∧ ((⟨1, 0, some 0⟩ : Hint).ramp = some (0 : Nat)) ∧ ((0 : Nat) ≤ (wDom).dusk.us) := by
  decide

theorem witness_GovernorCommands_9 :
    ((dom (wDom) (0 : DieId)).hints.find? (fun h_ => h_.cls == (1 : Fin 4).val) = some (⟨1, 0, some 0⟩ : Hint)) ∧ ((⟨1, 0, some 0⟩ : Hint).start ≤ (wDom).dusk.us) := by
  decide

theorem witness_GovernorCommands_10 :
    ((dom (wActive) (0 : DieId)).active ≠ none) ∧ ((dom (wActive) (0 : DieId)).lastHint + 10000 ≤ (wActive).dusk.us) ∧ ((dom (wActive) (0 : DieId)).hints = []) := by
  decide

theorem witness_TripsAndTwilight_1 :
    (aonRuns (wUp)) := by
  decide

theorem witness_TripsAndTwilight_3 :
    (sensorsRun (wUp)) ∧ (dieRails (wUp) (0 : DieId)) := by
  decide

theorem witness_TripsAndTwilight_4 :
    (takesWrite (wUp) (0 : PortId) duskP DUSK_TW_REQ) ∧ (rd (wUp) duskP HDR_STATE = 2) ∧ (awake (wr (wUp) duskP DUSK_KEEP_RINGS (ofBool (true : Bool)))) ∧ (quietPackage (wr (wUp) duskP DUSK_KEEP_RINGS (ofBool (true : Bool)))) := by
  decide

theorem witness_TripsAndTwilight_5 :
    (plazaUp (wTw 1)) ∧ (rd (wTw 1) duskP DUSK_TW_STATE = 1) ∧ ((liveSlices (wTw 1)).all (fun n => gateReady (slice (wTw 1) n))) := by
  decide

theorem witness_TripsAndTwilight_6 :
    (takesWrite (wTw 2) (0 : PortId) duskP DUSK_TW_EXIT) := by
  decide

theorem witness_TripsAndTwilight_7 :
    ((List.replicate 4 {} : List OeStart).length = 4) ∧ (plazaUp (wTw 3)) ∧ (rd (wTw 3) duskP DUSK_TW_STATE = 3) := by
  decide

theorem witness_SecurityCommands_1 :
    (takesWrite (wGate) (0 : PortId) secP SEC_TARGET) ∧ (rd (wGate) secP HDR_STATE = 2) ∧ ((wGate).sec.lc = none) ∧ ((4 : Fin 8) ≠ 3) ∧ (transitionExists (lcState (wGate)) (4 : Fin 8)) ∧ (quietPackage (wr (wGate) secP SEC_BITS_WRITTEN 0)) ∧ (stagedLacks (wr (wGate) secP SEC_BITS_WRITTEN 0) (4 : Fin 8) = false) ∧ ((4 : Fin 8) ≠ 4 ∨ (0 : BitVec 16).toNat = (if lcState (wGate) = 0 then 0 else pkgSerial (wGate) % 2 ^ 16)) ∧ (gateOk (wr (wGate) secP SEC_BITS_WRITTEN 0)) := by
  decide

theorem witness_SecurityCommands_2 :
    (takesWrite (wUp) (0 : PortId) secP SEC_TARGET) ∧ (rd (wUp) secP HDR_STATE = 2) ∧ ((wUp).sec.lc = none) ∧ (transitionExists (lcState (wUp)) (1 : Fin 8) = false) := by
  decide

theorem witness_SecurityCommands_3 :
    ((wLc).sec.lc = some (wLcRun : LcRun)) ∧ (plazaUp (wLc)) ∧ ((wLcRun : LcRun).todo ≠ []) := by
  decide

theorem witness_SecurityCommands_4 :
    ((wLc).sec.lc = some (wLcRun : LcRun)) ∧ (plazaUp (wLc)) ∧ ((wLcRun : LcRun).todo ≠ []) := by
  decide

theorem witness_SecurityCommands_5 :
    ((wLcEnd).sec.lc = some (⟨3, [], 0, 0, true⟩ : LcRun)) ∧ (plazaUp (wLcEnd)) ∧ ((⟨3, [], 0, 0, true⟩ : LcRun).todo = []) := by
  decide

theorem witness_SecurityCommands_6 :
    (takesWrite (wReturn) (0 : PortId) secP SEC_SCAN_EN) ∧ (testable (wReturn)) ∧ ((true : Bool) || (false : Bool)) := by
  decide

theorem witness_SecurityCommands_7 :
    (takesWrite (wUp) (0 : PortId) secP SEC_ATT_GO (0 : DistId)) ∧ (ownerOnly (wUp) (0 : PortId) secP (fldOff SEC_ATT_GO (0 : DistId)) (1 + 2 * ofBool (false : Bool)) = false) ∧ (rd (if (0 : PortId).val == ownerPort (wUp) then wr (wUp) secP SEC_ATT_PKG (ofBool (false : Bool)) (0 : DistId) else (wUp)) secP SEC_ATT_STATUS (0 : DistId) ≠ 1) ∧ (dawnOver (wUp)) ∧ (lcState (wUp) ≠ 0) ∧ ((wUp).sec.scanned = false) := by
  decide

theorem witness_SecurityCommands_8 :
    (plazaUp (wAtt)) ∧ ((wAtt).sec.att.find? (fun x_ => x_.dist == (0 : DistId).val) = some (⟨0, 0, 4096, [7]⟩ : AttRun)) := by
  decide

theorem witness_SecurityCommands_9 :
    (takesWrite (wUp) (0 : PortId) (districtP (0 : DistId)) DISTRICT_SIGN_REQUIRED) := by
  decide

theorem witness_SecurityCommands_10 :
    ((8 : Fin 9).val ≠ 0) ∧ (takesWrite (wUp) (0 : PortId) secP SEC_IMG_KEY_DIGEST (8 * (3 : DistId).val + ((8 : Fin 9).val - 1))) := by
  decide

/-! ### Witnesses of the statements that are no rows -/

/-- Whether an outcome is a next state. -/
def isNext (o : Host.Outcome State Fault Refusal) : Bool :=
  match o with
  | .next _ => true
  | _ => false
/-- The state with one command in its queue. -/
def wQueue (s : State) (c : Instr) : State := { s with pending := [c] }
/-- The package held in reset by a trip. -/
def wHeld : State := midnight wUp 0 0

theorem witness_StepRunsFrontCommand :
    (wQueue wUp .throttleNRelease).pending = [.throttleNRelease] ∧ wUp.pending = [] := by decide
theorem witness_StepTakesOneCommand : isNext (step (wQueue wUp .throttleNRelease)) = true := by decide
theorem witness_WellFormedCommandsGoOn :
    (Instr.mxRun 0 { swap := true, add := false, bank := 0, m := 256, vs := 0, afmt := 3, port := 0, sb := 0, loff := 0, r0 := 0 }).wellFormed
      = true := by decide
theorem witness_StepKeepsRegisterFile :
    regsOk (wQueue wUp .throttleNAssert) = true ∧ isNext (step (wQueue wUp .throttleNAssert)) = true := by
  decide
theorem witness_StepKeepsMemories :
    memOk (wQueue wUp (.sliceWrite 0 0 0 (List.replicate 32 5))) = true ∧
    isNext (step (wQueue wUp (.sliceWrite 0 0 0 (List.replicate 32 5)))) = true := by decide +kernel
theorem witness_FusesOnlyBlown : isNext (step (wQueue wLc (.fusePulse true))) = true := by decide
theorem witness_MidnightHoldsThePackage_trip :
    regsOk wUp = true ∧ duskRuns wUp = true := by decide
theorem witness_MidnightHoldsThePackage_step :
    heldInReset (wQueue wHeld .read32) = true ∧
    (∀ b : Bool, (wQueue wHeld .read32).pending.head? ≠ some (.vddAonRemove b)) ∧
    isNext (step (wQueue wHeld .read32)) = true := by decide +kernel
theorem witness_SlotCommandsStayInTheirTile :
    slotBundle (.ctEnd 0) = some (0, { ct := .done }) ∧ isNext (exec (.ctEnd 0) wTile) = true ∧
    slotBundle (.ctTrap 0 255) = some (0, { ct := .trap 255 }) ∧
    isNext (exec (.ctTrap 0 255) wTile) = true ∧
    slotBundle (.vxAcwr 0 {}) = some (0, { vx := .op .acwr {} }) ∧
    isNext (exec (.vxAcwr 0 {}) wTile) = true := by decide
theorem witness_VectorResultsAreBooked :
    issues wTile 0 { vx := .op .fma { vd := 31, va := 1, vb := 2, vc := 3 } } = true := by decide
theorem witness_LandingsKeepMaskedLanes :
    (({} : Tile).vreg 31).length = 64 ∧ (List.replicate 64 (7 : Word)).length = 64 ∧
    0xF / 16 ^ 0 % 16 = 15 ∧ 0xF * 16 ^ 63 / 16 ^ 63 % 16 = 15 ∧ 0xF / 16 ^ 63 % 16 = 0 ∧ (30 : Nat) ≠ 31 := by
  decide
theorem witness_ScalarResultsAreBooked :
    (12 : Fin 16).val ≤ 12 ∧ issues wTile 0 { ct := .alu 31 0 1 12 } = true ∧
    (8 : Fin 16).val ≤ 12 ∧ issues wTile 0 { ct := .alu 0 0 1 8 } = true ∧
    issues wTile 0 { ct := .addi 31 0 65535 } = true ∧ issues wTile 0 { ct := .li 31 65535 true } = true ∧
    issues wTile 0 { ct := .li 0 32768 false } = true ∧ issues wTile 0 { ct := .rdl 31 3 } = true := by decide
theorem witness_SliceWriteReadsBack :
    memOk wUp = true ∧ (List.replicate 32 (5 : Byte)).length = 32 ∧ tileError wUp (0 : DistId) 0 = 0 ∧
    sliceLives wUp 0 = true ∧ sliceBusy wUp 0 = false ∧ sliceHolds wUp 0 = false := by decide
theorem witness_SliceWriteReadsBack_narrow : isNext (exec (.narrowWrite 0 0 0 31 [5]) wUp) = true := by
  decide
theorem witness_UnwrittenReadIsAnError :
    tileError wUp (0 : DistId) 0 = 0 ∧ sliceLives wUp 0 = true ∧ sliceBusy wUp 0 = false ∧
    sliceHolds wUp 0 = false ∧ narrowAhead (slice wUp 0) 12582911 = false ∧
    regsOk (flushedFor wUp 0 12582911 none) = true ∧
    readsWritten (slice (flushedFor wUp 0 12582911 none) 0) 12582911 (metAfter wUp 0 12582911 none)
      = false := by decide
/-- As above, with an entry of the merge buffer that is dropped as it flushes. -/
theorem witness_UnwrittenReadIsAnError_flushed :
    tileError wMerge (0 : DistId) 0 = 0 ∧ sliceLives wMerge 0 = true ∧ sliceBusy wMerge 0 = false ∧
    sliceHolds wMerge 0 = false ∧ narrowAhead (slice wMerge 0) 0 = false ∧
    regsOk (flushedFor wMerge 0 0 none) = true ∧
    readsWritten (slice (flushedFor wMerge 0 0 none) 0) 0 (metAfter wMerge 0 0 none) = false := by
  decide +kernel
/-- A sector of which two reads in a row find two symbols wrong. -/
theorem witness_UnwrittenReadIsAnError_lasting :
    SMap.find (slice wUp 0).lasting 0 = none ∧
    (decodeRead (secWord (slice wUp 0) 0) [(0, 1), (1, 3), (2, 5)]).1 = .uncorrectable ∧
    (decodeRead (secWord (slice wUp 0) 0) [(0, 1), (1, 3), (2, 5)]).2 = none := by decide +kernel
theorem witness_ModeWordTable :
    (resolve wUp (0 : DistId) (windowAt 0 0xFFF00)).toOption.isSome = true ∧ sliceLives wUp 0 = true ∧ (2 : Nat) < 2 ^ 32 ∧ (2 ^ 32 - 1 : Nat) < 2 ^ 32 ∧
    rd wUp (engineP 0) HDR_STATE = 2 ∧ (slice wUp 0).mode = 0 ∧
    rd (wr wUp (engineP 0) HDR_STATE 0) (engineP 0) HDR_STATE ≠ 2 := by decide
/-- A word that comes as it was sent, one of which an error changes a bit, and one that is held. -/
theorem witness_ModeWordTable_crosses :
    plazaHeld wUp 0 0 = false ∧ (plazaData wUp 0 0 (leBytes 4 1)).2 = leBytes 4 1 ∧
    (plazaData { wUp with dawn := { wUp.dawn with flips := [(0, [(0, 3)])] } } 0 0 (leBytes 4 1)).2 = leBytes 4 2 ∧
    plazaHeld (wr wUp (d2dP 0) D2D_STATE 3) 0 0 = true := by decide
theorem witness_ModeWordTable_modes :
    (resolve (wMode 1) (0 : DistId) (windowAt 0 0xFFF00)).toOption.isSome = true ∧ sliceLives (wMode 1) 0 = true ∧ (slice (wMode 1) 0).mode = 1 ∧
    (resolve (wMode 2) (0 : DistId) (windowAt 0 0xFFF00)).toOption.isSome = true ∧ sliceLives (wMode 2) 0 = true ∧ (slice (wMode 2) 0).mode = 2 ∧
    (resolve (wMode 3) (0 : DistId) (windowAt 0 0xFFF00)).toOption.isSome = true ∧ sliceLives (wMode 3) 0 = true ∧ (slice (wMode 3) 0).mode = 3 ∧
    rd (wMode 3) (engineP 0) HDR_STATE = 2 := by decide

/-- District 0 holds quarter-die 0 alone, with a window of 1 MiB, or of 384. -/
def wGlb (z : Nat) : State :=
  wr (wr wUp (districtP 0) DISTRICT_QDIE_MASK 1) pkgswP PKGSW_DIST_GLB_SIZE z 0
theorem witness_GlobalWindowDecodes :
    0 < glbEnd - glbBase ∧ rd (wGlb 1) pkgswP PKGSW_DIST_GLB_BASE 0 + rd (wGlb 1) pkgswP PKGSW_DIST_GLB_SIZE 0 ≤ 384 ∧
    0 / 4096 < (sliceList (wGlb 1) 0).length * rd (wGlb 1) pkgswP PKGSW_DIST_GLB_SIZE 0 * 256 := by
  decide +kernel
theorem witness_GlobalWindowDecodes_end :
    2 ^ 20 * 120 < glbEnd - glbBase ∧
    rd (wGlb 1) pkgswP PKGSW_DIST_GLB_BASE 0 + rd (wGlb 1) pkgswP PKGSW_DIST_GLB_SIZE 0 ≤ 384 ∧
    (sliceList (wGlb 1) 0).length * rd (wGlb 1) pkgswP PKGSW_DIST_GLB_SIZE 0 * 256 ≤ 2 ^ 20 * 120 / 4096 := by
  decide +kernel
theorem witness_GlobalWindowFitsTheSlices :
    regsOk wUp = true ∧ isNext (exec (.distGlbWrite 0 0 (some 511) (some 1)) wUp) = true ∧
    rd wUp pkgswP PKGSW_DIST_GLB_BASE 0 + rd wUp pkgswP PKGSW_DIST_GLB_SIZE 0 ≤ 384 := by decide +kernel
/-- A step that writes the largest window that fits. -/
theorem witness_GlobalWindowFitsTheSlices_step :
    regsOk (wQueue wUp (.distGlbWrite 0 3 (some 0) (some 384))) = true ∧
    (∀ d : DistId, rd (wQueue wUp (.distGlbWrite 0 3 (some 0) (some 384))) pkgswP PKGSW_DIST_GLB_BASE d
      + rd (wQueue wUp (.distGlbWrite 0 3 (some 0) (some 384))) pkgswP PKGSW_DIST_GLB_SIZE d ≤ 384) ∧
    (match step (wQueue wUp (.distGlbWrite 0 3 (some 0) (some 384))) with
      | .next t => decide (rd t pkgswP PKGSW_DIST_GLB_SIZE 3 = 384)
      | _ => false) = true := by decide +kernel
theorem witness_GlobalWindowIsOneToOne :
    glbBase ≤ glbBase + 4096 ∧ glbBase + 4096 < glbEnd ∧
    (match decodeAddr (wGlb 1) 0 (glbBase + 4096) with
      | some (.slice _ _) => true
      | _ => false) = true := by decide +kernel

theorem witness_WindowWriteStaysInTheDistrict :
    isNext (exec (.windowWrite 0 0 [5]) (wGlb 1)) = true ∧ tileOwner (wGlb 1) 1919 ≠ (0 : PortId).val := by
  decide +kernel
theorem witness_InterruptRegistersWorkTogether :
    regsOk wUp = true ∧ takesHdr wUp (0 : PortId) (5 : Fin 16384).val HDR_INT_FORCE pwrP = true ∧
    takesHdr wUp (0 : PortId) (5 : Fin 16384).val HDR_INT_STATUS pwrP = true ∧
    takesHdr wUp (0 : PortId) (5 : Fin 16384).val HDR_INT_ENABLE pwrP = true := by decide
theorem witness_RegisterCommandsFrame :
    isNext (exec (.intForceWrite 0 5 1) wUp) = true ∧ isNext (exec (.msixUnmask 0 7 {}) wUp) = true ∧
    isNext (exec .read64 wUp) = true ∧ isNext (exec (.distGlbWrite 0 0 (some 0) none) wUp) = true := by
  decide +kernel
theorem witness_ErrorLogIsCaptured :
    plazaUp wUp = true ∧ portUp wUp (0 : PortId) = true ∧ pageAt (4096 * (5 : Fin 16384).val + 0x28) = some pwrP ∧
    regError wUp (0 : PortId) (4096 * (5 : Fin 16384).val + 0x28) 4 = 0 ∧
    regError wUp (0 : PortId) (4096 * (5 : Fin 16384).val + 0x28) 8 = 0 := by decide
theorem witness_SoftResetWaits_written :
    takesHdr (wBlk 1) (0 : PortId) (20 : Fin 16384).val HDR_SOFT_RESET (cmdprocP 0) = true ∧
    resetMayWait (wBlk 1) (cmdprocP 0) = true ∧ rd (wBlk 1) (cmdprocP 0) HDR_STATE = 1 ∧
    takesHdr (wBlk 3) (0 : PortId) (20 : Fin 16384).val HDR_SOFT_RESET (cmdprocP 0) = true ∧
    resetMayWait (wBlk 3) (cmdprocP 0) = true ∧ rd (wBlk 3) (cmdprocP 0) HDR_STATE = 3 ∧
    takesHdr (wBlk 3) (0 : PortId) (36 : Fin 16384).val HDR_SOFT_RESET (oeP 0) = true ∧
    definesReset (oeP 0).kind = false ∧
    takesWrite (wBlk 1) (0 : PortId) (cmdprocP 0) HDR_SOFT_RESET = true := by decide
theorem witness_SoftResetWaits_engine :
    takesWrite (wr wUp (engineP 0) HDR_STATE 1) (0 : PortId) (engineP 0) HDR_SOFT_RESET = true ∧
    rd (wr wUp (engineP 0) HDR_STATE 1) (engineP 0) HDR_STATE = 1 ∧ (slice wUp 0).mode = 0 ∧
    takesWrite (wMode 1) (0 : PortId) (engineP 0) HDR_SOFT_RESET = true ∧ (slice (wMode 1) 0).mode ≠ 0 ∧
    takesWrite (wMode 1) (0 : PortId) (sliceP 0) HDR_SOFT_RESET = true ∧
    takesWrite wUp (0 : PortId) (tileP 0) HDR_SOFT_RESET = true := by decide
/-- A `MOVER` page that starts, of a tile that does not run; and one that drains, of one that does. -/
theorem witness_SoftResetWaits_mover :
    takesWrite wMoverOff (0 : PortId) (moverP 0) HDR_SOFT_RESET = true ∧ (tile wMoverOff 0).runState ≠ 2 ∧
    rd wMoverOff (moverP 0) HDR_STATE = 1 ∧
    takesWrite (wr wTile (moverP 0) HDR_STATE 3) (0 : PortId) (moverP 0) HDR_SOFT_RESET = true ∧
    (tile (wr wTile (moverP 0) HDR_STATE 3) 0).runState = 2 := by decide
/-- As `wBlk 1`, with `ENABLE` set; and as `wBlk 3`, with `PEND_ENABLE` set. -/
def wStart : State := wr (wr (wBlk 1) (cmdprocP 0) HDR_ENABLE 1) (oeP 0) HDR_ENABLE 1
def wAgain : State := wr (wBlk 3) (cmdprocP 0) HDR_PEND_ENABLE 1
theorem witness_SoftResetWaits_ends :
    pageAt (4096 * (20 : Fin 16384).val) = some (cmdprocP 0) ∧ (cmdprocP 0).kind ≠ .oe ∧
    plazaUp wStart = true ∧ rd wStart (cmdprocP 0) HDR_STATE = 1 ∧
    rd (blockStarted wStart (cmdprocP 0) (drainBlock (cmdprocP 0))) (cmdprocP 0) HDR_STATE = 2 ∧
    plazaUp (wBlk 3) = true ∧ rd (wBlk 3) (cmdprocP 0) HDR_STATE = 3 ∧
    mayDrain (wBlk 3) (cmdprocP 0) = true ∧
    rd (resetWaited (wr (wBlk 3) (cmdprocP 0) HDR_STATE 0) (cmdprocP 0) {}) (cmdprocP 0)
      HDR_PEND_ENABLE ≠ 1 ∧
    plazaUp wAgain = true ∧ rd wAgain (cmdprocP 0) HDR_STATE = 3 ∧ mayDrain wAgain (cmdprocP 0) = true ∧
    rd (resetWaited (wr wAgain (cmdprocP 0) HDR_STATE 0) (cmdprocP 0) {}) (cmdprocP 0)
      HDR_PEND_ENABLE = 1 := by
  decide +kernel
theorem witness_SoftResetWaits_optics :
    pageAt (4096 * (36 : Fin 16384).val) = some (oeP 0) ∧ (oeP 0).kind = .oe ∧ plazaUp wStart = true ∧
    rd wStart (oeP 0) HDR_STATE = 1 ∧
    rd (blockStarted (engineStarted wStart 0 {}) (oeP 0) (drainBlock (oeP 0))) (oeP 0) HDR_STATE = 2 ∧
    rd (wBlk 3) (oeP 0) HDR_STATE = 3 ∧ mayDrain (wBlk 3) (oeP 0) = true ∧
    rd (resetWaited (lasersOff (wr (wBlk 3) (oeP 0) HDR_STATE 0) 0) (oeP 0) {}) (oeP 0)
      HDR_PEND_ENABLE ≠ 1 := by
  decide +kernel
theorem witness_SoftResetWaits_waiting :
    SMap.find wUp.resetWaits (oeP 0).base = none ∧
    SMap.find [((moverP 0).base, 1)] (moverP 0).base ≠ none ∧ (moverP 0).kind = .mover ∧
    SMap.find [((cmdprocP 0).base, 1)] (cmdprocP 0).base ≠ none ∧ (cmdprocP 0).kind = .cmdproc ∧
    SMap.find [((engineP 0).base, 1)] (engineP 0).base ≠ none ∧ (engineP 0).kind = .engine := by decide
theorem witness_SoftResetWaits_fence :
    isNext (exec (.tileClockLoss 0) wMoverOff) = true ∧ isNext (exec (.oeHeartbeatLost 3 2) wMoverOff) = true := by
  decide +kernel
/-- The page `PWR` is locked. -/
def wLocked : State := wr wUp pwrP HDR_LOCK 1
theorem witness_LockedFieldsKeepTheirValue :
    plazaUp wLocked = true ∧ portUp wLocked (0 : PortId) = true ∧ putError wLocked (0 : PortId) 0x5108 4 0 = 0 ∧
    pageAt 0x5108 = some pwrP ∧ locked wLocked pwrP = true ∧ fieldsAt pwrP.kind (0x5108 - pwrP.base) ≠ [] ∧
    (fieldsAt pwrP.kind (0x5108 - pwrP.base)).all (fun e => e.1.acc == .rwl || e.1.acc == .ro) = true := by
  decide
/-- The policy and the mask of District 0, both RWL, under `LOCK`. -/
def wLockedDist : State := wr wUp (districtP 0) HDR_LOCK 1
theorem witness_LockedFieldsKeepTheirValue_wide :
    plazaUp wLockedDist = true ∧ portUp wLockedDist (0 : PortId) = true ∧
    putError wLockedDist (0 : PortId) ((districtP 0).base + 0x170) 8 0 = 0 ∧
    pageAt ((districtP 0).base + 0x170) = some (districtP 0) ∧ locked wLockedDist (districtP 0) = true ∧
    putError wLockedDist (0 : PortId) ((districtP 0).base + 0x100) 4 0 = 0 ∧
    (fieldsAt (districtP 0).kind 0x100 ++ fieldsAt (districtP 0).kind 0x170 ++
      fieldsAt (districtP 0).kind 0x174).all (fun e => e.1.acc == .rwl || e.1.acc == .ro) = true := by decide
theorem witness_LockedFieldsKeepTheirValue_glb :
    locked (wr wUp pkgswP HDR_LOCK 1) pkgswP = true ∧
    putError (wr wUp pkgswP HDR_LOCK 1) (0 : PortId) (pkgswP.base + fldOff PKGSW_DIST_GLB_BASE 3) 4 0 = 0 ∧
    putError (wr wUp pkgswP HDR_LOCK 1) (0 : PortId) (pkgswP.base + fldOff PKGSW_DIST_GLB_SIZE 0) 4 511 = 0 ∧
    putError (wr wUp pkgswP HDR_LOCK 1) (0 : PortId) (pkgswP.base + fldOff PKGSW_DIST_GLB_BASE 0) 8 0 = 0 := by
  decide
theorem witness_CapsAndTargetsAreClamped :
    regsOk wUp = true ∧ takesWrite wUp (0 : PortId) pwrP PWR_PWR_CAP_W = true ∧
    takesWrite wUp (0 : PortId) pwrP PWR_OP_TARGET 3 = true := by decide
theorem witness_NopCompletesInTheRing :
    regsOk wRing = true ∧ startsNow wRing 0 {} .nop = true := by decide
theorem witness_DoorbellMovesTheTail :
    regsOk wRing = true ∧ 63 < 2 ^ 16 ∧ takesWrite wRing (0 : PortId) (cmdprocP 0) CMDPROC_CMD_DOORBELL = true ∧
    cmdEntries wRing 0 ≤ 64 ∧ 63 < cmdEntries wRing 0 ∧
    ringDist (cmdHead wRing 0) (proc wRing 0).tail (cmdEntries wRing 0)
      ≤ ringDist (cmdHead wRing 0) 63 (cmdEntries wRing 0) ∧
    ringDist (cmdHead wRing 0) 0 (cmdEntries wRing 0)
      < ringDist (cmdHead wRing 0) (proc wRing 0).tail (cmdEntries wRing 0) := by decide
/-- District 0 runs a command, so it is not idle. -/
theorem witness_SignPolicyEmptiesTheSlots_busy :
    regsOk wJob = true ∧ takesWrite wJob (0 : PortId) (districtP 0) DISTRICT_SIGN_REQUIRED 0 = true ∧
    locked wJob (districtP 0) = false ∧ distIdle wJob 0 = false := by decide
theorem witness_SignPolicyEmptiesTheSlots_idle :
    regsOk wUp = true ∧ takesWrite wUp (0 : PortId) (districtP 0) DISTRICT_SIGN_REQUIRED 0 = true ∧
    locked wUp (districtP 0) = false ∧ distIdle wUp 0 = true ∧
    rd wUp (districtP 0) DISTRICT_SIGN_REQUIRED 0 = bitsOf (0 : BitVec 32).toNat 3 1 ∧
    rd wUp (districtP 0) DISTRICT_SIGN_REQUIRED 0 ≠ bitsOf (8 : BitVec 32).toNat 3 1 ∧
    takesWrite wUp (0 : PortId) secP SEC_IMG_KEY_DIGEST 31 = true ∧ locked wUp secP = false ∧
    rd wUp secP SEC_IMG_KEY_DIGEST 31 ≠ (1 : BitVec 32).toNat := by decide
theorem witness_SignPolicyEmptiesTheSlots_locked :
    regsOk (wr wUp secP HDR_LOCK 1) = true ∧
    takesWrite (wr wUp secP HDR_LOCK 1) (0 : PortId) secP SEC_IMG_KEY_DIGEST 31 = true ∧
    locked (wr wUp secP HDR_LOCK 1) secP = true := by decide
/-- Engine 0 has no target that is allocated; and two that share a position. -/
def wTargets (k : Nat) : State := wr (wr wUp (crossingP 0) CROSSING_TARGET 0x80 0) (crossingP 0) CROSSING_TARGET k 1
theorem witness_CrossingTargetsAreDistinct :
    takesWrite (wTargets 0x80) (0 : PortId) (crossingP 0) CROSSING_APPLY = true ∧
    rd (wTargets 0x80) (crossingP 0) HDR_STATE = 2 ∧ rd (wTargets 0x81) (crossingP 0) HDR_STATE = 2 ∧
    rd (wTargets 0x80) (crossingP 0) CROSSING_BUSY ≠ 1 ∧ targetsClash (targetsOf (wTargets 0x80) 0) = true ∧
    takesWrite (wTargets 0x81) (0 : PortId) (crossingP 0) CROSSING_APPLY = true ∧
    rd (wTargets 0x81) (crossingP 0) CROSSING_BUSY ≠ 1 ∧ targetsClash (targetsOf (wTargets 0x81) 0) = false ∧
    wgAlloc ((targetsOf (wTargets 0x81) 0).getD 0 0) = true ∧
    wgAlloc ((targetsOf (wTargets 0x81) 0).getD 1 0) = true := by decide
theorem witness_SecurityGoesOneWay_transition :
    isNext (exec (.lcReq 0 4 0) wGate) = true ∧ wGate.sec.lc = none ∧
    (match exec (.lcReq 0 4 0) wGate with
      | .next t => t.sec.lc.isSome
      | _ => false) = true := by decide +kernel
theorem witness_SecurityGoesOneWay_scan :
    takesWrite wReturn (0 : PortId) secP SEC_SCAN_EN = true ∧ testable wReturn = true ∧
    (true || false) = true ∧ ({ wUp with sec := { scanned := true } } : State).sec.scanned = true ∧
    isNext (exec (.attGo 0 0 false) { wUp with sec := { scanned := true } }) = true := by decide
theorem witness_WhatTheLanesCarryArrives :
    0 < 15 ∧ (List.replicate 64 (1 : Byte)).length = 64 ∧ (List.replicate 56 (1 : Byte)).length = 56 ∧
    3 < 2 ^ 32 ∧ 2 ^ 31 < 2 ^ 32 ∧ 2 ^ 31 ≠ 3 ∧ 1 < 4 ∧ 2 ^ 47 < 2 ^ 48 := by decide

/-! ### What WellFormed refuses: an ill-formed term for each check -/

def iLdw : LdwF := ⟨3, false, 0, 0, 0⟩
def iRun : RunF := ⟨3, false, false, 0, 0, 0, 0, 1, 0, 0⟩
def iWin : WinF := ⟨3, false, false, 0, 0, 0, 0, 1, 0, 0⟩
def iCh : ChF := ⟨0, 0, 0, 0, false, 0, 0, false, 0⟩

theorem test_fields_fit :
    (Instr.mxLdw 0 iLdw).wellFormed = true ∧ (Instr.mxRun 0 iRun).wellFormed = true ∧
    (Instr.mxWin 0 iWin).wellFormed = true ∧ (Instr.smCh 0 iCh).wellFormed = true := by decide
theorem test_ill_formed_hostLinkTrained :
    (Instr.hostLinkTrained 0 0 16 false).wellFormed = false ∧
    (Instr.hostLinkTrained 0 1 3 false).wellFormed = false := by decide
theorem test_ill_formed_d2dLinkTraining :
    (Instr.d2dLinkTraining 0 1 1 0 0 [] false).wellFormed = false ∧
    (Instr.d2dLinkTraining 4 1 0 0 0 (List.replicate 12 ⟨0, 0, 0⟩) false).wellFormed = false ∧
    (Instr.d2dLinkTraining 4 0 1 0 0 (List.replicate 12 ⟨0, 0, 0⟩) false).wellFormed = false := by decide
theorem test_ill_formed_dawnDone :
    (Instr.dawnDone [(0, 0, [])]).wellFormed = false := by decide
theorem test_ill_formed_recEmit :
    (Instr.recEmit 0 [(8, 0, [])]).wellFormed = false := by decide
theorem test_ill_formed_mxLdw :
    (Instr.mxLdw 0 { iLdw with wfmt := 16 }).wellFormed = false ∧
    (Instr.mxLdw 0 { iLdw with sb := 32 }).wellFormed = false ∧
    (Instr.mxLdw 0 { iLdw with loff := 32768 }).wellFormed = false ∧
    (Instr.mxLdw 0 { iLdw with vs := 64 }).wellFormed = false := by decide
theorem test_ill_formed_mxRun :
    (Instr.mxRun 0 { iRun with m := 0 }).wellFormed = false ∧
    (Instr.mxRun 0 { iRun with m := 257 }).wellFormed = false ∧
    (Instr.mxRun 0 { iRun with afmt := 16 }).wellFormed = false ∧
    (Instr.mxRun 0 { iRun with bank := 2 }).wellFormed = false ∧
    (Instr.mxRun 0 { iRun with port := 4 }).wellFormed = false ∧
    (Instr.mxRun 0 { iRun with sb := 32 }).wellFormed = false ∧
    (Instr.mxRun 0 { iRun with loff := 32768 }).wellFormed = false ∧
    (Instr.mxRun 0 { iRun with vs := 64 }).wellFormed = false ∧
    (Instr.mxRun 0 { iRun with r0 := 256 }).wellFormed = false := by decide
theorem test_ill_formed_mxWin :
    (Instr.mxWin 0 { iWin with m := 0 }).wellFormed = false ∧
    (Instr.mxWin 0 { iWin with m := 257 }).wellFormed = false ∧
    (Instr.mxWin 0 { iWin with afmt := 16 }).wellFormed = false ∧
    (Instr.mxWin 0 { iWin with bank := 2 }).wellFormed = false ∧
    (Instr.mxWin 0 { iWin with port := 4 }).wellFormed = false ∧
    (Instr.mxWin 0 { iWin with sb := 32 }).wellFormed = false ∧
    (Instr.mxWin 0 { iWin with loff := 32768 }).wellFormed = false ∧
    (Instr.mxWin 0 { iWin with taps := 4 }).wellFormed = false ∧
    (Instr.mxWin 0 { iWin with r0 := 256 }).wellFormed = false := by decide
theorem test_ill_formed_vxAdd :
    (Instr.vxAdd 0 { ({} : VxF) with pg := 8 }).wellFormed = false ∧
    (Instr.vxAdd 0 { ({} : VxF) with vd := 64 }).wellFormed = false ∧
    (Instr.vxAdd 0 { ({} : VxF) with va := 64 }).wellFormed = false ∧
    (Instr.vxAdd 0 { ({} : VxF) with vb := 64 }).wellFormed = false ∧
    (Instr.vxAdd 0 { ({} : VxF) with vc := 64 }).wellFormed = false ∧
    (Instr.vxAdd 0 { ({} : VxF) with f1 := 16 }).wellFormed = false ∧
    (Instr.vxAdd 0 { ({} : VxF) with f2 := 16 }).wellFormed = false ∧
    (Instr.vxAdd 0 { ({} : VxF) with x := 2097152 }).wellFormed = false := by decide
theorem test_ill_formed_bundleIssue :
    (Instr.bundleIssue 0 { upsets := [⟨0, 0, 0, 1⟩] }).wellFormed = false ∧
    (Instr.waitRelease 0 { upsets := [⟨29, 0, 0, 3⟩] }).wellFormed = false := by decide
theorem test_ill_formed_smCh :
    (Instr.smCh 0 { iCh with ch := 8 }).wellFormed = false ∧
    (Instr.smCh 0 { iCh with port := 4 }).wellFormed = false ∧
    (Instr.smCh 0 { iCh with sb := 32 }).wellFormed = false ∧
    (Instr.smCh 0 { iCh with loff := 32768 }).wellFormed = false ∧
    (Instr.smCh 0 { iCh with sa := 32 }).wellFormed = false ∧
    (Instr.smCh 0 { iCh with sah := 32 }).wellFormed = false ∧
    (Instr.smCh 0 { iCh with sn := 32 }).wellFormed = false := by decide
theorem test_ill_formed_smVld :
    (Instr.smVld 0 0 0 32768 0 0).wellFormed = false := by decide
theorem test_ill_formed_smVst :
    (Instr.smVst 0 0 0 32768 0 0).wellFormed = false := by decide
theorem test_ill_formed_smQtos :
    (Instr.smQtos 0 0 0 0 0 0).wellFormed = false ∧
    (Instr.smQtos 0 17 0 0 0 0).wellFormed = false ∧
    (Instr.smQtos 0 1 0 0 0 32768).wellFormed = false := by decide
theorem test_ill_formed_smStoq :
    (Instr.smStoq 0 0 0 0 0 0).wellFormed = false ∧
    (Instr.smStoq 0 17 0 0 0 0).wellFormed = false ∧
    (Instr.smStoq 0 1 0 0 0 32768).wellFormed = false := by decide
theorem test_ill_formed_nxSend :
    (Instr.nxSend 0 0 0 0 false 0).wellFormed = false ∧
    (Instr.nxSend 0 0 0 65537 false 0).wellFormed = false := by decide
theorem test_ill_formed_moverConfigWrite :
    (Instr.moverConfigWrite 0 0 none (2 ^ 64)).wellFormed = false := by decide +kernel
theorem test_ill_formed_sliceWrite :
    (Instr.sliceWrite 0 0 0 []).wellFormed = false := by decide
theorem test_ill_formed_narrowWrite :
    (Instr.narrowWrite 0 0 0 0 []).wellFormed = false ∧
    (Instr.narrowWrite 0 0 0 0 (List.replicate 32 0)).wellFormed = false ∧
    (Instr.narrowWrite 0 0 0 31 [0, 0]).wellFormed = false := by decide
theorem test_ill_formed_engineWindowAccess :
    (Instr.engineWindowAccess 0 0 0 0 (some []) none).wellFormed = false ∧
    (Instr.engineWindowAccess 0 0 63 0 (some [0, 0]) none).wellFormed = false := by decide
theorem test_ill_formed_engineModeWrite :
    (Instr.engineModeWrite 0 0 (2 ^ 32)).wellFormed = false := by decide
theorem test_ill_formed_engineGo :
    (Instr.engineGo 0 0 (2 ^ 32)).wellFormed = false := by decide
theorem test_ill_formed_flitReceive :
    (Instr.flitReceive 0 []).wellFormed = false := by decide
theorem test_ill_formed_qdieMaskWrite :
    (Instr.qdieMaskWrite 0 0 (2 ^ 32)).wellFormed = false := by decide
theorem test_ill_formed_windowRead :
    (Instr.windowRead 0 4095 2 []).wellFormed = false ∧
    (Instr.windowRead 0 0 0 []).wellFormed = false ∧
    (Instr.windowRead 0 0 4097 []).wellFormed = false := by decide
theorem test_ill_formed_windowWrite :
    (Instr.windowWrite 0 0 []).wellFormed = false ∧
    (Instr.windowWrite 0 0 (List.replicate 513 0)).wellFormed = false := by decide +kernel
theorem test_ill_formed_cmdDoorbell :
    (Instr.cmdDoorbell 0 0 (2 ^ 32)).wellFormed = false := by decide
theorem test_ill_formed_cplHeadWrite :
    (Instr.cplHeadWrite 0 0 (2 ^ 32) false).wellFormed = false := by decide
theorem test_ill_formed_commandFetch :
    (Instr.commandFetch 0 (some []) none false).wellFormed = false ∧
    (Instr.commandFetch 0 none (some []) false).wellFormed = false := by decide
theorem test_ill_formed_nop :
    (Instr.nop 0 { tag := 2 ^ 32 } false).wellFormed = false := by decide
theorem test_ill_formed_writeMem :
    (Instr.writeMem 0 { tag := 2 ^ 32 } 0 0 0 false).wellFormed = false ∧
    (Instr.writeMem 0 {} (2 ^ 64) 0 0 false).wellFormed = false ∧
    (Instr.writeMem 0 {} 0 (2 ^ 64) 0 false).wellFormed = false ∧
    (Instr.writeMem 0 {} 0 0 (2 ^ 64) false).wellFormed = false := by decide +kernel
theorem test_ill_formed_readMem :
    (Instr.readMem 0 { tag := 2 ^ 32 } 0 0 0 false).wellFormed = false ∧
    (Instr.readMem 0 {} (2 ^ 64) 0 0 false).wellFormed = false ∧
    (Instr.readMem 0 {} 0 (2 ^ 64) 0 false).wellFormed = false ∧
    (Instr.readMem 0 {} 0 0 (2 ^ 64) false).wellFormed = false := by decide +kernel
theorem test_ill_formed_fill :
    (Instr.fill 0 { tag := 2 ^ 32 } 0 0 0 false).wellFormed = false ∧
    (Instr.fill 0 {} (2 ^ 64) 0 0 false).wellFormed = false ∧
    (Instr.fill 0 {} 0 (2 ^ 64) 0 false).wellFormed = false ∧
    (Instr.fill 0 {} 0 0 (2 ^ 64) false).wellFormed = false := by decide +kernel
theorem test_ill_formed_loadImage :
    (Instr.loadImage 0 { tag := 2 ^ 32 } 0 0 0 false).wellFormed = false ∧
    (Instr.loadImage 0 {} (2 ^ 64) 0 0 false).wellFormed = false ∧
    (Instr.loadImage 0 {} 0 (2 ^ 64) 0 false).wellFormed = false ∧
    (Instr.loadImage 0 {} 0 0 256 false).wellFormed = false := by decide +kernel
theorem test_ill_formed_launch :
    (Instr.launch 0 { tag := 2 ^ 32 } 0 (List.replicate 8 0) false).wellFormed = false ∧
    (Instr.launch 0 {} 256 (List.replicate 8 0) false).wellFormed = false ∧
    (Instr.launch 0 {} 0 [] false).wellFormed = false ∧
    (Instr.launch 0 {} 0 (List.replicate 8 (2 ^ 32)) false).wellFormed = false := by decide
theorem test_ill_formed_waitEvent :
    (Instr.waitEvent 0 { tag := 2 ^ 32 } 0 0 0 false).wellFormed = false ∧
    (Instr.waitEvent 0 {} 256 0 0 false).wellFormed = false ∧
    (Instr.waitEvent 0 {} 0 (2 ^ 32) 0 false).wellFormed = false ∧
    (Instr.waitEvent 0 {} 0 0 (2 ^ 32) false).wellFormed = false := by decide
theorem test_ill_formed_signalEvent :
    (Instr.signalEvent 0 { tag := 2 ^ 32 } 0 0 false).wellFormed = false ∧
    (Instr.signalEvent 0 {} 65536 0 false).wellFormed = false ∧
    (Instr.signalEvent 0 {} 0 256 false).wellFormed = false := by decide
theorem test_ill_formed_collective :
    (Instr.collective 0 { tag := 2 ^ 32 } 0 0 0 none false).wellFormed = false ∧
    (Instr.collective 0 {} (2 ^ 64) 0 0 none false).wellFormed = false ∧
    (Instr.collective 0 {} 0 (2 ^ 32) 0 none false).wellFormed = false ∧
    (Instr.collective 0 {} 0 0 256 none false).wellFormed = false ∧
    (Instr.collective 0 {} 0 0 0 (some []) false).wellFormed = false := by decide +kernel
theorem test_ill_formed_phaseHint :
    (Instr.phaseHint 0 { tag := 2 ^ 32 } 0 0 0 false).wellFormed = false ∧
    (Instr.phaseHint 0 {} 256 0 0 false).wellFormed = false ∧
    (Instr.phaseHint 0 {} 0 65536 0 false).wellFormed = false ∧
    (Instr.phaseHint 0 {} 0 0 256 false).wellFormed = false := by decide
theorem test_ill_formed_respare :
    (Instr.respare 0 { tag := 2 ^ 32 } 0 0 false).wellFormed = false ∧
    (Instr.respare 0 {} 256 0 false).wellFormed = false ∧
    (Instr.respare 0 {} 0 256 false).wellFormed = false := by decide
theorem test_ill_formed_fence :
    (Instr.fence 0 { tag := 2 ^ 32 } 0 false).wellFormed = false ∧
    (Instr.fence 0 {} 65536 false).wellFormed = false := by decide
theorem test_ill_formed_cmdprocSoftReset :
    (Instr.cmdprocSoftReset 0 0 [[]] false).wellFormed = false := by decide
theorem test_ill_formed_blockStartDone :
    (Instr.blockStartDone 36 none {}).wellFormed = false ∧
    (Instr.blockStartDone 20 (some {}) {}).wellFormed = false ∧
    (Instr.blockStartDone 20 none { entries := [[]] }).wellFormed = false := by decide
theorem test_ill_formed_blockDrainDone :
    (Instr.blockDrainDone 20 { entries := [[]] }).wellFormed = false := by decide
theorem test_ill_formed_registerWrite :
    (Instr.registerWrite 0 0 4 (2 ^ 32) {}).wellFormed = false ∧
    (Instr.registerWrite 0 0 4 0 { entries := [[]] }).wellFormed = false := by decide +kernel
theorem test_ill_formed_pageSoftReset :
    (Instr.pageSoftReset 0 20 { entries := [[]] }).wellFormed = false := by decide
theorem test_ill_formed_lockWrite :
    (Instr.lockWrite 0 20 true true (some { entries := [[]] })).wellFormed = false := by decide
theorem test_ill_formed_distGlbWrite :
    (Instr.distGlbWrite 0 0 none none).wellFormed = false := by decide
theorem test_ill_formed_pwrCapWrite :
    (Instr.pwrCapWrite 0 (2 ^ 32)).wellFormed = false := by decide
theorem test_ill_formed_opTargetWrite :
    (Instr.opTargetWrite 0 0 (2 ^ 32)).wellFormed = false := by decide
theorem test_ill_formed_duskRound :
    (Instr.duskRound { wRound with raw := [(624, 0)] }).wellFormed = false ∧
    (Instr.duskRound { wRound with doms := [] }).wellFormed = false ∧
    (Instr.duskRound { wRound with inner := [(1920, 0)] }).wellFormed = false := by decide
theorem test_ill_formed_governorStep :
    (Instr.governorStep [] []).wellFormed = false ∧
    (Instr.governorStep (List.replicate 5 { work := 0 }) (List.replicate 5 (0, false))).wellFormed = false := by decide
theorem test_ill_formed_twExitDone :
    (Instr.twExitDone []).wellFormed = false := by decide

/-! ### Small tests: each expected value is worked out by hand from the rule named -/

/-- The next state of a command, or the state itself. -/
def after (c : Instr) (s : State) : State :=
  match exec c s with
  | .next t => t
  | _ => s

/-- On an empty queue the block idles (log entry 1). -/
theorem test_step_idles : (match step wUp with
    | .next t => decide (t.sent = wUp.sent ∧ t.regs = wUp.regs)
    | _ => false) = true := by decide
/-- The front command runs, and the next one is left (log entry 1). -/
theorem test_step_takes_one : (match step { wUp with pending := [.throttleNAssert, .throttleNRelease] } with
    | .next t => decide (t.pending = [.throttleNRelease] ∧ rd t pwrP PWR_EXT_ACTIVE = 1)
    | _ => false) = true := by decide
/-- E4M3 0x38 is 1, 0x7E is 448 and 0x7F is NaN; E2M1 7 is 6 (R41). -/
theorem test_formats :
    (elemNum 3 0x38 == .num false 8 (-3)) = true ∧ (elemNum 3 0x7E == .num false 14 5) = true ∧
    (elemNum 3 0x7F == .nan) = true := by decide
/-- ADD wraps, SRA keeps the sign, MIN and SLT are signed, SLTU is not (R86). -/
theorem test_scalar_functions :
    aluFn 0 0xFFFFFFFF 2 = 1 ∧ aluFn 7 0x80000000 31 = 0xFFFFFFFF ∧ aluFn 9 0x80000000 1 = 0x80000000 ∧
    aluFn 11 0xFFFFFFFF 0 = 1 ∧ aluFn 12 0xFFFFFFFF 0 = 0 := by decide
/-- ADDI extends the sign of its immediate (R86). -/
theorem test_addi_sign :
    ((tile (after (.ctAddi 0 31 0 65535) wTile) 0).agenda.map Pend.act) = [.s 31 0xFFFFFFFF] := by decide
/-- END stops the fetch, and the tile's cycle is counted (R95). -/
theorem test_end : (tile (after (.ctEnd 0) wTile) 0).fetchEnd = true := by decide
/-- A narrow write of the last byte of a sector gathers under mask bit 31 (R128). -/
theorem test_narrow_mask :
    ((slice (after (.narrowWrite 0 0 0 31 [5]) wUp) 0).merge.map Merge.mask) = [2 ^ 31] := by decide
/-- A sector written reads back (R126). -/
theorem test_sector_written :
    memBytes (slice (after (.sliceWrite 0 0 2 (List.replicate 32 5)) wUp) 0).mem 64 2 = [5, 5] ∧
    (slice (after (.sliceWrite 0 0 2 (List.replicate 32 5)) wUp) 0).flags.get 2 = true := by
  decide +kernel
/-- A read of an unwritten sector is counted and sets bit 31 of the syndrome (R127). -/
theorem test_unwritten :
    rd (after (.sliceRead 0 0 7 0 none) wUp) (sliceP 0) SLICE_UNWRITTEN_READS = 1 ∧
    bitOf (rd (after (.sliceRead 0 0 7 0 none) wUp) (sliceP 0) HDR_ERR_SYNDROME) 31 = true := by decide +kernel
/-- A mode word of 2 is refused with code 6 (R142). -/
theorem test_mode_word : rd (after (.engineModeWrite 0 0 2) wUp) (engineP 0) HDR_LAST_ERR = 6 := by
  decide +kernel
/-- A mode word of 1 begins entry (R142). -/
theorem test_mode_enter : (slice (after (.engineModeWrite 0 0 1) wUp) 0).mode = 2 := by decide +kernel
/-- A ring of 64 entries takes a tail of 63 and not of 64 (R249). -/
theorem test_doorbell :
    (proc (after (.cmdDoorbell 0 0 63) wRing) 0).tail = 63 ∧
    (proc (after (.cmdDoorbell 0 0 64) wRing) 0).tail = 1 ∧
    rd (after (.cmdDoorbell 0 0 64) wRing) (cmdprocP 0) HDR_LAST_ERR = 5 := by decide +kernel
/-- A NOP leaves one completion entry of 16 bytes (R252). -/
theorem test_nop : ((after (.nop 0 {} false) wRing).sent.head?.map (fun o => match o with
    | .completion d i b => (d, i, b.length)
    | _ => (9, 9, 0))) = some (0, 0, 16) := by decide +kernel
/-- A window of 511 MiB would end beyond a slice, so the write is dropped (R29). -/
theorem test_glb_dropped :
    rd (after (.distGlbWrite 0 0 (some 0) (some 511)) wUp) pkgswP PKGSW_DIST_GLB_SIZE 0
      = rd wUp pkgswP PKGSW_DIST_GLB_SIZE 0 := by decide +kernel
/-- INT_FORCE sets the bits that the page defines (R294). -/
theorem test_int_force : rd (after (.intForceWrite 0 5 1) wUp) pwrP HDR_INT_RAW = 1 := by decide +kernel
/-- An offset whose packet error code fails is not taken; a good one is (R354). -/
theorem test_set_offset :
    (after (.setOffset 0x1100 false) wAon).smbOffset = 0 ∧
    (after (.setOffset 0x1100 true) wAon).smbOffset = 0x1100 := by decide
/-- A trip latches its die and its triplet (R282). -/
theorem test_trip :
    rd (after (.thermalTrip 3 7 true) wUp) thermP THERM_TRIP_DIE = 3 ∧
    rd (after (.thermalTrip 3 7 true) wUp) thermP THERM_TRIP_TRIPLET = 7 ∧
    rd (after (.thermalTrip 3 7 true) wUp) thermP THERM_MIDNIGHT = 1 := by decide +kernel
/-- Two waveguides on one position: result 5 (R184). -/
theorem test_targets_clash :
    rd (after (.crossingApply 0 0) (wTargets 0x80)) (crossingP 0) CROSSING_LAST_RESULT = 5 := by decide
/-- There is no way back from FIELD to MANUFACTURE (R322). -/
theorem test_no_way_back : (after (.lcReq 0 1 0) wUp).sec.lc = none := by decide
/-- A pulse blows the bit that is due (R325). -/
theorem test_fuse_pulse : (after (.fusePulse true) wGateLc).fuses.has ⟨.state, 0, 2⟩ = true := by
  decide +kernel
/-- The check value of CRC-32 of IEEE 802.3 on the digits 1 to 9 is 0xCBF43926 (R195). -/
theorem test_crc32 :
    crc32 [0x31, 0x32, 0x33, 0x34, 0x35, 0x36, 0x37, 0x38, 0x39] = 0xCBF43926 := by decide +kernel
/-- The block has no instruction words: the table gives no bits. -/
theorem test_no_words : decodeTableWord 32 0 = none ∧ wUp.withFetchWord 32 0 = wUp := by
  exact ⟨rfl, rfl⟩

/-- PERST_N is low until the board drives it high, and a port trains only then (R353). -/
theorem test_perst_unconnected :
    rd (after (.hostLinkTrained 3 6 16 true) (wStage 2)) (hostportP 3) HOSTPORT_LINK_UP = 0 ∧
    rd (after (.hostLinkTrained 3 6 16 true) (after (.hostPortReset 3 .perstHigh) (wStage 2))) (hostportP 3)
      HOSTPORT_LINK_UP = 1 := by decide +kernel
/-- A write of 8 bytes that sets REC_EMIT begins an emission (R336, R311). -/
theorem test_rec_emit_pair :
    (after (.registerWrite 0 33072 8 1 {}) (wr wUp dawnP DAWN_OUT_ADDR_LO 4096)).dawn.emit.isSome = true := by
  decide +kernel
/-- ENABLE of PLAZA ignores the owner's write, which is not refused (R342). -/
theorem test_plaza_enable :
    (after (.blockEnableWrite 0 0 false) wUp).regs = wUp.regs := by decide +kernel
/-- A slice above 105 °C keeps OVERTEMP raised (R134, R294). -/
theorem test_overtemp_present :
    presentBits (wr wUp thermP THERM_READING (106 * 16) 64) (sliceP 0) = 8 ∧ presentBits wUp (sliceP 0) = 0 := by
  decide +kernel

end Sys2Proof.Tests
end

section
/-!
SUPPORT. What a register field reads as after the operations shared by many
commands: a write that its requester may make acts, and a write elsewhere, an interrupt and an entry
of the event log leave the field alone.
-/
open Sys2Proof Sys2Proof.Machine Sys2Proof.Safety Sys2Proof.Laws
namespace Sys2Proof.Proofs

/-- A write that the requester may make does what the register does. -/
theorem fieldWrite_of_takesWrite {s : State} {req : Nat} {p : PageId} {f : Fld} {i : Nat}
    (h : takesWrite s req p f i = true) (act : State → State) :
    fieldWrite s req p f i act = act s := by
  have he : writeError s req p (fldOff f i) = some 0 := by simpa [takesWrite] using h
  simp [fieldWrite, guardedWrite, he]

theorem keysFrom_of_regsOk {s : State} (h : regsOk s = true) : keysFrom 0 s.regs = true := by
  simp only [regsOk, Bool.and_eq_true] at h
  exact h.1

/-- The register file is in its canonical form, and entry `i` of a field of page `p` reads as `x`:
what a chain of operations that leave the field alone carries along. -/
structure ReadsAs (p : PageId) (f : Fld) (i x : Nat) (t : State) : Prop where
  ok : regsOk t = true
  val : rd t p f i = x

/-- The bit numbers in BAR0 of the fields that an interrupt of page `p` may write: its `INT_RAW`,
and `IN_SERVICE` of every function (R341, R346). -/
def raiseKeys (p : PageId) : List Nat :=
  fkey p HDR_INT_RAW 0 :: (List.range 4).map (fkey plazaP PLAZA_IN_SERVICE)

namespace ReadsAs

variable {p : PageId} {f : Fld} {i x : Nat} {s t : State}

/-- A field reads as the value just written, where its width holds it. -/
theorem written (h : regsOk s = true) (hx : x < 2 ^ f.wid) : ReadsAs p f i x (wr s p f x i) where
  ok := (wr_kept (Kept.refl s) p f x i).regs h
  val := by rw [rd_wr_same (keysFrom_of_regsOk h), Nat.mod_eq_of_lt hx]

theorem wr_of_ne (h : ReadsAs p f i x t) {q : PageId} {g : Fld} {j : Nat} (v : Nat)
    (hne : fkey p f i ≠ fkey q g j) : ReadsAs p f i x (wr t q g v j) where
  ok := (wr_kept (Kept.refl t) q g v j).regs h.ok
  val := by rw [rd_wr_of_ne (keysFrom_of_regsOk h.ok) hne, h.val]

/-- Fields of the state other than the registers and the images do not matter. -/
theorem of_regs_eq (h : ReadsAs p f i x s) (hr : t.regs = s.regs) (hi : t.images = s.images) :
    ReadsAs p f i x t where
  ok := by simpa only [regsOk, hr, hi] using h.ok
  val := by simpa only [rd, hr] using h.val

theorem setDusk (h : ReadsAs p f i x t) (k : Dusk) : ReadsAs p f i x { t with dusk := k } :=
  h.of_regs_eq rfl rfl

theorem ite {c : Prop} [Decidable c] (hs : ReadsAs p f i x s) (ht : ReadsAs p f i x t) :
    ReadsAs p f i x (if c then s else t) := by
  split
  · exact hs
  · exact ht

/-- A vector of function `d` is put in service, sent or held: of the registers, `IN_SERVICE` of `d`
alone may change. -/
theorem sendVector (h : ReadsAs p f i x t) {d : Nat} (v : Nat)
    (hne : fkey p f i ≠ fkey plazaP PLAZA_IN_SERVICE d) :
    ReadsAs p f i x (sendVector t d v) :=
  have hsent (o : Out) : ReadsAs p f i x (emit t o) := h.of_regs_eq rfl rfl
  ite (ite (hsent _) ((hsent _).wr_of_ne _ hne)) (h.of_regs_eq rfl rfl)

theorem deliver (h : ReadsAs p f i x t)
    (hne : ∀ d ∈ List.range 4, fkey p f i ≠ fkey plazaP PLAZA_IN_SERVICE d) :
    ReadsAs p f i x (deliver t) :=
  List.foldlRecOn [2, 3, 4] _ h fun _ hb v _ =>
    List.foldlRecOn (List.range 4) _ hb fun _ hc d hd => ite (hc.sendVector v (hne d hd)) hc

theorem raise (h : ReadsAs p f i x t) {q : PageId} (b : Nat) (hne : fkey p f i ∉ raiseKeys q) :
    ReadsAs p f i x (raise t q b) := by
  have hraw : fkey p f i ≠ fkey q HDR_INT_RAW 0 := List.ne_of_not_mem_cons hne
  have hserv := List.not_mem_of_not_mem_cons hne
  exact (h.wr_of_ne _ hraw).deliver fun d hd e => hserv (e ▸ List.mem_map_of_mem hd)

theorem lastErr (h : ReadsAs p f i x t) {q : PageId} (code : Nat)
    (hne : fkey p f i ≠ fkey q HDR_LAST_ERR 0) : ReadsAs p f i x (lastErr t q code) :=
  h.wr_of_ne code hne

/-- The entries of the event log stand behind every other field of `PWR`, so that a field before
them is no entry's, whatever `EVT_WR` holds (R286). -/
theorem logEvent (h : ReadsAs p f i x t) (code domain arg value : Nat)
    (hlog : fkey p f i < fkey pwrP PWR_LOG_CODE 0)
    (hwr : fkey p f i ≠ fkey pwrP PWR_EVT_WR 0) (hcount : fkey p f i ≠ fkey pwrP PWR_EVT_COUNT 0)
    (hraise : fkey p f i ∉ raiseKeys pwrP) :
    ReadsAs p f i x (logEvent t code domain arg value) := by
  have entry {u : State} (g : Fld) (hg : fkey pwrP PWR_LOG_CODE 0 ≤ fkey pwrP g 0) {v j : Nat}
      (hu : ReadsAs p f i x u) : ReadsAs p f i x (wr u pwrP g v j) := by
    have hj : fkey pwrP g 0 ≤ fkey pwrP g j := by simp [fkey]; omega
    exact hu.wr_of_ne v (by omega)
  exact .raise (.wr_of_ne (.wr_of_ne
    (entry PWR_LOG_VALUE (by decide) (entry PWR_LOG_STEP (by decide)
      (entry PWR_LOG_ROUND (by decide) (entry PWR_LOG_ARG (by decide)
        (entry PWR_LOG_DOMAIN (by decide) (entry PWR_LOG_CODE (by decide) h))))))
    _ hwr) _ hcount) 3 hraise

end ReadsAs

end Sys2Proof.Proofs
end

section
/-!
PROOF. A cap and a target read back clamped to the fused limits (R6, R260,
R262), whatever is reported and logged beside the write.
-/
open Sys2Proof Sys2Proof.Machine Sys2Proof.Safety Sys2Proof.Laws
namespace Sys2Proof.Proofs

theorem fuseLimit_lt (s : State) : fuseLimit s < 2 ^ PWR_PWR_CAP_W.wid := Nat.mod_lt _ (by decide)

theorem fuseMaxOp_lt (s : State) : fuseMaxOp s < 2 ^ PWR_OP_TARGET.wid := Nat.mod_lt _ (by decide)

/-- The report of a clamp and the entry of a cap that is met again are no part of the cap. -/
theorem capWrite_readsAs {s : State} (h : regsOk s = true) (v : Nat) :
    ReadsAs pwrP PWR_PWR_CAP_W 0 (min (v % 2 ^ 16) (fuseLimit s)) (capWrite s v) := by
  have written : ReadsAs pwrP PWR_PWR_CAP_W 0 (min (v % 2 ^ 16) (fuseLimit s))
      (wr s pwrP PWR_PWR_CAP_W (min (v % 2 ^ 16) (fuseLimit s))) :=
    .written h (Nat.lt_of_le_of_lt (Nat.min_le_right _ _) (fuseLimit_lt s))
  have reported := ReadsAs.ite (c := v % 2 ^ 16 > fuseLimit s)
    ((written.lastErr (q := pwrP) 2 (by decide)).raise (q := pwrP) 4 (by decide)) written
  exact .ite (((reported.setDusk _).wr_of_ne 0 (by decide)).logEvent 5 0xFF 0 0
    (by decide) (by decide) (by decide) (by decide)) reported

theorem opTargetWrite_readsAs {s : State} (h : regsOk s = true) (d : DieId) (v : Nat) :
    ReadsAs pwrP PWR_OP_TARGET d (min (v % 8) (fuseMaxOp s)) (opTargetWrite s d v) := by
  have written : ReadsAs pwrP PWR_OP_TARGET d (min (v % 8) (fuseMaxOp s))
      (wr s pwrP PWR_OP_TARGET (min (v % 8) (fuseMaxOp s)) d) :=
    .written h (Nat.lt_of_le_of_lt (Nat.min_le_right _ _) (fuseMaxOp_lt s))
  have herr : ∀ d : DieId, fkey pwrP PWR_OP_TARGET d ≠ fkey pwrP HDR_LAST_ERR 0 := by decide
  have hraise : ∀ d : DieId, fkey pwrP PWR_OP_TARGET d ∉ raiseKeys pwrP := by decide
  exact .ite ((written.lastErr 3 (herr d)).raise 4 (hraise d)) written

/-- Settles O54: both writes act as `capWrite` and `opTargetWrite` say, and what they write is not
touched by what they report. -/
theorem capsAndTargetsAreClamped : Obligations.CapsAndTargetsAreClamped := by
  intro s req hok
  constructor
  · intro v hw
    exact ⟨capWrite s v, congrArg Host.Outcome.next (fieldWrite_of_takesWrite hw _),
      (capWrite_readsAs hok v).val⟩
  · intro d v hw
    exact ⟨opTargetWrite s d v, congrArg Host.Outcome.next (fieldWrite_of_takesWrite hw _),
      (opTargetWrite_readsAs hok d v).val⟩

end Sys2Proof.Proofs
end

section
/-!
SUPPORT. What leaves every tile as it is: interrupts, the command processors, the slices, and what is
sent over a link change no tile, so that their frame is one equation on the field `tiles`.
-/
open Sys2Proof Sys2Proof.Machine Sys2Proof.Safety Sys2Proof.Laws
namespace Sys2Proof.Proofs

/-! ### Folds and branches -/

theorem ite_tiles {c : Prop} [Decidable c] (s t : State) :
    (if c then s else t).tiles = if c then s.tiles else t.tiles := apply_ite State.tiles c s t

theorem foldl_tiles {α : Type} {f : State → α → State} (hf : ∀ s a, (f s a).tiles = s.tiles)
    (l : List α) (s : State) : (l.foldl f s).tiles = s.tiles :=
  List.foldlRecOn (motive := fun x => x.tiles = s.tiles) l f rfl fun _ hx a _ => (hf _ a).trans hx

theorem foldl_fst_tiles {α β : Type} {f : State × β → α → State × β}
    (hf : ∀ r a, (f r a).1.tiles = r.1.tiles) (l : List α) (r : State × β) :
    (l.foldl f r).1.tiles = r.1.tiles :=
  List.foldlRecOn (motive := fun x => x.1.tiles = r.1.tiles) l f rfl
    fun _ hx a _ => (hf _ a).trans hx

/-! ### Counters, interrupts and error logs -/

@[simp] theorem bump_tiles (s : State) (p : PageId) (f : Fld) (n i : Nat) :
    (bump s p f n i).tiles = s.tiles := rfl

@[simp] theorem bump64_tiles (s : State) (p : PageId) (lo hi : Fld) (n : Nat) :
    (bump64 s p lo hi n).tiles = s.tiles := rfl

@[simp] theorem lastErr_tiles (s : State) (p : PageId) (code : Nat) :
    (lastErr s p code).tiles = s.tiles := rfl

@[simp] theorem logErr_tiles (s : State) (p : PageId) (code lo hi synd : Nat) :
    (logErr s p code lo hi synd).tiles = s.tiles := rfl

@[simp] theorem sendVector_tiles (s : State) (d v : Nat) : (sendVector s d v).tiles = s.tiles := by
  simp [sendVector, ite_tiles]

@[simp] theorem deliver1_tiles (s : State) (d v : Nat) : (deliver1 s d v).tiles = s.tiles := by
  simp [deliver1, ite_tiles]

@[simp] theorem deliver_tiles (s : State) : (deliver s).tiles = s.tiles :=
  foldl_tiles (fun _ v => foldl_tiles (fun x d => deliver1_tiles x d v) _ _) _ _

@[simp] theorem raise_tiles (s : State) (p : PageId) (b : Nat) : (raise s p b).tiles = s.tiles := by
  simp [raise]

@[simp] theorem refuse_tiles (s : State) (d a code : Nat) : (refuse s d a code).tiles = s.tiles := by
  simp [refuse, ite_tiles]

/-! ### Completions of commands -/

@[simp] theorem hostRefused_tiles (s : State) (port : Nat) :
    (hostRefused s port).tiles = s.tiles := by simp [hostRefused]

@[simp] theorem brokenOff_tiles (s : State) (d : Nat) : (brokenOff s d).tiles = s.tiles := by
  simp [brokenOff, ite_tiles]

@[simp] theorem fireVector0_tiles (s : State) (d : Nat) : (fireVector0 s d).tiles = s.tiles := by
  simp [fireVector0]

@[simp] theorem moderate_tiles (s : State) (d : Nat) (irq : Bool) :
    (moderate s d irq).tiles = s.tiles := by simp [moderate, ite_tiles]

@[simp] theorem countStall_tiles (s : State) (d : Nat) : (countStall s d).tiles = s.tiles := by
  simp [countStall, ite_tiles]

@[simp] theorem writeEntry_tiles (s : State) (d : Nat) (e : CplEntry) :
    (writeEntry s d e).tiles = s.tiles := by simp [writeEntry, ite_tiles]

@[simp] theorem postEntry_tiles (s : State) (d : Nat) (e : CplEntry) :
    (postEntry s d e).tiles = s.tiles := by simp [postEntry, ite_tiles]

@[simp] theorem complete_tiles (s : State) (d op : Nat) (h : CmdHdr) (status data : Nat) :
    (complete s d op h status data).tiles = s.tiles := by simp [complete, ite_tiles]

@[simp] theorem dropJob_tiles (s : State) (d seq : Nat) : (dropJob s d seq).tiles = s.tiles := rfl

@[simp] theorem setJob_tiles (s : State) (d : Nat) (j : Job) : (setJob s d j).tiles = s.tiles := rfl

@[simp] theorem finishJob_tiles (s : State) (d : Nat) (j : Job) (status data : Nat) :
    (finishJob s d j status data).tiles = s.tiles := by simp [finishJob]

@[simp] theorem launchPoll_tiles (s : State) (d : Nat) (j : Job) :
    (launchPoll s d j).tiles = s.tiles := by
  unfold launchPoll
  repeat' split
  all_goals simp [ite_tiles]

@[simp] theorem tileEnded_tiles (s : State) (n : Nat) : (tileEnded s n).tiles = s.tiles := by
  unfold tileEnded
  repeat' split
  all_goals simp [ite_tiles]

/-! ### Slices -/

@[simp] theorem logSector_tiles (s : State) (n code sec req synd : Nat) :
    (logSector s n code sec req synd).tiles = s.tiles := by
  unfold logSector
  exact logErr_tiles _ _ _ _ _ _

@[simp] theorem failSector_tiles (s : State) (n sec : Nat) (p : List (Nat × Nat)) :
    (failSector s n sec p).tiles = s.tiles := rfl

@[simp] theorem mergeDropped_tiles (s : State) (n sec synd : Nat) :
    (mergeDropped s n sec synd).tiles = s.tiles := by simp [mergeDropped]

@[simp] theorem controllerRead_tiles (s : State) (n sec req : Nat) (err : Option SectorErr) :
    (controllerRead s n sec req err).1.tiles = s.tiles := by
  unfold controllerRead
  dsimp only
  repeat' split
  all_goals simp

@[simp] theorem readSector_tiles (s : State) (n sec req : Nat) (err : Option SectorErr) :
    (readSector s n sec req err).1.tiles = s.tiles := by simp [readSector]

@[simp] theorem putSector_tiles (s : State) (n sec : Nat) (bytes : List Byte) :
    (putSector s n sec bytes).tiles = s.tiles := rfl

@[simp] theorem putWin_tiles (s : State) (n off : Nat) (bytes : List Byte) :
    (putWin s n off bytes).tiles = s.tiles := rfl

@[simp] theorem putAny_tiles (s : State) (n sec : Nat) (bytes : List Byte) :
    (putAny s n sec bytes).tiles = s.tiles := by simp [putAny, ite_tiles]

@[simp] theorem gather_tiles (s : State) (n : Nat) (w : Narrow) : (gather s n w).tiles = s.tiles :=
  rfl

@[simp] theorem flushEntry_tiles (s : State) (n sec : Nat) (err : Option SectorErr) :
    (flushEntry s n sec err).tiles = s.tiles := by
  unfold flushEntry
  dsimp only
  repeat' split
  all_goals simp

@[simp] theorem putWindow_tiles (s : State) (n off : Nat) (who : Option Nat) (k : Nat)
    (bytes : List Byte) : (putWindow s n off who k bytes).tiles = s.tiles := by
  induction k generalizing s off bytes with
  | zero => rfl
  | succ k ih => simp [putWindow, ih, ite_tiles]

@[simp] theorem drainPuts_tiles (s : State) (n k : Nat) : (drainPuts s n k).tiles = s.tiles := by
  induction k generalizing s with
  | zero => rfl
  | succ k ih =>
    unfold drainPuts
    dsimp only
    repeat' split
    all_goals simp [ih]

@[simp] theorem settleSlice_tiles (s : State) (n : Nat) : (settleSlice s n).tiles = s.tiles := by
  simp [settleSlice]

@[simp] theorem flushSector_tiles (s : State) (n sec : Nat) (err : Option SectorErr) :
    (flushSector s n sec err).tiles = s.tiles := by simp [flushSector]

@[simp] theorem flushAll_tiles (s : State) (n : Nat) (errs : SectorErrs) (k : Nat) :
    (flushAll s n errs k).tiles = s.tiles := by
  induction k generalizing s with
  | zero => rfl
  | succ k ih =>
    unfold flushAll
    split
    · rfl
    · simp [ih]

@[simp] theorem sliceSector_tiles (s : State) (n sec req : Nat) (err : Option SectorErr) :
    (sliceSector s n sec req err).1.tiles = s.tiles := by
  unfold sliceSector
  split <;> simp

@[simp] theorem sliceWriteSector_tiles (s : State) (n sec : Nat) (bytes : List Byte) :
    (sliceWriteSector s n sec bytes).tiles = s.tiles := by simp [sliceWriteSector]

@[simp] theorem sliceWriteBytes_tiles (s : State) (n off k : Nat) (bytes : List Byte) :
    (sliceWriteBytes s n off k bytes).tiles = s.tiles := by
  induction k generalizing s off bytes with
  | zero => rfl
  | succ k ih => simp [sliceWriteBytes, ih, ite_tiles]

/-! ### Links -/

@[simp] theorem assignFlow_tiles (s : State) (g flow : Nat) :
    (assignFlow s g flow).tiles = s.tiles := by
  unfold assignFlow
  split <;> rfl

@[simp] theorem takeFlips_tiles (s : State) (g flow : Nat) (b : List Byte) :
    (takeFlips s g flow b).1.tiles = s.tiles := by
  unfold takeFlips
  repeat' split
  all_goals rfl

@[simp] theorem crossData_tiles (s : State) (gs : List Nat) (flow : Nat) (b : List Byte) :
    (crossData s gs flow b).1.tiles = s.tiles :=
  foldl_fst_tiles (fun _ _ => by simp) gs (s, b)

@[simp] theorem plazaData_tiles (s : State) (src n : Nat) (b : List Byte) :
    (plazaData s src n b).1.tiles = s.tiles := crossData_tiles _ _ _ _

@[simp] theorem pinFlow_tiles (s : State) (port flow l : Nat) :
    (pinFlow s port flow l).tiles = s.tiles := by
  unfold pinFlow
  repeat' split
  all_goals rfl

@[simp] theorem sendRound_tiles (s : State) (l : Nat) (lanes : List Nat) (unit : Nat → Nat → Nat) :
    (sendRound s l lanes unit).tiles = s.tiles := rfl

@[simp] theorem makeWord_tiles (s : State) (l : Nat) : (makeWord s l).tiles = s.tiles := rfl

@[simp] theorem sendSides_tiles (s : State) (l : Nat) : (sendSides s l).tiles = s.tiles := by
  simp [sendSides, ite_tiles]

@[simp] theorem sendFlit_tiles (s : State) (l seq : Nat) (payload : List Byte) :
    (sendFlit s l seq payload).tiles = s.tiles := by simp [sendFlit, ite_tiles]

@[simp] theorem pumpLink_tiles (s : State) (l k : Nat) : (pumpLink s l k).tiles = s.tiles := by
  induction k generalizing s with
  | zero => rfl
  | succ k ih => simp [pumpLink, ih, ite_tiles]

@[simp] theorem sendOnLink_tiles (s : State) (l : Nat) (bytes : List Byte) :
    (sendOnLink s l bytes).tiles = s.tiles := by simp [sendOnLink]

@[simp] theorem dropPacket_tiles (s : State) (port reason : Nat) (dest src : Nat × Nat)
    (quarter : Nat) : (dropPacket s port reason dest src quarter).tiles = s.tiles := by
  simp [dropPacket]

@[simp] theorem deliverHere_tiles (s : State) (i inP : Nat) (b : List Byte) :
    (deliverHere s i inP b).1.tiles = s.tiles := by
  unfold deliverHere
  dsimp only
  repeat' split
  all_goals simp

@[simp] theorem departPacket_tiles (s : State) (port flow : Nat) (bytes : List Byte) :
    (departPacket s port flow bytes).tiles = s.tiles := by
  unfold departPacket
  split <;> simp

@[simp] theorem sendPacket_tiles (s : State) (d flow : Nat) (dest : Nat × Nat) (blvd : Bool)
    (mk : Nat → List Byte) : (sendPacket s d flow dest blvd mk).1.tiles = s.tiles := by
  unfold sendPacket
  dsimp only
  repeat' split
  all_goals simp

/-! ### Collectives -/

@[simp] theorem takeCount_tiles (s : State) (c : Coll) : (takeCount s c).tiles = s.tiles := rfl

@[simp] theorem dropPosts_tiles (s : State) (d : Nat) (slot : Option Nat) :
    (dropPosts s d slot).tiles = s.tiles := rfl

@[simp] theorem countBytes_tiles (s : State) (c : Coll) (idx n : Nat) (isIn : Bool) :
    (countBytes s c idx n isIn).tiles = s.tiles := by simp [countBytes, ite_tiles]

@[simp] theorem oweTo_tiles (s : State) (key port flow : Nat) :
    (oweTo s key port flow).tiles = s.tiles := by
  unfold oweTo
  split <;> simp

@[simp] theorem sendRank_tiles (s : State) (c : Coll) (e r : Nat) (mk : Nat → List Byte) :
    (sendRank s c e r mk).tiles = s.tiles := by
  unfold sendRank
  dsimp only
  split <;> simp [ite_tiles]

@[simp] theorem sendCtl_tiles (s : State) (c : Coll) (r ctl target : Nat) :
    (sendCtl s c r ctl target).tiles = s.tiles := sendRank_tiles _ _ _ _ _

@[simp] theorem sendWave_tiles (s : State) (c : Coll) (target : Nat) :
    (sendWave s c target).tiles = s.tiles :=
  foldl_tiles (fun _ _ => sendCtl_tiles _ _ _ _ _) _ _

@[simp] theorem sendBlk_tiles (s : State) (c : Coll) (b : Blk) : (sendBlk s c b).tiles = s.tiles := by
  simp [sendBlk, ite_tiles]

@[simp] theorem sendBlkK_tiles (s : State) (key : Nat) (b : Blk) :
    (sendBlkK s key b).tiles = s.tiles := by
  unfold sendBlkK
  split <;> simp

@[simp] theorem collFailed_tiles (s : State) (e n off : Nat) :
    (collFailed s e n off).tiles = s.tiles := by
  unfold collFailed
  exact (wr_tiles _ _ _ _ _).trans (wr_tiles _ _ _ _ _)

@[simp] theorem collRefused_tiles (s : State) (e n off code : Nat) :
    (collRefused s e n off code).tiles = s.tiles :=
  (collFailed_tiles _ _ _ _).trans (refuse_tiles _ _ _ _)

@[simp] theorem collWrite_tiles (s : State) (e n off : Nat) (bytes : List Byte) :
    (collWrite s e n off bytes).1.tiles = s.tiles := by
  unfold collWrite
  dsimp only
  split <;> simp

@[simp] theorem collSectors_tiles (s : State) (n : Nat) (errs : SectorErrs) (ks : List Nat) :
    (collSectors s n errs ks).1.tiles = s.tiles := by
  induction ks generalizing s with
  | nil => rfl
  | cons k ks ih =>
    unfold collSectors
    dsimp only
    split <;> simp [ih]

@[simp] theorem collRead_tiles (s : State) (e n off len : Nat) (errs : SectorErrs) :
    (collRead s e n off len errs).1.tiles = s.tiles := by
  unfold collRead
  dsimp only
  repeat' split
  all_goals simp

@[simp] theorem collGather_tiles (s : State) (c : Coll) (e base : Nat) (errs : SectorErrs)
    (ps : List (Nat × Nat × Nat)) : (collGather s c e base errs ps).1.tiles = s.tiles := by
  induction ps generalizing s with
  | nil => rfl
  | cons p ps ih =>
    unfold collGather
    dsimp only
    repeat' split
    all_goals simp [ih]

@[simp] theorem collSumFrom_tiles (s : State) (c : Coll) (e base k : Nat) (errs : SectorErrs)
    (acc : List Byte) (m j : Nat) : (collSumFrom s c e base k errs acc m j).1.tiles = s.tiles := by
  induction m generalizing s acc j with
  | zero => rfl
  | succ m ih =>
    unfold collSumFrom
    dsimp only
    split <;> simp [ih]

@[simp] theorem contribution_tiles (s : State) (c : Coll) (q k : Nat) (errs : SectorErrs) :
    (contribution s c q k errs).1.tiles = s.tiles := by
  unfold contribution
  dsimp only
  repeat' split
  all_goals simp

end Sys2Proof.Proofs
end

section
/-!
SUPPORT. What changes neither whether a tile runs nor the reads that a tile repeats: the work on
collectives, the end of a tile, and what a failed parity retry does to a tile.
-/
open Sys2Proof Sys2Proof.Machine Sys2Proof.Safety Sys2Proof.Laws
namespace Sys2Proof.Proofs

/-- From `s` to `x`, no tile's run state changes, nor the reads that its parity retry repeats. -/
structure KeepsRun (s x : State) : Prop where
  runState : ∀ m, (tile x m).runState = (tile s m).runState
  retry : ∀ m, (tile x m).retry = (tile s m).retry

namespace KeepsRun

variable {s x y : State}

theorem refl (s : State) : KeepsRun s s := ⟨fun _ => rfl, fun _ => rfl⟩

theorem trans (h : KeepsRun s x) (k : KeepsRun x y) : KeepsRun s y :=
  ⟨fun m => (k.runState m).trans (h.runState m), fun m => (k.retry m).trans (h.retry m)⟩

theorem of_tiles (e : x.tiles = s.tiles) : KeepsRun s x :=
  ⟨fun m => by simp only [tile, e], fun m => by simp only [tile, e]⟩

/-- What leaves every tile as it is may follow. -/
theorem congr (h : KeepsRun s x) (e : y.tiles = x.tiles) : KeepsRun s y := h.trans (of_tiles e)

theorem setTile (h : KeepsRun s x) {n : Nat} {t : Tile} (hrun : t.runState = (tile x n).runState)
    (hretry : t.retry = (tile x n).retry) : KeepsRun s (setTile x n t) := by
  refine h.trans ⟨fun m => ?_, fun m => ?_⟩ <;> rw [tile_setTile] <;> split
  · next e => rw [hrun, e]
  · rfl
  · next e => rw [hretry, e]
  · rfl

theorem ite {c : Prop} [Decidable c] (hx : KeepsRun s x) (hy : KeepsRun s y) :
    KeepsRun s (if c then x else y) := by
  split
  · exact hx
  · exact hy

theorem foldl {α : Type} {f : State → α → State} {l : List α} (h : KeepsRun s x)
    (hf : ∀ y a, KeepsRun y (f y a)) : KeepsRun s (l.foldl f x) :=
  List.foldlRecOn (motive := KeepsRun s) l f h fun _ hy a _ => hy.trans (hf _ a)

theorem raise (h : KeepsRun s x) (p : PageId) (b : Nat) : KeepsRun s (raise x p b) :=
  h.congr (raise_tiles _ _ _)

theorem logErr (h : KeepsRun s x) (p : PageId) (code lo hi synd : Nat) :
    KeepsRun s (logErr x p code lo hi synd) := h.congr (logErr_tiles _ _ _ _ _ _)

end KeepsRun

/-! ### Collectives -/

/-- A member's counter gains 1: of the tile, its event counters alone change. -/
theorem collEvent_keepsRun (s : State) (c : Coll) (p : Nat × Nat × Nat) :
    KeepsRun s (collEvent s c p) := by
  unfold collEvent
  split
  · exact .refl s
  · exact (KeepsRun.refl s).setTile rfl rfl

/-- Where a collective closes, only its posters' events reach the tiles. -/
theorem collClose_keepsRun (s : State) (c : Coll) (status cause : Nat)
    (origin : Option (Nat × Nat)) : KeepsRun s (collClose s c status cause origin) := by
  unfold collClose
  extract_lets o target dropped line told posted jobDone counted waved
  have htold : KeepsRun s told :=
    .foldl (.of_tiles rfl) (fun y n => .of_tiles (by simp [ite_tiles]))
  have hposted : KeepsRun s posted := htold.foldl (fun y p => collEvent_keepsRun y c p)
  have hdone : KeepsRun s jobDone := by
    refine hposted.congr ?_
    dsimp only [jobDone]
    repeat' split
    all_goals simp
  have hcounted : KeepsRun s counted :=
    hdone.foldl (fun y e => .of_tiles (by simp [ite_tiles]))
  have hwaved : KeepsRun s waved :=
    .ite hcounted (hcounted.foldl (fun y e => .of_tiles (bump_tiles _ _ _ _ _)))
  exact .ite hcounted (hwaved.congr (sendWave_tiles _ _ _))

theorem collEnd_keepsRun (s : State) (key status cause : Nat) (origin : Option (Nat × Nat)) :
    KeepsRun s (collEnd s key status cause origin) := by
  unfold collEnd
  split
  · exact .refl s
  · exact .ite (.refl s) (.ite (.of_tiles rfl) (collClose_keepsRun _ _ _ _ _))

theorem collLateEnd_keepsRun (s : State) (key : Nat) : KeepsRun s (collLateEnd s key) := by
  unfold collLateEnd
  repeat' split
  case h_1.isFalse => exact collClose_keepsRun _ _ _ _ _
  all_goals exact .refl s

theorem collCheck_keepsRun (s : State) (key : Nat) : KeepsRun s (collCheck s key) := by
  unfold collCheck
  split
  · exact .refl s
  · exact .ite (collEnd_keepsRun _ _ _ _ _) (.refl s)

theorem sendFirst_keepsRun (s : State) (key r : Nat) (errs : SectorErrs) :
    KeepsRun s (sendFirst s key r errs) := by
  unfold sendFirst
  split
  · exact .refl s
  · refine .foldl (.of_tiles rfl) (fun y qk => ?_)
    dsimp only
    repeat' split
    · exact .refl y
    · exact .trans (.of_tiles (contribution_tiles _ _ _ _ _)) (collEnd_keepsRun _ _ _ _ _)
    · exact .of_tiles (by simp)

theorem collPump_keepsRun (s : State) (key : Nat) (errs : SectorErrs) :
    KeepsRun s (collPump s key errs) := by
  unfold collPump
  split
  · exact .refl s
  · refine .ite (.refl s) ?_
    extract_lets rs sent
    have hsent : KeepsRun s sent := (KeepsRun.refl s).foldl (fun y r => sendFirst_keepsRun y key r errs)
    split
    · exact hsent
    · extract_lets go kept
      have hkept : KeepsRun s kept := hsent.congr (setColl_tiles _ _)
      exact .trans (hkept.congr (foldl_tiles (fun y b => sendBlkK_tiles y key b) go kept))
        (collCheck_keepsRun _ _)

theorem collPumpAll_keepsRun (s : State) (errs : SectorErrs) : KeepsRun s (collPumpAll s errs) :=
  .foldl (.refl s)
    (fun y c => (collLateEnd_keepsRun y c.key).trans (collPump_keepsRun _ c.key errs))

theorem collStop_keepsRun (s : State) (key status cause : Nat) :
    KeepsRun s (collStop s key status cause) := by
  unfold collStop
  split
  · exact .refl s
  · exact .ite (collEnd_keepsRun _ _ _ _ _)
      (.ite (.trans (.of_tiles (takeCount_tiles _ _)) (collEnd_keepsRun _ _ _ _ _)) (.refl s))

theorem collEndAll_keepsRun (s : State) (p : Coll → Bool) (status cause : Nat) :
    KeepsRun s (collEndAll s p status cause) := by
  refine .trans ?_ (collPumpAll_keepsRun _ _)
  exact .foldl (.refl s) (fun y c => collStop_keepsRun y c.key status cause)

theorem abortColls_keepsRun (s : State) (d : Nat) (slot : Option Nat) :
    KeepsRun s (abortColls s d slot) :=
  .trans (.of_tiles (dropPosts_tiles s d slot)) (collEndAll_keepsRun _ _ _ _)

/-- The end of a tile completes its launch and aborts collectives; it is no change of the tile. -/
theorem endOfTile_keepsRun (s : State) (n : Nat) : KeepsRun s (endOfTile s n) := by
  have hended : KeepsRun s (tileEnded s n) := .of_tiles (tileEnded_tiles s n)
  unfold endOfTile
  split
  · exact .refl s
  · exact .ite (hended.trans (abortColls_keepsRun _ _ _)) hended

/-! ### Parity (R108, R290, R366) -/

@[simp] theorem freeWords_tiles (s : State) (k : Nat) : (freeWords s k).2.tiles = s.tiles := by
  induction k generalizing s with
  | zero => rfl
  | succ k ih => exact ih _

@[simp] theorem freeBytes_tiles (s : State) (k : Nat) : (freeBytes s k).2.tiles = s.tiles := by
  induction k generalizing s with
  | zero => rfl
  | succ k ih => exact ih _

@[simp] theorem freeNat_tiles (s : State) : (freeNat s).2.tiles = s.tiles := rfl

@[simp] theorem freeAct_tiles (s : State) (p : Pend) : (freeAct s p).2.tiles = s.tiles := by
  unfold freeAct
  split
  case h_3 => rfl
  all_goals simp

@[simp] theorem freeAgenda_tiles (f : Pend → Bool) (s : State) (ps : List Pend) :
    (freeAgenda f s ps).2.tiles = s.tiles := by
  induction ps generalizing s with
  | nil => rfl
  | cons p ps ih =>
    unfold freeAgenda
    dsimp only
    rw [ih]
    split
    · exact freeAct_tiles s p
    · rfl

theorem freeCopies_keepsRun (s : State) (n : Nat) (h : ParHit) : KeepsRun s (freeCopies s n h) := by
  unfold freeCopies
  extract_lets agenda last freed
  have hfreed : KeepsRun s freed.2 := .of_tiles (freeAgenda_tiles _ _ _)
  exact hfreed.setTile rfl rfl

/-- A row of an accumulator and its sticky flags are no part of how a tile runs. -/
theorem setAccRow_raiseFlags_run (t : Tile) (bank row flags : Nat) (vals : List Word) :
    ((t.setAccRow bank row vals).raiseFlags flags).runState = t.runState ∧
      ((t.setAccRow bank row vals).raiseFlags flags).retry = t.retry := ⟨rfl, rfl⟩

theorem freeRow_keepsRun (s : State) (n : Nat) (h : ParHit) : KeepsRun s (freeRow s n h) := by
  unfold freeRow
  extract_lets words flags t row vals
  have hdrawn : KeepsRun s flags.2 := .of_tiles (freeWords_tiles s 16)
  exact hdrawn.setTile (setAccRow_raiseFlags_run t _ _ _ _).1 (setAccRow_raiseFlags_run t _ _ _ _).2

theorem freeTaken_runState (t : Tile) (h : ParHit) (b : List Byte) :
    (freeTaken t h b).runState = t.runState := by
  unfold freeTaken
  dsimp only
  split <;> rfl

theorem freeTaken_retry (t : Tile) (h : ParHit) (b : List Byte) :
    (freeTaken t h b).retry = t.retry := by
  unfold freeTaken
  dsimp only
  split <;> rfl

theorem freeResults_keepsRun (s : State) (n : Nat) (h : ParHit) :
    KeepsRun s (freeResults s n h) := by
  unfold freeResults
  extract_lets copied bytes t
  have hcopied : KeepsRun s copied := freeCopies_keepsRun s n h
  have hbytes : KeepsRun s bytes.2 := hcopied.congr (freeBytes_tiles _ _)
  refine .ite (hcopied.trans (freeRow_keepsRun _ _ _)) ?_
  split
  · exact hbytes.setTile rfl rfl
  · exact .ite (hbytes.setTile (freeTaken_runState _ _ _) (freeTaken_retry _ _ _)) hcopied

theorem parityTrap_keepsRun (s : State) (n : Nat) (hs : List ParHit) (h : ParHit) :
    KeepsRun s (parityTrap s n hs h) := by
  have hfreed (l : List ParHit) : KeepsRun s (l.foldl (fun s x => freeResults s n x) s) :=
    (KeepsRun.refl s).foldl (fun y x => freeResults_keepsRun y n x)
  exact .ite (hfreed _) ((hfreed _).setTile rfl rfl)

theorem haltChan_keepsRun (s : State) (n c code a : Nat) (keep lost : List MCmd) :
    KeepsRun s (haltChan s n c code a keep lost) := by
  unfold haltChan
  extract_lets t ch halted poisoned p logged raised
  have hpart : poisoned.runState = t.runState ∧ poisoned.retry = t.retry := by
    dsimp only [poisoned]
    repeat' split
    all_goals exact ⟨rfl, rfl⟩
  have hhalted : KeepsRun s (setTile s n poisoned) := (KeepsRun.refl s).setTile hpart.1 hpart.2
  have hraised : KeepsRun s raised := (hhalted.logErr _ _ _ _ _).raise _ _
  exact .ite (hraised.raise _ _) hraised

theorem haltDesc_keepsRun (s : State) (n c : Nat) (h : ParHit) : KeepsRun s (haltDesc s n c h) := by
  unfold haltDesc
  extract_lets t lost dropped
  have hdropped : KeepsRun s dropped := (KeepsRun.refl s).setTile rfl rfl
  exact hdropped.trans (haltChan_keepsRun _ _ _ _ _ _ _)

@[simp] theorem logParity_tiles (s : State) (n code : Nat) (h : ParHit) (lasting : Bool) :
    (logParity s n code h lasting).tiles = s.tiles := by
  unfold logParity
  exact logErr_tiles _ _ _ _ _ _

theorem markBad_runState (t : Tile) (hs : List ParHit) : (markBad t hs).runState = t.runState := rfl

theorem markBad_retry (t : Tile) (hs : List ParHit) : (markBad t hs).retry = t.retry := rfl

theorem parityLasting_keepsRun (s : State) (n : Nat) (hs : List ParHit) (h : ParHit) :
    KeepsRun s (parityLasting s n hs h) := by
  unfold parityLasting
  extract_lets logged marked halted ops
  have hlogged : KeepsRun s logged :=
    (KeepsRun.of_tiles (logParity_tiles _ _ _ _ _)).raise _ _
  have hmarked : KeepsRun s marked :=
    hlogged.setTile (markBad_runState _ _) (markBad_retry _ _)
  have hhalted : KeepsRun s halted := by
    refine hmarked.foldl (fun y x => ?_)
    split
    · exact haltDesc_keepsRun _ _ _ _
    · exact .refl y
  split
  · exact hhalted.trans (parityTrap_keepsRun _ _ _ _)
  · exact hhalted

end Sys2Proof.Proofs
end

section
/-!
PROOF. The cycles of a tile and its end (R45, R67, R89, R91, R95, R97, R107, R108, R110): what each
command does where its conditions hold, and that nothing which the end of a tile sets going takes
its run state back.
-/
open Sys2Proof Sys2Proof.Machine Sys2Proof.Safety Sys2Proof.Laws
namespace Sys2Proof.Proofs

variable {s : State} {n : Nat}

/-! ### Cycles (R95, R97, R107) -/

theorem bundleIssue_of_fetching {e : CycleErrs} (hready : (upsetTile (tile s n) e).ready = true)
    (hhold : (upsetTile (tile s n) e).hold = none)
    (hfetch : (upsetTile (tile s n) e).fetchEnd = false) :
    bundleIssue s n e = applyTile s n (bundleCycle (upsetTile (tile s n) e) n (tileDuty s n)
      ((upsetTile (tile s n) e).bundleAt (upsetTile (tile s n) e).pc) e.hits) := by
  simp [bundleIssue, hready, hhold, hfetch]

theorem bundleIssue_of_fetchEnd {e : CycleErrs} (hready : (upsetTile (tile s n) e).ready = true)
    (hhold : (upsetTile (tile s n) e).hold = none)
    (hfetch : (upsetTile (tile s n) e).fetchEnd = true) :
    bundleIssue s n e = setTile s n { drainCycle (upsetTile (tile s n) e) (tileDuty s n) with
      retry := e.hits ++ badHits (upsetTile (tile s n) e)
        (agendaReads (upsetTile (tile s n) e) (upsetTile (tile s n) e).agenda) } := by
  simp [bundleIssue, hready, hhold, hfetch]

theorem waitRelease_of_hold {e : CycleErrs} {h : Hold}
    (hready : (upsetTile (tile s n) e).ready = true)
    (hhold : (upsetTile (tile s n) e).hold = some h) :
    waitRelease s n e
      = applyTile s n (waitCycle (upsetTile (tile s n) e) n (tileDuty s n) h e.hits) := by
  simp [waitRelease, hready, hhold]

theorem pacingCycle_of_pacing (hrun : (tile s n).runState = 2) (hretry : (tile s n).retry = [])
    (hpace : isPacing (tile s n).duty (tile s n).phase = true) :
    pacingCycle s n = setTile s n ((if (tile s n).fetchEnd then tile s n
      else (tile s n).countFrozen causePace).tick (tileDuty s n)) := by
  simp [pacingCycle, hrun, hretry, hpace]

/-! ### Parity retries (R108) -/

theorem firstHit_cons_isSome (h : ParHit) (hs : List ParHit) : (firstHit (h :: hs)).isSome := by
  unfold firstHit
  repeat' split
  all_goals rfl

/-- The reads of a retry are gone once it has been made, whatever comes of them. -/
theorem parityRetry_retry (l : List Nat) (hretry : (tile s n).retry ≠ []) :
    (tile (parityRetry s n l) n).retry = [] := by
  obtain ⟨h, hfirst⟩ : ∃ h, firstHit (tile s n).retry = some h := by
    obtain ⟨x, xs, hx⟩ := List.exists_cons_of_ne_nil hretry
    exact Option.isSome_iff_exists.mp (hx ▸ firstHit_cons_isSome x xs)
  unfold parityRetry
  extract_lets t again bad good frozen repeated counted
  rw [hfirst]
  have hrepeated : (tile repeated n).retry = [] := by
    rw [tile_setTile, if_pos rfl]
  have hcounted : KeepsRun repeated counted :=
    .foldl (.refl repeated) fun y _ => .of_tiles (bump_tiles y _ _ _ _)
  suffices hkept : KeepsRun repeated _ from (hkept.retry n).trans hrepeated
  dsimp only
  split
  · exact (hcounted.congr (logParity_tiles _ _ _ _ _)).congr (bump_tiles _ _ _ _ _)
  · exact hcounted.trans (parityLasting_keepsRun _ _ _ _)

/-! ### Results (R45, R67) -/

theorem resultLand_of_fetching (f : Act → Bool) (hrun : (tile s n).runState = 2)
    (hretry : (tile s n).retry = []) (hreads : (tile s n).readsBad = false)
    (hfetch : (tile s n).fetchEnd = false) :
    resultLand s n f = setTile s n (comeAbout (tile s n) (fun p => f p.act &&
      (p.due < (tile s n).cyc || (p.due == (tile s n).cyc && !p.act.isRow)))) := by
  simp [resultLand, hrun, hretry, hreads, hfetch]

/-- A row due in the present cycle lands as that cycle ends, so only rows due before it land here
(R52). -/
theorem arrayResultLand_of_fetching (hrun : (tile s n).runState = 2)
    (hretry : (tile s n).retry = []) (hreads : (tile s n).readsBad = false)
    (hfetch : (tile s n).fetchEnd = false) :
    resultLand s n Act.isRow = setTile s n (comeAbout (tile s n)
      (fun p => p.act.isRow && p.due < (tile s n).cyc)) := by
  rw [resultLand_of_fetching _ hrun hretry hreads hfetch]
  congr 2
  funext p
  cases p.act.isRow <;> simp

/-! ### The end of a tile (R89, R91, R110) -/

theorem trapSettled_runState (hrun : (tile s n).runState = 2) (htrap : (tile s n).trapping = true)
    (hretry : (tile s n).retry = []) (hreads : (tile s n).readsBad = false)
    (hquiet : tileQuiet (settle (tile s n)) = true) :
    (tile (trapSettled s n) n).runState = 4 := by
  unfold trapSettled
  extract_lets t settled landed trapped logged
  rw [if_neg (by simp [t, hrun, htrap, hretry, hreads]), if_neg (by simp [settled, t, hquiet])]
  have hlogged : KeepsRun trapped logged := .ite (.refl _) (.of_tiles (lastErr_tiles _ _ _))
  have hended := (hlogged.raise (tileP n) 0).trans (endOfTile_keepsRun _ n)
  rw [hended.runState n, tile_setTile, if_pos rfl]

theorem tileComplete_runState (hrun : (tile s n).runState = 2) (hfetch : (tile s n).fetchEnd = true)
    (htrap : (tile s n).trapping = false) (hretry : (tile s n).retry = [])
    (hreads : (tile s n).readsBad = false) (hdone : tileDone (settle (tile s n)) = true) :
    (tile (tileComplete s n) n).runState = 3 := by
  unfold tileComplete
  extract_lets t settled landed
  rw [if_neg (by simp [t, hrun, hfetch, htrap, hretry, hreads]), if_pos hdone]
  have hended := ((KeepsRun.refl (setTile landed n { settled with runState := 3, fetchEnd := false })
    ).raise (tileP n) 1).trans (endOfTile_keepsRun _ n)
  rw [hended.runState n, tile_setTile, if_pos rfl]

theorem slipTimeout_of_slipRuns {d : Nat} {j : Job} {k : Nat} {im : Image} {as : List Nat} {b : Bool}
    {en : SMap (Nat × Nat)} (hlaunch : launchOf s n = some (d, j))
    (hwork : j.work = .launch k im as b en) (hlimit : im.slipUs ≠ 0)
    (hrun : (tile s n).runState = 2) (hslip : slipRuns (tile s n) = true) :
    slipTimeout s n = abortColls (endLaunch s d j stSlipTimeout n) d (some k) := by
  simp [slipTimeout, hlaunch, hwork, hlimit, hrun, hslip, launchSlot]

/-- Settles O17, clause by clause: what a cycle of the tile does, then how the tile ends. -/
theorem tileCyclesRun : Obligations.TileCyclesRun := by
  refine ⟨?issue, ?drain, ?wait, ?pace, ?paceEnd, ?retry, ?register, ?array, ?trap, ?complete,
    ?slip⟩
  case issue =>
    intro s t e hready hhold hfetch
    exact congrArg Host.Outcome.next (bundleIssue_of_fetching hready hhold hfetch)
  case drain =>
    intro s t e hready hhold hfetch
    exact congrArg Host.Outcome.next (bundleIssue_of_fetchEnd hready hhold hfetch)
  case wait =>
    intro s t e h hready hhold
    exact congrArg Host.Outcome.next (waitRelease_of_hold hready hhold)
  case pace =>
    intro s t hrun hretry hpace hfetch
    have hcycle := pacingCycle_of_pacing hrun hretry hpace
    rw [if_neg (by simp [hfetch])] at hcycle
    exact congrArg Host.Outcome.next hcycle
  case paceEnd =>
    intro s t hrun hretry hpace hfetch
    have hcycle := pacingCycle_of_pacing hrun hretry hpace
    rw [if_pos hfetch] at hcycle
    exact congrArg Host.Outcome.next hcycle
  case retry =>
    intro s t l hretry
    exact ⟨parityRetry s t l, rfl, rfl, parityRetry_retry l hretry⟩
  case register =>
    intro s t hrun hretry hreads hfetch
    exact congrArg Host.Outcome.next (resultLand_of_fetching _ hrun hretry hreads hfetch)
  case array =>
    intro s t hrun hretry hreads hfetch
    exact congrArg Host.Outcome.next (arrayResultLand_of_fetching hrun hretry hreads hfetch)
  case trap =>
    intro s t hrun htrap hretry hreads hquiet
    exact ⟨trapSettled s t, rfl, trapSettled_runState hrun htrap hretry hreads hquiet⟩
  case complete =>
    intro s t hrun hfetch htrap hretry hreads hdone
    exact ⟨tileComplete s t, rfl, tileComplete_runState hrun hfetch htrap hretry hreads hdone⟩
  case slip =>
    intro s t d j k im as b en hlaunch hwork hlimit hrun hslip
    exact congrArg Host.Outcome.next (slipTimeout_of_slipRuns hlaunch hwork hlimit hrun hslip)

end Sys2Proof.Proofs
end

section
/-!
PROOF. Writes to a tile's `TILE` and `MOVER` pages (R62, R93, R94, R298, R340): which of the
effects of a soft reset and of a write of the mover's registers the state of the tile selects.
-/
open Sys2Proof Sys2Proof.Machine Sys2Proof.Safety Sys2Proof.Laws
namespace Sys2Proof.Proofs

variable {s : State} {n : Nat}

/-! ### The soft reset of a mover (R94, R298) -/

theorem moverSoft_of_running (hrun : (tile s n).runState = 2) : moverSoft s n = s := if_pos hrun

theorem moverSoft_of_moving (hrun : (tile s n).runState ≠ 2)
    (hstate : rd s (moverP n) HDR_STATE = 1 ∨ rd s (moverP n) HDR_STATE = 3) :
    moverSoft s n = { s with resetWaits := SMap.put s.resetWaits (moverP n).base 1 } := by
  simp [moverSoft, resetOrWait, hrun, hstate]

theorem moverSoft_of_resting (hrun : (tile s n).runState ≠ 2)
    (hstarts : rd s (moverP n) HDR_STATE ≠ 1) (hdrains : rd s (moverP n) HDR_STATE ≠ 3) :
    moverSoft s n = clearFields (clearMover s n) (moverP n) [HDR_INT_RAW] := by
  simp [moverSoft, resetOrWait, moverReset, hrun, hstarts, hdrains]

/-! ### The mover's registers (R93) -/

theorem moverConfig_route {req r v : Nat}
    (hwrite : writeError s req (moverP n) (0x800 + 8 * r) = some 0)
    (hrun : (tile s n).runState ≠ 2) :
    moverConfig s req n (some r) v
      = setTile s n { tile s n with routes := SMap.put (tile s n).routes r (routeKept v) } := by
  simp [moverConfig, hwrite, hrun]

theorem moverConfig_qMesh {req v : Nat} (hwrite : writeError s req (moverP n) 0x124 = some 0)
    (hrun : (tile s n).runState ≠ 2) :
    moverConfig s req n none v = setTile s n { tile s n with qMesh := v % 2 ^ 16 } := by
  simp [moverConfig, hwrite, hrun]

theorem moverConfig_of_running {req v : Nat} (hwrite : writeError s req (moverP n) 0x124 = some 0)
    (hrun : (tile s n).runState = 2) :
    moverConfig s req n none v = regRefused s req ((moverP n).base + 0x124) errBusy true := by
  simp [moverConfig, hwrite, hrun]

/-- Settles O18: a write that is taken does what its register does, and the run state and `STATE`
choose among the mover's cases. -/
theorem tilePageWrites : Obligations.TilePageWrites := by
  refine ⟨?tileReset, ?cleared, ?running, ?waits, ?route, ?qMesh, ?busy⟩
  case tileReset =>
    intro s req t hw
    exact congrArg Host.Outcome.next (fieldWrite_of_takesWrite hw _)
  case cleared =>
    intro s req t hw hstarts hdrains hrun
    exact congrArg Host.Outcome.next
      ((fieldWrite_of_takesWrite hw _).trans (moverSoft_of_resting hrun hstarts hdrains))
  case running =>
    intro s req t hw hrun
    exact congrArg Host.Outcome.next
      ((fieldWrite_of_takesWrite hw _).trans (moverSoft_of_running hrun))
  case waits =>
    intro s req t hw hstate hrun
    exact congrArg Host.Outcome.next
      ((fieldWrite_of_takesWrite hw _).trans (moverSoft_of_moving hrun hstate))
  case route =>
    intro s req t r v hwrite hrun
    exact congrArg Host.Outcome.next (moverConfig_route hwrite hrun)
  case qMesh =>
    intro s req t v hwrite hrun
    exact congrArg Host.Outcome.next (moverConfig_qMesh hwrite hrun)
  case busy =>
    intro s req t v hwrite hrun
    exact congrArg Host.Outcome.next (moverConfig_of_running hwrite hrun)

end Sys2Proof.Proofs
end

section
/-!
PROOF. How the commands of the ring that take time end (R115, R251, R254, R255): the row that ends
one finds its job among those that run, by sequence number or as the one of its kind.
-/
open Sys2Proof Sys2Proof.Machine Sys2Proof.Safety Sys2Proof.Laws
namespace Sys2Proof.Proofs

variable {s : State} {j : Job}

theorem endRow_of_jobOf {d q : Nat} (hjob : jobOf s d q = some j) (f : Bool)
    (act : State → Job → State) :
    endRow s d q f act = withRefuse s d f (fun s => act s j) := by
  simp [endRow, hjob]

theorem execWaitEventTimeout_of_jobWithOp {d : DistId} (hjob : jobWithOp s d 6 = some j)
    (f : Bool) :
    execWaitEventTimeout d f s = .next (withRefuse s d f (fun s => waitTimeout s d j)) := by
  simp [execWaitEventTimeout, hjob]

theorem execRespareDone_of_jobWithOp {d : DistId} (hjob : jobWithOp s d 0x0A = some j)
    (fails : BitVec 32) (f : Bool) :
    execRespareDone d fails f s
      = .next (withRefuse s d f (fun s => respareEnd s d j fails.toNat)) := by
  simp [execRespareDone, hjob]

/-- Settles O29: memory commands and image loads find their job by its sequence number, WAIT_EVENT
and RESPARE, which run alone, by their opcode. -/
theorem ringCommandsEnd : Obligations.RingCommandsEnd := by
  refine ⟨?moved, ?loaded, ?timedOut, ?respared⟩
  case moved =>
    intro s d q j b n e f hjob
    exact congrArg Host.Outcome.next (endRow_of_jobOf hjob f _)
  case loaded =>
    intro s d q j b f hjob
    exact congrArg Host.Outcome.next (endRow_of_jobOf hjob f _)
  case timedOut =>
    intro s d j f hjob
    exact execWaitEventTimeout_of_jobWithOp hjob f
  case respared =>
    intro s d j x f hjob
    exact execRespareDone_of_jobWithOp hjob x f

end Sys2Proof.Proofs
end

section
/-!
SUPPORT. Bits of a word, where the fields of a slice's page stand, and what they read as after counts
and reports (R137, R138, R292).
-/
open Sys2Proof Sys2Proof.Machine Sys2Proof.Safety Sys2Proof.Laws
namespace Sys2Proof.Proofs

/-! ### Where the fields of a page stand -/

/-- The first entries of two fields of one page stand apart where their places in the page differ. -/
theorem fkey_ne_of_place (p : PageId) {f g : Fld} (h : 8 * f.off + f.lo ≠ 8 * g.off + g.lo) :
    fkey p f 0 ≠ fkey p g 0 := by
  simp only [fkey, Nat.zero_div, Nat.zero_mod, Nat.zero_mul]
  omega

/-- `IN_SERVICE` stands in the page `PLAZA`, below every page of a slice (R334). -/
theorem slice_fkey_ne_inService (n : Nat) (f : Fld) :
    ∀ d ∈ List.range 4, fkey (sliceP n) f 0 ≠ fkey plazaP PLAZA_IN_SERVICE d := by
  intro d hd
  have hlt : d < 4 := List.mem_range.mp hd
  simp only [fkey, sliceP, plazaP, PageId.base, PLAZA_IN_SERVICE]
  omega

theorem slice_fkey_not_mem_raiseKeys (n : Nat) {f : Fld}
    (h : 8 * f.off + f.lo ≠ 8 * HDR_INT_RAW.off + HDR_INT_RAW.lo) :
    fkey (sliceP n) f 0 ∉ raiseKeys (sliceP n) := by
  simp only [raiseKeys, List.mem_cons, List.mem_map, not_or, not_exists, not_and]
  exact ⟨fkey_ne_of_place _ h, fun d hd => (slice_fkey_ne_inService n f d hd).symm⟩

/-! ### Bits -/

theorem bitOf_eq_testBit (v i : Nat) : bitOf v i = v.testBit i := by
  rw [Nat.testBit_eq_decide_div_mod_eq]
  rfl

/-- A power of two added to a number without that bit carries nowhere. -/
theorem testBit_add_two_pow {v i : Nat} (h : v.testBit i = false) (j : Nat) :
    (v + 2 ^ i).testBit j = (decide (j = i) || v.testBit j) := by
  induction i generalizing v j with
  | zero =>
    have heven : v % 2 = 0 := by simpa using h
    cases j with
    | zero => simp [Nat.testBit_zero]; omega
    | succ j => simp [Nat.testBit_succ, show (v + 1) / 2 = v / 2 by omega]
  | succ i ih =>
    rw [Nat.testBit_succ] at h
    have hhalf : (v + 2 ^ (i + 1)) / 2 = v / 2 + 2 ^ i := by omega
    cases j with
    | zero => simp [Nat.testBit_zero, Nat.pow_succ]
    | succ j => simp [Nat.testBit_succ, hhalf, ih h]

@[simp] theorem bitOf_setBit (v i j : Nat) : bitOf (setBit v i) j = (decide (j = i) || bitOf v j) := by
  unfold setBit
  split
  next hset =>
    by_cases hj : j = i
    · simp [hj, hset]
    · simp [hj]
  next hclear =>
    simp only [bitOf_eq_testBit, Bool.not_eq_true] at hclear ⊢
    exact testBit_add_two_pow hclear j

theorem bitOf_mod_two_pow {v w i : Nat} (h : i < w) : bitOf (v % 2 ^ w) i = bitOf v i := by
  simp [bitOf_eq_testBit, Nat.testBit_mod_two_pow, h]

/-! ### Register fields of a slice -/

namespace ReadsAs

variable {p : PageId} {f : Fld} {i x : Nat} {s t : State}

/-- What a field reads as is where its chain begins. -/
theorem self (h : regsOk s = true) (p : PageId) (f : Fld) (i : Nat) :
    ReadsAs p f i (rd s p f i) s := ⟨h, rfl⟩

theorem bump_of_ne (h : ReadsAs p f i x t) {q : PageId} {g : Fld} (n j : Nat)
    (hne : fkey p f i ≠ fkey q g j) : ReadsAs p f i x (bump t q g n j) := h.wr_of_ne _ hne

/-- A counter counts, up to what its field holds (R292). -/
theorem bumped (h : ReadsAs p f i x t) (n : Nat) :
    ReadsAs p f i (min (2 ^ f.wid - 1) (x + n)) (bump t p f n i) := by
  have hfits : min (2 ^ f.wid - 1) (x + n) < 2 ^ f.wid := by
    have := Nat.two_pow_pos f.wid
    omega
  obtain ⟨hok, rfl⟩ := h
  exact .written hok hfits

theorem bump64 (h : ReadsAs p f i x t) {q : PageId} {lo hi : Fld} (n : Nat)
    (hlo : fkey p f i ≠ fkey q lo 0) (hhi : fkey p f i ≠ fkey q hi 0) :
    ReadsAs p f i x (bump64 t q lo hi n) := (h.wr_of_ne _ hlo).wr_of_ne _ hhi

theorem logErr (h : ReadsAs p f i x t) {q : PageId} (code lo hi synd : Nat)
    (hcode : fkey p f i ≠ fkey q HDR_LAST_ERR 0) (hlo : fkey p f i ≠ fkey q HDR_ERR_ADDR_LO 0)
    (hhi : fkey p f i ≠ fkey q HDR_ERR_ADDR_HI 0) (hsynd : fkey p f i ≠ fkey q HDR_ERR_SYNDROME 0) :
    ReadsAs p f i x (logErr t q code lo hi synd) :=
  (((h.wr_of_ne _ hcode).wr_of_ne _ hlo).wr_of_ne _ hhi).wr_of_ne _ hsynd

end ReadsAs

end Sys2Proof.Proofs
end

section
/-!
SUPPORT. What reaches a slice controller: a request that is refused, held or acted on (R23, R143),
and what the read of a sector gives (R127, R128, R130).
-/
open Sys2Proof Sys2Proof.Machine Sys2Proof.Safety Sys2Proof.Laws
namespace Sys2Proof.Proofs

variable {s : State} {n sec : Nat} {m : Option SectorErr}

/-! ### Requests (R23, R143) -/

/-- A request that no check refuses and that finds the slice in controller mode is acted on. -/
theorem sliceRequest_of_served {d n : Nat} (off : Nat) (act : State → State)
    (herror : tileError s d n = 0) (hlives : sliceLives s n = true) (hbusy : sliceBusy s n = false)
    (hholds : sliceHolds s n = false) : sliceRequest s d n off act = act s := by
  simp [sliceRequest, herror, hlives, hbusy, hholds]

/-- A request is acted on, held, in which case nothing happens yet, or refused. -/
theorem sliceRequest_induction {P : State → Prop} {d n off : Nat} {act : State → State}
    (hheld : P s) (hrefused : ∀ a e, P (refuse s d a e)) (hact : P (act s)) :
    P (sliceRequest s d n off act) := by
  unfold sliceRequest
  extract_lets a e
  split
  · split
    · exact hrefused _ _
    · exact hheld
  · split
    · exact hheld
    · split
      · exact hrefused _ _
      · split
        · exact hheld
        · exact hact

theorem exec_sliceRead_of_served {t : TileId} {d : DistId} {k : SectorId}
    (herror : tileError s d t = 0) (hlives : sliceLives s t = true)
    (hbusy : sliceBusy s t = false) (hholds : sliceHolds s t = false)
    (hahead : narrowAhead (slice s t) k = false) (q : Fin 4) (e : Option SectorErr) :
    exec (.sliceRead t d k q e) s = .next (sliceSector s t k q e).1 := by
  change execSliceRead t d k q e s = _
  simp [execSliceRead, sliceRequest_of_served _ _ herror hlives hbusy hholds, hahead]

theorem exec_sliceWrite_of_served {t : TileId} {d : DistId} {b : List Byte} (hlen : b.length = 32)
    (herror : tileError s d t = 0) (hlives : sliceLives s t = true)
    (hbusy : sliceBusy s t = false) (hholds : sliceHolds s t = false) (k : SectorId) :
    exec (.sliceWrite t d k b) s = .next (pollHost (sliceWriteSector s t k b)) := by
  change execSliceWrite t d k b s = _
  simp [execSliceWrite, sliceRequest_of_served _ _ herror hlives hbusy hholds, hlen]

/-- A narrow write of 1 to 31 bytes within one sector is a request; any other is malformed (R128). -/
theorem exec_narrowWrite (s : State) (t : TileId) (d : DistId) (k : SectorId) (lo : Fin 32)
    (b : List Byte) :
    exec (.narrowWrite t d k lo b) s =
      if 0 < b.length ∧ b.length ≤ 31 ∧ lo.val + b.length ≤ 32 then
        .next (sliceRequest s d t (32 * k.val + lo.val) (fun s => gather s t ⟨k, lo, b, none⟩))
      else .fault (.malformed "NARROW_WRITE") := by
  change execNarrowWrite t d k lo b s = _
  unfold execNarrowWrite
  by_cases hfits : 0 < b.length ∧ b.length ≤ 31 ∧ lo.val + b.length ≤ 32
  · rw [if_pos hfits, if_neg]
    simp only [Bool.or_eq_true, decide_eq_true_eq]
    omega
  · rw [if_neg hfits, if_pos]
    simp only [Bool.or_eq_true, decide_eq_true_eq]
    omega

/-! ### Reads of a sector (R127, R128, R130) -/

/-- A read first flushes the entry of the merge buffer for its sector (R128). -/
theorem sliceSector_eq_readSector (s : State) (n sec q : Nat) (e : Option SectorErr) :
    sliceSector s n sec q e
      = readSector (flushedFor s n sec e) n sec q (metAfter s n sec e) := by
  unfold sliceSector flushedFor metAfter
  cases mergeOf (slice s n) sec with
  | none => rfl
  | some y => by_cases hmask : y.mask = 2 ^ 32 - 1 <;> simp [hmask]

/-- Two reads in a row that find more than the code corrects deliver nothing. -/
theorem checkedRead_of_uncorrectable {x : Slice} {e : SectorErr}
    (hmeets : (SMap.find x.lasting sec).elim m (fun p => some { first := p, second := p }) = some e)
    (hfirst : (decodeRead (secWord x sec) e.first).1 = .uncorrectable)
    (hsecond : (decodeRead (secWord x sec) e.second).2 = none) :
    (checkedRead x sec m).2.2.1 = none := by
  simp [checkedRead, hmeets, hfirst, hsecond]

theorem readSector_bad_of_no_data (h : (checkedRead (slice s n) sec m).2.2.1 = none) (q : Nat) :
    (readSector s n sec q m).2 = .bad := by
  have hcounted : (checkedRead (slice (bump64 s (sliceP n) SLICE_RD_SECTORS_LO
      SLICE_RD_SECTORS_HI) n) sec m).2.2.1 = none := h
  unfold readSector controllerRead
  dsimp only
  split
  · rfl
  · rw [hcounted]

end Sys2Proof.Proofs
end

section
/-!
PROOF. The commands of a slice (R123, R126 to R128, R132, R134, R135, R137, R340): what each does
where its conditions hold.
-/
open Sys2Proof Sys2Proof.Machine Sys2Proof.Safety Sys2Proof.Laws
namespace Sys2Proof.Proofs

variable {s : State}

/-! ### The merge buffer, refresh and the scrubber (R128, R132, R135) -/

theorem mergeFlush_of_flush {n k : Nat} {m : Merge} (hmerge : mergeOf (slice s n) k = some m)
    (hflush : m.flush = true) (e : Option SectorErr) : mergeFlush s n k e = flushSector s n k e := by
  simp [mergeFlush, hmerge, hflush]

theorem sliceSoft_of_controller {n : Nat} (hmode : (slice s n).mode = 0) (e : SectorErrs) :
    sliceSoft s n e = clearFields (flushAll s n e (flushSteps (slice s n))) (sliceP n)
      [SLICE_RD_SECTORS_LO, SLICE_RD_SECTORS_HI, SLICE_WR_SECTORS_LO, SLICE_WR_SECTORS_HI,
        SLICE_RMW_LO, SLICE_RMW_HI, SLICE_REFRESH_OPS_LO, SLICE_REFRESH_OPS_HI, HDR_INT_RAW] :=
  if_neg (not_not_intro hmode)

theorem sliceSoft_of_engine {n : Nat} (hmode : (slice s n).mode ≠ 0) (e : SectorErrs) :
    sliceSoft s n e = s := if_pos hmode

/-- Settles O20: each command finds its conditions met, and a write of `SOFT_RESET` that is taken acts by
the slice's mode. -/
theorem sliceCommands : Obligations.SliceCommands := by
  refine ⟨?read, ?write, ?narrow, ?aged, ?flush, ?refresh, ?scrub, ?reset, ?engine⟩
  case read =>
    intro s t d k q e herror hlives hbusy hholds hahead
    exact exec_sliceRead_of_served herror hlives hbusy hholds hahead q e
  case write =>
    intro s t d k b hlen herror hlives hbusy hholds
    exact exec_sliceWrite_of_served hlen herror hlives hbusy hholds k
  case narrow =>
    intro s t d k lo b hpos hshort hfits herror hlives hbusy hholds
    rw [exec_narrowWrite, if_pos ⟨hpos, hshort, hfits⟩,
      sliceRequest_of_served _ _ herror hlives hbusy hholds]
  case aged =>
    intro s t k hlives _
    exact congrArg Host.Outcome.next (if_pos hlives)
  case flush =>
    intro s t k e m hlives hmerge hflush
    exact congrArg Host.Outcome.next
      ((if_pos hlives).trans (congrArg pollHost (mergeFlush_of_flush hmerge hflush e)))
  case refresh =>
    intro s t hlives hmode hport
    exact congrArg Host.Outcome.next (if_pos (by simp [hlives, hmode, hport]))
  case scrub =>
    intro s t e hlives hen hmode hahead
    exact congrArg Host.Outcome.next (if_pos (by simp [hlives, hen, hmode, hahead]))
  case reset =>
    intro s req t e hw hmode
    exact congrArg Host.Outcome.next
      ((fieldWrite_of_takesWrite hw _).trans (sliceSoft_of_controller hmode e))
  case engine =>
    intro s req t e hw hmode
    exact congrArg Host.Outcome.next
      ((fieldWrite_of_takesWrite hw _).trans (sliceSoft_of_engine hmode e))

end Sys2Proof.Proofs
end

section
/-!
PROOF. The read of an unwritten sector (R127): it is counted, logged and reported, and it is not read
again.
-/
open Sys2Proof Sys2Proof.Machine Sys2Proof.Safety Sys2Proof.Laws
namespace Sys2Proof.Proofs

variable {s : State} {n sec : Nat} {m : Option SectorErr}

/-- The state in which an unwritten sector's read is counted, before it is logged. -/
def countedUnwritten (s : State) (n : Nat) : State :=
  bump (bump64 s (sliceP n) SLICE_RD_SECTORS_LO SLICE_RD_SECTORS_HI) (sliceP n)
    SLICE_UNWRITTEN_READS

/-- The state after that read: its sector logged with bit 31 of the syndrome, and reported (R127). -/
def loggedUnwritten (s : State) (n sec q : Nat) : State :=
  raise (logSector (countedUnwritten s n) n 4 sec q (2 ^ 31)) (sliceP n) 0

theorem readSector_of_unwritten (h : readsWritten (slice s n) sec m = false) (q : Nat) :
    readSector s n sec q m = (loggedUnwritten s n sec q, .bad) := by
  have hunwritten : readsWritten (slice (bump64 s (sliceP n) SLICE_RD_SECTORS_LO
      SLICE_RD_SECTORS_HI) n) sec m = false := h
  simp [readSector, controllerRead, hunwritten, loggedUnwritten, countedUnwritten]

/-! ### What the read is counted and reported as -/

/-- The log of the read and the interrupt that reports it leave every other field of the page. -/
theorem loggedUnwritten_readsAs {f : Fld} {x q : Nat}
    (h : ReadsAs (sliceP n) f 0 x (countedUnwritten s n))
    (hcode : 8 * f.off + f.lo ≠ 8 * HDR_LAST_ERR.off + HDR_LAST_ERR.lo)
    (hlo : 8 * f.off + f.lo ≠ 8 * HDR_ERR_ADDR_LO.off + HDR_ERR_ADDR_LO.lo)
    (hhi : 8 * f.off + f.lo ≠ 8 * HDR_ERR_ADDR_HI.off + HDR_ERR_ADDR_HI.lo)
    (hsynd : 8 * f.off + f.lo ≠ 8 * HDR_ERR_SYNDROME.off + HDR_ERR_SYNDROME.lo)
    (hraw : 8 * f.off + f.lo ≠ 8 * HDR_INT_RAW.off + HDR_INT_RAW.lo) :
    ReadsAs (sliceP n) f 0 x (loggedUnwritten s n sec q) :=
  (h.logErr 4 _ _ _ (fkey_ne_of_place _ hcode) (fkey_ne_of_place _ hlo) (fkey_ne_of_place _ hhi)
    (fkey_ne_of_place _ hsynd)).raise 0 (slice_fkey_not_mem_raiseKeys n hraw)

theorem regsOk_countedUnwritten (h : regsOk s = true) (n : Nat) :
    regsOk (countedUnwritten s n) = true :=
  (bump_kept _ _ _ _ _ (bump64_kept _ _ _ _ _ (Kept.refl s))).regs h

theorem loggedUnwritten_count (h : regsOk s = true) (n sec q : Nat) :
    rd (loggedUnwritten s n sec q) (sliceP n) SLICE_UNWRITTEN_READS
      = min (2 ^ 32 - 1) (rd s (sliceP n) SLICE_UNWRITTEN_READS + 1) := by
  have hcounted : ReadsAs (sliceP n) SLICE_UNWRITTEN_READS 0 _ (countedUnwritten s n) :=
    ((ReadsAs.self h _ _ _).bump64 1 (fkey_ne_of_place _ (by decide))
      (fkey_ne_of_place _ (by decide))).bumped 1
  exact (loggedUnwritten_readsAs hcounted (by decide) (by decide) (by decide) (by decide)
    (by decide)).val

/-- An unwritten sector is not read again (R127). -/
theorem loggedUnwritten_retryCount (h : regsOk s = true) (n sec q : Nat) :
    rd (loggedUnwritten s n sec q) (sliceP n) HDR_ERR_RETRY_COUNT
      = rd s (sliceP n) HDR_ERR_RETRY_COUNT := by
  have hcounted : ReadsAs (sliceP n) HDR_ERR_RETRY_COUNT 0 _ (countedUnwritten s n) :=
    ((ReadsAs.self h _ _ _).bump64 1 (fkey_ne_of_place _ (by decide))
      (fkey_ne_of_place _ (by decide))).bump_of_ne 1 0 (fkey_ne_of_place _ (by decide))
  exact (loggedUnwritten_readsAs hcounted (by decide) (by decide) (by decide) (by decide)
    (by decide)).val

theorem loggedUnwritten_syndrome (h : regsOk s = true) (n sec q : Nat) :
    rd (loggedUnwritten s n sec q) (sliceP n) HDR_ERR_SYNDROME = 2 ^ 31 := by
  have hwritten : ReadsAs (sliceP n) HDR_ERR_SYNDROME 0 (2 ^ 31)
      (logSector (countedUnwritten s n) n 4 sec q (2 ^ 31)) :=
    .written ((wr_kept (wr_kept (wr_kept (.refl _) _ _ _ _) _ _ _ _) _ _ _ _).regs
      (regsOk_countedUnwritten h n)) (by decide)
  exact (hwritten.raise 0 (slice_fkey_not_mem_raiseKeys n (by decide))).val

/-- An interrupt that a page of a slice raises stands in its `INT_RAW` (R341). -/
theorem bitOf_intRaw_raise (h : regsOk s = true) (n : Nat) {b : Nat} (hb : b < HDR_INT_RAW.wid) :
    bitOf (rd (raise s (sliceP n) b) (sliceP n) HDR_INT_RAW) b = true := by
  have hwritten : ReadsAs (sliceP n) HDR_INT_RAW 0 _
      (wr s (sliceP n) HDR_INT_RAW (setBit (rd s (sliceP n) HDR_INT_RAW) b)) :=
    .self ((wr_kept (.refl s) _ _ _ _).regs h) _ _ _
  have hraised := (hwritten.deliver (slice_fkey_ne_inService n HDR_INT_RAW)).val
  rw [raise, hraised, rd_wr_same (keysFrom_of_regsOk h), bitOf_mod_two_pow hb, bitOf_setBit]
  simp

/-- Settles O43: the entry of the merge buffer flushes first, and the read then finds the flag clear, which
is decided before the decoder sees the sector. -/
theorem unwrittenReadIsAnError : Obligations.UnwrittenReadIsAnError := by
  intro s k d x q e herror hlives hbusy hholds hahead hok hunwritten
  have hread : sliceSector s k x q e = (loggedUnwritten (flushedFor s k x e) k x q, .bad) :=
    (sliceSector_eq_readSector s k x q e).trans (readSector_of_unwritten hunwritten q)
  refine ⟨loggedUnwritten (flushedFor s k x e) k x q, ?next, congrArg Prod.snd hread, ?lasting,
    ?syndrome, loggedUnwritten_count hok k x q, loggedUnwritten_retryCount hok k x q, ?interrupt⟩
  case next =>
    exact (exec_sliceRead_of_served herror hlives hbusy hholds hahead q e).trans (by rw [hread])
  case lasting =>
    intro u r hnone hfirst hsecond
    exact readSector_bad_of_no_data
      (checkedRead_of_uncorrectable (by rw [hnone]; rfl) hfirst hsecond) q
  case syndrome =>
    rw [loggedUnwritten_syndrome hok]
    decide
  case interrupt =>
    have hlogged : regsOk (logSector (countedUnwritten (flushedFor s k x e) k) k 4 x q (2 ^ 31))
        = true :=
      (logSector_kept _ _ _ _ _ _ (.refl _)).regs (regsOk_countedUnwritten hok k)
    exact bitOf_intRaw_raise hlogged k (by decide)

end Sys2Proof.Proofs
end

section
/-!
SUPPORT. What changes no slice and no tile, and lets no host access go on: refusals and reports (R23,
R341), completions of commands (R248, R252, R258), and what is looked at again after a write to a
slice where no host access waits (R247).
-/
open Sys2Proof Sys2Proof.Machine Sys2Proof.Safety Sys2Proof.Laws
namespace Sys2Proof.Proofs

/-! ### Completions and reports change no slice -/

/-- From `s` to `x`, no slice and no tile changes, nor the host accesses that wait. -/
structure KeepsStores (s x : State) : Prop where
  slices : x.slices = s.slices
  tiles : x.tiles = s.tiles
  hostHeld : x.hostHeld = s.hostHeld

namespace KeepsStores

variable {s x y : State}

theorem refl (s : State) : KeepsStores s s := ⟨rfl, rfl, rfl⟩

theorem trans (h : KeepsStores s x) (k : KeepsStores x y) : KeepsStores s y :=
  ⟨k.slices.trans h.slices, k.tiles.trans h.tiles, k.hostHeld.trans h.hostHeld⟩

theorem ite {c : Prop} [Decidable c] (hx : KeepsStores s x) (hy : KeepsStores s y) :
    KeepsStores s (if c then x else y) := by
  split
  · exact hx
  · exact hy

theorem foldl {α : Type} {f : State → α → State} (l : List α) (h : KeepsStores s x)
    (hf : ∀ y a, KeepsStores y (f y a)) : KeepsStores s (l.foldl f x) :=
  List.foldlRecOn (motive := KeepsStores s) l f h fun _ hy a _ => hy.trans (hf _ a)

theorem wr (h : KeepsStores s x) (p : PageId) (f : Fld) (v i : Nat) : KeepsStores s (wr x p f v i) :=
  ⟨h.slices, h.tiles, h.hostHeld⟩

theorem bump (h : KeepsStores s x) (p : PageId) (f : Fld) (n i : Nat) :
    KeepsStores s (bump x p f n i) := h.wr _ _ _ _

theorem lastErr (h : KeepsStores s x) (p : PageId) (code : Nat) : KeepsStores s (lastErr x p code) :=
  h.wr _ _ _ _

theorem logErr (h : KeepsStores s x) (p : PageId) (code lo hi synd : Nat) :
    KeepsStores s (logErr x p code lo hi synd) :=
  (((h.wr _ _ _ _).wr _ _ _ _).wr _ _ _ _).wr _ _ _ _

theorem emit (h : KeepsStores s x) (o : Out) : KeepsStores s (emit x o) :=
  ⟨h.slices, h.tiles, h.hostHeld⟩

theorem setProc (h : KeepsStores s x) (d : Nat) (p : Proc) : KeepsStores s (setProc x d p) :=
  ⟨h.slices, h.tiles, h.hostHeld⟩

theorem sendVector (h : KeepsStores s x) (d v : Nat) : KeepsStores s (sendVector x d v) :=
  .ite (.ite (h.emit _) ((h.emit _).wr _ _ _ _)) ⟨h.slices, h.tiles, h.hostHeld⟩

theorem deliver1 (h : KeepsStores s x) (d v : Nat) : KeepsStores s (deliver1 x d v) :=
  .ite (h.sendVector d v) h

theorem deliver (h : KeepsStores s x) : KeepsStores s (deliver x) :=
  foldl [2, 3, 4] h fun y v => foldl (List.range 4) (refl y) fun z d => (refl z).deliver1 d v

theorem raise (h : KeepsStores s x) (p : PageId) (b : Nat) : KeepsStores s (raise x p b) := by
  unfold Machine.raise
  exact (h.wr _ _ _ _).deliver

theorem refuse (h : KeepsStores s x) (d a code : Nat) : KeepsStores s (refuse x d a code) := by
  unfold Machine.refuse
  extract_lets counted logged
  have hcounted : KeepsStores s counted :=
    .ite (h.bump _ _ _ _) (.ite (h.bump _ _ _ _) (.ite (h.bump _ _ _ _) h))
  have hlogged : KeepsStores s logged := .ite hcounted (hcounted.logErr _ _ _ _ _)
  have hheld : KeepsStores s { logged with refusalHeld := true } :=
    ⟨hlogged.slices, hlogged.tiles, hlogged.hostHeld⟩
  exact hheld.raise _ _

theorem brokenOff (h : KeepsStores s x) (d : Nat) : KeepsStores s (brokenOff x d) :=
  .ite (h.wr _ _ _ _) h

theorem moderate (h : KeepsStores s x) (d : Nat) (irq : Bool) : KeepsStores s (moderate x d irq) :=
  .ite ((h.setProc _ _).sendVector _ _) (h.setProc _ _)

theorem writeEntry (h : KeepsStores s x) (d : Nat) (e : CplEntry) :
    KeepsStores s (writeEntry x d e) := by
  unfold Machine.writeEntry
  extract_lets p q i a refused bytes j written phased raised full
  have hrefused : KeepsStores s refused := ((h.lastErr _ _).raise _ _).setProc _ _
  have hphased : KeepsStores s phased := .ite (((h.wr _ _ _ _).emit _).setProc _ _)
    ((h.wr _ _ _ _).emit _)
  have hfull : KeepsStores s full := .ite ((hphased.raise _ _).raise _ _) (hphased.raise _ _)
  exact .ite (((hrefused.logErr _ _ _ _ _).raise _ _).brokenOff _)
    (.ite ((hfull.raise _ _).sendVector _ _)
      (.ite ((hfull.wr _ _ _ _).deliver1 _ _) (hfull.moderate _ _)))

theorem postEntry (h : KeepsStores s x) (d : Nat) (e : CplEntry) :
    KeepsStores s (postEntry x d e) :=
  .ite h (.ite (.ite (h.setProc _ _) (((h.setProc _ _).setProc _ _).bump _ _ _ _))
    (h.writeEntry _ _))

theorem finishJob (h : KeepsStores s x) (d : Nat) (j : Job) (status data : Nat) :
    KeepsStores s (finishJob x d j status data) := by
  have hdropped : KeepsStores s (dropJob x d j.seq) := h.setProc _ _
  unfold Machine.finishJob complete
  extract_lets dropped p counted logged
  have hcounted : KeepsStores s counted := .ite (hdropped.bump _ _ _ _) (hdropped.bump _ _ _ _)
  have hlogged : KeepsStores s logged :=
    .ite (hcounted.lastErr _ _) (.ite (hcounted.lastErr _ _) hcounted)
  exact (hlogged.postEntry _ _).brokenOff _

/-- The commands whose data is acknowledged complete. -/
theorem pollAcks (h : KeepsStores s x) : KeepsStores s (pollAcks x) := by
  refine foldl (List.range 4) h fun y d => foldl (proc y d).running (refl y) fun z j => ?_
  split
  · exact .ite (refl z) ((refl z).finishJob _ _ _ _)
  · exact refl z

theorem pollBells (h : KeepsStores s x) : KeepsStores s (pollBells x) := by
  unfold Machine.pollBells
  exact foldl (List.range 4) h fun y d => .ite (refl y) ((refl y).setProc _ _)

/-- Where no host access waits, what goes on changes no slice and no tile. -/
theorem pollHost (hnone : s.hostHeld = []) : KeepsStores s (pollHost s) := by
  have hacks : KeepsStores s (Machine.pollAcks s) := (refl s).pollAcks
  have hheld : (Machine.pollAcks s).hostHeld = [] := hacks.hostHeld.trans hnone
  have hserved : KeepsStores s { Machine.pollAcks s with hostHeld := [] } :=
    ⟨hacks.slices, hacks.tiles, hnone.symm⟩
  unfold Machine.pollHost
  dsimp only
  rw [hheld, serve]
  exact hserved.pollBells

end KeepsStores

end Sys2Proof.Proofs
end

section
/-!
SUPPORT. What stands while a slice serves its merge buffer and its command window (R128, R141,
R149): the arrays of the slice, and what a sector written whole reads as (R125, R126).
-/
open Sys2Proof Sys2Proof.Machine Sys2Proof.Safety Sys2Proof.Laws
namespace Sys2Proof.Proofs

/-! ### The arrays of a slice -/

/-- The check bytes and the list of failed sectors are in their canonical form. -/
structure SectorsOk (x : Slice) : Prop where
  check : Memory.wf x.check = true
  lasting : keysFrom 0 x.lasting = true

/-- Slice `y` holds in its arrays what `x` holds: the bytes and written flags, and for the sectors
of the slice, which stand below 2²⁴, the check bytes and what a failed one meets. -/
structure SameArrays (x y : Slice) : Prop where
  mem : y.mem = x.mem
  flags : y.flags = x.flags
  ok : SectorsOk x → SectorsOk y
  check : SectorsOk x → ∀ a, a < 4 * 2 ^ 24 → memRead y.check a = memRead x.check a
  lasting : SectorsOk x → ∀ sec, sec < 2 ^ 24 → SMap.find y.lasting sec = SMap.find x.lasting sec

namespace SameArrays

variable {x y z : Slice}

/-- A change of the merge buffer and of what waits is no change of the arrays. -/
theorem of_eq (hmem : y.mem = x.mem) (hflags : y.flags = x.flags) (hcheck : y.check = x.check)
    (hlasting : y.lasting = x.lasting) : SameArrays x y where
  mem := hmem
  flags := hflags
  ok h := ⟨hcheck ▸ h.check, hlasting ▸ h.lasting⟩
  check _ _ _ := by rw [hcheck]
  lasting _ _ _ := by rw [hlasting]

theorem refl (x : Slice) : SameArrays x x := of_eq rfl rfl rfl rfl

theorem trans (h : SameArrays x y) (k : SameArrays y z) : SameArrays x z where
  mem := k.mem.trans h.mem
  flags := k.flags.trans h.flags
  ok hx := k.ok (h.ok hx)
  check hx a ha := (k.check (h.ok hx) a ha).trans (h.check hx a ha)
  lasting hx sec hsec := (k.lasting (h.ok hx) sec hsec).trans (h.lasting hx sec hsec)

theorem layNarrow {w : Narrow} (h : layNarrow x w = some y) : SameArrays x y := by
  unfold Machine.layNarrow at h
  dsimp only at h
  split at h
  · cases h
    exact of_eq rfl rfl rfl rfl
  · split at h <;> cases h
    exact of_eq rfl rfl rfl rfl

theorem gatherWaiting (x : Slice) (k : Nat) : SameArrays x (gatherWaiting x k) := by
  induction k generalizing x with
  | zero => exact refl x
  | succ k ih =>
    unfold Machine.gatherWaiting
    split
    · exact refl x
    · next w _ =>
      have herased : SameArrays x { x with narrow := x.narrow.erase w } := of_eq rfl rfl rfl rfl
      split
      · next hlaid => exact (herased.trans (layNarrow hlaid)).trans (ih _)
      · exact refl x

theorem dropMerge (x : Slice) (sec : Nat) : SameArrays x (dropMerge x sec) := by
  have hdropped : SameArrays x { x with
      merge := x.merge.filter (fun e => e.sector != sec)
      narrow := x.narrow.filter (fun w => w.sector != sec) } := of_eq rfl rfl rfl rfl
  exact hdropped.trans (gatherWaiting _ _)

theorem flushForGo (x : Slice) : SameArrays x (flushForGo x) := by
  unfold Machine.flushForGo
  split
  · exact of_eq rfl rfl rfl rfl
  · exact refl x

theorem gathered (x : Slice) (w : Narrow) :
    SameArrays x ((if mayLay x w then Machine.layNarrow x w else none).getD (waitNarrow x w)) := by
  cases hlaid : (if mayLay x w then Machine.layNarrow x w else none) with
  | none => exact of_eq rfl rfl rfl rfl
  | some y =>
    rw [Option.ite_none_right_eq_some] at hlaid
    exact layNarrow hlaid.2

/-- The check bytes of the window's sectors stand above those of the slice (R125, R141). -/
theorem encode (x : Slice) {sec : Nat} (hsec : 2 ^ 24 ≤ sec) (d : List Byte) :
    SameArrays x (encode x sec d) where
  mem := rfl
  flags := rfl
  ok h := ⟨wf_store h.check _ _, keysFrom_del h.lasting⟩
  check h a ha := memRead_store_of_out h.check _ _ _ (.inl (by omega))
  lasting h k hk := (find_del h.lasting sec k).trans (if_neg (by omega))

end SameArrays

/-! ### What a slice serves beside the requests for its sectors -/

/-- From `s` to `x`, slice `n` alone changes, and of it no array; no host access goes on. -/
structure KeepsArrays (n : Nat) (s x : State) : Prop where
  arrays : SameArrays (slice s n) (slice x n)
  others : ∀ m, m ≠ n → slice x m = slice s m
  hostHeld : x.hostHeld = s.hostHeld

namespace KeepsArrays

variable {n : Nat} {s x y : State}

theorem refl (n : Nat) (s : State) : KeepsArrays n s s := ⟨.refl _, fun _ _ => rfl, rfl⟩

theorem trans (h : KeepsArrays n s x) (k : KeepsArrays n x y) : KeepsArrays n s y where
  arrays := h.arrays.trans k.arrays
  others m hm := (k.others m hm).trans (h.others m hm)
  hostHeld := k.hostHeld.trans h.hostHeld

theorem ite {c : Prop} [Decidable c] (hx : KeepsArrays n s x) (hy : KeepsArrays n s y) :
    KeepsArrays n s (if c then x else y) := by
  split
  · exact hx
  · exact hy

theorem setSlice {t : Slice} (h : SameArrays (slice s n) t) : KeepsArrays n s (setSlice s n t) where
  arrays := by rwa [slice_setSlice, if_pos rfl]
  others m hm := by rw [slice_setSlice, if_neg hm]
  hostHeld := rfl

theorem gather (s : State) (n : Nat) (w : Narrow) : KeepsArrays n s (gather s n w) :=
  setSlice (.gathered _ _)

theorem putWin (s : State) (n off : Nat) (bytes : List Byte) :
    KeepsArrays n s (putWin s n off bytes) := by
  refine setSlice (.trans (.encode (slice s n) (sec := winSector off) ?_ (bytes.take 32))
    (.of_eq rfl rfl rfl rfl))
  exact Nat.le_add_right _ _

theorem putWindow (s : State) (n off : Nat) (who : Option Nat) (k : Nat) (bytes : List Byte) :
    KeepsArrays n s (putWindow s n off who k bytes) := by
  induction k generalizing s off bytes with
  | zero => exact refl n s
  | succ k ih =>
    unfold Machine.putWindow
    refine ite (refl n s) (.trans ?_ (ih _ _ _))
    exact ite (refl n s) (ite ((setSlice (.dropMerge _ _)).trans (putWin _ _ _ _)) (gather _ _ _))

theorem drainPuts (s : State) (n k : Nat) : KeepsArrays n s (drainPuts s n k) := by
  induction k generalizing s with
  | zero => exact refl n s
  | succ k ih =>
    unfold Machine.drainPuts
    dsimp only
    split
    · next rest _ _ =>
      have htaken : KeepsArrays n s (Machine.setSlice s n { slice s n with queue := rest }) :=
        setSlice (.of_eq rfl rfl rfl rfl)
      exact ite (refl n s) ((htaken.trans (putWindow _ _ _ _ _ _)).trans (ih _))
    · exact refl n s

theorem settleSlice (s : State) (n : Nat) : KeepsArrays n s (settleSlice s n) :=
  ((setSlice (.gatherWaiting _ _)).trans (drainPuts _ _ _)).trans (setSlice (.flushForGo _))

end KeepsArrays

/-! ### Written flags (R126) -/

theorem secFlag_setSecFlag (m : SMap Nat) (sec k : Nat) :
    secFlag (setSecFlag m sec) k = (decide (k = sec) || secFlag m k) := by
  unfold secFlag setSecFlag
  rw [getD_put]
  split
  next hword =>
    have hbit : k % 32 = sec % 32 ↔ k = sec := by omega
    rw [bitOf_setBit, hword, decide_eq_decide.mpr hbit]
  next hword =>
    have hne : k ≠ sec := fun h => hword (by rw [h])
    simp [hne]

theorem copies_set_same (f : Flags) (sec : Nat) : (f.set sec).copies sec = 7 := by
  simp [Flags.copies, Flags.set, secFlag_setSecFlag, ofBool]

theorem copies_set_of_ne (f : Flags) {sec k : Nat} (h : k ≠ sec) :
    (f.set sec).copies k = f.copies k := by
  simp [Flags.copies, Flags.set, secFlag_setSecFlag, h]

/-! ### A sector written whole (R125, R126) -/

theorem memBytes_congr {m m' : Memory} {a n : Nat}
    (h : ∀ i, i < n → memRead m (a + i) = memRead m' (a + i)) : memBytes m a n = memBytes m' a n := by
  induction n generalizing a with
  | zero => rfl
  | succ n ih =>
    have htail : memBytes m (a + 1) n = memBytes m' (a + 1) n := ih fun i hi => by
      rw [Nat.add_assoc, Nat.add_comm 1]
      exact h (i + 1) (by omega)
    have hhead : memRead m a = memRead m' a := h 0 (by omega)
    rw [memBytes, memBytes, htail, hhead]

/-- The slice once a sector is written, before what waited for the merge buffer goes on. -/
def sectorWritten (x : Slice) (sec : Nat) (b : List Byte) : Slice :=
  let y := encode (dropMerge x sec) sec b
  { y with mem := memStore y.mem (32 * sec) b, flags := y.flags.set sec }

variable {x y : Slice} {s : State} {n sec : Nat} {b : List Byte}

/-- The sector's bytes stand at 32 times its number, and every other byte reads as before. -/
theorem sectorWritten_mem (hwf : Memory.wf x.mem = true) (hlen : b.length = 32)
    (h : SameArrays (sectorWritten x sec b) y) :
    memBytes y.mem (32 * sec) 32 = b ∧ ∀ a, a < 32 * sec ∨ 32 * sec + 32 ≤ a →
      memRead y.mem a = memRead x.mem a := by
  have hmem : y.mem = memStore x.mem (32 * sec) b := by
    rw [h.mem, ← (SameArrays.dropMerge x sec).mem]
    rfl
  rw [hmem]
  constructor
  · rw [← hlen]
    exact memBytes_store hwf _ _
  · intro a ha
    exact memRead_store_of_out hwf _ _ _ (by rwa [hlen])

theorem sectorWritten_flags (h : SameArrays (sectorWritten x sec b) y) :
    y.flags.copies sec = 7 ∧ ∀ k, k ≠ sec → y.flags.copies k = x.flags.copies k := by
  have hflags : y.flags = x.flags.set sec := by
    rw [h.flags, ← (SameArrays.dropMerge x sec).flags]
    rfl
  rw [hflags]
  exact ⟨copies_set_same _ _, fun k hk => copies_set_of_ne _ hk⟩

theorem sectorWritten_ok (hx : SectorsOk x) : SectorsOk (sectorWritten x sec b) :=
  have hdropped := (SameArrays.dropMerge x sec).ok hx
  ⟨wf_store hdropped.check _ _, keysFrom_del hdropped.lasting⟩

/-- The check bytes of a sector written whole are those of its bytes (R124). -/
theorem sectorWritten_check (hx : SectorsOk x) (hsec : sec < 2 ^ 24)
    (h : SameArrays (sectorWritten x sec b) y) : memBytes y.check (4 * sec) 4 = checkBytes b := by
  rw [memBytes_congr fun i _ => h.check (sectorWritten_ok hx) (4 * sec + i) (by omega)]
  exact memBytes_store ((SameArrays.dropMerge x sec).ok hx).check (4 * sec) (checkBytes b)

/-- A sector written whole fails no longer (R130): its pattern is the one entry of its key, as keys rise. -/
theorem sectorWritten_lasting (hx : SectorsOk x) (hsec : sec < 2 ^ 24)
    (h : SameArrays (sectorWritten x sec b) y) : SMap.find y.lasting sec = none := by
  rw [h.lasting (sectorWritten_ok hx) sec hsec]
  exact (find_del ((SameArrays.dropMerge x sec).ok hx).lasting sec sec).trans (if_pos rfl)

/-! ### A full-sector write (R125, R128) -/

theorem sliceWriteSector_arrays (s : State) (n sec : Nat) (hlen : b.length = 32) :
    SameArrays (sectorWritten (slice s n) sec b) (slice (sliceWriteSector s n sec b) n) := by
  have hput : slice (putSector (setSlice s n (dropMerge (slice s n) sec)) n sec b) n
      = sectorWritten (slice s n) sec b := by
    simp only [putSector, bump64, slice_wr, slice_setSlice, if_true,
      List.take_of_length_le (Nat.le_of_eq hlen)]
    rfl
  rw [← hput]
  exact (KeepsArrays.settleSlice _ n).arrays

theorem slice_sliceWriteSector_of_ne {m : Nat} (hm : m ≠ n) :
    slice (sliceWriteSector s n sec b) m = slice s m := by
  refine ((KeepsArrays.settleSlice _ n).others m hm).trans ?_
  simp only [putSector, bump64, slice_wr, slice_setSlice, if_neg hm]

theorem sliceWriteSector_hostHeld (s : State) (n sec : Nat) (b : List Byte) :
    (sliceWriteSector s n sec b).hostHeld = s.hostHeld :=
  (KeepsArrays.settleSlice _ n).hostHeld

/-- A written sector that has not failed for good reads as its bytes where no error is met. -/
theorem readSector_of_copies (hflags : (slice s n).flags.copies sec = 7)
    (hlasting : SMap.find (slice s n).lasting sec = none) (hsec : sec < 2 ^ 24) (q : Nat) :
    (readSector s n sec q none).2 = .good (memBytes (slice s n).mem (32 * sec) 32) := by
  have hwritten : readsWritten (slice s n) sec none = true := by
    simp only [readsWritten, if_pos hsec, Flags.read, hflags]
    rfl
  have hchecked : checkedRead (slice s n) sec none
      = (0, 0, some (memBytes (slice s n).mem (32 * sec) 32), []) := by
    simp only [checkedRead, hlasting, secData, if_pos hsec, Option.elim_none]
  simp [readSector, controllerRead, bump64, hwritten, hchecked]

end Sys2Proof.Proofs
end

section
/-!
PROOF. Writes of a sector (R125, R126, R128, R130). A sector written whole reads back where the list
of sectors that have failed for good is in its canonical form; the statement asks that of the
memories alone, and fails where the list holds a sector twice.
-/
open Sys2Proof Sys2Proof.Machine Sys2Proof.Safety Sys2Proof.Laws
namespace Sys2Proof.Proofs

variable {s : State}

/-- What `Obligations.SliceWriteReadsBack` says of a full-sector write, for a slice whose list of failed
sectors has rising keys. -/
theorem sliceWriteSector_readsBack {k : TileId} {x : SectorId} {b : List Byte}
    (hmem : memOk s = true) (hkeys : keysFrom 0 (slice s k).lasting = true) (hlen : b.length = 32) :
    let u := sliceWriteSector s k x b
    memBytes (slice u k).mem (32 * x.val) 32 = b ∧
      memBytes (slice u k).check (4 * x.val) 4 = checkBytes b ∧ (slice u k).flags.copies x = 7 ∧
      (∀ q : Nat, (readSector u k x q none).2 = .good b) ∧
      (∀ a : Nat, a < 32 * x.val ∨ 32 * x.val + 32 ≤ a →
        memRead (slice u k).mem a = memRead (slice s k).mem a) ∧
      (∀ y : Nat, y ≠ x.val → (slice u k).flags.copies y = (slice s k).flags.copies y) ∧
      (∀ n : Nat, n ≠ k.val → slice u n = slice s n) ∧ u.tiles = s.tiles ∧
      u.hostHeld = s.hostHeld ∧
      (s.hostHeld = [] → (pollHost u).slices = u.slices ∧ (pollHost u).tiles = u.tiles) := by
  intro u
  have hslice : XOk s (slice s k) := (Kept.refl s).slice k
  have hok : SectorsOk (slice s k) := ⟨hslice.check.ok hmem, hkeys⟩
  have hsec : x.val < 2 ^ 24 := Nat.lt_of_lt_of_le x.isLt (by decide)
  have harrays : SameArrays (sectorWritten (slice s k) x b) (slice u k) :=
    sliceWriteSector_arrays s k x hlen
  obtain ⟨hbytes, hothers⟩ := sectorWritten_mem (hslice.mem.ok hmem) hlen harrays
  obtain ⟨hflag, hflags⟩ := sectorWritten_flags harrays
  have hheld : u.hostHeld = s.hostHeld := sliceWriteSector_hostHeld s k x b
  refine ⟨hbytes, sectorWritten_check hok hsec harrays, hflag, fun q => ?reads, hothers, hflags,
    fun n hn => slice_sliceWriteSector_of_ne hn, sliceWriteSector_tiles s k x b, hheld,
    fun hnone => ?polled⟩
  case reads =>
    rw [readSector_of_copies hflag (sectorWritten_lasting hok hsec harrays) hsec q, hbytes]
  case polled =>
    have hpolled := KeepsStores.pollHost (hheld.trans hnone)
    exact ⟨hpolled.slices, hpolled.tiles⟩

/-- A narrow write stores nothing in any slice's arrays: it is refused, held, or laid into the merge
buffer (R128). -/
theorem narrowWrite_arrays {t : State} {k : TileId} {d : DistId} {x : SectorId} {lo : Fin 32}
    {b : List Byte} (h : exec (.narrowWrite k d x lo b) s = .next t) (n : Nat) :
    (slice t n).mem = (slice s n).mem ∧ (slice t n).flags = (slice s n).flags := by
  rw [exec_narrowWrite] at h
  split at h
  next =>
    injection h with ht
    rw [← ht]
    refine sliceRequest_induction
      (P := fun t => (slice t n).mem = (slice s n).mem ∧ (slice t n).flags = (slice s n).flags)
      ⟨rfl, rfl⟩ (fun a e => ?refused) ?gathered
    case refused =>
      simp only [slice, ((KeepsStores.refl s).refuse _ a e).slices, and_self]
    case gathered =>
      have hgather := KeepsArrays.gather s k ⟨x, lo, b, none⟩
      by_cases hn : n = k
      · rw [hn]
        exact ⟨hgather.arrays.mem, hgather.arrays.flags⟩
      · simp only [hgather.others n hn, and_self]
  next => cases h

/-! ### A sector listed twice -/

/-- What differs from a codeword in three symbols of a sector. -/
def threeSymbols : List (Nat × Nat) := [(0, 1), (1, 3), (2, 5)]

/-- The package up with tile 0 in District 0, and sector 0 of its slice listed twice among those that
have failed for good. -/
def listedTwice : State :=
  wr { State.reset with
    dawn := { aon := true, pwrgood := true, mapFormed := true, mapDies := 15 }
    slices := [(0, { lasting := [(0, threeSymbols), (0, threeSymbols)] })] }
    (districtP 0) DISTRICT_QDIE_MASK 1

/-- Sector 0 written whole, with zeros. -/
def listedTwiceWritten : State := sliceWriteSector listedTwice 0 0 (List.replicate 32 0)

/-- The write removes one of the two entries. -/
theorem listedTwiceWritten_lasting :
    SMap.find (slice listedTwiceWritten 0).lasting 0 = some threeSymbols := by decide +kernel

/-- The next read meets the other, and delivers nothing. -/
theorem listedTwiceWritten_checkedRead :
    (checkedRead (slice listedTwiceWritten 0) 0 none).2.2.1 = none :=
  checkedRead_of_uncorrectable (e := { first := threeSymbols, second := threeSymbols })
    (by rw [listedTwiceWritten_lasting]; rfl) (by decide +kernel) (by decide +kernel)

/-- What goes on changes no slice where no host access waits, so that it hides none. -/
theorem slices_eq_of_pollHost_eq {u v : State} (h : pollHost u = pollHost v)
    (hu : (pollHost u).slices = u.slices) (hv : v.hostHeld = []) : u.slices = v.slices := by
  rw [← hu, h, (KeepsStores.pollHost hv).slices]

/-- Refutes O42: `memOk` asks for the canonical form of the memories, and not of the list of failed sectors,
of which a full-sector write removes the first entry of its key. Where the list holds a sector twice, the
next read of the sector still gives a lasting error. `SMap.put` and `SMap.del` make no such list out of one
with rising keys, and for one with rising keys `sliceWriteSector_readsBack` and `narrowWrite_arrays` prove
what the statement says. -/
theorem not_sliceWriteReadsBack : ¬ Obligations.SliceWriteReadsBack := by
  rintro ⟨hwrite, -⟩
  obtain ⟨u, hnext, -, -, -, hreads, -, -, -, -, -, hpolled⟩ :=
    hwrite listedTwice 0 0 0 (List.replicate 32 0) (by decide) (by decide) (by decide) (by decide)
      (by decide) (by decide)
  rw [exec_sliceWrite_of_served (by decide) (by decide) (by decide) (by decide) (by decide)] at hnext
  injection hnext with hsame
  have hslices : u.slices = listedTwiceWritten.slices :=
    slices_eq_of_pollHost_eq hsame.symm (hpolled rfl).1 (sliceWriteSector_hostHeld listedTwice 0 0 _)
  have hslice : slice u 0 = slice listedTwiceWritten 0 := by simp only [slice, hslices]
  have hbad : (readSector u 0 0 0 none).2 = .bad :=
    readSector_bad_of_no_data (hslice ▸ listedTwiceWritten_checkedRead) 0
  exact SecRead.noConfusion (hbad.symm.trans (hreads 0))

end Sys2Proof.Proofs
end

section
/-!
SUPPORT. What a refusal of the engine leaves in its page, whatever form the register file is in
(R292, R341): a value that is not the field's reset value is listed, and its place in the file moves
no other entry.
-/
open Sys2Proof Sys2Proof.Machine Sys2Proof.Safety Sys2Proof.Laws
namespace Sys2Proof.Proofs

variable {s : State} {p q : PageId} {f g : Fld} {v i j b : Nat}

/-! ### Values that are listed -/

theorem wr_of_listed (h : v % 2 ^ f.wid ≠ fieldResetAt p f i) :
    wr s p f v i = { s with regs := SMap.put s.regs (fkey p f i) (v % 2 ^ f.wid) } := by
  simp only [wr, if_neg h]

theorem rd_wr_same_of_listed (h : v % 2 ^ f.wid ≠ fieldResetAt p f i) :
    rd (wr s p f v i) p f i = v % 2 ^ f.wid := by
  rw [wr_of_listed h, rd, getD_put, if_pos rfl]

theorem rd_wr_of_ne_of_listed (h : v % 2 ^ f.wid ≠ fieldResetAt p f i)
    (hne : fkey q g j ≠ fkey p f i) : rd (wr s p f v i) q g j = rd s q g j := by
  rw [wr_of_listed h, rd, getD_put, if_neg hne, rd]

theorem setBit_mod_two_pow_ne_zero {w : Nat} (hb : b < w) (v : Nat) : setBit v b % 2 ^ w ≠ 0 := by
  intro hzero
  have hset : bitOf (setBit v b % 2 ^ w) b = true := by
    rw [bitOf_mod_two_pow hb, bitOf_setBit]
    simp
  rw [hzero] at hset
  simp [bitOf] at hset

/-! ### Interrupts (R341, R346) -/

/-- A vector is put in service, sent or held: no register but an `IN_SERVICE` reads otherwise. -/
theorem rd_sendVector {d : Nat} (hv : v < 8)
    (hne : fkey q g j ≠ fkey plazaP PLAZA_IN_SERVICE d) :
    rd (sendVector s d v) q g j = rd s q g j := by
  unfold sendVector
  extract_lets e sent
  split
  · split
    · rfl
    · exact rd_wr_of_ne_of_listed (setBit_mod_two_pow_ne_zero hv _) hne
  · rfl

theorem rd_deliver (hne : ∀ d ∈ List.range 4, fkey q g j ≠ fkey plazaP PLAZA_IN_SERVICE d) :
    rd (deliver s) q g j = rd s q g j := by
  refine List.foldlRecOn [2, 3, 4] _ (motive := fun x => rd x q g j = rd s q g j) rfl
    fun x hx v hv => ?_
  refine List.foldlRecOn (List.range 4) _ (motive := fun x => rd x q g j = rd s q g j) hx
    fun y hy d hd => ?_
  have hlt : v < 8 := by
    simp only [List.mem_cons, List.not_mem_nil, or_false] at hv
    omega
  rw [deliver1, apply_ite (rd · q g j), rd_sendVector hlt (hne d hd), ite_self, hy]

theorem rd_raise (hb : b < HDR_INT_RAW.wid) (hne : fkey q g j ∉ raiseKeys p) :
    rd (raise s p b) q g j = rd s q g j := by
  have hraw : fkey q g j ≠ fkey p HDR_INT_RAW 0 := List.ne_of_not_mem_cons hne
  have hserv := List.not_mem_of_not_mem_cons hne
  have hdelivered (x : State) : rd (deliver x) q g j = rd x q g j :=
    rd_deliver fun d hd e => hserv (e ▸ List.mem_map_of_mem hd)
  rw [raise, hdelivered, rd_wr_of_ne_of_listed (setBit_mod_two_pow_ne_zero hb _) hraw]

/-- `IN_SERVICE` stands in the page `PLAZA`, below every page of an engine (R334). -/
theorem engine_fkey_not_mem_raiseKeys (n : Nat) {f : Fld}
    (h : 8 * f.off + f.lo ≠ 8 * HDR_INT_RAW.off + HDR_INT_RAW.lo) :
    fkey (engineP n) f 0 ∉ raiseKeys (engineP n) := by
  simp only [raiseKeys, List.mem_cons, List.mem_map, List.mem_range, not_or, not_exists, not_and]
  refine ⟨fkey_ne_of_place _ h, fun d hd => ?_⟩
  simp only [fkey, engineP, plazaP, PageId.base, PLAZA_IN_SERVICE]
  omega

/-! ### A refused mode write (R142) -/

theorem modeRefused_slices (s : State) (n : Nat) : (modeRefused s n).slices = s.slices :=
  (((KeepsStores.refl s).lastErr _ _).raise _ _).slices

theorem modeRefused_lastErr (s : State) (n : Nat) :
    rd (modeRefused s n) (engineP n) HDR_LAST_ERR = 6 := by
  have hlisted : 6 % 2 ^ HDR_LAST_ERR.wid ≠ fieldResetAt (engineP n) HDR_LAST_ERR 0 := by
    change 6 % 2 ^ 8 ≠ 0
    decide
  rw [modeRefused, rd_raise (by decide) (engine_fkey_not_mem_raiseKeys n (by decide)), lastErr,
    rd_wr_same_of_listed hlisted]
  decide

end Sys2Proof.Proofs
end

section
/-!
PROOF. The mode word of an engine (R142): how it comes across the link group (R17, R18, R289), and
what each row of the table does to the mode.
-/
open Sys2Proof Sys2Proof.Machine Sys2Proof.Safety Sys2Proof.Laws
namespace Sys2Proof.Proofs

variable {s : State} {n d off w : Nat} {x : Target}

/-! ### Bytes across a link group (R17, R18, R289) -/

theorem leNat_leBytes (n v : Nat) : leNat (leBytes n v) = v % 256 ^ n := by
  induction n generalizing v with
  | zero => rw [Nat.pow_zero, Nat.mod_one]; rfl
  | succ n ih =>
    have hbyte : (BitVec.ofNat 8 v).toNat = v % 256 := BitVec.toNat_ofNat _ _
    rw [leBytes, leNat, ih, hbyte, Nat.pow_succ', Nat.mod_mul]

theorem assignFlow_eq_setDawn (s : State) (g flow : Nat) :
    ∃ k, assignFlow s g flow = { s with dawn := k } := by
  unfold assignFlow
  split
  · exact ⟨_, rfl⟩
  · exact ⟨s.dawn, rfl⟩

theorem takeFlips_eq_setDawn (s : State) (g flow : Nat) (b : List Byte) :
    ∃ k, (takeFlips s g flow b).1 = { s with dawn := k } := by
  unfold takeFlips
  split
  · exact ⟨s.dawn, rfl⟩
  · split
    · exact ⟨s.dawn, rfl⟩
    · exact ⟨_, rfl⟩

/-- A transfer to a tile changes the package only in where its flow goes and which errors are
still to come. -/
theorem plazaData_eq_setDawn (s : State) (src n : Nat) (b : List Byte) :
    ∃ k, (plazaData s src n b).1 = { s with dawn := k } := by
  obtain ⟨k, hassigned⟩ := assignFlow_eq_setDawn s (tileDie n) (plazaFlow src n)
  obtain ⟨m, htaken⟩ := takeFlips_eq_setDawn (assignFlow s (tileDie n) (plazaFlow src n))
    (tileDie n) (plazaFlow src n) b
  exact ⟨m, by rw [plazaData, crossData, List.foldl_cons, List.foldl_nil, htaken, hassigned]⟩

/-! ### Requests to a command window (R23, R140) -/

theorem windowRequest_of_held (hx : (resolve s d (windowAt n off)).toOption = some x)
    (hheld : plazaHeld s d n = true) (b : List Byte) (act : State → List Byte → State) :
    windowRequest s d n off b act = s := by
  unfold windowRequest
  split
  next hres => simp [hres, Except.toOption] at hx
  next => simp [hheld]

theorem windowRequest_of_served (hx : (resolve s d (windowAt n off)).toOption = some x)
    (hlives : sliceLives s n = true) (hheld : plazaHeld s d n = false) (b : List Byte)
    (act : State → List Byte → State) :
    windowRequest s d n off b act = act (plazaData s d n b).1 (plazaData s d n b).2 := by
  unfold windowRequest
  split
  next hres => simp [hres, Except.toOption] at hx
  next => simp [hlives, hheld]

theorem exec_engineModeWrite_of_held {k : TileId} {d : DistId}
    (hx : (resolve s d (windowAt k 0xFFF00)).toOption = some x) (hheld : plazaHeld s d k = true)
    (v : Nat) : exec (.engineModeWrite k d v) s = .next s :=
  congrArg Host.Outcome.next (windowRequest_of_held hx hheld _ _)

/-- The word counts as it comes across the link group. -/
theorem exec_engineModeWrite_of_served {k : TileId} {d : DistId} {v : Nat}
    (hx : (resolve s d (windowAt k 0xFFF00)).toOption = some x) (hlives : sliceLives s k = true)
    (hheld : plazaHeld s d k = false) (hw : w < 2 ^ 32)
    (hcome : (plazaData s d k (leBytes 4 v)).2 = leBytes 4 w) :
    exec (.engineModeWrite k d v) s
      = .next (modeWrite (plazaData s d k (leBytes 4 v)).1 k w) := by
  have hword : leNat (plazaData s d k (leBytes 4 v)).2 = w := by
    rw [hcome, leNat_leBytes]
    exact Nat.mod_eq_of_lt hw
  refine congrArg Host.Outcome.next ((windowRequest_of_served hx hlives hheld _ _).trans ?_)
  rw [hword]

/-! ### The rows of the table (R142) -/

theorem modeWrite_of_reserved (h : 2 ≤ w) : modeWrite s n w = modeRefused s n := if_pos h

theorem modeWrite_one_of_off (h : rd s (engineP n) HDR_STATE ≠ 2) :
    modeWrite s n 1 = modeRefused s n := if_pos h

section
variable (hon : rd s (engineP n) HDR_STATE = 2)
include hon

theorem modeWrite_one_of_controller (hmode : (slice s n).mode = 0) :
    modeWrite s n 1 = beginEnter (setSlice s n { slice s n with modeWord := 1 }) n := by
  simp [modeWrite, hon, hmode]

theorem modeWrite_one_of_engine_or_entering
    (hmode : (slice s n).mode = 1 ∨ (slice s n).mode = 2) : modeWrite s n 1 = s := by
  obtain hmode | hmode := hmode <;> simp [modeWrite, hon, hmode]

theorem modeWrite_one_of_leaving (hmode : (slice s n).mode = 3) :
    modeWrite s n 1 = setSlice s n { slice s n with modeWord := 1, held := some 1 } := by
  simp [modeWrite, hon, hmode]

end

theorem modeWrite_zero_of_engine (hmode : (slice s n).mode = 1) :
    modeWrite s n 0 = setSlice s n { slice s n with modeWord := 0, mode := 3 } := by
  simp [modeWrite, hmode]

theorem modeWrite_zero_of_controller_or_leaving
    (hmode : (slice s n).mode = 0 ∨ (slice s n).mode = 3) : modeWrite s n 0 = s := by
  obtain hmode | hmode := hmode <;> simp [modeWrite, hmode]

theorem modeWrite_zero_of_entering (hmode : (slice s n).mode = 2) :
    modeWrite s n 0 = setSlice s n { slice s n with modeWord := 0, held := some 0 } := by
  simp [modeWrite, hmode]

/-! ### The mode after the write -/

@[simp] theorem slice_setSlice_same (s : State) (n : Nat) (x : Slice) :
    slice (setSlice s n x) n = x := by rw [slice_setSlice, if_pos rfl]

@[simp] theorem slice_beginEnter_mode (s : State) (n : Nat) :
    (slice (beginEnter s n) n).mode = 2 := by simp [beginEnter]

theorem modeWrite_refused (h : 2 ≤ w ∨ (w = 1 ∧ rd s (engineP n) HDR_STATE ≠ 2)) :
    (modeWrite s n w).slices = s.slices ∧ rd (modeWrite s n w) (engineP n) HDR_LAST_ERR = 6 := by
  have hrefused : modeWrite s n w = modeRefused s n := by
    obtain hreserved | ⟨rfl, hoff⟩ := h
    · exact modeWrite_of_reserved hreserved
    · exact modeWrite_one_of_off hoff
  rw [hrefused]
  exact ⟨modeRefused_slices s n, modeRefused_lastErr s n⟩

theorem modeWrite_one_mode (hon : rd s (engineP n) HDR_STATE = 2) :
    ((slice s n).mode = 0 → (slice (modeWrite s n 1) n).mode = 2) ∧
    ((slice s n).mode = 1 ∨ (slice s n).mode = 2 →
      (slice (modeWrite s n 1) n).mode = (slice s n).mode) ∧
    ((slice s n).mode = 3 →
      (slice (modeWrite s n 1) n).mode = 3 ∧ (slice (modeWrite s n 1) n).held = some 1) := by
  refine ⟨fun hmode => ?controller, fun hmode => ?inside, fun hmode => ?leaving⟩
  case controller => rw [modeWrite_one_of_controller hon hmode, slice_beginEnter_mode]
  case inside => rw [modeWrite_one_of_engine_or_entering hon hmode]
  case leaving => simp [modeWrite_one_of_leaving hon hmode, hmode]

theorem modeWrite_zero_mode (s : State) (n : Nat) :
    ((slice s n).mode = 1 → (slice (modeWrite s n 0) n).mode = 3) ∧
    ((slice s n).mode = 0 ∨ (slice s n).mode = 3 →
      (slice (modeWrite s n 0) n).mode = (slice s n).mode) ∧
    ((slice s n).mode = 2 →
      (slice (modeWrite s n 0) n).mode = 2 ∧ (slice (modeWrite s n 0) n).held = some 0) := by
  refine ⟨fun hmode => ?engine, fun hmode => ?outside, fun hmode => ?entering⟩
  case engine => simp [modeWrite_zero_of_engine hmode]
  case outside => rw [modeWrite_zero_of_controller_or_leaving hmode]
  case entering => simp [modeWrite_zero_of_entering hmode, hmode]

/-- Settles O44: the transfer changes no register and no slice, so that the row of the table is that
of the state before it. That a held word changes nothing is the model's reading (log entry 124). -/
theorem modeWordTable : Obligations.ModeWordTable := by
  intro s k d v w x hx hlives hw
  refine ⟨fun hheld => exec_engineModeWrite_of_held hx hheld v, fun hheld hcome =>
    ⟨_, exec_engineModeWrite_of_served hx hlives hheld hw hcome, ?_⟩⟩
  obtain ⟨m, hcrossed⟩ := plazaData_eq_setDawn s d k (leBytes 4 v)
  rw [hcrossed]
  refine ⟨modeWrite_refused (s := { s with dawn := m }), ?one, ?zero⟩
  case one =>
    rintro rfl hon
    exact modeWrite_one_mode (s := { s with dawn := m }) hon
  case zero =>
    rintro rfl
    exact modeWrite_zero_mode { s with dawn := m } k

end Sys2Proof.Proofs
end

section
/-!
SUPPORT. What the targets of a Crossing say of its waveguides (R184), and what an interrupt cannot
change (R341).
-/
open Sys2Proof Sys2Proof.Machine Sys2Proof.Safety Sys2Proof.Laws
namespace Sys2Proof.Proofs

/-! ### Lists without repetition -/

theorem length_eraseDups_le (l : List Nat) : l.eraseDups.length ≤ l.length := by
  match l with
  | [] => simp
  | a :: l =>
    have hle := List.length_filter_le (fun b => !b == a) l
    have ih := length_eraseDups_le (l.filter (fun b => !b == a))
    rw [List.eraseDups_cons, List.length_cons, List.length_cons]
    omega
termination_by l.length
decreasing_by exact Nat.lt_succ_of_le (List.length_filter_le _ _)

/-- A list that loses nothing with its repetitions has none. -/
theorem nodup_of_length_eraseDups {l : List Nat} (h : l.eraseDups.length = l.length) : l.Nodup := by
  induction l with
  | nil => exact .nil
  | cons a l ih =>
    rw [List.eraseDups_cons, List.length_cons, List.length_cons] at h
    have hle := List.length_filter_le (fun b => !b == a) l
    have hdups := length_eraseDups_le (l.filter (fun b => !b == a))
    have hall : ∀ b ∈ l, (!b == a) = true := List.length_filter_eq_length_iff.mp (by omega)
    rw [List.filter_eq_self.mpr hall] at h
    have hnot : a ∉ l := fun hmem => by simpa using hall a hmem
    exact List.nodup_cons.mpr ⟨hnot, ih (by omega)⟩

/-! ### Targets (R184) -/

@[simp] theorem targetsOf_length (s : State) (e : Nat) : (targetsOf s e).length = 8 := by
  simp [targetsOf]

/-- Targets that do not clash give two allocated waveguides two positions. -/
theorem wgPos_ne_of_not_targetsClash {ts : List Nat} (h : targetsClash ts = false) {i j : Nat}
    (hi : i < ts.length) (hj : j < ts.length) (hij : i ≠ j) (hai : wgAlloc ts[i] = true)
    (haj : wgAlloc ts[j] = true) : wgPos ts[i] ≠ wgPos ts[j] := by
  have hnodup : ((ts.filter wgAlloc).map wgPos).Nodup :=
    nodup_of_length_eraseDups (by simpa [targetsClash] using h)
  rw [List.Nodup, List.pairwise_map, List.pairwise_filter, List.pairwise_iff_getElem] at hnodup
  obtain hlt | hlt := Nat.lt_or_gt_of_ne hij
  · exact hnodup i j hi hj hlt hai haj
  · exact (hnodup j i hj hi hlt haj hai).symm

/-- A list kept as a map by the places of its entries gives each place its entry. -/
theorem find_zipIdx {α : Type} (l : List α) (k j : Nat) :
    SMap.find ((l.zipIdx k).map (fun x => (x.2, x.1))) (k + j) = l[j]? := by
  induction l generalizing k j with
  | nil => rfl
  | cons a l ih =>
    rw [List.zipIdx_cons, List.map_cons, SMap.find]
    cases j with
    | zero => simp
    | succ j => rw [if_neg (by omega), if_neg (by omega), Nat.add_left_comm, Nat.add_comm j,
        ih, List.getElem?_cons_succ]

/-! ### Interrupts (R341, R346) -/

section
variable {P : State → Prop} (hwr : ∀ x p f v i, P x → P (wr x p f v i))
  (hemit : ∀ x o, P x → P (emit x o)) (hpba : ∀ (x : State) m, P x → P { x with pba := m })
include hwr hemit hpba

/-- An interrupt and its delivery write registers, send messages and note them as pending: what
these keep, it keeps. -/
theorem raise_induction {s : State} (h : P s) (p : PageId) (b : Nat) : P (raise s p b) := by
  rw [raise, deliver]
  refine List.foldlRecOn [2, 3, 4] _ (motive := P) (hwr _ _ _ _ _ h) fun x hx v _ => ?_
  refine List.foldlRecOn (List.range 4) _ (motive := P) hx fun y hy d _ => ?_
  unfold deliver1 sendVector
  extract_lets e sent
  split
  · split
    · split
      · exact hemit _ _ hy
      · exact hwr _ _ _ _ _ (hemit _ _ hy)
    · exact hpba _ _ hy
  · exact hy

end

@[simp] theorem raise_crossings (s : State) (p : PageId) (b : Nat) :
    (raise s p b).crossings = s.crossings :=
  raise_induction (P := fun x => x.crossings = s.crossings) (fun _ _ _ _ _ h => h)
    (fun _ _ h => h) (fun _ _ h => h) rfl p b

end Sys2Proof.Proofs
end

section
/-!
PROOF. `APPLY` (R184): what it begins, and a target that two waveguides share.
-/
open Sys2Proof Sys2Proof.Machine Sys2Proof.Safety Sys2Proof.Laws
namespace Sys2Proof.Proofs

variable {s : State} {e : Nat}

theorem crossingApply_of_busy (hon : rd s (crossingP e) HDR_STATE = 2)
    (hbusy : rd s (crossingP e) CROSSING_BUSY = 1) :
    crossingApply s e = wr s (crossingP e) CROSSING_PENDING 1 := by
  rw [crossingApply, if_neg (not_not_intro hon), if_pos hbusy]

theorem crossingApply_of_idle (hon : rd s (crossingP e) HDR_STATE = 2)
    (hidle : rd s (crossingP e) CROSSING_BUSY ≠ 1) : crossingApply s e = startApply s e := by
  rw [crossingApply, if_neg (not_not_intro hon), if_neg hidle]

/-! ### A target that clashes -/

theorem startApply_of_clash (h : targetsClash (targetsOf s e) = true) :
    startApply s e = wr s (crossingP e) CROSSING_LAST_RESULT 5 := by
  simp only [startApply, h, if_true]

/-- 5 is no reset value, so that its write moves no other entry of the register file. -/
theorem refusedTarget_listed (e : Nat) :
    5 % 2 ^ CROSSING_LAST_RESULT.wid ≠ fieldResetAt (crossingP e) CROSSING_LAST_RESULT 0 := by
  change 5 % 2 ^ 8 ≠ 0
  decide

theorem rd_refusedTarget {q : PageId} {g : Fld} {j : Nat}
    (hne : fkey q g j ≠ fkey (crossingP e) CROSSING_LAST_RESULT 0) :
    rd (wr s (crossingP e) CROSSING_LAST_RESULT 5) q g j = rd s q g j :=
  rd_wr_of_ne_of_listed (refusedTarget_listed e) hne

/-! ### A target that is taken -/

/-- The targets are those applied, whether a waveguide moves or none does. -/
theorem crossing_startApply_targets (h : targetsClash (targetsOf s e) = false) :
    (crossing (startApply s e) e).targets = (targetsOf s e).zipIdx.map (fun x => (x.2, x.1)) := by
  unfold startApply
  extract_lets p ts todo x taken
  have htaken : (crossing taken e).targets = (targetsOf s e).zipIdx.map (fun x => (x.2, x.1)) := by
    rw [crossing_setCrossing, if_pos rfl]
  rw [if_neg (by simp [ts, h])]
  split
  · rw [crossing, raise_crossings]
    exact htaken
  · exact htaken

/-- Settles O58: a refusal writes `LAST_RESULT` alone, which stands apart from all the fields named;
targets that are taken do not clash. -/
theorem crossingTargetsAreDistinct : Obligations.CrossingTargetsAreDistinct := by
  intro s req e hwrite hon hidle
  refine ⟨startApply s e, congrArg Host.Outcome.next
    ((fieldWrite_of_takesWrite hwrite _).trans (crossingApply_of_idle hon hidle)),
    fun hclash => ?refused, fun hdistinct a b hab haa hab' => ?taken⟩
  case refused =>
    rw [startApply_of_clash hclash]
    have hcurrent : ∀ (e g : OeId) (w : Fin 8), fkey (crossingP g) CROSSING_CURRENT w ≠
        fkey (crossingP e) CROSSING_LAST_RESULT 0 := by decide
    have hshown : ∀ (e g : OeId), ∀ f ∈ [CROSSING_BUSY, CROSSING_PENDING, CROSSING_STEP],
        fkey (crossingP g) f 0 ≠ fkey (crossingP e) CROSSING_LAST_RESULT 0 := by decide
    have hlstate : ∀ (e : OeId) (a : AlleyId), fkey (alleyP a) ALLEY_LSTATE 0 ≠
        fkey (crossingP e) CROSSING_LAST_RESULT 0 := by decide
    refine ⟨rfl, rd_wr_same_of_listed (refusedTarget_listed e),
      fun g w => rd_refusedTarget (hcurrent e g w), fun g => ⟨?_, ?_, ?_⟩,
      fun a => rd_refusedTarget (hlstate e a)⟩
    all_goals exact rd_refusedTarget (hshown e g _ (by decide))
  case taken =>
    have hlt (k : Fin 8) : k.val < (targetsOf s e).length := by simp
    have hget (k : Fin 8) : (targetsOf s e).getD k 0 = (targetsOf s e)[k.val]'(hlt k) :=
      by rw [List.getD_eq_getElem?_getD, List.getElem?_eq_getElem (hlt k), Option.getD_some]
    rw [hget] at haa hab' ⊢
    rw [hget]
    refine ⟨wgPos_ne_of_not_targetsClash hdistinct (hlt a) (hlt b) (Fin.val_ne_of_ne hab) haa hab',
      ?_⟩
    have hfound := find_zipIdx (targetsOf s e) 0 a
    rwa [Nat.zero_add, List.getElem?_eq_getElem (hlt a), ← crossing_startApply_targets hdistinct]
      at hfound

end Sys2Proof.Proofs
end

section
/-!
SUPPORT. Bytes and the numbers they spell (R251), and the cyclic codes of the links (R195, R197,
R198): their range, and that the first bytes under a CRC-32 can be told from its value.
-/
open Sys2Proof Sys2Proof.Machine Sys2Proof.Safety Sys2Proof.Laws
namespace Sys2Proof.Proofs

/-! ### Little-endian bytes -/

@[simp] theorem leBytes_length (n v : Nat) : (leBytes n v).length = n := by
  induction n generalizing v with
  | zero => rfl
  | succ n ih => rw [leBytes, List.length_cons, ih]

/-- A list of bytes is spelled by its number. -/
theorem leBytes_leNat (bs : List Byte) : leBytes bs.length (leNat bs) = bs := by
  induction bs with
  | nil => rfl
  | cons b bs ih =>
    have hbyte : BitVec.ofNat 8 (leNat (b :: bs)) = b := by
      refine BitVec.eq_of_toNat_eq ?_
      rw [BitVec.toNat_ofNat, leNat, Nat.add_mul_mod_self_left, Nat.mod_eq_of_lt b.isLt]
    have hrest : leNat (b :: bs) / 256 = leNat bs := by
      have hlt : b.toNat < 256 := b.isLt
      rw [leNat]
      omega
    rw [List.length_cons, leBytes, hbyte, hrest, ih]

/-- The field that follows `as` reads as the number written there. -/
theorem leAt_append (as bs cs : List Byte) :
    leAt (as ++ (bs ++ cs)) as.length bs.length = leNat bs := by
  rw [leAt, List.drop_left, List.take_left]

/-! ### CRC-32 (R195, R197) -/

theorem eq_of_xor_eq_xor {a b c : Nat} (h : a ^^^ c = b ^^^ c) : a = b := by
  have hagain : a ^^^ c ^^^ c = b ^^^ c ^^^ c := by rw [h]
  rwa [Nat.xor_assoc, Nat.xor_assoc, Nat.xor_self, Nat.xor_zero, Nat.xor_zero] at hagain

theorem crc32Bit_lt {c : Nat} (hc : c < 2 ^ 32) : crc32Bit c < 2 ^ 32 := by
  have hhalf : c / 2 < 2 ^ 32 := Nat.lt_of_le_of_lt (Nat.div_le_self c 2) hc
  unfold crc32Bit
  split
  · exact Nat.xor_lt_two_pow hhalf (by decide)
  · exact hhalf

/-- A step drops the lowest bit, and bit 31 then tells which bit it was. -/
theorem testBit_crc32Bit {c : Nat} (h : c < 2 ^ 32) :
    (crc32Bit c).testBit 31 = decide (c % 2 = 1) := by
  have hhalf : (c / 2).testBit 31 = false := Nat.testBit_lt_two_pow (by omega)
  unfold crc32Bit
  split
  next hodd => rw [Nat.testBit_xor, hhalf, decide_eq_true hodd]; decide
  next heven => rw [hhalf, decide_eq_false heven]

theorem crc32Bit_inj {c d : Nat} (hc : c < 2 ^ 32) (hd : d < 2 ^ 32)
    (h : crc32Bit c = crc32Bit d) : c = d := by
  have hparity : c % 2 = 1 ↔ d % 2 = 1 := by
    rw [← decide_eq_decide, ← testBit_crc32Bit hc, ← testBit_crc32Bit hd, h]
  have hhalf : c / 2 = d / 2 := by
    by_cases hodd : c % 2 = 1
    · rw [crc32Bit, crc32Bit, if_pos hodd, if_pos (hparity.mp hodd)] at h
      exact eq_of_xor_eq_xor h
    · rwa [crc32Bit, crc32Bit, if_neg hodd, if_neg (hodd ∘ hparity.mpr)] at h
  omega

/-- The step is linear, and what stands above its lowest bit only moves down. -/
theorem crc32Bit_xor_double (c x : Nat) : crc32Bit (c ^^^ 2 * x) = crc32Bit c ^^^ x := by
  have hlow : (c ^^^ 2 * x) % 2 = c % 2 := by
    have hcut := Nat.xor_mod_two_pow (a := c) (b := 2 * x) (n := 1)
    rwa [Nat.pow_one, Nat.mul_mod_right, Nat.xor_zero] at hcut
  have hhalf : (c ^^^ 2 * x) / 2 = c / 2 ^^^ x := by
    rw [Nat.xor_div_two, Nat.mul_div_cancel_left x (by decide)]
  unfold crc32Bit
  rw [hlow, hhalf]
  split
  · rw [Nat.xor_assoc, Nat.xor_comm x, Nat.xor_assoc]
  · rfl

/-- The steps for `k` bits. -/
def crc32Bits : Nat → Nat → Nat
  | 0, c => c
  | k + 1, c => crc32Bits k (crc32Bit c)

theorem crc32Bits_lt (k : Nat) {c : Nat} (hc : c < 2 ^ 32) : crc32Bits k c < 2 ^ 32 := by
  induction k generalizing c with
  | zero => exact hc
  | succ k ih => exact ih (crc32Bit_lt hc)

theorem crc32Bits_inj (k : Nat) {c d : Nat} (hc : c < 2 ^ 32) (hd : d < 2 ^ 32)
    (h : crc32Bits k c = crc32Bits k d) : c = d := by
  induction k generalizing c d with
  | zero => exact h
  | succ k ih => exact crc32Bit_inj hc hd (ih (crc32Bit_lt hc) (crc32Bit_lt hd) h)

theorem crc32Bits_xor (k c x : Nat) : crc32Bits k (c ^^^ 2 ^ k * x) = crc32Bits k c ^^^ x := by
  induction k generalizing c with
  | zero => rw [Nat.pow_zero, Nat.one_mul, crc32Bits, crc32Bits]
  | succ k ih => rw [Nat.pow_succ', Nat.mul_assoc, crc32Bits, crc32Bit_xor_double, ih, crc32Bits]

theorem crc32Bits_add (j k c : Nat) : crc32Bits (j + k) c = crc32Bits k (crc32Bits j c) := by
  induction j generalizing c with
  | zero => rw [Nat.zero_add, crc32Bits]
  | succ j ih => rw [Nat.succ_add, crc32Bits, ih, crc32Bits]

theorem crc32Byte_eq_crc32Bits (c : Nat) (b : Byte) :
    crc32Byte c b = crc32Bits 8 (c ^^^ b.toNat) := by
  simp only [crc32Byte, crc32Bits]

theorem leNat_cons_eq_xor (b : Byte) (bs : List Byte) :
    leNat (b :: bs) = b.toNat ^^^ 2 ^ 8 * leNat bs := by
  rw [leNat, Nat.add_comm, Nat.xor_comm]
  refine Nat.eq_of_testBit_eq fun i => ?_
  rw [Nat.testBit_two_pow_mul_add _ b.isLt, Nat.testBit_xor, Nat.testBit_two_pow_mul]
  by_cases hi : i < 8
  · simp [hi, Nat.not_le.mpr hi]
  · have hhigh : b.toNat.testBit i = false :=
      Nat.testBit_lt_two_pow
        (Nat.lt_of_lt_of_le b.isLt (Nat.pow_le_pow_right (by decide) (Nat.le_of_not_lt hi)))
    simp [hi, hhigh, Nat.le_of_not_lt hi]

/-- Bytes are taken up as one number, a step for each bit. -/
theorem foldl_crc32Byte (bs : List Byte) (c : Nat) :
    bs.foldl crc32Byte c = crc32Bits (8 * bs.length) (c ^^^ leNat bs) := by
  induction bs generalizing c with
  | nil => rw [leNat, Nat.xor_zero]; rfl
  | cons b bs ih =>
    rw [List.foldl_cons, ih, crc32Byte_eq_crc32Bits, leNat_cons_eq_xor, ← Nat.xor_assoc,
      ← crc32Bits_xor, ← crc32Bits_add, List.length_cons, Nat.mul_succ, Nat.add_comm 8]

theorem crc32Byte_lt {c : Nat} (hc : c < 2 ^ 32) (b : Byte) : crc32Byte c b < 2 ^ 32 := by
  rw [crc32Byte_eq_crc32Bits]
  exact crc32Bits_lt 8 (Nat.xor_lt_two_pow hc (Nat.lt_trans b.isLt (by decide)))

theorem crc32Byte_inj {c d : Nat} (hc : c < 2 ^ 32) (hd : d < 2 ^ 32) {b : Byte}
    (h : crc32Byte c b = crc32Byte d b) : c = d := by
  have hb : b.toNat < 2 ^ 32 := Nat.lt_trans b.isLt (by decide)
  rw [crc32Byte_eq_crc32Bits, crc32Byte_eq_crc32Bits] at h
  exact eq_of_xor_eq_xor
    (crc32Bits_inj 8 (Nat.xor_lt_two_pow hc hb) (Nat.xor_lt_two_pow hd hb) h)

theorem foldl_crc32Byte_lt (bs : List Byte) {c : Nat} (hc : c < 2 ^ 32) :
    bs.foldl crc32Byte c < 2 ^ 32 :=
  List.foldlRecOn (motive := (· < 2 ^ 32)) bs _ hc fun _ hx b _ => crc32Byte_lt hx b

theorem foldl_crc32Byte_inj {bs : List Byte} {c d : Nat} (hc : c < 2 ^ 32) (hd : d < 2 ^ 32)
    (h : bs.foldl crc32Byte c = bs.foldl crc32Byte d) : c = d := by
  induction bs generalizing c d with
  | nil => exact h
  | cons b bs ih => exact crc32Byte_inj hc hd (ih (crc32Byte_lt hc b) (crc32Byte_lt hd b) h)

theorem crc32_lt (bs : List Byte) : crc32 bs < 2 ^ 32 :=
  Nat.xor_lt_two_pow (foldl_crc32Byte_lt bs (by decide)) (by decide)

/-- Two link prefixes before the same bytes give two values. -/
theorem crc32_leBytes_append_inj {bs : List Byte} {v w : Nat} (hv : v < 2 ^ 32) (hw : w < 2 ^ 32)
    (h : crc32 (leBytes 4 v ++ bs) = crc32 (leBytes 4 w ++ bs)) : v = w := by
  have hones : 0xFFFFFFFF < 2 ^ 32 := by decide
  have hstate (v : Nat) (hv : v < 256 ^ 4) :
      (leBytes 4 v).foldl crc32Byte 0xFFFFFFFF = crc32Bits 32 (0xFFFFFFFF ^^^ v) := by
    rw [foldl_crc32Byte, leBytes_length, leNat_leBytes, Nat.mod_eq_of_lt hv]
  have hfold := eq_of_xor_eq_xor h
  rw [List.foldl_append, List.foldl_append] at hfold
  have hbefore :=
    foldl_crc32Byte_inj (foldl_crc32Byte_lt _ hones) (foldl_crc32Byte_lt _ hones) hfold
  rw [hstate v hv, hstate w hw, Nat.xor_comm _ v, Nat.xor_comm _ w] at hbefore
  exact eq_of_xor_eq_xor
    (crc32Bits_inj 32 (Nat.xor_lt_two_pow hv hones) (Nat.xor_lt_two_pow hw hones) hbefore)

/-! ### CRC-8 (R192, R198) -/

theorem crc8Bit_lt {c : Nat} (h : c < 2 ^ 8) : crc8Bit c < 2 ^ 8 := by
  unfold crc8Bit
  split
  · exact Nat.xor_lt_two_pow (Nat.mod_lt _ (by decide)) (by decide)
  · omega

theorem crc8_lt (bs : List Byte) : crc8 bs < 2 ^ 8 := by
  refine List.foldlRecOn (motive := (· < 2 ^ 8)) bs _ (by decide) fun c hc b _ => ?_
  unfold crc8Byte
  iterate 8 refine crc8Bit_lt ?_
  exact Nat.xor_lt_two_pow hc b.isLt

end Sys2Proof.Proofs
end

section
/-!
PROOF. What the lanes of a link carry (R194, R195, R197, R198): the units of a flit gather to the
same flit, its CRC tells its receiver, and four side units hold a word.
-/
open Sys2Proof Sys2Proof.Machine Sys2Proof.Safety Sys2Proof.Laws
namespace Sys2Proof.Proofs

/-! ### Units on their lanes (R194) -/

theorem unitLane_add_width (n slot u : Nat) : unitLane n slot (u + n) = unitLane n slot u := by
  rw [unitLane, unitLane, ← Nat.add_assoc, Nat.add_mod_right]

/-- Units closer than the width of the link travel on different lanes. -/
theorem unitLane_ne {n u v : Nat} (slot : Nat) (hlt : u < v) (hnear : v < u + n) :
    unitLane n slot v ≠ unitLane n slot u := by
  intro h
  have hdiff : (32 * slot + v - (32 * slot + u)) % n = 0 := Nat.sub_mod_eq_zero_of_mod_eq h
  rw [Nat.add_sub_add_left, Nat.mod_eq_of_lt (by omega)] at hdiff
  omega

theorem range_eq_append_cons {u m : Nat} (h : u < m) :
    List.range m = List.range u ++ u :: (List.range (m - (u + 1))).map (u + 1 + ·) := by
  obtain ⟨k, rfl⟩ : ∃ k, m = u + 1 + k := ⟨m - (u + 1), by omega⟩
  rw [List.range_add, List.range_succ, List.append_assoc, Nat.add_sub_cancel_left]
  rfl

/-- One unit of every `n` before unit `u` travels on its lane: the one `n` before it, and those of
that one. -/
theorem length_filter_unitLane {n : Nat} (slot u : Nat) (hn : 0 < n) :
    ((List.range u).filter (fun v => unitLane n slot v == unitLane n slot u)).length = u / n := by
  induction u using Nat.strongRecOn with
  | ind u ih =>
    by_cases hlt : u < n
    · have hnone :
          (List.range u).filter (fun v => unitLane n slot v == unitLane n slot u) = [] := by
        refine List.filter_eq_nil_iff.mpr fun v hv heq => ?_
        exact unitLane_ne slot (List.mem_range.mp hv) (by omega) (beq_iff_eq.mp heq).symm
      rw [hnone, List.length_nil, Nat.div_eq_of_lt hlt]
    · obtain ⟨w, rfl⟩ : ∃ w, u = w + n := ⟨u - n, by omega⟩
      have hnone : ((List.range (w + n - (w + 1))).map (w + 1 + ·)).filter
          (fun v => unitLane n slot v == unitLane n slot w) = [] := by
        refine List.filter_eq_nil_iff.mpr fun v hv heq => ?_
        obtain ⟨k, hk, rfl⟩ := List.mem_map.mp hv
        have hlt := List.mem_range.mp hk
        exact unitLane_ne slot (by omega) (by omega) (beq_iff_eq.mp heq)
      rw [unitLane_add_width, range_eq_append_cons (Nat.lt_add_of_pos_right hn), List.filter_append,
        List.filter_cons, if_pos (beq_self_eq_true _), hnone, List.length_append,
        ih w (Nat.lt_add_of_pos_right hn), Nat.add_div_right w hn]
      rfl

/-- Unit `u` is number `u / n` of its lane. -/
theorem laneUnits_getD {n u : Nat} (slot : Nat) (flit : List Byte) (hn : 0 < n) (hu : u < 32) :
    (laneUnits n slot (unitLane n slot u) flit).getD (u / n) 0 = leAt flit (2 * u) 2 := by
  rw [laneUnits, range_eq_append_cons hu, List.filter_append, List.filter_cons_of_pos (by simp),
    List.map_append, List.map_cons, ← length_filter_unitLane slot u hn,
    List.getD_eq_getElem?_getD]
  simp

theorem stripe_getD {n u : Nat} (slot : Nat) (flit : List Byte) (hn : 0 < n) :
    (stripe n slot flit).getD (unitLane n slot u) []
      = laneUnits n slot (unitLane n slot u) flit := by
  have hlt : unitLane n slot u < n := Nat.mod_lt _ hn
  simp [stripe, List.getD_eq_getElem?_getD, hlt]

/-- The pairs of bytes of a flit, end to end, are the flit. -/
theorem flatMap_pairs (flit : List Byte) (k : Nat) (hk : 2 * k ≤ flit.length) :
    (List.range k).flatMap (fun u => leBytes 2 (leAt flit (2 * u) 2)) = flit.take (2 * k) := by
  induction k with
  | zero => rfl
  | succ k ih =>
    have hlen : ((flit.drop (2 * k)).take 2).length = 2 := by
      rw [List.length_take, List.length_drop]
      omega
    have hpair : leBytes 2 (leAt flit (2 * k) 2) = (flit.drop (2 * k)).take 2 := by
      have hspelled := leBytes_leNat ((flit.drop (2 * k)).take 2)
      rwa [hlen] at hspelled
    rw [List.range_succ, List.flatMap_append, ih (by omega), List.flatMap_singleton, hpair,
      Nat.mul_succ, List.take_add]

theorem unstripe_stripe {n slot : Nat} {flit : List Byte} (hn : 0 < n) (hlen : flit.length = 64) :
    unstripe n slot (stripe n slot flit) = flit := by
  have hunit : ∀ u ∈ List.range 32,
      leBytes 2 (((stripe n slot flit).getD (unitLane n slot u) []).getD (u / n) 0)
        = leBytes 2 (leAt flit (2 * u) 2) := fun u hu => by
    rw [stripe_getD slot flit hn, laneUnits_getD slot flit hn (List.mem_range.mp hu)]
  rw [unstripe, List.flatMap_def, List.map_congr_left hunit, ← List.flatMap_def,
    flatMap_pairs flit 32 (by omega), List.take_of_length_le (by omega)]

/-! ### The CRC of a flit (R195, R197) -/

section
variable {payload : List Byte} (hlen : payload.length = 56)
include hlen

theorem makeFlit_length (pre seq : Nat) : (makeFlit pre seq payload).length = 64 := by
  simp [makeFlit, hlen]

/-- A flit is good for the link prefixes under which its bytes have the CRC that it carries. -/
theorem flitGood_makeFlit (pre seq other : Nat) : flitGood other (makeFlit pre seq payload) =
    (crc32 (leBytes 4 pre ++ (payload ++ leBytes 2 seq))
      == crc32 (leBytes 4 other ++ (payload ++ leBytes 2 seq))) := by
  have hbody : (payload ++ leBytes 2 seq).length = 58 := by simp [hlen]
  have hcrc : crc32 (leBytes 4 pre ++ (payload ++ leBytes 2 seq)) < 256 ^ 4 := crc32_lt _
  unfold flitGood makeFlit
  extract_lets body data c
  have hflit : data ++ leBytes 1 c.1 ++ leBytes 1 c.2
      = body ++ (leBytes 4 (crc32 (leBytes 4 pre ++ body))
        ++ (leBytes 1 c.1 ++ leBytes 1 c.2)) := by
    simp only [data, List.append_assoc]
  have hat := leAt_append body (leBytes 4 (crc32 (leBytes 4 pre ++ body)))
    (leBytes 1 c.1 ++ leBytes 1 c.2)
  rw [hbody, leBytes_length, leNat_leBytes, Nat.mod_eq_of_lt hcrc] at hat
  rw [hflit, hat, List.take_left' hbody]

theorem flitGood_makeFlit_same (pre seq : Nat) :
    flitGood pre (makeFlit pre seq payload) = true := by
  rw [flitGood_makeFlit hlen, beq_self_eq_true]

theorem flitGood_makeFlit_of_ne {pre seq other : Nat} (hpre : pre < 2 ^ 32)
    (hother : other < 2 ^ 32) (hne : other ≠ pre) :
    flitGood other (makeFlit pre seq payload) = false := by
  rw [flitGood_makeFlit hlen, beq_eq_false_iff_ne]
  exact fun h => hne (crc32_leBytes_append_inj hpre hother h).symm

end

/-! ### Words and their side units (R194, R198) -/

theorem withCheck_lt {w : Nat} : withCheck w < 2 ^ 56 := by
  have hcrc := crc8_lt (leBytes 6 w)
  unfold withCheck
  omega

theorem withCheck_mod {w : Nat} (hw : w < 2 ^ 48) : withCheck w % 2 ^ 48 = w := by
  rw [withCheck, Nat.add_mul_mod_self_left, Nat.mod_mod, Nat.mod_eq_of_lt hw]

theorem checkGood_withCheck {w : Nat} (hw : w < 2 ^ 48) : checkGood (withCheck w) = true := by
  have hcheck : withCheck w / 2 ^ 48 = crc8 (leBytes 6 w) := by
    unfold withCheck
    omega
  rw [checkGood, withCheck_mod hw, hcheck,
    Nat.mod_eq_of_lt (show crc8 _ < 256 from crc8_lt _), beq_self_eq_true]

/-- The part of a word in a side unit, and the kind above it, fit its 16 bits. -/
theorem sideUnit_toNat {kind : Nat} (hkind : kind < 4) (w part : Nat) :
    (BitVec.ofNat 16 (sideUnit kind w part)).toNat = sideUnit kind w part := by
  have hpart : bitsOf w (14 * part) 14 < 2 ^ 14 := Nat.mod_lt _ (by decide)
  rw [BitVec.toNat_ofNat, Nat.mod_eq_of_lt]
  unfold sideUnit
  omega

theorem sideUnit_div (kind w part : Nat) : sideUnit kind w part / 2 ^ 14 = kind := by
  have hpart : bitsOf w (14 * part) 14 < 2 ^ 14 := Nat.mod_lt _ (by decide)
  unfold sideUnit
  omega

theorem sideUnit_mod (kind w part : Nat) :
    sideUnit kind w part % 2 ^ 14 = bitsOf w (14 * part) 14 := by
  rw [sideUnit, Nat.mul_add_mod, bitsOf, Nat.mod_mod]

/-- Four parts of 14 bits are a word of 56. -/
theorem bitsOf_parts {w : Nat} (hw : w < 2 ^ 56) :
    bitsOf w (14 * 0) 14 + 2 ^ 14 * bitsOf w (14 * 1) 14 + 2 ^ 28 * bitsOf w (14 * 2) 14
      + 2 ^ 42 * bitsOf w (14 * 3) 14 = w := by
  unfold bitsOf
  omega

theorem sidesWord_sideUnits {kind w : Nat} (hkind : kind < 4) (hw : w < 2 ^ 56) :
    sidesWord kind ⟨BitVec.ofNat 16 (sideUnit kind w 0), BitVec.ofNat 16 (sideUnit kind w 1),
      BitVec.ofNat 16 (sideUnit kind w 2), BitVec.ofNat 16 (sideUnit kind w 3)⟩ = some w := by
  simp only [sidesWord, sideUnit_toNat hkind, List.all_cons, List.all_nil, sideUnit_div,
    beq_self_eq_true, Bool.and_self, if_true, List.zipIdx_cons, List.zipIdx_nil, List.foldl_cons,
    List.foldl_nil, sideUnit_mod]
  have hparts := bitsOf_parts hw
  congr 1
  omega

/-- Settles O60, part by part: striping, the CRC of a flit, and the side units of a word, in the
order of log entry 141. -/
theorem whatTheLanesCarryArrives : Obligations.WhatTheLanesCarryArrives := by
  refine ⟨fun n slot flit hn hlen => unstripe_stripe hn hlen, fun pre seq payload hlen => ?flit,
    fun kind word hkind hword => ?word⟩
  case flit =>
    exact ⟨makeFlit_length hlen pre seq, flitGood_makeFlit_same hlen pre seq,
      fun other hpre hother hne => flitGood_makeFlit_of_ne hlen hpre hother hne⟩
  case word =>
    exact ⟨sidesWord_sideUnits hkind withCheck_lt, withCheck_mod hword, checkGood_withCheck hword⟩

end Sys2Proof.Proofs
end

section
/-!
PROOF. The commands of the Crossing and of the optical engines (R184 to R190, R201, R208): what each
does where its conditions hold.
-/
open Sys2Proof Sys2Proof.Machine Sys2Proof.Safety Sys2Proof.Laws
namespace Sys2Proof.Proofs

variable {s : State} {e : OeId}

/-! ### Writes of the host (R184, R208, R210) -/

theorem exec_crossingApply {req : PortId}
    (hwrite : takesWrite s req (crossingP e) CROSSING_APPLY = true) :
    exec (.crossingApply req e) s = .next (crossingApply s e) :=
  congrArg Host.Outcome.next (fieldWrite_of_takesWrite hwrite _)

theorem exec_oeEnableWrite {req : PortId} (hwrite : takesWrite s req (oeP e) HDR_ENABLE = true)
    (on : Bool) : exec (.oeEnableWrite req e on) s
      = .next (blockEnable s (oeP e) on (fun s => s) (fun s => engineDark s e)) :=
  congrArg Host.Outcome.next (fieldWrite_of_takesWrite hwrite _)

theorem exec_blvdEnableWrite {req : PortId} {tx : Bool}
    (hwrite : takesWrite s req (blvdP e) (if tx then BLVD_TX_ENABLE else BLVD_RX_ENABLE) = true)
    (v : BitVec 32) : exec (.blvdEnableWrite req e tx v) s = .next (blvdEnable s e tx v.toNat) :=
  congrArg Host.Outcome.next (fieldWrite_of_takesWrite hwrite _)

/-! ### Events of an engine in service -/

section
variable (hon : oeOn s e = true)
include hon

/-- No move is in progress, and the next waveguide of the `APPLY` moves. -/
theorem exec_crossingMove {w : Nat} {r : List Nat} (hcur : (crossing s e).cur = none)
    (htodo : (crossing s e).todo = w :: r) (hbusy : rd s (crossingP e) CROSSING_BUSY = 1)
    (l : List CellSet) (y : List CellCal) (k : BitVec 8) :
    exec (.crossingMove e l y k) s = .next (beginMove
      (setCrossing s e { crossing s e with todo := r }) e w l y (disturbed s e w k.toNat)) := by
  change execCrossingMove e l y k s = _
  simp [execCrossingMove, hcur, htodo, hon, hbusy]

theorem exec_moveStepTimeout {m : Move} (hcur : (crossing s e).cur = some m) :
    exec (.moveStepTimeout e) s = .next (moveFails s e m 3) := by
  change execMoveStepTimeout e s = _
  simp [execMoveStepTimeout, hcur, hon]

theorem exec_moveDone {m : Move} (hcur : (crossing s e).cur = some m) (hstep : m.step ≠ 1)
    (k : Bool) (x : BitVec 8) :
    exec (.moveDone e k x) s = .next (moveDone s e m k x.toNat) := by
  change execMoveDone e k x s = _
  simp [execMoveDone, hcur, hon, hstep]

theorem exec_crossingDither (hdither : rd s (crossingP e) CROSSING_DITHER_EN = 1)
    (l : List CellCode) : exec (.crossingDither e l) s = .next (dither s e l) :=
  congrArg Host.Outcome.next (if_pos (by simp [hon, hdither]))

theorem exec_combLineDark {k : Fin 32} (hlit : lineDark s e k = false) :
    exec (.combLineDark e k) s = .next (lineGoesDark s e k) :=
  congrArg Host.Outcome.next (if_pos (by simp [hon, hlit]))

/-! ### A laser that has not failed (R201, R208) -/

section
variable {l : Fin 8} (hlasts : bitOf (crossing s e).dfbDead l = false)
include hlasts

theorem exec_dfbFail_failed : exec (.dfbFail e l .failed) s = .next (noteHolds (dfbFail s e l)) :=
  congrArg Host.Outcome.next (if_neg (by simp [hon, hlasts]))

theorem exec_dfbFail_unlocked (hok : bitOf (rd s (oeP e) OE_DFB_OK) l = true) :
    exec (.dfbFail e l .unlocked) s = .next (dfbFault s e l 1) :=
  congrArg Host.Outcome.next ((if_neg (by simp [hon, hlasts])).trans (if_pos hok))

theorem exec_dfbFail_locked : exec (.dfbFail e l .locked) s
    = .next (wr s (oeP e) OE_DFB_OK (setBit (rd s (oeP e) OE_DFB_OK) l)) :=
  congrArg Host.Outcome.next (if_neg (by simp [hon, hlasts]))

end

end

/-- Settles O22: each row of the table finds its conditions met. That a laser's event is given with
`DFB_FAIL` is the model's reading (log entry 157). -/
theorem crossingAndEngines : Obligations.CrossingAndEngines := by
  refine ⟨?pending, ?begun, ?move, ?timeout, ?done, ?dither, ?enable, ?lanes, ?failed, ?unlocked,
    ?locked, ?dark⟩
  case pending =>
    intro s req e hwrite hon hbusy
    rw [exec_crossingApply hwrite, crossingApply_of_busy hon hbusy]
  case begun =>
    intro s req e hwrite hon hidle
    rw [exec_crossingApply hwrite, crossingApply_of_idle hon hidle]
  case move =>
    exact fun s e w r l y k hcur htodo hon hbusy => exec_crossingMove hon hcur htodo hbusy l y k
  case timeout => exact fun s e m hcur hon => exec_moveStepTimeout hon hcur
  case done => exact fun s e m k x hcur hon hstep => exec_moveDone hon hcur hstep k x
  case dither => exact fun s e l hon hdither => exec_crossingDither hon hdither l
  case enable => exact fun s req e on hwrite => exec_oeEnableWrite hwrite on
  case lanes => exact fun s req e x v hwrite => exec_blvdEnableWrite hwrite v
  case failed => exact fun s e l hon hlasts => exec_dfbFail_failed hon hlasts
  case unlocked => exact fun s e l hon hlasts hok => exec_dfbFail_unlocked hon hlasts hok
  case locked => exact fun s e l hon hlasts => exec_dfbFail_locked hon hlasts
  case dark => exact fun s e k hon hlit => exec_combLineDark hon hlit

end Sys2Proof.Proofs
end

section
/-!
PROOF. The messages of the link protocol (R184, R185, R193, R198, R200, R204): what a link that
hears its partner does on each.
-/
open Sys2Proof Sys2Proof.Machine Sys2Proof.Safety Sys2Proof.Laws
namespace Sys2Proof.Proofs

variable {s : State}

/-! ### The lane-grant handshake (R184, R185) -/

section
variable {l f : Nat}

/-- A RELEASE, its answer and a GRANT_REQ wait for a retraining of their Alley to end. -/
theorem alleyMsg_of_retraining {msg : Nat} (hretrains : alleyRetrains s l = true) (hmsg : msg ≤ 3) :
    alleyMsg s l msg f = askLater s l msg f := by
  simp [alleyMsg, hretrains, hmsg]

theorem alleyMsg_release (hsteady : alleyRetrains s l = false) :
    alleyMsg s l 1 f = msgRelease s l f := by simp [alleyMsg, hsteady]

theorem alleyMsg_releaseDone (hsteady : alleyRetrains s l = false) :
    alleyMsg s l 2 f = msgReleaseDone s l f := by simp [alleyMsg, hsteady]

theorem alleyMsg_grantReq (hsteady : alleyRetrains s l = false) :
    alleyMsg s l 3 f = msgGrantReq s l f := by simp [alleyMsg, hsteady]

theorem alleyMsg_grantAccept : alleyMsg s l 4 f = msgGrantAnswer s l f true := by simp [alleyMsg]

theorem alleyMsg_grantRefuse : alleyMsg s l 5 f = msgGrantAnswer s l f false := by simp [alleyMsg]

theorem msgReleaseDone_of_found {m : Move} {w : Nat}
    (hcur : (crossing s (linkEngine l)).cur = some m)
    (hfound : m.rels.find? (fun v => !m.waits.contains v && wgLink s (linkEngine l) v == l
      && wgFibre s (linkEngine l) v == f) = some w) :
    msgReleaseDone s l f
      = relDone (fibreGone (clearMsgOf s l 1 f) (linkEngine l) w) (linkEngine l) w := by
  simp only [msgReleaseDone, hcur, hfound]

theorem msgGrantReq_of_wanted (hwanted : (posHeld s (linkEngine l) (4 * linkDir l + f)
      || posTarget s (linkEngine l) (4 * linkDir l + f)) = true) :
    msgGrantReq s l f
      = sendTraining (sendMsg (forgetLanes s l f) l 4 f) l (bitList 32 (fibreLanes f)) :=
  if_pos hwanted

theorem msgGrantReq_of_unwanted (hunwanted : (posHeld s (linkEngine l) (4 * linkDir l + f)
      || posTarget s (linkEngine l) (4 * linkDir l + f)) = false) :
    msgGrantReq s l f = sendMsg s l 5 f :=
  if_neg (Bool.eq_false_iff.mp hunwanted)

section
variable {m : Move} (hcur : (crossing s (linkEngine l)).cur = some m) (hstep : m.step = 3)
  (hlink : posLink (linkEngine l) (wgPos m.target) = l) (hfibre : posFibre (wgPos m.target) = f)
include hcur hstep hlink hfibre

/-- The answer is for the fibre that the move in progress offers. -/
theorem msgGrantAnswer_of_offered (accept : Bool) : msgGrantAnswer s l f accept =
    if accept then sendTraining (setStep (clearMsgOf s l 3 f) (linkEngine l) m 4) l
      (bitList 32 (fibreLanes f))
    else moveFails (clearMsgOf s l 3 f) (linkEngine l) m 2 := by
  simp [msgGrantAnswer, hcur, hstep, hlink, hfibre]

end

end

section
variable {a : AlleyId} (hhears : hears s a = true) (f : Fin 4)
include hhears

theorem exec_release : exec (.release a f) s = .next (alleyMsg s a 1 f) :=
  congrArg Host.Outcome.next (if_pos hhears)

theorem exec_releaseDone : exec (.releaseDone a f) s = .next (alleyMsg s a 2 f) :=
  congrArg Host.Outcome.next (if_pos hhears)

theorem exec_grantReq : exec (.grantReq a f) s = .next (alleyMsg s a 3 f) :=
  congrArg Host.Outcome.next (if_pos hhears)

theorem exec_grantAccept : exec (.grantAccept a f) s = .next (alleyMsg s a 4 f) :=
  congrArg Host.Outcome.next (if_pos hhears)

theorem exec_grantRefuse : exec (.grantRefuse a f) s = .next (alleyMsg s a 5 f) :=
  congrArg Host.Outcome.next (if_pos hhears)

end

/-! ### Dropped lanes, relocks, retraining and handover (R193, R198, R200, R204) -/

section
variable {l : LinkId} (k : Fin 32)

theorem exec_dropNotice (hhears : hears s l = true) :
    exec (.dropNotice l k) s = .next (msgDrop s l k) :=
  congrArg Host.Outcome.next (if_pos hhears)

theorem exec_relockReq (hlive : linkLive s l = true) :
    exec (.relockReq l k) s = .next (msgRelock s l k) :=
  congrArg Host.Outcome.next (if_pos hlive)

theorem exec_retrainReq (hhears : hears s l = true) :
    exec (.retrainReq l) s = .next (msgRetrain s l) :=
  congrArg Host.Outcome.next (if_pos hhears)

theorem exec_handover (hhears : hears s l = true) (e : OeId) (q : Fin 65536) :
    exec (.handover l e q) s = .next (msgHandover s l e q) :=
  congrArg Host.Outcome.next (if_pos hhears)

end

/-- A lane that an Alley sends on is dropped, for a cause that the message does not hold. -/
theorem msgDrop_of_alley {l k : Nat} (halley : isAlley l = true) (hup : txUp s l = true)
    (hsent : bitOf (rd s (alleyP l) ALLEY_TX_LANES) k = true) :
    msgDrop s l k = checkWidth (dropLane { s with fresh := s.fresh + 1 } l k
      (Config.freeNat s.fresh) false) l := by
  simp [msgDrop, halley, hup, hsent, freeNat]

theorem msgDrop_of_boulevard {l k : Nat} (hline : isAlley l = false)
    (hup : txUp s (blvdLink (linkEngine l) k) = true) :
    msgDrop s l k = dropLine { s with fresh := s.fresh + 1 } (blvdLink (linkEngine l) k)
      (Config.freeNat s.fresh) 2 false := by
  simp [msgDrop, hline, hup, freeNat]

/-- Settles O23: each message finds its conditions met. The cause of a dropped lane is a free value,
and a grant is answered against the applied targets (log entries 75 and 77). -/
theorem linkMessages : Obligations.LinkMessages := by
  refine ⟨?release, ?releaseWaits, ?releaseDone, ?wanted, ?unwanted, ?accept, ?refuse, ?dropLane,
    ?dropLine, ?relock, ?retrain, ?handover⟩
  case release =>
    intro s a f hhears hsteady
    rw [exec_release hhears, alleyMsg_release hsteady, msgRelease]
  case releaseWaits =>
    intro s a f hhears hretrains
    rw [exec_release hhears, alleyMsg_of_retraining hretrains (by decide)]
  case releaseDone =>
    intro s a f m w hhears hsteady hcur hfound
    rw [exec_releaseDone hhears, alleyMsg_releaseDone hsteady, msgReleaseDone_of_found hcur hfound]
  case wanted =>
    intro s a f hhears hsteady hwanted
    rw [exec_grantReq hhears, alleyMsg_grantReq hsteady, msgGrantReq_of_wanted hwanted]
  case unwanted =>
    intro s a f hhears hsteady hunwanted
    rw [exec_grantReq hhears, alleyMsg_grantReq hsteady, msgGrantReq_of_unwanted hunwanted]
  case accept =>
    intro s a f m hhears hcur hstep hlink hfibre
    rw [exec_grantAccept hhears, alleyMsg_grantAccept,
      msgGrantAnswer_of_offered hcur hstep hlink hfibre, if_pos rfl]
  case refuse =>
    intro s a f m hhears hcur hstep hlink hfibre
    rw [exec_grantRefuse hhears, alleyMsg_grantRefuse,
      msgGrantAnswer_of_offered hcur hstep hlink hfibre, if_neg Bool.false_ne_true]
  case dropLane =>
    intro s l k hhears halley hup hsent
    rw [exec_dropNotice k hhears, msgDrop_of_alley halley hup hsent]
  case dropLine =>
    intro s l k hhears hline hup
    rw [exec_dropNotice k hhears, msgDrop_of_boulevard hline hup]
  case relock => exact fun s l k hlive => exec_relockReq k hlive
  case retrain => exact fun s l hhears => exec_retrainReq hhears
  case handover => exact fun s l e q hhears => exec_handover hhears e q

end Sys2Proof.Proofs
end

section
/-!
PROOF. Words, flits, lanes and retraining of a link (R191 to R193, R195, R197 to R201, R203, R209):
what each command does where its conditions hold.
-/
open Sys2Proof Sys2Proof.Machine Sys2Proof.Safety Sys2Proof.Laws
namespace Sys2Proof.Proofs

variable {s : State} {l : LinkId}

/-! ### Identity words (R192, R193) -/

/-- Whether a word is looked at, and whether its check is good, is part of what it does. -/
theorem exec_laneIdentityWord {k : Fin 32} {x : Sides} {w : Nat} (hword : sidesWord 1 x = some w)
    (p : Bool) (v : BitVec 32) :
    exec (.laneIdentityWord l k x p v) s = .next (identityWord s l k w p v.toNat) := by
  change execLaneIdentityWord l k x p v s = _
  simp only [execLaneIdentityWord, hword]

theorem exec_identityTimeout {k : Fin 32} (hlive : linkLive s l = true)
    (htested : laneTested s l k = true) :
    exec (.identityTimeout l k) s = .next (relockOrDark (moveTrains s l k) l k true) :=
  congrArg Host.Outcome.next (if_pos (by simp [hlive, htested]))

/-! ### Flits, link words and replay (R195, R198, R199) -/

theorem exec_flitReceive {b : List (List (BitVec 16))} (hunits : b.flatten.length = 32)
    (hhears : linkHears s l = true) : exec (.flitReceive l b) s = .next (receiveFlit s l b) := by
  change execFlitReceive l b s = _
  rw [execFlitReceive, if_neg (not_not_intro hunits), if_pos hhears]

theorem exec_linkWordReceive {x : Sides} {w : Nat} (hword : sidesWord 0 x = some w)
    (hhears : hears s l = true) : exec (.linkWordReceive l x) s = .next (linkWord s l w) := by
  change execLinkWordReceive l x s = _
  simp only [execLinkWordReceive, hword, hhears, if_true]

theorem exec_nakRepeat (hhears : linkHears s l = true) (hnak : (link s l).nak = true) :
    exec (.nakRepeat l) s
      = .next (sendWord (setLink s l { link s l with nakDue := true }) (revLink l)) :=
  congrArg Host.Outcome.next (if_pos (by simp [hhears, hnak]))

theorem exec_replayTimeout (hplaza : plazaUp s = true) (hsends : linkSends s l = true)
    (hretry : (link s l).retry ≠ []) :
    exec (.replayTimeout l) s = .next (noteHolds (replayLink s l)) :=
  congrArg Host.Outcome.next (if_pos (by simp [hplaza, hsends, hretry]))

/-! ### The end of a retraining (R200) -/

section
variable (hlive : linkLive s l = true) (b c : BitVec 32)
include hlive

/-- A receive direction that has not begun to retrain begins and ends it at once. -/
theorem exec_linkRetrainDone_rx (htrains : ((link s l).rxTrain || rxUp s l) = true) :
    exec (.linkRetrainDone l true b c) s = .next (noteHolds (
      if isAlley l then alleyRxDone (retrainRx s l) l b.toNat c.toNat
      else lineRetrainDone (retrainRx s l) l true b.toNat c.toNat)) :=
  congrArg Host.Outcome.next (if_pos (by simpa [hlive] using htrains))

theorem exec_linkRetrainDone_tx (htrains : (link s l).txTrain = true) :
    exec (.linkRetrainDone l false b c) s = .next (noteHolds (
      if isAlley l then alleyTxDone s l b.toNat c.toNat
      else lineRetrainDone s l false b.toNat c.toNat)) :=
  congrArg Host.Outcome.next (if_pos (by simpa [hlive] using htrains))

end

/-! ### Lanes and links lost (R201, R203), and a host's retraining (R209) -/

section
variable (hlive : linkLive s l = true) (hup : rxUp s l = true)
include hlive hup

theorem exec_laneLightLoss_alley {k : Fin 32} (halley : isAlley l = true)
    (hactive : bitOf (rd s (alleyP l) ALLEY_RX_LANES) k = true) :
    exec (.laneLightLoss l k) s = .next (laneLightLoss s l k) :=
  congrArg Host.Outcome.next (if_pos (by simp [hlive, hup, halley, hactive]))

theorem exec_laneLightLoss_boulevard (hline : isAlley l = false) :
    exec (.laneLightLoss l 0) s = .next (laneLightLoss s l 0) :=
  congrArg Host.Outcome.next (if_pos (by simp [hlive, hup, hline]))

end

theorem exec_linkWordSilence {a : AlleyId} (hlive : linkLive s a = true)
    (hup : alleyUp s a = true) :
    exec (.linkWordSilence a) s = .next (lastErr (alleyFalls s a 5) (alleyP a) 7) :=
  congrArg Host.Outcome.next (if_pos (by simp [hlive, hup]))

theorem exec_alleyRetrain {req : PortId} {a : AlleyId}
    (hwrite : takesWrite s req (alleyP a) ALLEY_RETRAIN = true) :
    exec (.alleyRetrain req a) s = .next (alleyRetrain s a) :=
  congrArg Host.Outcome.next (fieldWrite_of_takesWrite hwrite _)

/-- Settles O24: each row of the table finds its conditions met. A receive direction that ends a
retraining it has not begun, and the last error of a silent partner, are the model's (log entries
146 and 80). -/
theorem linkCommands : Obligations.LinkCommands := by
  refine ⟨?identity, ?identityTimeout, ?flit, ?word, ?nak, ?replay, ?rxAlley, ?txAlley, ?rxLine,
    ?txLine, ?lightAlley, ?lightLine, ?silence, ?retrain⟩
  case identity => exact fun s l k x w p v hword _ _ _ => exec_laneIdentityWord hword p v
  case identityTimeout => exact fun s l k hlive htested => exec_identityTimeout hlive htested
  case flit => exact fun s l b hunits hhears => exec_flitReceive hunits hhears
  case word => exact fun s l x w hword hhears => exec_linkWordReceive hword hhears
  case nak => exact fun s l hhears hnak => exec_nakRepeat hhears hnak
  case replay => exact fun s l hplaza hsends hretry => exec_replayTimeout hplaza hsends hretry
  case rxAlley =>
    intro s l b c hlive htrains halley
    rw [exec_linkRetrainDone_rx hlive b c htrains, if_pos halley]
  case txAlley =>
    intro s l b c hlive htrains halley
    rw [exec_linkRetrainDone_tx hlive b c htrains, if_pos halley]
  case rxLine =>
    intro s l b c hlive htrains hline
    rw [exec_linkRetrainDone_rx hlive b c htrains, if_neg (Bool.eq_false_iff.mp hline)]
  case txLine =>
    intro s l b c hlive htrains hline
    rw [exec_linkRetrainDone_tx hlive b c htrains, if_neg (Bool.eq_false_iff.mp hline)]
  case lightAlley =>
    exact fun s l k hlive hup halley hactive => exec_laneLightLoss_alley hlive hup halley hactive
  case lightLine =>
    exact fun s l hlive hup hline => exec_laneLightLoss_boulevard hlive hup hline
  case silence => exact fun s a hlive hup => exec_linkWordSilence hlive hup
  case retrain => exact fun s req a hwrite => exec_alleyRetrain hwrite

end Sys2Proof.Proofs
end

section
/-!
PROOF. Packets, beacons and ports (R214, R216 to R220, R238): what each command does where its
conditions hold.
-/
open Sys2Proof Sys2Proof.Machine Sys2Proof.Safety Sys2Proof.Laws
namespace Sys2Proof.Proofs

variable {s : State}

/-! ### What a link delivers (R214, R218) -/

section
variable {l : LinkId} {b r : List Byte} (hnext : nextPacket (link s l).rx = some (b, r))
  (hplaza : plazaUp s = true)
include hnext hplaza

/-- No bridge that the packet crosses holds its flow. -/
theorem exec_packetReceive (htype : pktType b ≠ 5) (hpasses : packetHeld s l b = false) :
    exec (.packetReceive l) s = .next (arrivePacket
      (crossData (takePacket s l r) [bridgeGroup l] (pktFlow b) b).1 (rxPort s l) (pktFlow b)
      (crossData (takePacket s l r) [bridgeGroup l] (pktFlow b) b).2) := by
  change execPacketReceive l s = _
  simp [execPacketReceive, hnext, hplaza, htype, hpasses]

theorem exec_beaconReceive (htopo : topoOn s = true) (htype : pktType b = 5) :
    exec (.beaconReceive l) s
      = .next (beaconAt (takePacket s l r) (rxPort s l) (linkEngine l) (b.drop 16)) := by
  change execBeaconReceive l s = _
  simp [execBeaconReceive, hnext, hplaza, htopo, htype]

end

/-! ### A silent neighbour (R217) -/

section
variable {p : Fin 36} (hplaza : plazaUp s = true)
include hplaza

/-- A port without a link is bare, where silence has not yet made its neighbour absent. -/
theorem exec_neighbourAbsent_bare (hrounds : SMap.getD s.topo.silent p 0 < 3)
    (hbare : (portLinks s p).isEmpty = true) :
    exec (.neighbourAbsent p) s = .next (portBare s p) := by
  change execNeighbourAbsent p s = _
  rw [execNeighbourAbsent, if_neg (by simp [hplaza]), if_neg (Nat.not_le.mpr hrounds),
    if_pos hbare]

theorem exec_neighbourAbsent_silent (hrounds : 3 ≤ SMap.getD s.topo.silent p 0) :
    exec (.neighbourAbsent p) s = .next (portAbsent s p) := by
  change execNeighbourAbsent p s = _
  rw [execNeighbourAbsent, if_neg (by simp [hplaza]), if_pos hrounds]

end

/-! ### Writes of the host (R218, R238) -/

section
variable {req : PortId}

theorem exec_portAccept (hwrite : takesWrite s req topoP TOPO_PORT_ACCEPT = true) (m : BitVec 4) :
    exec (.portAccept req m) s = .next ((bitList 4 m.toNat).foldl acceptPort s) :=
  congrArg Host.Outcome.next (fieldWrite_of_takesWrite hwrite _)

theorem exec_squareAccept (hwrite : takesWrite s req topoP TOPO_SQUARE_ACCEPT = true)
    (m : BitVec 32) : exec (.squareAccept req m) s
      = .next ((bitList 32 m.toNat).foldl (fun s k => acceptPort s (4 + k)) s) :=
  congrArg Host.Outcome.next (fieldWrite_of_takesWrite hwrite _)

/-- A write that no check refuses acts. -/
theorem guardedWrite_of_accepted {req off : Nat} {p : PageId}
    (haccepted : writeError s req p off = some 0) (act : State → State) :
    guardedWrite s req p off act = act s := by
  simp only [guardedWrite, haccepted]

theorem exec_quarterEntryWrite {n : Fin 4} {w : Fin 3}
    (haccepted : writeError s req topoP (0x140 + 0x10 * n.val + 4 * w.val) = some 0)
    (v : BitVec 32) :
    exec (.quarterEntryWrite req n w v) s = .next (quarterWrite s n [(w.val, v.toNat)]) :=
  congrArg Host.Outcome.next (guardedWrite_of_accepted haccepted _)

end

/-- Settles O25: each row of the table finds its conditions met. -/
theorem topologyCommands : Obligations.TopologyCommands := by
  refine ⟨?packet, ?beacon, ?bare, ?silent, ?port, ?square, ?quarter⟩
  case packet =>
    exact fun s l b r hnext hplaza htype hpasses => exec_packetReceive hnext hplaza htype hpasses
  case beacon =>
    exact fun s l b r hnext hplaza htopo htype => exec_beaconReceive hnext hplaza htopo htype
  case bare =>
    exact fun s p hplaza hrounds hbare => exec_neighbourAbsent_bare hplaza hrounds hbare
  case silent => exact fun s p hplaza hrounds => exec_neighbourAbsent_silent hplaza hrounds
  case port => exact fun s req m hwrite => exec_portAccept hwrite m
  case square => exact fun s req m hwrite => exec_squareAccept hwrite m
  case quarter => exact fun s req n w v haccepted => exec_quarterEntryWrite haccepted v

end Sys2Proof.Proofs
end

section
/-!
PROOF. The collectives that run (R229, R230, R232 to R236): what each command does where its
conditions hold.
-/
open Sys2Proof Sys2Proof.Machine Sys2Proof.Safety Sys2Proof.Laws
namespace Sys2Proof.Proofs

variable {s : State}

/-! ### Arrivals (R229, R230, R234, R235) -/

section
variable {b : List Byte} {t : State} (hplaza : plazaUp s = true)
include hplaza

/-- The packet that waits is handled, and every collective that can goes on. -/
theorem onArrival_of_taken {p : List Byte → Bool} (htaken : takeColl s p = some (b, t))
    (errs : SectorErrs) (act : State → List Byte → State) :
    onArrival s p errs act = .next (collPumpAll (act t b) errs) := by
  simp only [onArrival, htaken, hplaza, if_true]

theorem exec_collReadyReceive (htaken : takeColl s (isCtl 1) = some (b, t)) (errs : SectorErrs) :
    exec (.collReadyReceive errs) s = .next (collPumpAll (collReady t b errs) errs) :=
  onArrival_of_taken hplaza htaken errs _

theorem exec_collDataReceive (htaken : takeColl s (dataTaken s) = some (b, t))
    (errs : SectorErrs) : exec (.collDataReceive errs) s
      = .next (collPumpAll (collData (countWait t b) b errs) errs) :=
  onArrival_of_taken hplaza htaken errs _

theorem exec_collHoldReceive (htaken : takeColl s (isCtl 2) = some (b, t)) :
    exec .collHoldReceive s = .next (collPumpAll (holdIn t b) []) :=
  onArrival_of_taken hplaza htaken [] _

theorem exec_collAbortReceive (htaken : takeColl s (isCtl 3) = some (b, t)) :
    exec .collAbortReceive s = .next (collPumpAll (collAbortIn t b) []) :=
  onArrival_of_taken hplaza htaken [] _

end

/-! ### Starting and folding (R229, R230) -/

theorem exec_collInstanceStart {key : Nat} {c : Coll} (hfound : collOf s key = some c)
    (hplaza : plazaUp s = true) (hstarts : mayStart s c = true) (errs : SectorErrs) :
    exec (.collInstanceStart key errs) s
      = .next (collPumpAll (collStart s key errs) errs) := by
  change execCollInstanceStart key errs s = _
  simp only [execCollInstanceStart, hfound, hplaza, hstarts, Bool.and_self, if_true]

/-- Whether the block can be folded is part of what `collFold` does. -/
theorem exec_collBlockFold (hplaza : plazaUp s = true) (key idx : Nat) (errs : SectorErrs) :
    exec (.collBlockFold key idx errs) s = .next (collPumpAll (collFold s key idx errs) errs) :=
  congrArg Host.Outcome.next (if_pos hplaza)

/-! ### Hold and timeouts of a collective that runs (R232 to R234) -/

section
variable {key : Nat} {c : Coll} (hfound : collOf s key = some c) (hplaza : plazaUp s = true)
  (hstarted : c.started = true) (hruns : c.ending = none)
include hfound hplaza hstarted hruns

theorem onColl_of_running {p : Coll → Bool} (hp : p c = true) (act : State → Coll → State) :
    onColl s key p act = .next (act s c) := by
  simp [onColl, hfound, hplaza, hstarted, hruns, hp]

/-- That a HOLD sent adds 10 to the hold used is the model's choice (log entry 143). -/
theorem exec_collHoldSend (hhold : inHold s c = true) {c' : Coll}
    (hused : c' = { c with holdUsed := min 200 (c.holdUsed + 10) }) :
    exec (.collHoldSend key) s = .next
      (((c.d.sources (ownRank s c.d) ++ c.d.dests (ownRank s c.d)).eraseDups).foldl
        (fun s q => sendCtl s c' q 2 0) (countHold (setColl s c') c')) := by
  subst hused
  change execCollHoldSend key s = _
  rw [execCollHoldSend]
  exact onColl_of_running hfound hplaza hstarted hruns hhold _

theorem exec_collHoldExpire {rank : Nat} (hheld : c.holds.contains rank = true) :
    exec (.collHoldExpire key rank) s
      = .next (setColl s { c with holds := c.holds.filter (fun x => x != rank) }) := by
  change execCollHoldExpire key rank s = _
  rw [execCollHoldExpire, onColl_of_running hfound hplaza hstarted hruns hheld]

theorem exec_collHoldExhausted (hhold : inHold s c = true) :
    exec (.collHoldExhausted key) s = .next (c.engs.foldl (fun s e => raise s (collP e) 4)
      (setColl (countHold s c) { c with exhausted := true, holdUsed := 200 })) := by
  change execCollHoldExhausted key s = _
  rw [execCollHoldExhausted, onColl_of_running hfound hplaza hstarted hruns hhold]

theorem exec_collStartTimeout (htimed : c.d.startMs ≠ 0) (hmissing : allReady s c = false) :
    exec (.collStartTimeout key) s = .next (collPumpAll (collEnd s c.key 3 0 none) []) := by
  change execCollStartTimeout key s = _
  rw [execCollStartTimeout,
    onColl_of_running hfound hplaza hstarted hruns (by simp [htimed, hmissing])]

theorem exec_collProgressTimeout (hready : allReady s c = true) (hhold : inHold s c = false) :
    exec (.collProgressTimeout key) s = .next (collPumpAll (collEnd s c.key 2 0 none) []) := by
  change execCollProgressTimeout key s = _
  rw [execCollProgressTimeout,
    onColl_of_running hfound hplaza hstarted hruns (by simp [hready, hhold])]

end

/-! ### A host's abort (R236) -/

theorem exec_collAbort {req : PortId} {e : CollId}
    (hwrite : takesWrite s req (collP e) COLL_COLL_ABORT = true) :
    exec (.collAbort req e) s = .next (collEndAll s (fun c => c.engs.contains e.val) 1 2) :=
  congrArg Host.Outcome.next (fieldWrite_of_takesWrite hwrite _)

/-- Settles O26: each row of the table finds its conditions met. The 10 that each HOLD sent adds to
the hold used is the model's choice (log entry 143). -/
theorem collectiveCommands : Obligations.CollectiveCommands := by
  refine ⟨?start, ?ready, ?data, ?fold, ?hold, ?abortIn, ?holdSend, ?holdExpire, ?holdExhausted,
    ?startTimeout, ?progressTimeout, ?abort⟩
  case start =>
    exact fun s k e c hfound hplaza hstarts => exec_collInstanceStart hfound hplaza hstarts e
  case ready => exact fun s e b t htaken hplaza => exec_collReadyReceive hplaza htaken e
  case data => exact fun s e b t htaken hplaza => exec_collDataReceive hplaza htaken e
  case fold => exact fun s k n e c hplaza _ _ => exec_collBlockFold hplaza k n e
  case hold => exact fun s b t htaken hplaza => exec_collHoldReceive hplaza htaken
  case abortIn => exact fun s b t htaken hplaza => exec_collAbortReceive hplaza htaken
  case holdSend =>
    exact fun s k c c' hfound hplaza hstarted hruns hhold hused =>
      exec_collHoldSend hfound hplaza hstarted hruns hhold hused
  case holdExpire =>
    exact fun s k q c hfound hplaza hstarted hruns hheld =>
      exec_collHoldExpire hfound hplaza hstarted hruns hheld
  case holdExhausted =>
    exact fun s k c hfound hplaza hstarted hruns hhold =>
      exec_collHoldExhausted hfound hplaza hstarted hruns hhold
  case startTimeout =>
    exact fun s k c hfound hplaza hstarted hruns htimed hmissing =>
      exec_collStartTimeout hfound hplaza hstarted hruns htimed hmissing
  case progressTimeout =>
    exact fun s k c hfound hplaza hstarted hruns hready hhold =>
      exec_collProgressTimeout hfound hplaza hstarted hruns hready hhold
  case abort => exact fun s req e hwrite => exec_collAbort hwrite

end Sys2Proof.Proofs
end

section
/-!
SUPPORT. The page of a command processor: where its fields stand among the registers (R333, R334), and
what the wake and the interrupts of the package leave of it (R283, R341).
-/
open Sys2Proof Sys2Proof.Machine Sys2Proof.Safety Sys2Proof.Laws
namespace Sys2Proof.Proofs

/-! ### Where its fields stand -/

/-- `IN_SERVICE` stands in the page `PLAZA`, below every page of a command processor (R334). -/
theorem cmdproc_fkey_ne_inService (d : Nat) (f : Fld) :
    ∀ k ∈ List.range 4, fkey (cmdprocP d) f 0 ≠ fkey plazaP PLAZA_IN_SERVICE k := by
  intro k hk
  have hlt : k < 4 := List.mem_range.mp hk
  simp only [fkey, cmdprocP, plazaP, PageId.base, PLAZA_IN_SERVICE]
  omega

theorem cmdproc_fkey_not_mem_raiseKeys (d : Nat) {f : Fld}
    (h : 8 * f.off + f.lo ≠ 8 * HDR_INT_RAW.off + HDR_INT_RAW.lo) :
    fkey (cmdprocP d) f 0 ∉ raiseKeys (cmdprocP d) := by
  simp only [raiseKeys, List.mem_cons, List.mem_map, not_or, not_exists, not_and]
  exact ⟨fkey_ne_of_place _ h, fun k hk => (cmdproc_fkey_ne_inService d f k hk).symm⟩

/-- A field inside the page `DUSK` stands below every page of a command processor (R334). -/
theorem cmdproc_fkey_ne_dusk (d : Nat) (f : Fld) {g : Fld} (hg : 8 * g.off + g.lo < 8 * 4096) :
    fkey (cmdprocP d) f 0 ≠ fkey duskP g 0 := by
  simp only [fkey, cmdprocP, duskP, PageId.base, Nat.zero_div, Nat.zero_mod, Nat.zero_mul]
  omega

/-! ### Interrupts (R341) -/

/-- An interrupt raised stands in the `INT_RAW` of its page. -/
theorem bitOf_rd_intRaw_raise (s : State) {p : PageId} {b : Nat} (hb : b < HDR_INT_RAW.wid)
    (hserv : ∀ k ∈ List.range 4, fkey p HDR_INT_RAW 0 ≠ fkey plazaP PLAZA_IN_SERVICE k) :
    bitOf (rd (raise s p b) p HDR_INT_RAW) b = true := by
  rw [raise, rd_deliver hserv, rd_wr_same_of_listed (setBit_mod_two_pow_ne_zero hb _),
    bitOf_mod_two_pow hb, bitOf_setBit]
  simp

@[simp] theorem proc_raise (s : State) (p : PageId) (b n : Nat) :
    proc (raise s p b) n = proc s n :=
  raise_induction (P := fun x => proc x n = proc s n) (fun _ _ _ _ _ h => h)
    (fun _ _ h => h) (fun _ _ h => h) rfl p b

/-! ### The wake (R283) -/

@[simp] theorem proc_wake (s : State) (cause n : Nat) : proc (wake s cause) n = proc s n := by
  unfold wake
  extract_lets p
  split
  · rfl
  · split
    · rfl
    · rfl

namespace ReadsAs

variable {p : PageId} {f : Fld} {i x : Nat} {s t : State}

/-- A field reads as the value just written, cut to its width. -/
theorem written_mod (h : regsOk s = true) (p : PageId) (f : Fld) (v i : Nat) :
    ReadsAs p f i (v % 2 ^ f.wid) (Machine.wr s p f v i) where
  ok := (wr_kept (.refl s) p f v i).regs h
  val := rd_wr_same (keysFrom_of_regsOk h) p f v i

theorem setProc (h : ReadsAs p f i x t) (d : Nat) (y : Proc) :
    ReadsAs p f i x (setProc t d y) := h.of_regs_eq rfl rfl

theorem emit (h : ReadsAs p f i x t) (o : Out) : ReadsAs p f i x (emit t o) := h.of_regs_eq rfl rfl

/-- A wake writes the page `DUSK` alone. -/
theorem wake {d : Nat} (h : ReadsAs (cmdprocP d) f 0 x t) (cause : Nat) :
    ReadsAs (cmdprocP d) f 0 x (wake t cause) := by
  have hheld : ReadsAs (cmdprocP d) f 0 x { t with dusk := { t.dusk with wake := cause } } :=
    h.setDusk _
  exact .ite ((h.wr_of_ne 3 (cmdproc_fkey_ne_dusk d f (by decide))).wr_of_ne cause
      (cmdproc_fkey_ne_dusk d f (by decide)))
    (.ite (hheld.wr_of_ne 1 (cmdproc_fkey_ne_dusk d f (by decide))) h)

end ReadsAs

end Sys2Proof.Proofs
end

section
/-!
PROOF. The doorbell of a command ring (R249): which values it takes, and how a value that it does not
take is reported.
-/
open Sys2Proof Sys2Proof.Machine Sys2Proof.Safety Sys2Proof.Laws
namespace Sys2Proof.Proofs

variable {s : State} {req d v : Nat}

/-- The wake that a doorbell is leaves the head of the ring. -/
theorem cmdHead_wake (h : regsOk s = true) (cause d : Nat) :
    cmdHead (wake s cause) d = cmdHead s d :=
  ((ReadsAs.self h (cmdprocP d) CMDPROC_CMD_HEAD 0).wake cause).val

/-- Command ring `d` takes no tail of `v`: it lies outside the ring, or would move the tail backward. -/
def RefusesTail (s : State) (d v : Nat) : Prop :=
  cmdEntries s d ≤ v ∨ ringDist (cmdHead s d) v (cmdEntries s d)
    < ringDist (cmdHead s d) (proc s d).tail (cmdEntries s d)

theorem doorbell_of_refused (hok : regsOk s = true) (hbad : RefusesTail s d v) :
    doorbell s req d v = raise (lastErr (wake s 1) (cmdprocP d) 5) (cmdprocP d) 2 := by
  simp only [doorbell, cmdHead_wake hok]
  exact if_pos (by simpa [RefusesTail] using hbad)

theorem tail_doorbell_of_taken (hok : regsOk s = true) (htaken : ¬RefusesTail s d v) :
    (proc (doorbell s req d v) d).tail = v := by
  simp only [doorbell, cmdHead_wake hok]
  rw [if_neg (by simpa [RefusesTail] using htaken), proc_setProc, if_pos rfl]

/-- 5 is no reset value of the last error code. -/
theorem rd_lastErr_ringError (s : State) (d : Nat) :
    rd (raise (lastErr s (cmdprocP d) 5) (cmdprocP d) 2) (cmdprocP d) HDR_LAST_ERR = 5 := by
  have hlisted : 5 % 2 ^ HDR_LAST_ERR.wid ≠ fieldResetAt (cmdprocP d) HDR_LAST_ERR 0 := by
    change 5 % 2 ^ 8 ≠ 0
    decide
  rw [rd_raise (by decide) (cmdproc_fkey_not_mem_raiseKeys d (by decide)), lastErr,
    rd_wr_same_of_listed hlisted]
  decide

theorem exec_cmdDoorbell {req : PortId} {d : DistId}
    (hwrite : takesWrite s req (cmdprocP d) CMDPROC_CMD_DOORBELL = true) (v : Nat) :
    exec (.cmdDoorbell req d v) s = .next (doorbell s req d (v % 2 ^ 16)) :=
  congrArg Host.Outcome.next (fieldWrite_of_takesWrite hwrite _)

/-- Settles O56: the checks look at the ring as it was before the doorbell woke the package, and a
refusal changes no command processor. -/
theorem doorbellMovesTheTail : Obligations.DoorbellMovesTheTail := by
  intro s req d v hok hv hwrite
  refine ⟨doorbell s req d v, ?next, fun hbad => ?refused,
    fun hsize hforward => tail_doorbell_of_taken hok
      (not_or.mpr ⟨Nat.not_le_of_gt hsize, Nat.not_lt_of_ge hforward⟩)⟩
  case next => rw [exec_cmdDoorbell hwrite, Nat.mod_eq_of_lt hv]
  case refused =>
    rw [doorbell_of_refused hok hbad]
    refine ⟨?_, rd_lastErr_ringError _ _,
      bitOf_rd_intRaw_raise _ (by decide) (cmdproc_fkey_ne_inService d HDR_INT_RAW)⟩
    rw [proc_raise, lastErr, proc_wr, proc_wake]

end Sys2Proof.Proofs
end

section
/-!
PROOF. The commands of the ring start (R247, R250, R251): an entry fetched, and the row of each
command, start what stands at the head of the ring.
-/
open Sys2Proof Sys2Proof.Machine Sys2Proof.Safety Sys2Proof.Laws
namespace Sys2Proof.Proofs

variable {s : State} {d : DistId} {h : CmdHdr} {c : Cmd} {desc : Option (List Byte)}

/-- None of what holds a command back applies. -/
theorem startNext_of_startsNow {d : Nat} (hstarts : startsNow s d h c = true)
    (desc : Option (List Byte)) (refused : Bool) :
    startNext s d h c desc refused = started s d h c desc refused := by
  simp only [startsNow, Bool.and_eq_true, Bool.not_eq_true'] at hstarts
  obtain ⟨⟨⟨⟨hfetches, hroom⟩, hlimit⟩, hfree⟩, hbarrier⟩ := hstarts
  simp [startNext, started, hfetches, hroom, hlimit, hfree, hbarrier]

/-- Nothing read from host memory is of another length than 64 bytes. -/
theorem any_length_ne_of_entryOk (hdesc : Sys2Proof.entryOk desc = true) :
    desc.any (fun b => b.length != 64) = false := by
  cases desc with
  | none => rfl
  | some b => simpa [Sys2Proof.entryOk] using hdesc

theorem startRow_of_startsNow (hfits : c.fits = true) (hstarts : startsNow s d h c = true)
    (hdesc : Sys2Proof.entryOk desc = true) (name : String) (refused : Bool) :
    startRow name d h c desc refused s = .next (started s d h c desc refused) := by
  have hwell : ¬(!c.fits || desc.any (fun b => b.length != 64)) = true := by
    simp [hfits, any_length_ne_of_entryOk hdesc]
  rw [startRow, if_neg hwell, startNext_of_startsNow hstarts]

/-- An entry with a reserved byte set is taken as a command that the table does not have (R251). -/
theorem exec_commandFetch {b : List Byte} (hb : b.length = 64)
    (hdesc : Sys2Proof.entryOk desc = true)
    (hstarts : startsNow s d (readHdr b)
      (if reservedZero b then readCmd b else .other (readCmd b).op) = true) (refused : Bool) :
    exec (.commandFetch d (some b) desc refused) s = .next (started s d (readHdr b)
      (if reservedZero b then readCmd b else .other (readCmd b).op) desc refused) := by
  have hwell : ¬((some b).any (fun b => b.length != 64)
      || desc.any (fun b => b.length != 64)) = true := by
    simp [hb, any_length_ne_of_entryOk hdesc]
  change execCommandFetch d (some b) desc refused s = _
  rw [execCommandFetch, if_neg hwell]
  exact congrArg Host.Outcome.next (startNext_of_startsNow hstarts desc refused)

theorem exec_nop (hstarts : startsNow s d h .nop = true) (refused : Bool) :
    exec (.nop d h refused) s = .next (started s d h .nop none refused) :=
  startRow_of_startsNow (desc := none) rfl hstarts rfl "NOP" _

/-- Settles O28: what each row starts is its command with the operands given, and only a COLLECTIVE
reads host memory before it starts. -/
theorem ringCommandsStart : Obligations.RingCommandsStart := by
  refine ⟨?fetch, ?nop, ?write, ?read, ?fill, ?load, ?launch, ?wait, ?signal, ?coll, ?hint, ?respare,
    ?fence⟩
  case fetch =>
    exact fun s d b x f hb hdesc hstarts => exec_commandFetch hb hdesc hstarts f
  case nop => exact fun s d h f hstarts => exec_nop hstarts f
  case write =>
    exact fun s d h a v n f hfits hstarts => startRow_of_startsNow hfits hstarts rfl _ _
  case read =>
    exact fun s d h a v n f hfits hstarts => startRow_of_startsNow hfits hstarts rfl _ _
  case fill =>
    exact fun s d h v n p f hfits hstarts => startRow_of_startsNow hfits hstarts rfl _ _
  case load =>
    exact fun s d h a z k f hfits hstarts => startRow_of_startsNow hfits hstarts rfl _ _
  case launch =>
    exact fun s d h k x f hfits hstarts => startRow_of_startsNow hfits hstarts rfl _ _
  case wait =>
    exact fun s d h e n t f hfits hstarts => startRow_of_startsNow hfits hstarts rfl _ _
  case signal =>
    exact fun s d h n k f hfits hstarts => startRow_of_startsNow hfits hstarts rfl _ _
  case coll =>
    exact fun s d h a g k x f hdesc hfits hstarts => startRow_of_startsNow hfits hstarts hdesc _ _
  case hint =>
    exact fun s d h c l m f hfits hstarts => startRow_of_startsNow hfits hstarts rfl _ _
  case respare =>
    exact fun s d h e r f hfits hstarts => startRow_of_startsNow hfits hstarts rfl _ _
  case fence =>
    exact fun s d h n f hfits hstarts => startRow_of_startsNow hfits hstarts rfl _ _

end Sys2Proof.Proofs
end

section
/-!
PROOF. A NOP completes in its ring (R250 to R253): its entry is taken, a completion entry leaves, and
what is reported beside it leaves the indices of both rings.
-/
open Sys2Proof Sys2Proof.Machine Sys2Proof.Safety Sys2Proof.Laws
namespace Sys2Proof.Proofs

variable {s t : State} {d : Nat} {h : CmdHdr}

/-! ### The bytes of an entry (R252)

The entry computes to a list of 16 bytes, in which each field follows those before it. -/

section
variable (tag status opcode kind data : Nat) (b : Byte)

theorem leAt_tag : leAt ((cplBytes tag status opcode kind data).set 6 b) 0 4 = tag % 2 ^ 32 :=
  (leAt_append [] (leBytes 4 tag) _).trans (leNat_leBytes 4 tag)

theorem leAt_status : leAt ((cplBytes tag status opcode kind data).set 6 b) 4 1 = status % 256 :=
  (leAt_append (leBytes 4 tag) (leBytes 1 status) _).trans (leNat_leBytes 1 status)

theorem leAt_opcode : leAt ((cplBytes tag status opcode kind data).set 6 b) 5 1 = opcode % 256 :=
  (leAt_append (leBytes 4 tag ++ leBytes 1 status) (leBytes 1 opcode) _).trans
    (leNat_leBytes 1 opcode)

theorem leAt_kind : leAt ((cplBytes tag status opcode kind data).set 6 b) 6 1 = b.toNat :=
  leAt_append (leBytes 4 tag ++ leBytes 1 status ++ leBytes 1 opcode) [b] _

end

/-! ### An entry that has been written (R248, R249, R252) -/

/-- A completion entry of command processor `d` has left for index `i`, and its rings' indices read as
`tail` and `head`. -/
structure Posted (d i : Nat) (bytes : List Byte) (tail head : Nat) (t : State) : Prop where
  left : .completion d i bytes ∈ t.sent
  tail : ReadsAs (cmdprocP d) CMDPROC_CPL_TAIL 0 tail t
  head : ReadsAs (cmdprocP d) CMDPROC_CMD_HEAD 0 head t

namespace Posted

variable {i tail head : Nat} {bytes : List Byte}

theorem ite {c : Prop} [Decidable c] (hs : Posted d i bytes tail head s)
    (ht : Posted d i bytes tail head t) : Posted d i bytes tail head (if c then s else t) := by
  split
  · exact hs
  · exact ht

section
variable (hs : Posted d i bytes tail head s)
include hs

/-- What leaves the registers and takes back nothing that was sent leaves the entry posted. -/
theorem of_regs_eq (hr : t.regs = s.regs) (hi : t.images = s.images)
    (hsent : ∀ o ∈ s.sent, o ∈ t.sent) : Posted d i bytes tail head t :=
  ⟨hsent _ hs.left, hs.tail.of_regs_eq hr hi, hs.head.of_regs_eq hr hi⟩

theorem setProc (n : Nat) (x : Proc) : Posted d i bytes tail head (setProc s n x) :=
  hs.of_regs_eq rfl rfl fun _ ho => ho

theorem raise (b : Nat) : Posted d i bytes tail head (raise s (cmdprocP d) b) where
  left := by
    obtain ⟨l, hl⟩ := (raise_kept s (cmdprocP d) b (.refl s)).sent
    rw [hl]
    exact List.mem_append_left _ hs.left
  tail := hs.tail.raise b (cmdproc_fkey_not_mem_raiseKeys d (by decide))
  head := hs.head.raise b (cmdproc_fkey_not_mem_raiseKeys d (by decide))

/-- Vector 0 is never in service: its message is sent or held (R258). -/
theorem fireVector0 (n : Nat) : Posted d i bytes tail head (fireVector0 s n) := by
  have hidle := hs.setProc n { proc s n with moderated := 0 }
  exact .ite (hidle.of_regs_eq rfl rfl fun _ ho => List.mem_append_left _ ho)
    (hidle.of_regs_eq rfl rfl fun _ ho => ho)

theorem moderate (n : Nat) (irq : Bool) : Posted d i bytes tail head (moderate s n irq) :=
  .ite (hs.fireVector0 n) (hs.setProc n _)

end

end Posted

/-- An entry of a command is written at `CPL_TAIL` with the `PHASE` of the pass, and the tail moves on. -/
theorem writeEntry_posted (hok : regsOk s = true) (haccepts : (proc s d).refuse = false)
    (bytes : List Byte) (irq : Bool) :
    Posted d (rd s (cmdprocP d) CMDPROC_CPL_TAIL)
      (bytes.set 6 (BitVec.ofNat 8 (128 * (proc s d).phase)))
      ((rd s (cmdprocP d) CMDPROC_CPL_TAIL + 1) % cplEntries s d % 2 ^ 16)
      (rd s (cmdprocP d) CMDPROC_CMD_HEAD) (writeEntry s d ⟨bytes, 0, irq⟩) := by
  unfold writeEntry
  extract_lets p x i a refused b j written phased raised full
  have hleft : Posted d i b (j % 2 ^ 16) (rd s p CMDPROC_CMD_HEAD) written :=
    ⟨List.mem_append_right _ (List.mem_singleton_self _),
      (ReadsAs.written_mod hok p CMDPROC_CPL_TAIL j 0).emit _,
      ((ReadsAs.self hok p CMDPROC_CMD_HEAD 0).wr_of_ne j (fkey_ne_of_place p (by decide))).emit _⟩
  have hraised : Posted d i b (j % 2 ^ 16) (rd s p CMDPROC_CMD_HEAD) raised :=
    (Posted.ite (hleft.setProc d _) hleft).raise 0
  have hfull : Posted d i b (j % 2 ^ 16) (rd s p CMDPROC_CMD_HEAD) full :=
    .ite (hraised.raise 3) hraised
  have hb : b = bytes.set 6 (BitVec.ofNat 8 (128 * (proc s d).phase)) := by simp [b, x]
  rw [if_neg (by simp [x, haccepts]), if_neg Nat.zero_ne_one, if_neg (Nat.zero_ne_add_one 1), ← hb]
  exact hfull.moderate d irq

/-- A command that starts finds a completion ring that works, in which no entry waits and one is free. -/
theorem room_of_startsNow {c : Cmd} (hstarts : startsNow s d h c = true) :
    (proc s d).broken = false ∧ (proc s d).held = [] ∧ cplFull s d = false := by
  simp only [startsNow, fetches, cplStalled, Bool.and_eq_true, Bool.not_eq_true',
    Bool.or_eq_false_iff, Bool.not_eq_false', List.isEmpty_iff] at hstarts
  obtain ⟨⟨⟨⟨hfetches, hring⟩, hlimit⟩, hsignal⟩, hbarrier⟩ := hstarts
  obtain ⟨⟨⟨⟨hopen, hworks⟩, hvisible⟩, hnone⟩, hbells⟩ := hfetches
  exact ⟨hworks, hring⟩

/-- With room in the ring and none that waits, an entry is written at once. -/
theorem postEntry_of_room (hworks : (proc s d).broken = false) (hheld : (proc s d).held = [])
    (hroom : cplFull s d = false) (e : CplEntry) : postEntry s d e = writeEntry s d e := by
  simp [postEntry, hworks, hheld, hroom]

/-! ### The NOP (R250, R251) -/

/-- The entry at the head of the ring taken, with completions that host memory accepts, and counted
as a command that has ended well. -/
def takenAndCounted (s : State) (d : Nat) : State :=
  bump (setProc (takeEntry s d) d { proc s d with refuse := false }) (cmdprocP d) CMDPROC_CMDS_DONE

theorem started_nop (s : State) (d : Nat) (h : CmdHdr) : started s d h .nop none false
    = postEntry (takenAndCounted s d) d ⟨cplBytes h.tag stOk 0 0 0, 0, h.irq⟩ := rfl

theorem proc_takenAndCounted (s : State) (d : Nat) :
    proc (takenAndCounted s d) d = { proc s d with refuse := false } := by
  rw [takenAndCounted, bump, proc_wr, proc_setProc, if_pos rfl]

section
variable (hok : regsOk s = true)
include hok

theorem takenAndCounted_readsAs {f : Fld}
    (hblocked : 8 * f.off + f.lo ≠ 8 * CMDPROC_BLOCKED.off + CMDPROC_BLOCKED.lo)
    (hhead : 8 * f.off + f.lo ≠ 8 * CMDPROC_CMD_HEAD.off + CMDPROC_CMD_HEAD.lo)
    (hdone : 8 * f.off + f.lo ≠ 8 * CMDPROC_CMDS_DONE.off + CMDPROC_CMDS_DONE.lo) :
    ReadsAs (cmdprocP d) f 0 (rd s (cmdprocP d) f) (takenAndCounted s d) :=
  ((((ReadsAs.self hok _ f 0).wr_of_ne _ (fkey_ne_of_place _ hblocked)).wr_of_ne _
    (fkey_ne_of_place _ hhead)).setProc d _).bump_of_ne 1 0 (fkey_ne_of_place _ hdone)

theorem takenAndCounted_head : ReadsAs (cmdprocP d) CMDPROC_CMD_HEAD 0
    ((rd s (cmdprocP d) CMDPROC_CMD_HEAD + 1) % cmdEntries s d % 2 ^ 16) (takenAndCounted s d) :=
  ((ReadsAs.written_mod ((wr_kept (.refl s) _ _ _ _).regs hok) _ CMDPROC_CMD_HEAD
    ((cmdHead s d + 1) % cmdEntries s d) 0).setProc d _).bump_of_ne 1 0
      (fkey_ne_of_place _ (by decide))

theorem takenAndCounted_cplTail : rd (takenAndCounted s d) (cmdprocP d) CMDPROC_CPL_TAIL
    = rd s (cmdprocP d) CMDPROC_CPL_TAIL :=
  (takenAndCounted_readsAs hok (by decide) (by decide) (by decide)).val

theorem cplEntries_takenAndCounted : cplEntries (takenAndCounted s d) d = cplEntries s d :=
  congrArg ringEntries (takenAndCounted_readsAs hok (by decide) (by decide) (by decide)).val

theorem cplFull_takenAndCounted : cplFull (takenAndCounted s d) d = cplFull s d := by
  have hhead : rd (takenAndCounted s d) (cmdprocP d) CMDPROC_CPL_HEAD
      = rd s (cmdprocP d) CMDPROC_CPL_HEAD :=
    (takenAndCounted_readsAs hok (by decide) (by decide) (by decide)).val
  rw [cplFull, cplFull, takenAndCounted_cplTail hok, cplEntries_takenAndCounted hok, hhead]

theorem started_nop_posted (hstarts : startsNow s d h .nop = true) :
    Posted d (rd s (cmdprocP d) CMDPROC_CPL_TAIL)
      ((cplBytes h.tag stOk 0 0 0).set 6 (BitVec.ofNat 8 (128 * (proc s d).phase)))
      ((rd s (cmdprocP d) CMDPROC_CPL_TAIL + 1) % cplEntries s d % 2 ^ 16)
      ((rd s (cmdprocP d) CMDPROC_CMD_HEAD + 1) % cmdEntries s d % 2 ^ 16)
      (started s d h .nop none false) := by
  obtain ⟨hworks, hheld, hroom⟩ := room_of_startsNow hstarts
  have hproc := proc_takenAndCounted s d
  have hposted := writeEntry_posted (takenAndCounted_head (d := d) hok).ok
    (congrArg Proc.refuse hproc) (cplBytes h.tag stOk 0 0 0) h.irq
  rw [hproc, takenAndCounted_cplTail hok, cplEntries_takenAndCounted hok,
    (takenAndCounted_head hok).val] at hposted
  rw [started_nop, postEntry_of_room ((congrArg Proc.broken hproc).trans hworks)
    ((congrArg Proc.held hproc).trans hheld) ((cplFull_takenAndCounted hok).trans hroom)]
  exact hposted

end

/-- Settles O55: the conditions under which the NOP may start leave room for its entry, which is
therefore written at once. -/
theorem nopCompletesInTheRing : Obligations.NopCompletesInTheRing := by
  intro s d h hok hstarts
  have hposted := started_nop_posted hok hstarts
  exact ⟨_, _, exec_nop hstarts false, hposted.left, rfl, leAt_tag .., leAt_status ..,
    leAt_opcode .., (leAt_kind ..).trans (BitVec.toNat_ofNat _ _),
    hposted.tail.val, hposted.head.val⟩

end Sys2Proof.Proofs
end

section
/-!
PROOF. Host ports, their links and fenced tiles (R240, R241, R243, R295, R353): what each event does
where its conditions hold.
-/
open Sys2Proof Sys2Proof.Machine Sys2Proof.Safety Sys2Proof.Laws
namespace Sys2Proof.Proofs

variable {s : State} {p : PortId}

/-- The port is out of reset and offers the rate: the link trains. -/
theorem exec_hostLinkTrained {gen : Fin 7} {width : Fin 17} (hgen : gen.val ≠ 0)
    (hwidth : [1, 2, 4, 8, 16].contains width.val = true) (hplaza : plazaUp s = true)
    (hstage : 2 ≤ rd s dawnP DAWN_STAGE) (hperst : bitOf s.dawn.perst p = false)
    (hmax : gen.val ≤ rd s (hostportP p) HOSTPORT_MAX_GEN) (flit : Bool) :
    exec (.hostLinkTrained p gen width flit) s = .next (linkTrained s p gen width flit) := by
  change execHostLinkTrained p gen width flit s = _
  rw [execHostLinkTrained, hwidth, if_neg (by simpa using hgen),
    if_pos (by simp [hplaza, hstage, hperst, hmax])]

/-- PERST_N low while the Plaza is in reset is kept for when it is up (R353). -/
theorem exec_perstLow_of_plazaDown (hdown : plazaUp s = false) :
    exec (.hostPortReset p .perstLow) s
      = .next { s with dawn := { s.dawn with perst := setBit s.dawn.perst p } } :=
  congrArg Host.Outcome.next (if_neg (Bool.eq_false_iff.mp hdown))

section
variable (hplaza : plazaUp s = true)
include hplaza

theorem tileLost_of_plazaUp (n : Nat) (router slice : Bool) :
    tileLost s n router slice = fenceTile s n router slice := if_pos hplaza

section
variable (hup : portUp s p = true)
include hup

theorem exec_hostLinkDown : exec (.hostLinkDown p) s = .next (hostLinkDown s p) :=
  congrArg Host.Outcome.next (if_pos (by simp [hplaza, hup]))

/-- The link of the port goes down before the port is reset. -/
theorem exec_perstLow_of_portUp : exec (.hostPortReset p .perstLow) s
    = .next (portReset (hostLinkDown
        { s with dawn := { s.dawn with perst := setBit s.dawn.perst p } } p) p) :=
  congrArg Host.Outcome.next ((if_pos hplaza).trans (congrArg (portReset · p) (if_pos hup)))

theorem exec_hotReset : exec (.hostPortReset p .hot) s = .next (portReset s p) :=
  congrArg Host.Outcome.next (if_pos (by simp [hplaza, hup]))

theorem exec_functionReset : exec (.hostPortReset p .flr) s = .next (portReset s p) :=
  congrArg Host.Outcome.next (if_pos (by simp [hplaza, hup]))

end

end

/-- Settles O14: each event finds its conditions met. -/
theorem hostLinksAndTileFaults : Obligations.HostLinksAndTileFaults := by
  refine ⟨?trained, ?down, ?perstLow, ?perstKept, ?perstHigh, ?hot, ?function, ?clock, ?router, ?port⟩
  case trained =>
    exact fun s p g w f hgen hwidth hplaza hstage hperst hmax =>
      exec_hostLinkTrained hgen hwidth hplaza hstage hperst hmax f
  case down => exact fun s p hplaza hup => exec_hostLinkDown hplaza hup
  case perstLow => exact fun s p hplaza hup => exec_perstLow_of_portUp hplaza hup
  case perstKept => exact fun s p hdown => exec_perstLow_of_plazaDown hdown
  case perstHigh => exact fun s p => rfl
  case hot => exact fun s p hplaza hup => exec_hotReset hplaza hup
  case function => exact fun s p hplaza hup => exec_functionReset hplaza hup
  case clock =>
    exact fun s t hplaza => congrArg Host.Outcome.next (tileLost_of_plazaUp hplaza t false false)
  case router =>
    exact fun s t hplaza => congrArg Host.Outcome.next (tileLost_of_plazaUp hplaza t true false)
  case port =>
    exact fun s t hplaza => congrArg Host.Outcome.next (tileLost_of_plazaUp hplaza t false true)

end Sys2Proof.Proofs
end

section
/-!
PROOF. Districts, windows and the host's indices (R244 to R246, R249, R258, R369): what each command
does where its conditions hold.
-/
open Sys2Proof Sys2Proof.Machine Sys2Proof.Safety Sys2Proof.Laws
namespace Sys2Proof.Proofs

variable {s : State} {req p : PortId} {d : DistId}

theorem exec_qdieMaskWrite
    (hwrite : takesWrite s req (districtP d) DISTRICT_QDIE_MASK = true) (v : Nat) :
    exec (.qdieMaskWrite req d v) s = .next (maskWrite s d v) :=
  congrArg Host.Outcome.next (fieldWrite_of_takesWrite hwrite _)

/-- Whether the quarter-die is being scrubbed is part of what `scrubDone` does. -/
theorem exec_qdieScrubDone (hplaza : plazaUp s = true) (q : Fin 16) :
    exec (.qdieScrubDone q) s = .next (scrubDone s q) :=
  congrArg Host.Outcome.next (if_pos hplaza)

/-! ### Windows (R246) -/

theorem exec_windowRead {off : Fin 2147483648} {len : Nat}
    (hone : oneRequest 4096 off len = true) (hopen : barOpen s p = true) (errs : SectorErrs) :
    exec (.windowRead p off len errs) s
      = .next (windowAccess s p off { port := p, addr := 0, len := len, errs := errs }) := by
  change execWindowRead p off len errs s = _
  simp only [execWindowRead, hone, hopen, Bool.not_true, Bool.false_eq_true, if_false, if_true]

theorem exec_windowWrite {off : Fin 2147483648} {bytes : List Byte}
    (hone : oneRequest 512 off bytes.length = true) (hopen : barOpen s p = true) :
    exec (.windowWrite p off bytes) s = .next (windowAccess s p off
      { port := p, addr := 0, len := bytes.length, write := true, bytes := bytes }) := by
  change execWindowWrite p off bytes s = _
  simp only [execWindowWrite, hone, hopen, Bool.not_true, Bool.false_eq_true, if_false, if_true]

/-! ### The command processor (R249, R258, R369) -/

theorem exec_cplHeadWrite (hwrite : takesWrite s req (cmdprocP d) CMDPROC_CPL_HEAD = true) (v : Nat)
    (refused : Bool) : exec (.cplHeadWrite req d v refused) s
      = .next (withRefuse s d refused (fun s => cplHead s d (v % 2 ^ 16))) :=
  congrArg Host.Outcome.next (fieldWrite_of_takesWrite hwrite _)

theorem exec_moderationTimer (hplaza : plazaUp s = true) (hwaiting : 0 < (proc s d).moderated) :
    exec (.moderationTimer d) s = .next (fireVector0 s d) :=
  congrArg Host.Outcome.next (if_pos (by simp [hplaza, hwaiting]))

/-- The reset does not wait for a block that neither starts nor drains (R298). -/
theorem exec_cmdprocSoftReset (hwrite : takesWrite s req (cmdprocP d) HDR_SOFT_RESET = true)
    (hstarts : rd s (cmdprocP d) HDR_STATE ≠ 1) (hdrains : rd s (cmdprocP d) HDR_STATE ≠ 3)
    (entries : List (List Byte)) (refused : Bool) :
    exec (.cmdprocSoftReset req d entries refused) s = .next (cmdprocReset s d entries refused) :=
  congrArg Host.Outcome.next ((fieldWrite_of_takesWrite hwrite _).trans
    (if_neg (by simp [hstarts, hdrains])))

/-- Settles O27: each row of the table finds its conditions met. -/
theorem districtCommands : Obligations.DistrictCommands := by
  refine ⟨?mask, ?scrub, ?read, ?write, ?doorbell, ?head, ?timer, ?reset⟩
  case mask => exact fun s req d v hwrite => exec_qdieMaskWrite hwrite v
  case scrub => exact fun s q x hplaza _ => exec_qdieScrubDone hplaza q
  case read => exact fun s p o n e hone hopen => exec_windowRead hone hopen e
  case write => exact fun s p o b hone hopen => exec_windowWrite hone hopen
  case doorbell => exact fun s req d v hwrite => exec_cmdDoorbell hwrite v
  case head => exact fun s req d v f hwrite => exec_cplHeadWrite hwrite v f
  case timer => exact fun s d hplaza hwaiting => exec_moderationTimer hplaza hwaiting
  case reset =>
    exact fun s req d l f hwrite hstarts hdrains => exec_cmdprocSoftReset hwrite hstarts hdrains l f

end Sys2Proof.Proofs
end

section
/-!
SUPPORT. The package held in reset by the Midnight latch (R282): the latch stands through writes
elsewhere and through a reset of the Plaza; nothing runs, so a guarded operation finds nothing to act
on; and the few operations that have an effect keep the package held.
-/
open Sys2Proof Sys2Proof.Machine Sys2Proof.Safety Sys2Proof.Laws
namespace Sys2Proof.Proofs

variable {s t x y : State}

/-! ### Entries that are listed -/

section
variable {α : Type} {m : SMap α} {i j : Nat} {v : α}

theorem find_del_of_find (h : SMap.find m j = some v) (hne : j ≠ i) :
    SMap.find (SMap.del m i) j = some v := by
  induction m with
  | nil => exact h
  | cons kv m ih =>
    obtain ⟨k, w⟩ := kv
    simp only [SMap.find] at h
    simp only [SMap.del]
    by_cases hjk : j = k
    · have hki : i ≠ k := fun e => hne (hjk.trans e.symm)
      rw [if_pos hjk] at h
      rw [if_neg hki, apply_ite (SMap.find · j)]
      simp [SMap.find, hjk, h]
    · rw [if_neg hjk] at h
      obtain ⟨hlt, hrest⟩ : ¬ j < k ∧ SMap.find m j = some v := by simpa using h
      by_cases hik : i = k
      · rw [if_pos hik]
        exact hrest
      · rw [if_neg hik, apply_ite (SMap.find · j)]
        simp [SMap.find, hjk, hlt, hrest, ih hrest]

theorem find_filter_of_find {p : Nat × α → Bool} (h : SMap.find m j = some v)
    (hp : p (j, v) = true) : SMap.find (m.filter p) j = some v := by
  induction m with
  | nil => exact h
  | cons kv m ih =>
    obtain ⟨k, w⟩ := kv
    simp only [SMap.find] at h
    by_cases hjk : j = k
    · rw [if_pos hjk] at h
      obtain rfl := hjk
      obtain rfl := Option.some.inj h
      simp [hp, SMap.find]
    · rw [if_neg hjk] at h
      obtain ⟨hlt, hrest⟩ : ¬ j < k ∧ SMap.find m j = some v := by simpa using h
      rw [List.filter_cons, apply_ite (SMap.find · j)]
      simp [SMap.find, hjk, hlt, ih hrest]

end

section
variable {p q : PageId} {f g : Fld} {i j : Nat}

theorem find_regs_of_not_reset (h : rd s q g j ≠ fieldResetAt q g j) :
    SMap.find s.regs (fkey q g j) = some (rd s q g j) := by
  unfold rd SMap.getD at h ⊢
  cases hfind : SMap.find s.regs (fkey q g j) with
  | none => simp [hfind] at h
  | some w => rfl

/-- Whatever form the register file is in, a field that is not at its reset value keeps its value
when a field that stands elsewhere is written. -/
theorem rd_wr_of_ne_of_not_reset (h : rd s q g j ≠ fieldResetAt q g j)
    (hne : fkey q g j ≠ fkey p f i) (v : Nat) : rd (wr s p f v i) q g j = rd s q g j := by
  have hfind := find_regs_of_not_reset h
  by_cases hlisted : v % 2 ^ f.wid = fieldResetAt p f i
  · rw [wr, if_pos hlisted, rd, SMap.getD, find_del_of_find hfind hne, Option.getD_some]
  · exact rd_wr_of_ne_of_listed hlisted hne

end

/-- An upset changes what a tile holds, not whether it runs. -/
theorem runState_upset (t : Tile) (u : Upset) : (t.upset u).runState = t.runState := by
  unfold Tile.upset
  dsimp only
  repeat' split
  all_goals rfl

theorem runState_upsetTile (t : Tile) (e : CycleErrs) : (upsetTile t e).runState = t.runState :=
  List.foldlRecOn (motive := fun x => x.runState = t.runState) e.upsets Tile.upset rfl
    fun x hx u _ => (runState_upset x u).trans hx

/-! ### The package held in reset (R282) -/

/-- What `heldInReset` says, fact by fact. -/
structure Held (s : State) : Prop where
  midnight : rd s thermP THERM_MIDNIGHT = 1
  tiles : s.tiles = []
  slices : s.slices = []
  procs : s.procs = []
  images : s.images = []
  scrubs : s.scrubs = []
  links : s.links = []
  crossings : s.crossings = []
  msix : s.msix = []
  hostHeld : s.hostHeld = []
  colls : s.colls = []
  meshIn : s.meshIn = []
  collIn : s.collIn = []
  sec : s.sec = {}
  mapFormed : s.dawn.mapFormed = false

theorem heldInReset_iff : heldInReset s = true ↔ Held s := by
  simp only [heldInReset, Bool.and_eq_true, Bool.not_eq_true', beq_iff_eq, List.isEmpty_iff]
  constructor
  · intro h
    simp only [and_assoc] at h
    obtain ⟨midnight, tiles, slices, procs, images, scrubs, links, crossings, msix, hostHeld, colls,
      meshIn, collIn, sec, mapFormed⟩ := h
    exact { midnight, tiles, slices, procs, images, scrubs, links, crossings, msix, hostHeld, colls,
            meshIn, collIn, sec, mapFormed }
  · intro h
    simp [h.midnight, h.tiles, h.slices, h.procs, h.images, h.scrubs, h.links, h.crossings, h.msix,
      h.hostHeld, h.colls, h.meshIn, h.collIn, h.sec, h.mapFormed]

namespace Held

/-! ### What runs, and what is there -/

theorem aonRuns (h : Held s) : aonRuns s = false := by simp [Machine.aonRuns, h.midnight]

theorem duskRuns (h : Held s) : duskRuns s = false := by simp [Machine.duskRuns, h.aonRuns]

theorem sensorsRun (h : Held s) : sensorsRun s = false := by simp [Machine.sensorsRun, h.duskRuns]

theorem plazaUp (h : Held s) : plazaUp s = false := by simp [Machine.plazaUp, h.midnight]

theorem tile (h : Held s) (n : Nat) : tile s n = {} := by
  simp [Machine.tile, h.tiles, SMap.getD, SMap.find]

theorem proc (h : Held s) (d : Nat) : proc s d = {} := by
  simp [Machine.proc, h.procs, SMap.getD, SMap.find]

theorem link (h : Held s) (l : Nat) : link s l = {} := by
  simp [Machine.link, h.links, SMap.getD, SMap.find]

theorem crossing (h : Held s) (e : Nat) : crossing s e = {} := by
  simp [Machine.crossing, h.crossings, SMap.getD, SMap.find]

theorem tileExists (h : Held s) (n : Nat) : tileExists s n = false := by
  simp [Machine.tileExists, dieMapped, h.mapFormed]

theorem sliceLives (h : Held s) (n : Nat) : sliceLives s n = false := by
  simp [Machine.sliceLives, h.tileExists]

theorem inStage (h : Held s) (k : Nat) : inStage s k = false := by simp [Machine.inStage, h.plazaUp]

theorem groupRuns (h : Held s) (g : Nat) : groupRuns s g = false := by
  simp [Machine.groupRuns, h.plazaUp]

theorem oeOn (h : Held s) (e : Nat) : oeOn s e = false := by simp [Machine.oeOn, h.plazaUp]

theorem linkLive (h : Held s) (l : Nat) : linkLive s l = false := by simp [Machine.linkLive, h.oeOn]

theorem hears (h : Held s) (l : Nat) : hears s l = false := by simp [Machine.hears, h.linkLive]

theorem fetches (h : Held s) (d : Nat) : fetches s d = false := by simp [Machine.fetches, h.plazaUp]

theorem collOf (h : Held s) (key : Nat) : collOf s key = none := by simp [Machine.collOf, h.colls]

/-! ### What a host or a command processor asks for -/

theorem writeError (h : Held s) (req : Nat) (p : PageId) (off : Nat) :
    writeError s req p off = none := by simp [Machine.writeError, h.plazaUp]

theorem guardedWrite (h : Held s) (req : Nat) (p : PageId) (off : Nat) (act : State → State) :
    guardedWrite s req p off act = s := by simp [Machine.guardedWrite, h.writeError]

theorem fieldWrite (h : Held s) (req : Nat) (p : PageId) (f : Fld) (i : Nat)
    (act : State → State) : fieldWrite s req p f i act = s := h.guardedWrite _ _ _ _

theorem moverConfig (h : Held s) (req n : Nat) (route : Option Nat) (v : Nat) :
    moverConfig s req n route v = s := by simp [Machine.moverConfig, h.writeError]

theorem hostRead (h : Held s) (req o size : Nat) : hostRead s req o size = s := by
  simp [Machine.hostRead, h.plazaUp]

theorem hostWrite (h : Held s) (req o size v : Nat) (act : PageId → Nat → State → State) :
    hostWrite s req o size v act = s := by simp [Machine.hostWrite, h.plazaUp]

theorem hdrWrite (h : Held s) (req page : Nat) (f : Fld) (act : PageId → State → State) :
    hdrWrite s req page f act = s := h.hostWrite _ _ _ _ _

theorem onPage (h : Held s) (page : Nat) (act : PageId → State) : onPage s page act = s := by
  unfold Machine.onPage
  split
  · simp [h.plazaUp]
  · rfl

theorem startNext (h : Held s) (d : Nat) (k : CmdHdr) (c : Cmd) (desc : Option (List Byte))
    (refused : Bool) : startNext s d k c desc refused = s := by simp [Machine.startNext, h.fetches]

theorem fetchNext (h : Held s) (d : Nat) (entry desc : Option (List Byte)) (refused : Bool) :
    fetchNext s d entry desc refused = s := by
  cases entry with
  | none => simp [Machine.fetchNext, h.fetches]
  | some b => exact h.startNext _ _ _ _ _

theorem jobOf (h : Held s) (d seq : Nat) : jobOf s d seq = none := by simp [Machine.jobOf, h.proc]

theorem jobWithOp (h : Held s) (d op : Nat) : jobWithOp s d op = none := by
  simp [Machine.jobWithOp, h.proc]

theorem endRow (h : Held s) (d seq : Nat) (refused : Bool) (act : State → Job → State) :
    endRow s d seq refused act = s := by simp [Machine.endRow, h.jobOf]

/-! ### What a slice or a tile is to do -/

theorem sliceRequest (h : Held s) (d n off : Nat) (act : State → State) :
    sliceRequest s d n off act = s := by
  simp [Machine.sliceRequest, h.plazaUp, h.sliceLives]

theorem windowRequest (h : Held s) (d n off : Nat) (bytes : List Byte)
    (act : State → List Byte → State) : windowRequest s d n off bytes act = s := by
  unfold Machine.windowRequest
  split
  · simp [h.plazaUp]
  · simp [h.sliceLives]

theorem slotIssue (h : Held s) (n : Nat) (i : Bundle) : slotIssue s n i = s := by
  simp [Machine.slotIssue, h.tile, Tile.ready]

theorem bundleIssue (h : Held s) (n : Nat) (e : CycleErrs) : bundleIssue s n e = s := by
  simp [Machine.bundleIssue, h.tile, Tile.ready, runState_upsetTile]

theorem waitRelease (h : Held s) (n : Nat) (e : CycleErrs) : waitRelease s n e = s := by
  simp [Machine.waitRelease, h.tile, Tile.ready, runState_upsetTile]

theorem pacingCycle (h : Held s) (n : Nat) : pacingCycle s n = s := by
  simp [Machine.pacingCycle, h.tile]

theorem parityRetry (h : Held s) (n : Nat) (fails : List Nat) : parityRetry s n fails = s := by
  simp [Machine.parityRetry, h.tile, firstHit]

theorem resultLand (h : Held s) (n : Nat) (f : Act → Bool) : resultLand s n f = s := by
  simp [Machine.resultLand, h.tile]

theorem trapSettled (h : Held s) (n : Nat) : trapSettled s n = s := by
  simp [Machine.trapSettled, h.tile]

theorem tileComplete (h : Held s) (n : Nat) : tileComplete s n = s := by
  simp [Machine.tileComplete, h.tile]

theorem slipTimeout (h : Held s) (n : Nat) : slipTimeout s n = s := by
  have hlaunch : launchOf s n = none := by simp [launchOf, h.proc]
  simp [Machine.slipTimeout, hlaunch]

theorem headCmd (h : Held s) (n c : Nat) : headCmd s n c = none := by
  simp [Machine.headCmd, h.tile, Tile.chan, SMap.getD, SMap.find]

theorem moverStep (h : Held s) (n c op lines : Nat) (errs : SectorErrs) :
    moverStep s n c op lines errs = s := by simp [Machine.moverStep, h.headCmd]

theorem moverHalt (h : Held s) (n c : Nat) (errs : SectorErrs) : moverHalt s n c errs = s := by
  simp [Machine.moverHalt, moveLine, h.headCmd]

theorem moverDone (h : Held s) (n c : Nat) : moverDone s n c = s := by
  simp [Machine.moverDone, h.tile, Tile.chan, SMap.getD, SMap.find]

theorem meshInAt (h : Held s) (n : Nat) : meshInAt s n = none := by
  simp [Machine.meshInAt, h.meshIn]

theorem remoteLine (h : Held s) (n : Nat) : remoteLine s n = s := by
  simp [Machine.remoteLine, h.meshInAt]

theorem remoteSig (h : Held s) (n : Nat) : remoteSig s n = s := by
  simp [Machine.remoteSig, h.meshInAt]

theorem sendLines (h : Held s) (n o lines : Nat) : sendLines s n o lines = s := by
  simp [Machine.sendLines, h.tile, Tile.outQ, SMap.getD, SMap.find]

theorem sendCorrupted (h : Held s) (n o lines : Nat) (flips : List (Nat × Nat)) :
    sendCorrupted s n o lines flips = s := by
  simp [Machine.sendCorrupted, h.tile, Tile.outQ, SMap.getD, SMap.find]

theorem sendSig (h : Held s) (n k : Nat) : sendSig s n k = s := by
  simp [Machine.sendSig, h.tile]

theorem creditBack (h : Held s) (n : Nat) (far : Option FarQueue) : creditBack s n far = s := by
  cases far <;> simp [Machine.creditBack, h.tile, h.plazaUp]

theorem tileLost (h : Held s) (n : Nat) (router slice : Bool) : tileLost s n router slice = s := by
  simp [Machine.tileLost, h.plazaUp]

theorem dieLost (h : Held s) (d code cause : Nat) : dieLost s d code cause = s := by
  simp [Machine.dieLost, h.plazaUp]

theorem leaveReset (h : Held s) : leaveReset s = s := by simp [Machine.leaveReset, h.plazaUp]

/-! ### What keeps the package held -/

theorem wr (h : Held s) {p : PageId} {f : Fld} {i : Nat}
    (hne : fkey thermP THERM_MIDNIGHT 0 ≠ fkey p f i) (v : Nat) : Held (wr s p f v i) :=
  { h with
    midnight := (rd_wr_of_ne_of_not_reset (by rw [h.midnight]; decide) hne v).trans h.midnight }

theorem setDusk (h : Held s) (k : Dusk) : Held { s with dusk := k } := { h with }

theorem setDawn (h : Held s) {w : Dawn} (hmap : w.mapFormed = false) :
    Held { s with dawn := w } := { h with mapFormed := hmap }

theorem setDom (h : Held s) (d : Nat) (x : Dom) : Held (setDom s d x) := h.setDusk _

/-- With every vector masked, a vector is held and none is sent (R347). -/
theorem sendVector_eq (h : Held s) (d v : Nat) : sendVector s d v
    = { s with pba := SMap.put s.pba d (setBit (SMap.getD s.pba d 0) v) } := by
  simp [Machine.sendVector, h.msix, SMap.getD, SMap.find]

/-- A reset of the Plaza leaves the Midnight latch, and nothing that runs, waits or is connected. -/
theorem plazaReset (h : Held s) : Held (plazaReset s) := by
  have hfind := find_regs_of_not_reset (s := s) (q := thermP) (g := THERM_MIDNIGHT) (j := 0)
    (by rw [h.midnight]; decide)
  have hkept := find_filter_of_find (p := fun kv => keptByReset kv.1) hfind
    (show keptByReset (fkey thermP THERM_MIDNIGHT 0) = true by decide)
  refine ⟨?_, rfl, rfl, rfl, rfl, rfl, rfl, rfl, rfl, rfl, rfl, rfl, rfl, rfl, rfl⟩
  rw [rd, SMap.getD]
  change (SMap.find (s.regs.filter _) _).getD _ = 1
  rw [hkept, Option.getD_some, h.midnight]

end Held

/-! ### Steps of the package held in reset -/

/-- What a step of the held package may do: it stays held, and an answer of the management port is
all that may leave. -/
structure StaysHeld (s t : State) : Prop where
  held : Held t
  sent : t.sent = s.sent ∨ ∃ b : List Byte, t.sent = s.sent ++ [.smbus b]

namespace StaysHeld

theorem refl (h : Held s) : StaysHeld s s := ⟨h, .inl rfl⟩

theorem of_sent_eq (h : StaysHeld s x) (hy : Held y) (e : y.sent = x.sent) : StaysHeld s y :=
  ⟨hy, by rw [e]; exact h.sent⟩

theorem wr (h : StaysHeld s x) {p : PageId} {f : Fld} {i : Nat}
    (hne : fkey thermP THERM_MIDNIGHT 0 ≠ fkey p f i) (v : Nat) : StaysHeld s (wr x p f v i) :=
  h.of_sent_eq (h.held.wr hne v) rfl

theorem setDom (h : StaysHeld s x) (d : Nat) (k : Dom) : StaysHeld s (setDom x d k) :=
  h.of_sent_eq (h.held.setDom d k) rfl

theorem setDawn (h : StaysHeld s x) {w : Dawn} (hmap : w.mapFormed = false) :
    StaysHeld s { x with dawn := w } := h.of_sent_eq (h.held.setDawn hmap) rfl

theorem deliver1 (h : StaysHeld s x) (d v : Nat) : StaysHeld s (deliver1 x d v) := by
  unfold Machine.deliver1
  split
  · rw [h.held.sendVector_eq]
    exact h.of_sent_eq { h.held with } rfl
  · exact h

theorem deliver (h : StaysHeld s x) : StaysHeld s (deliver x) :=
  List.foldlRecOn (motive := StaysHeld s) [2, 3, 4] _ h fun _ hy v _ =>
    List.foldlRecOn (motive := StaysHeld s) (List.range 4) _ hy fun _ hz d _ => hz.deliver1 d v

theorem raise (h : StaysHeld s x) {p : PageId}
    (hne : fkey thermP THERM_MIDNIGHT 0 ≠ fkey p HDR_INT_RAW 0) (b : Nat) :
    StaysHeld s (raise x p b) := (h.wr hne _).deliver

theorem ite {c : Prop} [Decidable c] (hx : StaysHeld s x) (hy : StaysHeld s y) :
    StaysHeld s (if c then x else y) := by
  split
  · exact hx
  · exact hy

theorem leaveReset (h : StaysHeld s x) : StaysHeld s (leaveReset x) := by
  rw [h.held.leaveReset]
  exact h

theorem plazaReset (h : StaysHeld s x) : StaysHeld s (plazaReset x) :=
  h.of_sent_eq h.held.plazaReset rfl

/-- The registers that show a die's hints stand in the page `PWR` (R271). -/
theorem showHints (h : StaysHeld s x) (d : DieId) : StaysHeld s (showHints x d) := by
  have hpending : ∀ d : DieId, fkey thermP THERM_MIDNIGHT 0 ≠ fkey pwrP PWR_PENDING d := by decide
  have hactive : ∀ d : DieId, fkey thermP THERM_MIDNIGHT 0 ≠ fkey pwrP PWR_ACTIVE d := by decide
  exact (h.wr (hpending d) _).wr (hactive d) _

end StaysHeld

/-- Every next state of an outcome is one that a step of the held package may lead to. -/
structure HeldO (s : State) (o : Host.Outcome State Fault Refusal) : Prop where
  ok : ∀ t, o = .next t → StaysHeld s t

namespace HeldO

variable {o : Host.Outcome State Fault Refusal} {c : Prop} [Decidable c]

theorem next (h : StaysHeld s x) : HeldO s (.next x) := ⟨fun _ e => by cases e; exact h⟩

theorem fault {f : Fault} : HeldO s (.fault f) := ⟨fun _ e => by cases e⟩

/-- An outcome that leaves the state as it is. -/
theorem idle (h : Held s) (e : o = .next s) : HeldO s o := by subst e; exact .next (.refl h)

/-- A row that leaves the state as it is. -/
theorem same (h : Held s) (e : x = s) : HeldO s (.next x) := .idle h (congrArg _ e)

theorem ite {o' : Host.Outcome State Fault Refusal} (ho : HeldO s o) (ho' : HeldO s o') :
    HeldO s (if c then o else o') := by
  split
  · exact ho
  · exact ho'

/-- A payload that no transfer has is a fault, which is no next state. -/
theorem checked {c : Prop} {_ : Decidable c} {f : Fault} (h : HeldO s o) :
    HeldO s (if c then .fault f else o) := .ite .fault h

end HeldO

end Sys2Proof.Proofs
end

section
/-!
PROOF. A thermal trip holds the package until VDD_AON is removed (R282, R344): every command but that
removal is taken through the support on the held package, and a trip of an armed triplet brings it
about.
-/
open Sys2Proof Sys2Proof.Machine Sys2Proof.Safety Sys2Proof.Laws
namespace Sys2Proof.Proofs

variable {s t x : State}

/-! ### The commands that have an effect on the package held in reset -/

/-- A register read changes what is captured or latched, and nothing else (R293, R338). -/
theorem readReg_fst_eq (s : State) (req o : Nat) (wide : Bool) :
    ∃ c l, (readReg s req o wide).1 = { s with captures := c, latches := l } := by
  unfold readReg readPair readWord captureErr
  dsimp only
  repeat' split
  all_goals exact ⟨_, _, rfl⟩

/-- The management port answers, and its offset moves on (R344, R354). -/
theorem StaysHeld.smbRead (h : Held s) (wide : Bool) : StaysHeld s (smbRead s wide) := by
  unfold Machine.smbRead
  extract_lets n o e r
  obtain ⟨c, l, hr⟩ : ∃ c l, r.1 = { s with captures := c, latches := l } := by
    dsimp only [r]
    split
    · exact readReg_fst_eq s 4 o wide
    · exact ⟨_, _, rfl⟩
  have hheld : Held r.1 := by
    rw [hr]
    exact { h with }
  have hsent : r.1.sent = s.sent := by rw [hr]
  exact ⟨{ hheld with }, .inr ⟨_, congrArg (· ++ _) hsent⟩⟩

/-- A hint of a die becomes its active class (R271). -/
theorem StaysHeld.activate (h : StaysHeld s x) (d : DieId) (cls : Nat) :
    StaysHeld s (activate x d cls) := (h.setDom _ _).showHints d

namespace Held

theorem waitEventTimeout (h : Held s) (d : DistId) (refused : Bool) :
    execWaitEventTimeout d refused s = .next s := by simp [execWaitEventTimeout, h.jobWithOp]

theorem respareDone (h : Held s) (d : DistId) (fails : BitVec 32) (refused : Bool) :
    execRespareDone d fails refused s = .next s := by simp [execRespareDone, h.jobWithOp]

/-- PERST_N moves, and no port that is up is reset (R243, R353). -/
theorem hostPortReset (h : Held s) (p : PortId) (k : PortReset) :
    HeldO s (execHostPortReset p k s) := by
  cases k with
  | perstLow =>
    have hmoved : Held { s with dawn := { s.dawn with perst := setBit s.dawn.perst p } } :=
      h.setDawn h.mapFormed
    refine .next ?_
    rw [perstFalls, hmoved.plazaUp]
    exact .setDawn (.refl h) h.mapFormed
  | perstHigh => exact .next (.setDawn (.refl h) h.mapFormed)
  | hot | flr => exact .same h (if_neg (by simp [h.plazaUp]))

theorem prerampStart (h : Held s) (d : DieId) (k : Fin 4) : HeldO s (execPrerampStart d k s) := by
  unfold execPrerampStart
  split
  · exact .next (.ite (.setDom (.refl h) _ _) (.refl h))
  · exact .same h rfl

theorem hintStart (h : Held s) (d : DieId) (k : Fin 4) : HeldO s (execHintStart d k s) := by
  unfold execHintStart
  split
  · exact .ite (.next (.activate (.refl h) d _)) (.same h rfl)
  · exact .same h rfl

end Held

/-! ### Every command -/

/-- Most commands find nothing to act on: the page, the block, the tile or the link they need is not
there or does not run. The always-on domain, the management port and the governors' timers go on. -/
theorem heldO_exec (h : Held s) (c : Instr) (hc : ∀ b, c ≠ .vddAonRemove b) :
    HeldO s (exec c s) := by
  cases c with
  | vddAonRemove b => exact absurd rfl (hc b)
  -- a host writes or reads a register
  | fwGo | opTargetWrite | pwrCapWrite | cmdDoorbell | cplHeadWrite | qdieMaskWrite | lcReq
  | scanEnable | attGo | oeEnableWrite | blvdEnableWrite | crossingApply | alleyRetrain | portAccept
  | squareAccept | collAbort | cmdprocSoftReset | sliceSoftReset | engineEnableWrite
  | engineSoftReset | tileSoftReset | moverSoftReset | twReq | twExit | intEoi =>
    exact .same h (h.fieldWrite _ _ _ _ _)
  | recEmit => exact .checked (.same h (h.fieldWrite _ _ _ _ _))
  | quarterEntryWrite => exact .same h (h.guardedWrite _ _ _ _)
  | signPolicyWrite => exact .same h ((ite_congr rfl (fun _ => h.fieldWrite _ _ _ _ _)
      fun _ => h.fieldWrite _ _ _ _ _).trans (ite_self s))
  | moverConfigWrite => exact .same h (h.moverConfig _ _ _ _)
  | blockEnableWrite | pageSoftReset | lockWrite | intForceWrite | intStatusClear
  | intEnableWrite => exact .same h (h.hdrWrite _ _ _ _)
  | registerWrite => exact .same h (h.hostWrite _ _ _ _ _)
  | errAddrLoRead | loHalfRead => exact .same h (h.hostRead _ _ _)
  | distGlbWrite => exact .checked (.same h (if_pos (by simp [h.plazaUp])))
  | windowRead | windowWrite => exact .checked (.same h (if_neg (by simp [barOpen, h.plazaUp])))
  | msixUnmask => exact .same h (if_neg (by simp [h.plazaUp]))
  -- the Plaza is up, or Dawn has come to a stage
  | hostLinkTrained => exact .checked (.same h (if_neg (by simp [h.plazaUp])))
  | hostLinkDown | dieHeartbeatLost | oeHeartbeatLost | fusePulse | attDone | recordEmitted
  | qdieScrubDone | collBlockFold | moderationTimer | twEntryDone | replayTimeout =>
    exact .same h (if_neg (by simp [h.plazaUp]))
  | neighbourAbsent => exact .same h (if_pos (by simp [h.plazaUp]))
  | twExitDone => exact .checked (.same h (if_neg (by simp [h.plazaUp])))
  | blockStartDone => exact .checked (.same h (h.onPage _ _))
  | blockDrainDone => exact .same h (h.onPage _ _)
  | fwBundleCheck | dieRelease | verticalPortTraining | opticsStart | yieldMapForm =>
    exact .same h (if_neg (by simp [h.inStage]))
  | d2dLinkTraining | dawnDone => exact .checked (.same h (if_neg (by simp [h.inStage])))
  | bistWaveStart => exact .same h (by simp [h.inStage])
  | bistBudgetExpire => exact .same h (if_neg (by simp [h.inStage]))
  | dieResetSignalled | dieClockLoss => exact .same h (h.dieLost _ _ _)
  | d2dFlitCrcError | d2dLaneFail | d2dModuleRetrained =>
    exact .same h (if_neg (by simp [h.groupRuns]))
  | tileClockLoss | tileRouterLost | slicePortLoss => exact .same h (h.tileLost _ _ _)
  | fuseSupplySag | lcTransitionDone => exact .same h (by rw [h.sec])
  -- Dusk runs
  | dawnRailsGood | dawnRailHalt => exact .same h (if_neg (by simp [h.duskRuns]))
  | duskRound | governorStep => exact .checked (.idle h (if_neg (by simp [h.duskRuns, h.aonRuns])))
  | sensorSuspectLow | sensorRecovered | sensorHighSuspect | railOutOfRange | tempLevelRelease
  | refreshRateFall => exact .idle h (if_neg (by simp [h.sensorsRun]))
  | opRaiseQualified | opStepDone | capUnattainable => exact .idle h (if_neg (by simp [h.plazaUp]))
  | thermalTrip => exact .same h (if_neg (by simp [h.aonRuns]))
  | tripComparatorDegraded => exact .same h (if_neg (by simp [h.sensorsRun]))
  -- a tile, its mover or its slice works
  | bundleIssue => exact .same h (h.bundleIssue _ _)
  | waitRelease => exact .same h (h.waitRelease _ _)
  | pacingCycle => exact .same h (h.pacingCycle _)
  | parityRetry => exact .same h (h.parityRetry _ _)
  | registerResultLand | arrayResultLand => exact .same h (h.resultLand _ _)
  | trapSettled => exact .same h (h.trapSettled _)
  | tileComplete => exact .same h (h.tileComplete _)
  | slipTimeout => exact .same h (h.slipTimeout _)
  | mxLdw | vxAdd | vxSub | vxMul | vxMax | vxMin | vxFma | vxFnma | vxCmp | vxSel | vxPlog | vxAnd
  | vxOr | vxXor | vxShl | vxShr | vxSra | vxPerm | vxSplat | vxIota | vxExt | vxCvt | vxCvtfmx
  | vxCvtmx | vxExp2 | vxLog2 | vxRcp | vxRsq | vxRsum | vxRmax | vxRmin | vxAcrd | vxAcwr | smVld
  | smVst | smQtov | smVtoq | smCh | smFence | nxSig | nxWait | nxColl | nxHevt | ctLi | ctAlu
  | ctAddi | ctLoop | ctRdl | ctBr | ctPhase | ctEnd | ctTrap => exact .same h (h.slotIssue _ _)
  | mxRun | mxWin | smQtos | smStoq | nxSend => exact .checked (.same h (h.slotIssue _ _))
  | moverRead | moverWrite | moverFill | moverTread => exact .same h (h.moverStep _ _ _ _ _)
  | channelHalt => exact .same h (h.moverHalt _ _ _)
  | moverCommandDone => exact .same h (h.moverDone _ _)
  | meshLineArrive src lines =>
    cases src with
    | tile => exact .same h (h.sendLines _ _ _)
    | package => exact .same h (h.remoteLine _)
    | corrupted => exact .same h (h.sendCorrupted _ _ _ _)
  | meshSignalArrive src =>
    cases src with
    | tile => exact .same h (h.sendSig _ _)
    | package => exact .same h (h.remoteSig _)
  | meshCreditReturn => exact .same h (h.creditBack _ _)
  | sliceRead => exact .same h (h.sliceRequest _ _ _ _)
  | sliceWrite | narrowWrite => exact .checked (.same h (h.sliceRequest _ _ _ _))
  | engineModeWrite | engineGo => exact .same h (h.windowRequest _ _ _ _ _)
  | engineWindowAccess t d off req data =>
    cases data with
    | none => exact .same h (h.windowRequest _ _ _ _ _)
    | some bytes => exact .checked (.same h (h.windowRequest _ _ _ _ _))
  | mergeAgeExpire | mergeFlush | sliceRefresh | scrubRead | engineModeEntered | engineModeLeft
  | engineGoAccept | enginePass | engineRunComplete | hubRefreshDue | refreshPause
  | refreshPauseEnd => exact .same h (if_neg (by simp [h.sliceLives]))
  -- a command processor or a collective goes on
  | nop => exact .same h (h.startNext _ _ _ _ _)
  | writeMem | readMem | fill | loadImage | launch | waitEvent | signalEvent | collective
  | phaseHint | respare | fence => exact .checked (.same h (h.startNext _ _ _ _ _))
  | commandFetch => exact .checked (.same h (h.fetchNext _ _ _ _))
  | dmaComplete | loadImageDone => exact .same h (h.endRow _ _ _ _)
  | waitEventTimeout => exact .idle h (h.waitEventTimeout _ _)
  | respareDone => exact .idle h (h.respareDone _ _ _)
  | collReadyReceive | collDataReceive | collAbortReceive | collHoldReceive =>
    exact .same h (by simp [takeColl, h.collIn])
  | collInstanceStart | collHoldSend | collHoldExpire | collHoldExhausted | collStartTimeout
  | collProgressTimeout => exact .same h (by rw [h.collOf])
  -- light, a link or a packet comes
  | crossingMove | moveStepTimeout | moveDone => exact .same h (by rw [h.crossing])
  | dfbFail => exact .same h (if_pos (by simp [h.oeOn]))
  | combLineDark | crossingDither => exact .same h (if_neg (by simp [h.oeOn]))
  | laneIdentityWord =>
    refine .same h ?_
    split
    · exact if_pos (by simp [h.linkLive])
    · rfl
  | linkWordReceive =>
    refine .same h ?_
    split
    · exact if_neg (by simp [h.hears])
    · rfl
  | identityTimeout | relockReq | linkRetrainDone | laneLightLoss | linkWordSilence =>
    exact .same h (if_neg (by simp [h.linkLive]))
  | release | releaseDone | grantReq | grantAccept | grantRefuse | dropNotice | retrainReq
  | handover => exact .same h (if_neg (by simp [h.hears]))
  | flitReceive => exact .checked (.same h (if_neg (by simp [linkHears, h.plazaUp])))
  | nakRepeat => exact .same h (if_neg (by simp [linkHears, h.plazaUp]))
  | packetReceive | beaconReceive =>
    refine .same h ?_
    split
    · exact if_neg (by simp [h.plazaUp])
    · rfl
  -- the always-on domain works on (R353)
  | vddAonRise => exact .next (.ite (.refl h) (.setDawn (.refl h) h.mapFormed))
  | pwrgoodRise => exact .next (.ite (.leaveReset (.setDawn (.refl h) h.mapFormed)) (.refl h))
  | pwrgoodFall => exact .next (.ite (.plazaReset (.setDawn (.refl h) h.mapFormed)) (.refl h))
  | plazaReset => exact .next (.ite (.leaveReset (.plazaReset (.refl h))) (.refl h))
  | hostPortReset p k => exact h.hostPortReset p k
  | throttleNAssert =>
    exact .ite (.next (.raise (.wr (.refl h) (by decide) 1) (by decide) 1)) (.same h rfl)
  | throttleNRelease => exact .next (.wr (.refl h) (by decide) 0)
  | setOffset => exact .next (.ite ((StaysHeld.refl h).of_sent_eq { h with } rfl) (.refl h))
  | read32 | read64 => exact .next (.ite (.smbRead h _) (.refl h))
  -- what the governors hold goes on (R266, R271)
  | iccCeilingRise => exact .ite (.next (.setDom (.refl h) _ _)) (.same h rfl)
  | prerampStart => exact h.prerampStart _ _
  | hintStart => exact h.hintStart _ _
  | hintExpire => exact .ite (.next (.showHints (.setDom (.refl h) _ _) _)) (.same h rfl)

/-! ### The trip (R282) -/

theorem regsOk_wr (hok : regsOk s = true) (p : PageId) (f : Fld) (v i : Nat) :
    regsOk (wr s p f v i) = true := (wr_kept (.refl s) p f v i).regs hok

section
variable (hok : regsOk s = true) (d : DieId) (k : Fin 8)
include hok

theorem regsOk_plazaReset : regsOk (plazaReset s) = true :=
  (plazaReset_kept s (.refl s)).regs hok

theorem midnight_readsAs : ReadsAs thermP THERM_MIDNIGHT 0 1 (midnight s d k) :=
  (((ReadsAs.written (regsOk_plazaReset hok) (by decide)).wr_of_ne _ (by decide)).wr_of_ne _
    (by decide)).emit _

theorem tripDie_readsAs : ReadsAs thermP THERM_TRIP_DIE 0 d (midnight s d k) :=
  ((ReadsAs.written (regsOk_wr (regsOk_plazaReset hok) _ _ _ _) d.isLt).wr_of_ne _
    (by decide)).emit _

theorem tripTriplet_readsAs : ReadsAs thermP THERM_TRIP_TRIPLET 0 k (midnight s d k) :=
  (ReadsAs.written (regsOk_wr (regsOk_wr (regsOk_plazaReset hok) _ _ _ _) _ _ _ _) k.isLt).emit _

/-- A trip resets the Plaza and sets the latch, so that nothing runs, waits or is connected. -/
theorem held_midnight : Held (midnight s d k) :=
  ⟨(midnight_readsAs hok d k).val, rfl, rfl, rfl, rfl, rfl, rfl, rfl, rfl, rfl, rfl, rfl, rfl, rfl,
    rfl⟩

end

theorem exec_thermalTrip (haon : aonRuns s = true) (d : DieId) (k : Fin 8) :
    exec (.thermalTrip d k true) s = .next (midnight s d k) :=
  congrArg Host.Outcome.next (if_pos (by simp [haon]))

/-- A step takes the command in front, if there is one. -/
theorem staysHeld_step (h : Held s)
    (hqueue : ∀ b : Bool, s.pending.head? ≠ some (.vddAonRemove b))
    (hstep : step s = .next t) : StaysHeld s t := by
  unfold step at hstep
  split at hstep
  · cases hstep
    exact .refl h
  · next c rest hpending =>
    have htaken : Held { s with pending := rest } := { h with }
    have hc : ∀ b, c ≠ .vddAonRemove b := fun b e => hqueue b (by rw [hpending, e]; rfl)
    obtain ⟨hheld, hsent⟩ := (heldO_exec htaken c hc).ok t hstep
    exact ⟨hheld, hsent⟩

/-- Settles O8: the trip resets the package and sets the latch; from then on every command but the
removal of VDD_AON finds nothing to act on, or leaves the latch and sends no more than an answer of
the management port. -/
theorem midnightHoldsThePackage : Obligations.MidnightHoldsThePackage := by
  refine ⟨?trip, ?step⟩
  case trip =>
    intro s d k hok haon
    exact ⟨midnight s d k, exec_thermalTrip haon d k, heldInReset_iff.mpr (held_midnight hok d k),
      rfl, (tripDie_readsAs hok d k).val, (tripTriplet_readsAs hok d k).val, rfl, rfl⟩
  case step =>
    intro s t hheld hqueue hstep
    obtain ⟨hstays, hsent⟩ := staysHeld_step (heldInReset_iff.mp hheld) hqueue hstep
    exact ⟨heldInReset_iff.mpr hstays, hsent⟩

end Sys2Proof.Proofs
end

section
/-!
PROOF. The rounds of Dusk (R6, R133, R260, R262, R275, R277 to R280): what each command does where
its conditions hold.
-/
open Sys2Proof Sys2Proof.Machine Sys2Proof.Safety Sys2Proof.Laws
namespace Sys2Proof.Proofs

variable {s : State}

theorem exec_duskRound {r : RoundIn} (hok : r.ok = true) (hruns : duskRuns s = true) :
    exec (.duskRound r) s = .next (duskRound s r) :=
  (if_neg (by simpa [roundOk, RoundIn.ok] using hok)).trans (if_pos hruns)

/-- A level of TJ falls in any domain (R279). -/
theorem tempRelease_tj {d : Fin 5} (hcool : 3 ≤ (dom s d).coolJ) :
    tempRelease s d false = reapply (wr (setDom s d { dom s d with coolJ := 0 }) thermP THERM_TJ_LEVEL
      (rd s thermP THERM_TJ_LEVEL d - 1) d) d := if_pos hcool

/-- A level of TD falls in a die, and not in the collective group (R280). -/
theorem tempRelease_td {d : Fin 5} (hdie : d.val < 4) (hcool : 3 ≤ (dom s d).coolD) :
    tempRelease s d true = reapply (wr (setDom s d { dom s d with coolD := 0 }) thermP THERM_TD_LEVEL
      (rd s thermP THERM_TD_LEVEL d - 1) d) d := if_pos (by simp [hdie, hcool])

theorem exec_tempLevelRelease (hruns : sensorsRun s = true) (d : Fin 5) (td : Bool) :
    exec (.tempLevelRelease d td) s = .next (tempRelease s d td) := if_pos hruns

/-- Settles O33: each row of the table finds its conditions met. -/
theorem duskRounds : Obligations.DuskRounds := by
  refine ⟨?cap, ?target, ?round, ?suspect, ?recovered, ?high, ?rail, ?tj, ?td, ?rate⟩
  case cap =>
    exact fun s req v hwrite => congrArg Host.Outcome.next (fieldWrite_of_takesWrite hwrite _)
  case target =>
    exact fun s req d v hwrite => congrArg Host.Outcome.next (fieldWrite_of_takesWrite hwrite _)
  case round => exact fun s r hok hruns => exec_duskRound hok hruns
  case suspect => exact fun s c hruns hrounds hnew => if_pos (by simp [hruns, hrounds, hnew])
  case recovered => exact fun s c hruns hrounds hlow => if_pos (by simp [hruns, hrounds, hlow])
  case high => exact fun s c hruns hrounds hnew => if_pos (by simp [hruns, hrounds, hnew])
  case rail => exact fun s c hruns hrounds hnew => if_pos (by simp [hruns, hrounds, hnew])
  case tj =>
    exact fun s d hruns hcool => (exec_tempLevelRelease hruns d false).trans
      (congrArg Host.Outcome.next (tempRelease_tj hcool))
  case td =>
    exact fun s d hruns hdie hcool => (exec_tempLevelRelease hruns d true).trans
      (congrArg Host.Outcome.next (tempRelease_td hdie hcool))
  case rate => exact fun s q hruns hrounds => if_pos (by simp [hruns, hrounds])

end Sys2Proof.Proofs
end

section
/-!
PROOF. Operating points, the governors and hints (R261, R265, R266, R271, R273, R274): what each
command does where its conditions hold.
-/
open Sys2Proof Sys2Proof.Machine Sys2Proof.Safety Sys2Proof.Laws
namespace Sys2Proof.Proofs

variable {s : State} {d : DieId}

theorem exec_governorStep {l : List GovIn} {h : List (Nat × Bool)} (hdoms : l.length = 5)
    (hheaters : h.length ≤ 4) (haon : aonRuns s = true) :
    exec (.governorStep l h) s = .next (governorStep s l h) :=
  (if_neg (by simp [hdoms, hheaters])).trans (if_pos haon)

/-! ### Hints (R271) -/

section
variable {k : Fin 4} {h : Hint} (hpending : (dom s d).hints.find? (fun h => h.cls == k.val) = some h)
include hpending

theorem exec_prerampStart {m : Nat} (hramp : h.ramp = some m) (hcome : m ≤ s.dusk.us) :
    exec (.prerampStart d k) s = .next (startRamp s d k) := by
  change execPrerampStart d k s = _
  rw [execPrerampStart, hpending]
  exact congrArg Host.Outcome.next (if_pos (by simp [hramp, hcome]))

theorem exec_hintStart (hcome : h.start ≤ s.dusk.us) :
    exec (.hintStart d k) s = .next (activate s d k) := by
  change execHintStart d k s = _
  rw [execHintStart, hpending]
  exact if_pos hcome

end

theorem exec_hintExpire (hactive : (dom s d).active ≠ none)
    (hlast : (dom s d).lastHint + 10000 ≤ s.dusk.us) (hnone : (dom s d).hints = []) :
    exec (.hintExpire d) s = .next (showHints (setDom s d { dom s d with active := none }) d) :=
  if_pos (by simp [Option.isSome_iff_ne_none, hactive, hlast, hnone])

/-- Settles O34: each row of the table finds its conditions met. -/
theorem governorCommands : Obligations.GovernorCommands := by
  refine ⟨?raise, ?step, ?cap, ?governor, ?ceiling, ?throttle, ?release, ?preramp, ?start, ?expire⟩
  case raise => exact fun s d hplaza hon hhigher => if_pos (by simp [hplaza, hon, hhigher])
  case step => exact fun s d k hplaza _ => if_pos hplaza
  case cap => exact fun s hplaza hrounds hnew => if_pos (by simp [hplaza, hrounds, hnew])
  case governor => exact fun s l h hdoms hheaters haon => exec_governorStep hdoms hheaters haon
  case ceiling => exact fun s d hsteps => if_pos hsteps
  case throttle => exact fun s haon hreleased => if_pos (by simp [haon, hreleased])
  case release => exact fun s => rfl
  case preramp => exact fun s d k h m hpending hramp hcome => exec_prerampStart hpending hramp hcome
  case start => exact fun s d k h hpending hcome => exec_hintStart hpending hcome
  case expire => exact fun s d hactive hlast hnone => exec_hintExpire hactive hlast hnone

end Sys2Proof.Proofs
end

section
/-!
PROOF. The request for Twilight (R283). The write of `KEEP_RINGS` comes before `STATE` is looked at,
so that the statement needs the register file in its canonical form, which it does not ask for.
-/
open Sys2Proof Sys2Proof.Machine Sys2Proof.Safety Sys2Proof.Laws
namespace Sys2Proof.Proofs

variable {s : State} {keep : Bool}

/-- The state in which a request for Twilight is judged: `KEEP_RINGS` is written. -/
def keepRingsWritten (s : State) (keep : Bool) : State :=
  wr s duskP DUSK_KEEP_RINGS (ofBool keep)

theorem exec_twReq {req : PortId} (hwrite : takesWrite s req duskP DUSK_TW_REQ = true) (keep : Bool) :
    exec (.twReq req keep) s = .next (twRequest s keep) :=
  congrArg Host.Outcome.next (fieldWrite_of_takesWrite hwrite _)

theorem twRequest_of_off (hoff : rd (keepRingsWritten s keep) duskP HDR_STATE ≠ 2) :
    twRequest s keep = keepRingsWritten s keep := if_pos (by simpa using .inr hoff)

/-- What the statement says of a request, with the register file in its canonical form. -/
theorem twRequest_of_regsOk (hok : regsOk s = true) (hon : rd s duskP HDR_STATE = 2)
    (hawake : awake (keepRingsWritten s keep) = true)
    (hquiet : quietPackage (keepRingsWritten s keep) = true) :
    twRequest s keep = (liveSlices (keepRingsWritten s keep)).foldl askController
      (wr (wr (keepRingsWritten s keep) duskP DUSK_TW_STATE 1) duskP DUSK_WAKE_PENDING 0) := by
  have hstate : rd (keepRingsWritten s keep) duskP HDR_STATE = 2 :=
    (rd_wr_of_ne (keysFrom_of_regsOk hok) (by decide)).trans hon
  unfold keepRingsWritten at *
  simp [twRequest, hawake, hquiet, hstate]

/-- The package up and quiet, with an entry for `STATE` of the page `DUSK`, which is to be OFF, behind
the entry for `KEEP_RINGS`: a search of the file stops before it, and finds `STATE` at its reset value,
ON. -/
def stateBehindKeepRings : State :=
  wr (wr { State.reset with
      dawn := { aon := true, pwrgood := true }
      regs := [(fkey duskP DUSK_KEEP_RINGS 0, 0), (fkey duskP HDR_STATE 0, 0)] }
    dawnP DAWN_STAGE 15) (hostportP 0) HOSTPORT_LINK_UP 1

/-- Refutes O35: the row of TW_REQ fails where the keys of the register file do not rise. `KEEP_RINGS`
written to its reset value takes its entry out of the file of `stateBehindKeepRings`, and the entry of
`STATE` behind it comes to light: the block is OFF, and no entry into Twilight begins. `SMap.put` and
`SMap.del` make no such file out of one with rising keys, and for one with rising keys
`twRequest_of_regsOk` proves what the statement says of the row. -/
theorem not_tripsAndTwilight : ¬ Obligations.TripsAndTwilight := by
  rintro ⟨-, -, -, hrequest, -, -, -⟩
  have hclaimed := hrequest stateBehindKeepRings 0 true (by decide) (by decide) (by decide) (by decide)
  rw [exec_twReq (by decide), twRequest_of_off (by decide)] at hclaimed
  have hentering := congrArg (rd · duskP DUSK_TW_STATE) (Host.Outcome.next.inj hclaimed)
  exact absurd hentering (by decide)

end Sys2Proof.Proofs
end

section
/-!
PROOF. A step takes the command in front of the queue and runs it, so that what every command keeps
(`Kept`) every step keeps; and where the block starts from.
-/
open Sys2Proof Sys2Proof.Machine Sys2Proof.Safety Sys2Proof.Laws
namespace Sys2Proof.Proofs

variable {s t : State}

/-! ### One step -/

theorem step_of_cons {c : Instr} {rest : List Instr} (h : s.pending = c :: rest) :
    step s = exec c { s with pending := rest } := by
  simp only [step, h]

theorem step_of_nil (h : s.pending = []) : step s = .next s := by
  simp only [step, h]

/-- Settles O1. -/
theorem stepRunsFrontCommand : Obligations.StepRunsFrontCommand :=
  ⟨fun _ _ _ => step_of_cons, fun _ => step_of_nil⟩

/-- What a step that goes on can have done: it idled, or it ran the command in front. -/
theorem step_cases (h : step s = .next t) :
    s.pending = [] ∧ t = s ∨
      ∃ c rest, s.pending = c :: rest ∧ exec c { s with pending := rest } = .next t := by
  cases hpending : s.pending with
  | nil =>
    rw [step_of_nil hpending] at h
    exact .inl ⟨rfl, (Host.Outcome.next.inj h).symm⟩
  | cons c rest =>
    rw [step_of_cons hpending] at h
    exact .inr ⟨c, rest, rfl, h⟩

/-! ### What every command keeps -/

/-- Every command keeps the canonical forms, the queue, what has left, and every blown fuse. -/
theorem exec_kept (c : Instr) (s : State) : KeptO s (exec c s) :=
  match c with
  | .vddAonRise => execVddAonRise_kept s (.refl s)
  | .dawnRailsGood => execDawnRailsGood_kept s (.refl s)
  | .dawnRailHalt => execDawnRailHalt_kept s (.refl s)
  | .pwrgoodRise _ => execPwrgoodRise_kept _ s (.refl s)
  | .pwrgoodFall => execPwrgoodFall_kept s (.refl s)
  | .vddAonRemove _ => execVddAonRemove_kept _ s (.refl s)
  | .plazaReset => execPlazaReset_kept s (.refl s)
  | .hostLinkTrained _ _ _ _ => execHostLinkTrained_kept _ _ _ _ s (.refl s)
  | .hostLinkDown _ => execHostLinkDown_kept _ s (.refl s)
  | .fwGo _ => execFwGo_kept _ s (.refl s)
  | .fwBundleCheck _ _ => execFwBundleCheck_kept _ _ s (.refl s)
  | .dieRelease _ _ => execDieRelease_kept _ _ s (.refl s)
  | .d2dLinkTraining _ _ _ _ _ _ _ => execD2dLinkTraining_kept _ _ _ _ _ _ _ s (.refl s)
  | .verticalPortTraining _ _ _ => execVerticalPortTraining_kept _ _ _ s (.refl s)
  | .bistWaveStart _ => execBistWaveStart_kept _ s (.refl s)
  | .bistBudgetExpire _ _ _ _ => execBistBudgetExpire_kept _ _ _ _ s (.refl s)
  | .yieldMapForm => execYieldMapForm_kept s (.refl s)
  | .opticsStart _ _ => execOpticsStart_kept _ _ s (.refl s)
  | .dawnDone _ => execDawnDone_kept _ s (.refl s)
  | .recEmit _ _ => execRecEmit_kept _ _ s (.refl s)
  | .recordEmitted _ => execRecordEmitted_kept _ s (.refl s)
  | .dieHeartbeatLost _ => execDieHeartbeatLost_kept _ s (.refl s)
  | .dieResetSignalled _ => execDieResetSignalled_kept _ s (.refl s)
  | .dieClockLoss _ => execDieClockLoss_kept _ s (.refl s)
  | .d2dFlitCrcError _ _ _ => execD2dFlitCrcError_kept _ _ _ s (.refl s)
  | .d2dLaneFail _ _ _ _ _ => execD2dLaneFail_kept _ _ _ _ _ s (.refl s)
  | .d2dModuleRetrained _ _ _ => execD2dModuleRetrained_kept _ _ _ s (.refl s)
  | .bundleIssue _ _ => execBundleIssue_kept _ _ s (.refl s)
  | .waitRelease _ _ => execWaitRelease_kept _ _ s (.refl s)
  | .pacingCycle _ => execPacingCycle_kept _ s (.refl s)
  | .parityRetry _ _ => execParityRetry_kept _ _ s (.refl s)
  | .registerResultLand _ => execRegisterResultLand_kept _ s (.refl s)
  | .arrayResultLand _ => execArrayResultLand_kept _ s (.refl s)
  | .mxLdw _ _ => execMxLdw_kept _ _ s (.refl s)
  | .mxRun _ _ => execMxRun_kept _ _ s (.refl s)
  | .mxWin _ _ => execMxWin_kept _ _ s (.refl s)
  | .vxAdd _ _ => execVxAdd_kept _ _ s (.refl s)
  | .vxSub _ _ => execVxSub_kept _ _ s (.refl s)
  | .vxMul _ _ => execVxMul_kept _ _ s (.refl s)
  | .vxMax _ _ => execVxMax_kept _ _ s (.refl s)
  | .vxMin _ _ => execVxMin_kept _ _ s (.refl s)
  | .vxFma _ _ => execVxFma_kept _ _ s (.refl s)
  | .vxFnma _ _ => execVxFnma_kept _ _ s (.refl s)
  | .vxCmp _ _ => execVxCmp_kept _ _ s (.refl s)
  | .vxSel _ _ => execVxSel_kept _ _ s (.refl s)
  | .vxPlog _ _ => execVxPlog_kept _ _ s (.refl s)
  | .vxAnd _ _ => execVxAnd_kept _ _ s (.refl s)
  | .vxOr _ _ => execVxOr_kept _ _ s (.refl s)
  | .vxXor _ _ => execVxXor_kept _ _ s (.refl s)
  | .vxShl _ _ => execVxShl_kept _ _ s (.refl s)
  | .vxShr _ _ => execVxShr_kept _ _ s (.refl s)
  | .vxSra _ _ => execVxSra_kept _ _ s (.refl s)
  | .vxPerm _ _ => execVxPerm_kept _ _ s (.refl s)
  | .vxSplat _ _ => execVxSplat_kept _ _ s (.refl s)
  | .vxIota _ _ => execVxIota_kept _ _ s (.refl s)
  | .vxExt _ _ => execVxExt_kept _ _ s (.refl s)
  | .vxCvt _ _ => execVxCvt_kept _ _ s (.refl s)
  | .vxCvtfmx _ _ => execVxCvtfmx_kept _ _ s (.refl s)
  | .vxCvtmx _ _ => execVxCvtmx_kept _ _ s (.refl s)
  | .vxExp2 _ _ => execVxExp2_kept _ _ s (.refl s)
  | .vxLog2 _ _ => execVxLog2_kept _ _ s (.refl s)
  | .vxRcp _ _ => execVxRcp_kept _ _ s (.refl s)
  | .vxRsq _ _ => execVxRsq_kept _ _ s (.refl s)
  | .vxRsum _ _ => execVxRsum_kept _ _ s (.refl s)
  | .vxRmax _ _ => execVxRmax_kept _ _ s (.refl s)
  | .vxRmin _ _ => execVxRmin_kept _ _ s (.refl s)
  | .vxAcrd _ _ => execVxAcrd_kept _ _ s (.refl s)
  | .vxAcwr _ _ => execVxAcwr_kept _ _ s (.refl s)
  | .smVld _ _ _ _ _ _ => execSmVld_kept _ _ _ _ _ _ s (.refl s)
  | .smVst _ _ _ _ _ _ => execSmVst_kept _ _ _ _ _ _ s (.refl s)
  | .smQtov _ _ _ _ => execSmQtov_kept _ _ _ _ s (.refl s)
  | .smVtoq _ _ _ _ => execSmVtoq_kept _ _ _ _ s (.refl s)
  | .smQtos _ _ _ _ _ _ => execSmQtos_kept _ _ _ _ _ _ s (.refl s)
  | .smStoq _ _ _ _ _ _ => execSmStoq_kept _ _ _ _ _ _ s (.refl s)
  | .smCh _ _ => execSmCh_kept _ _ s (.refl s)
  | .smFence _ _ => execSmFence_kept _ _ s (.refl s)
  | .moverRead _ _ _ _ => execMoverRead_kept _ _ _ _ s (.refl s)
  | .moverWrite _ _ _ => execMoverWrite_kept _ _ _ s (.refl s)
  | .moverFill _ _ _ => execMoverFill_kept _ _ _ s (.refl s)
  | .moverTread _ _ _ _ => execMoverTread_kept _ _ _ _ s (.refl s)
  | .channelHalt _ _ _ => execChannelHalt_kept _ _ _ s (.refl s)
  | .moverCommandDone _ _ => execMoverCommandDone_kept _ _ s (.refl s)
  | .nxSend _ _ _ _ _ _ => execNxSend_kept _ _ _ _ _ _ s (.refl s)
  | .nxSig _ _ => execNxSig_kept _ _ s (.refl s)
  | .nxWait _ _ _ => execNxWait_kept _ _ _ s (.refl s)
  | .nxColl _ _ _ _ => execNxColl_kept _ _ _ _ s (.refl s)
  | .nxHevt _ _ => execNxHevt_kept _ _ s (.refl s)
  | .meshLineArrive _ _ => execMeshLineArrive_kept _ _ s (.refl s)
  | .meshSignalArrive _ => execMeshSignalArrive_kept _ s (.refl s)
  | .meshCreditReturn _ _ => execMeshCreditReturn_kept _ _ s (.refl s)
  | .ctLi _ _ _ _ => execCtLi_kept _ _ _ _ s (.refl s)
  | .ctAlu _ _ _ _ _ => execCtAlu_kept _ _ _ _ _ s (.refl s)
  | .ctAddi _ _ _ _ => execCtAddi_kept _ _ _ _ s (.refl s)
  | .ctLoop _ _ _ _ => execCtLoop_kept _ _ _ _ s (.refl s)
  | .ctRdl _ _ _ => execCtRdl_kept _ _ _ s (.refl s)
  | .ctBr _ _ _ _ _ => execCtBr_kept _ _ _ _ _ s (.refl s)
  | .ctPhase _ _ _ => execCtPhase_kept _ _ _ s (.refl s)
  | .ctEnd _ => execCtEnd_kept _ s (.refl s)
  | .ctTrap _ _ => execCtTrap_kept _ _ s (.refl s)
  | .trapSettled _ => execTrapSettled_kept _ s (.refl s)
  | .tileComplete _ => execTileComplete_kept _ s (.refl s)
  | .slipTimeout _ => execSlipTimeout_kept _ s (.refl s)
  | .tileSoftReset _ _ => execTileSoftReset_kept _ _ s (.refl s)
  | .moverSoftReset _ _ => execMoverSoftReset_kept _ _ s (.refl s)
  | .moverConfigWrite _ _ _ _ => execMoverConfigWrite_kept _ _ _ _ s (.refl s)
  | .sliceRead _ _ _ _ _ => execSliceRead_kept _ _ _ _ _ s (.refl s)
  | .sliceWrite _ _ _ _ => execSliceWrite_kept _ _ _ _ s (.refl s)
  | .narrowWrite _ _ _ _ _ => execNarrowWrite_kept _ _ _ _ _ s (.refl s)
  | .mergeAgeExpire _ _ => execMergeAgeExpire_kept _ _ s (.refl s)
  | .mergeFlush _ _ _ => execMergeFlush_kept _ _ _ s (.refl s)
  | .sliceRefresh _ => execSliceRefresh_kept _ s (.refl s)
  | .scrubRead _ _ => execScrubRead_kept _ _ s (.refl s)
  | .sliceSoftReset _ _ _ => execSliceSoftReset_kept _ _ _ s (.refl s)
  | .engineWindowAccess _ _ _ _ _ _ => execEngineWindowAccess_kept _ _ _ _ _ _ s (.refl s)
  | .engineModeWrite _ _ _ => execEngineModeWrite_kept _ _ _ s (.refl s)
  | .engineModeEntered _ => execEngineModeEntered_kept _ s (.refl s)
  | .engineModeLeft _ => execEngineModeLeft_kept _ s (.refl s)
  | .engineGo _ _ _ => execEngineGo_kept _ _ _ s (.refl s)
  | .engineGoAccept _ => execEngineGoAccept_kept _ s (.refl s)
  | .enginePass _ _ => execEnginePass_kept _ _ s (.refl s)
  | .engineRunComplete _ => execEngineRunComplete_kept _ s (.refl s)
  | .hubRefreshDue _ => execHubRefreshDue_kept _ s (.refl s)
  | .refreshPause _ => execRefreshPause_kept _ s (.refl s)
  | .refreshPauseEnd _ => execRefreshPauseEnd_kept _ s (.refl s)
  | .engineEnableWrite _ _ _ => execEngineEnableWrite_kept _ _ _ s (.refl s)
  | .engineSoftReset _ _ => execEngineSoftReset_kept _ _ s (.refl s)
  | .crossingApply _ _ => execCrossingApply_kept _ _ s (.refl s)
  | .crossingMove _ _ _ _ => execCrossingMove_kept _ _ _ _ s (.refl s)
  | .moveStepTimeout _ => execMoveStepTimeout_kept _ s (.refl s)
  | .moveDone _ _ _ => execMoveDone_kept _ _ _ s (.refl s)
  | .crossingDither _ _ => execCrossingDither_kept _ _ s (.refl s)
  | .release _ _ => execRelease_kept _ _ s (.refl s)
  | .releaseDone _ _ => execReleaseDone_kept _ _ s (.refl s)
  | .grantReq _ _ => execGrantReq_kept _ _ s (.refl s)
  | .grantAccept _ _ => execGrantAccept_kept _ _ s (.refl s)
  | .grantRefuse _ _ => execGrantRefuse_kept _ _ s (.refl s)
  | .dropNotice _ _ => execDropNotice_kept _ _ s (.refl s)
  | .relockReq _ _ => execRelockReq_kept _ _ s (.refl s)
  | .retrainReq _ => execRetrainReq_kept _ s (.refl s)
  | .handover _ _ _ => execHandover_kept _ _ _ s (.refl s)
  | .laneIdentityWord _ _ _ _ _ => execLaneIdentityWord_kept _ _ _ _ _ s (.refl s)
  | .identityTimeout _ _ => execIdentityTimeout_kept _ _ s (.refl s)
  | .flitReceive _ _ => execFlitReceive_kept _ _ s (.refl s)
  | .linkWordReceive _ _ => execLinkWordReceive_kept _ _ s (.refl s)
  | .nakRepeat _ => execNakRepeat_kept _ s (.refl s)
  | .replayTimeout _ => execReplayTimeout_kept _ s (.refl s)
  | .linkRetrainDone _ _ _ _ => execLinkRetrainDone_kept _ _ _ _ s (.refl s)
  | .laneLightLoss _ _ => execLaneLightLoss_kept _ _ s (.refl s)
  | .dfbFail _ _ _ => execDfbFail_kept _ _ _ s (.refl s)
  | .linkWordSilence _ => execLinkWordSilence_kept _ s (.refl s)
  | .combLineDark _ _ => execCombLineDark_kept _ _ s (.refl s)
  | .alleyRetrain _ _ => execAlleyRetrain_kept _ _ s (.refl s)
  | .oeEnableWrite _ _ _ => execOeEnableWrite_kept _ _ _ s (.refl s)
  | .blvdEnableWrite _ _ _ _ => execBlvdEnableWrite_kept _ _ _ _ s (.refl s)
  | .beaconReceive _ => execBeaconReceive_kept _ s (.refl s)
  | .neighbourAbsent _ => execNeighbourAbsent_kept _ s (.refl s)
  | .portAccept _ _ => execPortAccept_kept _ _ s (.refl s)
  | .squareAccept _ _ => execSquareAccept_kept _ _ s (.refl s)
  | .quarterEntryWrite _ _ _ _ => execQuarterEntryWrite_kept _ _ _ _ s (.refl s)
  | .packetReceive _ => execPacketReceive_kept _ s (.refl s)
  | .collInstanceStart _ _ => execCollInstanceStart_kept _ _ s (.refl s)
  | .collReadyReceive _ => execCollReadyReceive_kept _ s (.refl s)
  | .collDataReceive _ => execCollDataReceive_kept _ s (.refl s)
  | .collBlockFold _ _ _ => execCollBlockFold_kept _ _ _ s (.refl s)
  | .collHoldReceive => execCollHoldReceive_kept s (.refl s)
  | .collHoldSend _ => execCollHoldSend_kept _ s (.refl s)
  | .collHoldExpire _ _ => execCollHoldExpire_kept _ _ s (.refl s)
  | .collHoldExhausted _ => execCollHoldExhausted_kept _ s (.refl s)
  | .collAbortReceive => execCollAbortReceive_kept s (.refl s)
  | .collStartTimeout _ => execCollStartTimeout_kept _ s (.refl s)
  | .collProgressTimeout _ => execCollProgressTimeout_kept _ s (.refl s)
  | .collAbort _ _ => execCollAbort_kept _ _ s (.refl s)
  | .hostPortReset _ _ => execHostPortReset_kept _ _ s (.refl s)
  | .qdieMaskWrite _ _ _ => execQdieMaskWrite_kept _ _ _ s (.refl s)
  | .qdieScrubDone _ => execQdieScrubDone_kept _ s (.refl s)
  | .windowRead _ _ _ _ => execWindowRead_kept _ _ _ _ s (.refl s)
  | .windowWrite _ _ _ => execWindowWrite_kept _ _ _ s (.refl s)
  | .cmdDoorbell _ _ _ => execCmdDoorbell_kept _ _ _ s (.refl s)
  | .cplHeadWrite _ _ _ _ => execCplHeadWrite_kept _ _ _ _ s (.refl s)
  | .commandFetch _ _ _ _ => execCommandFetch_kept _ _ _ _ s (.refl s)
  | .nop _ _ _ => execNop_kept _ _ _ s (.refl s)
  | .writeMem _ _ _ _ _ _ => execWriteMem_kept _ _ _ _ _ _ s (.refl s)
  | .readMem _ _ _ _ _ _ => execReadMem_kept _ _ _ _ _ _ s (.refl s)
  | .fill _ _ _ _ _ _ => execFill_kept _ _ _ _ _ _ s (.refl s)
  | .dmaComplete _ _ _ _ _ _ => execDmaComplete_kept _ _ _ _ _ _ s (.refl s)
  | .loadImage _ _ _ _ _ _ => execLoadImage_kept _ _ _ _ _ _ s (.refl s)
  | .launch _ _ _ _ _ => execLaunch_kept _ _ _ _ _ s (.refl s)
  | .waitEvent _ _ _ _ _ _ => execWaitEvent_kept _ _ _ _ _ _ s (.refl s)
  | .waitEventTimeout _ _ => execWaitEventTimeout_kept _ _ s (.refl s)
  | .signalEvent _ _ _ _ _ => execSignalEvent_kept _ _ _ _ _ s (.refl s)
  | .collective _ _ _ _ _ _ _ => execCollective_kept _ _ _ _ _ _ _ s (.refl s)
  | .phaseHint _ _ _ _ _ _ => execPhaseHint_kept _ _ _ _ _ _ s (.refl s)
  | .respare _ _ _ _ _ => execRespare_kept _ _ _ _ _ s (.refl s)
  | .respareDone _ _ _ => execRespareDone_kept _ _ _ s (.refl s)
  | .fence _ _ _ _ => execFence_kept _ _ _ _ s (.refl s)
  | .moderationTimer _ => execModerationTimer_kept _ s (.refl s)
  | .cmdprocSoftReset _ _ _ _ => execCmdprocSoftReset_kept _ _ _ _ s (.refl s)
  | .tileClockLoss _ => execTileClockLoss_kept _ s (.refl s)
  | .tileRouterLost _ => execTileRouterLost_kept _ s (.refl s)
  | .slicePortLoss _ => execSlicePortLoss_kept _ s (.refl s)
  | .blockEnableWrite _ _ _ => execBlockEnableWrite_kept _ _ _ s (.refl s)
  | .blockStartDone _ _ _ => execBlockStartDone_kept _ _ _ s (.refl s)
  | .blockDrainDone _ _ => execBlockDrainDone_kept _ _ s (.refl s)
  | .pageSoftReset _ _ _ => execPageSoftReset_kept _ _ _ s (.refl s)
  | .errAddrLoRead _ _ _ => execErrAddrLoRead_kept _ _ _ s (.refl s)
  | .loHalfRead _ _ _ => execLoHalfRead_kept _ _ _ s (.refl s)
  | .intForceWrite _ _ _ => execIntForceWrite_kept _ _ _ s (.refl s)
  | .intStatusClear _ _ _ => execIntStatusClear_kept _ _ _ s (.refl s)
  | .intEnableWrite _ _ _ => execIntEnableWrite_kept _ _ _ s (.refl s)
  | .intEoi _ _ _ => execIntEoi_kept _ _ _ s (.refl s)
  | .msixUnmask _ _ _ => execMsixUnmask_kept _ _ _ s (.refl s)
  | .lockWrite _ _ _ _ _ => execLockWrite_kept _ _ _ _ _ s (.refl s)
  | .registerWrite _ _ _ _ _ => execRegisterWrite_kept _ _ _ _ _ s (.refl s)
  | .distGlbWrite _ _ _ _ => execDistGlbWrite_kept _ _ _ _ s (.refl s)
  | .pwrCapWrite _ _ => execPwrCapWrite_kept _ _ s (.refl s)
  | .opTargetWrite _ _ _ => execOpTargetWrite_kept _ _ _ s (.refl s)
  | .duskRound _ => execDuskRound_kept _ s (.refl s)
  | .sensorSuspectLow _ => execSensorSuspectLow_kept _ s (.refl s)
  | .sensorRecovered _ => execSensorRecovered_kept _ s (.refl s)
  | .sensorHighSuspect _ => execSensorHighSuspect_kept _ s (.refl s)
  | .railOutOfRange _ => execRailOutOfRange_kept _ s (.refl s)
  | .tempLevelRelease _ _ => execTempLevelRelease_kept _ _ s (.refl s)
  | .refreshRateFall _ => execRefreshRateFall_kept _ s (.refl s)
  | .opRaiseQualified _ => execOpRaiseQualified_kept _ s (.refl s)
  | .opStepDone _ => execOpStepDone_kept _ s (.refl s)
  | .capUnattainable => execCapUnattainable_kept s (.refl s)
  | .governorStep _ _ => execGovernorStep_kept _ _ s (.refl s)
  | .iccCeilingRise _ => execIccCeilingRise_kept _ s (.refl s)
  | .throttleNAssert => execThrottleNAssert_kept s (.refl s)
  | .throttleNRelease => execThrottleNRelease_kept s (.refl s)
  | .prerampStart _ _ => execPrerampStart_kept _ _ s (.refl s)
  | .hintStart _ _ => execHintStart_kept _ _ s (.refl s)
  | .hintExpire _ => execHintExpire_kept _ s (.refl s)
  | .thermalTrip _ _ _ => execThermalTrip_kept _ _ _ s (.refl s)
  | .tripComparatorDegraded _ _ _ => execTripComparatorDegraded_kept _ _ _ s (.refl s)
  | .twReq _ _ => execTwReq_kept _ _ s (.refl s)
  | .twEntryDone => execTwEntryDone_kept s (.refl s)
  | .twExit _ _ => execTwExit_kept _ _ s (.refl s)
  | .twExitDone _ => execTwExitDone_kept _ s (.refl s)
  | .lcReq _ _ _ => execLcReq_kept _ _ _ s (.refl s)
  | .fusePulse _ => execFusePulse_kept _ s (.refl s)
  | .fuseSupplySag _ => execFuseSupplySag_kept _ s (.refl s)
  | .lcTransitionDone => execLcTransitionDone_kept s (.refl s)
  | .scanEnable _ _ _ => execScanEnable_kept _ _ _ s (.refl s)
  | .attGo _ _ _ => execAttGo_kept _ _ _ s (.refl s)
  | .attDone _ _ => execAttDone_kept _ _ s (.refl s)
  | .signPolicyWrite _ _ _ _ => execSignPolicyWrite_kept _ _ _ _ s (.refl s)
  | .setOffset _ _ => execSetOffset_kept _ _ s (.refl s)
  | .read32 => execRead32_kept s (.refl s)
  | .read64 => execRead64_kept s (.refl s)
  | .oeHeartbeatLost _ _ => execOeHeartbeatLost_kept _ _ s (.refl s)
  | .loadImageDone _ _ _ _ => execLoadImageDone_kept _ _ _ _ s (.refl s)

/-- Every step keeps it, beside the command that it takes. -/
theorem step_kept (h : step s = .next t) : Kept { s with pending := s.pending.tail } t := by
  obtain ⟨hpending, rfl⟩ | ⟨c, rest, hpending, hexec⟩ := step_cases h
  · rw [hpending, List.tail_nil, ← hpending]
    exact .refl t
  · rw [hpending, List.tail_cons]
    exact (exec_kept c _).ok t hexec

/-- Settles O3. -/
theorem stepTakesOneCommand : Obligations.StepTakesOneCommand := fun _ _ h =>
  ⟨(step_kept h).pend, (step_kept h).sent⟩

/-- Settles O5. -/
theorem stepKeepsRegisterFile : Obligations.StepKeepsRegisterFile := fun _ _ hok h =>
  (step_kept h).regs hok

/-- Settles O7. -/
theorem fusesOnlyBlown : Obligations.FusesOnlyBlown := fun _ _ h => (step_kept h).fuses

/-! ### The state after reset -/

/-- After reset no District has a window: both its registers read 0 (R29, R335). -/
theorem reset_window (d : DistId) :
    rd State.reset pkgswP PKGSW_DIST_GLB_BASE d + rd State.reset pkgswP PKGSW_DIST_GLB_SIZE d = 0 := rfl

/-- Settles O2: the register file lists nothing after reset, so that every field reads its reset value. -/
theorem resetMeetsTheInvariants : Obligations.ResetMeetsTheInvariants :=
  ⟨rfl, rfl, rfl, rfl, rfl, by decide, reset_rd,
    fun d => Nat.le_trans (Nat.le_of_eq (reset_window d)) (Nat.zero_le _)⟩

end Sys2Proof.Proofs
end

section
/-!
PROOF. Every well-formed command goes on: it ends in a fault only under a check of its operands, and
`Instr.wellFormed` refuses exactly what those checks refuse.
-/
open Sys2Proof Sys2Proof.Machine Sys2Proof.Safety Sys2Proof.Laws
namespace Sys2Proof.Proofs

variable {s : State}

/-- The outcome is a next state. -/
def GoesOn (o : Host.Outcome State Fault Refusal) : Prop := ∃ t : State, o = .next t

theorem GoesOn.next (t : State) : GoesOn (.next t) := ⟨t, rfl⟩

theorem GoesOn.ite {a b : Host.Outcome State Fault Refusal} {c : Prop} [Decidable c]
    (ha : GoesOn a) (hb : GoesOn b) : GoesOn (if c then a else b) := by
  split <;> assumption

/-- A check of the operands that refuses none of them. -/
theorem GoesOn.checked {o : Host.Outcome State Fault Refusal} {r : Fault} {c : Prop} [Decidable c]
    (hc : ¬ c) (ho : GoesOn o) : GoesOn (if c then .fault r else o) := by
  rwa [if_neg hc]

/-! ### The checks -/

theorem any_length_eq_false_of_entryOk {e : Option (List Byte)} (h : entryOk e = true) :
    e.any (fun b => b.length != 64) = false := by
  cases e with
  | none => rfl
  | some b => simpa [entryOk] using h

theorem startRow_goesOn (name : String) (d : DistId) (h : CmdHdr) {c : Cmd}
    {desc : Option (List Byte)} (refused : Bool) (hfits : c.fits = true)
    (hdesc : entryOk desc = true) : GoesOn (startRow name d h c desc refused s) :=
  .checked (by simp [hfits, any_length_eq_false_of_entryOk hdesc]) (.next _)

/-- The pages of the optical engines are the four of R334. -/
theorem any_oe_pageAt (n : Fin 16384) :
    (pageAt (4096 * n.val)).any (fun p => p.kind == .oe) = isOePage n.val := by
  by_cases hlow : n.val < 128
  · have low : ∀ k : Fin 128,
        (pageAt (4096 * k.val)).any (fun p => p.kind == .oe) = isOePage k.val := by decide
    exact low ⟨n.val, hlow⟩
  · have hoe : isOePage n.val = false := by simp [isOePage]; omega
    rw [hoe, pageAt, if_neg (by omega)]
    split
    · rfl
    · split
      · dsimp only
        repeat' split
        all_goals rfl
      · rfl

/-! ### Commands that look for a hint or a job -/

theorem prerampStart_goesOn (d : DieId) (cls : Fin 4) : GoesOn (execPrerampStart d cls s) := by
  unfold execPrerampStart
  split
  · exact .next _
  · exact .next _

theorem hintStart_goesOn (d : DieId) (cls : Fin 4) : GoesOn (execHintStart d cls s) := by
  unfold execHintStart
  split
  · exact .ite (.next _) (.next _)
  · exact .next _

theorem waitEventTimeout_goesOn (d : DistId) (refused : Bool) :
    GoesOn (execWaitEventTimeout d refused s) := by
  unfold execWaitEventTimeout
  split
  · exact .next _
  · exact .next _

theorem respareDone_goesOn (d : DistId) (fails : BitVec 32) (refused : Bool) :
    GoesOn (execRespareDone d fails refused s) := by
  unfold execRespareDone
  split
  · exact .next _
  · exact .next _

/-! ### Every command -/

theorem exec_goesOn {c : Instr} (hwf : c.wellFormed = true) (s : State) : GoesOn (exec c s) := by
  cases c with
  -- a payload of its own length, or an operand in its range
  | hostLinkTrained p gen width flit =>
    simp only [Instr.wellFormed, Bool.and_eq_true, bne_iff_ne] at hwf
    obtain ⟨hgen, hwidth⟩ := hwf
    exact .checked (by simp only [hwidth]; simpa using hgen) (.next _)
  | windowRead p off len errs =>
    have hone : oneRequest 4096 off len = true := hwf
    exact .checked (by simp [hone]) (.next _)
  | windowWrite p off bytes =>
    have hone : oneRequest 512 off bytes.length = true := hwf
    exact .checked (by simp [hone]) (.next _)
  | duskRound r =>
    have hround : roundOk r = true := hwf
    exact .checked (by simp [hround]) (.ite (.next _) (.next _))
  | governorStep doms htr =>
    simp only [Instr.wellFormed, Bool.and_eq_true, beq_iff_eq, decide_eq_true_eq] at hwf
    exact .checked (by simp [hwf.1, Nat.not_lt.mpr hwf.2]) (.ite (.next _) (.next _))
  | d2dLinkTraining g pm rate vmin vmax mods restored =>
    simp only [Instr.wellFormed, Bool.and_eq_true, beq_iff_eq, bne_iff_ne] at hwf
    obtain ⟨⟨hmods, hrate⟩, hpm⟩ := hwf
    have hlength : mods.length = groupModules g := hmods
    exact .checked (by simp [hlength, hrate, hpm]) (.next _)
  | dawnDone sections | recEmit req sections =>
    have hsections : sectionsOk sections = true := hwf
    exact .checked (by simp [hsections]) (.next _)
  | flitReceive l lanes =>
    have hlanes : lanes.flatten.length = 32 := by simpa only [Instr.wellFormed, beq_iff_eq] using hwf
    exact .checked (not_not_intro hlanes) (.next _)
  | sliceWrite t d sec bytes =>
    have hbytes : bytes.length = 32 := by simpa only [Instr.wellFormed, beq_iff_eq] using hwf
    exact .checked (not_not_intro hbytes) (.next _)
  | narrowWrite t d sec lo bytes =>
    simp only [Instr.wellFormed, Bool.and_eq_true, decide_eq_true_eq] at hwf
    exact .checked (by simp only [Bool.or_eq_true, decide_eq_true_eq]; omega) (.next _)
  | engineWindowAccess t d off req data err =>
    cases data with
    | none => exact .next _
    | some bytes =>
      simp only [Instr.wellFormed, Option.all_some, Bool.and_eq_true, decide_eq_true_eq] at hwf
      exact .checked (by simp only [Bool.or_eq_true, decide_eq_true_eq]; omega) (.next _)
  | mxRun t f | mxWin t f =>
    simp only [Instr.wellFormed, RunF.ok, WinF.ok, Bool.and_eq_true, decide_eq_true_eq] at hwf
    exact .checked (by simp only [Bool.or_eq_true, decide_eq_true_eq]; omega) (.next _)
  | nxSend t o route n csrc sc =>
    simp only [Instr.wellFormed, Bool.and_eq_true, decide_eq_true_eq] at hwf
    exact .checked (by simp only [Bool.or_eq_true, decide_eq_true_eq]; omega) (.next _)
  | smQtos t n q port sb loff | smStoq t n o port sb loff =>
    simp only [Instr.wellFormed, Bool.and_eq_true, decide_eq_true_eq] at hwf
    exact .checked (by simp only [Bool.or_eq_true, decide_eq_true_eq]; omega) (.next _)
  | twExitDone st =>
    have hstarts : st.length = 4 := by simpa only [Instr.wellFormed, beq_iff_eq] using hwf
    exact .checked (not_not_intro hstarts) (.next _)
  | blockStartDone page st x =>
    simp only [Instr.wellFormed, Bool.and_eq_true, beq_iff_eq] at hwf
    exact .checked (by simp [any_oe_pageAt, hwf.1]) (.next _)
  | distGlbWrite req d base size =>
    refine .checked ?_ (.next _)
    cases base with
    | some b => simp
    | none =>
      have hsize : size.isSome = true := hwf
      simp [Option.isSome_iff_ne_none.mp hsize]
  -- ring entries and their operands
  | commandFetch d entry desc refused =>
    simp only [Instr.wellFormed, Bool.and_eq_true] at hwf
    exact .checked (by simp [any_length_eq_false_of_entryOk hwf.1,
      any_length_eq_false_of_entryOk hwf.2]) (.next _)
  | nop d h refused => exact startRow_goesOn (c := .nop) (desc := none) "NOP" d h refused rfl rfl
  | writeMem d h host dev len refused | readMem d h host dev len refused
  | fill d h dev len pattern refused | loadImage d h host size slot refused
  | launch d h slot args refused | waitEvent d h event count timeout refused
  | signalEvent d h target counter refused | phaseHint d h cls lead dies refused
  | respare d h die row refused | fence d h target refused =>
    refine startRow_goesOn (desc := none) _ d h refused ?_ rfl
    simp_all [Instr.wellFormed, Cmd.fits, fitsIn]
  | collective d h addr arg slot desc refused =>
    simp only [Instr.wellFormed, Bool.and_eq_true] at hwf
    refine startRow_goesOn _ d h refused ?_ hwf.2
    simp_all [Cmd.fits, fitsIn]
  -- an event that goes on, or cannot come about
  | sensorSuspectLow | sensorRecovered | sensorHighSuspect | railOutOfRange | tempLevelRelease
  | refreshRateFall | opRaiseQualified | opStepDone | capUnattainable | iccCeilingRise
  | throttleNAssert | hintExpire => exact .ite (.next _) (.next _)
  | prerampStart d cls => exact prerampStart_goesOn d cls
  | hintStart d cls => exact hintStart_goesOn d cls
  | waitEventTimeout d refused => exact waitEventTimeout_goesOn d refused
  | respareDone d fails refused => exact respareDone_goesOn d fails refused
  | meshLineArrive src lines => cases src <;> exact .next _
  | meshSignalArrive src => cases src <;> exact .next _
  | _ => exact .next _

/-- Settles O4. -/
theorem wellFormedCommandsGoOn : Obligations.WellFormedCommandsGoOn := fun _ s hwf =>
  exec_goesOn hwf s

end Sys2Proof.Proofs
end

section
/-!
SUPPORT. Writes to the header of a page (R294, R297, R298, R339 to R341): a write that its requester may make acts
on the page, where that page and its registers stand, and what a soft reset does on each page.
-/
open Sys2Proof Sys2Proof.Machine Sys2Proof.Safety Sys2Proof.Laws
namespace Sys2Proof.Proofs

variable {s : State} {req : PortId} {n : Fin 16384} {p q : PageId} {f g : Fld}

/-- A write of a header register that the requester may make does what the register does. -/
theorem hdrWrite_of_takesHdr (h : takesHdr s req n f p = true) (act : PageId → State → State) :
    hdrWrite s req n f act = act p s := by
  simp only [takesHdr, Bool.and_eq_true, beq_iff_eq] at h
  obtain ⟨⟨⟨hplaza, hport⟩, herror⟩, hpage⟩ := h
  rw [hdrWrite, hostWrite, if_neg (by simp [hplaza, hport])]
  dsimp only
  rw [if_neg (not_not_intro herror), hpage]

/-! ### Where pages stand (R333, R334) -/

theorem base_mod (p : PageId) : p.base % 4096 = 0 := by
  obtain ⟨kind, inst⟩ := p
  unfold PageId.base
  split <;> omega

/-- The pages of the package and of its units: an offset lies in the page of its number (R334). -/
theorem pageAt_of_low {o : Nat} (h : o < 0x80000) : pageAt o = pageAt (4096 * (o / 4096)) := by
  have hpage : 4096 * (o / 4096) < 0x80000 := by omega
  rw [pageAt, if_pos h, pageAt, if_pos hpage]
  dsimp only
  rw [Nat.mul_div_cancel_left _ (by decide)]

/-- A page begins at the last multiple of 4 KiB before each of its offsets. -/
theorem base_of_pageAt {o : Nat} (h : pageAt o = some p) : p.base = 4096 * (o / 4096) := by
  by_cases hlow : o < 0x80000
  · have low : ∀ i : Fin 128,
        (pageAt (4096 * i.val)).all (fun p => p.base == 4096 * i.val) = true := by decide
    have hbase := low ⟨o / 4096, by omega⟩
    rw [pageAt_of_low hlow] at h
    simpa [h] using hbase
  · rw [pageAt, if_neg hlow] at h
    split at h
    · exact nomatch h
    · split at h
      · have hunit : p.base = 0x1000000 + (o - 0x1000000) / 0x4000 * 0x4000
            + (o - 0x1000000) % 0x4000 / 0x1000 * 0x1000 := by
          dsimp only at h
          split at h
          · cases h; simp only [PageId.base]; omega
          · split at h
            · cases h; simp only [PageId.base]; omega
            · split at h
              · cases h; simp only [PageId.base]; omega
              · cases h; simp only [PageId.base]; omega
        omega
      · exact nomatch h

/-- The first entries of two fields stand apart where their places in a page differ, whatever the pages. -/
theorem fkey_ne_of_places (p q : PageId) (hf : 8 * f.off + f.lo < 8 * 4096)
    (hg : 8 * g.off + g.lo < 8 * 4096) (hne : 8 * f.off + f.lo ≠ 8 * g.off + g.lo) :
    fkey q f 0 ≠ fkey p g 0 := by
  have hp := base_mod p
  have hq := base_mod q
  simp only [fkey, Nat.zero_div, Nat.zero_mod, Nat.zero_mul]
  omega

/-- A field stands apart in two pages that begin at different offsets. -/
theorem fkey_ne_of_base_ne (h : q.base ≠ p.base) : fkey q f 0 ≠ fkey p f 0 := by
  simp only [fkey, Nat.zero_div, Nat.zero_mod, Nat.zero_mul]
  omega

/-- `IN_SERVICE` stands behind the header of the page `PLAZA`, so that it is no header's field. -/
theorem hdr_fkey_ne_inService (p : PageId) (hf : 8 * f.off + f.lo < 8 * 0x100) :
    ∀ d ∈ List.range 4, fkey p f 0 ≠ fkey plazaP PLAZA_IN_SERVICE d := by
  intro d hd
  have hlt : d < 4 := List.mem_range.mp hd
  have hp := base_mod p
  have hplaza : plazaP.base = 0 := rfl
  simp only [fkey, hplaza, PLAZA_IN_SERVICE, Nat.zero_div, Nat.zero_mod, Nat.zero_mul]
  omega

/-! ### Soft resets (R298, R340) -/

theorem resetOrWait_of_moving (hstate : rd s p HDR_STATE = 1 ∨ rd s p HDR_STATE = 3)
    (act : State → State) :
    resetOrWait s p act = { s with resetWaits := SMap.put s.resetWaits p.base 1 } :=
  if_pos (by simpa using hstate)

theorem resetOrWait_of_resting (hstarts : rd s p HDR_STATE ≠ 1) (hdrains : rd s p HDR_STATE ≠ 3)
    (act : State → State) : resetOrWait s p act = act s :=
  if_neg (by simp [hstarts, hdrains])

theorem cmdprocSoft_of_moving {d : Nat}
    (hstate : rd s (cmdprocP d) HDR_STATE = 1 ∨ rd s (cmdprocP d) HDR_STATE = 3)
    (entries : List (List Byte)) (refused : Bool) : cmdprocSoft s d entries refused
      = { s with resetWaits := SMap.put s.resetWaits (cmdprocP d).base 1 } :=
  resetOrWait_of_moving hstate _

theorem cmdprocSoft_of_resting {d : Nat} (hstarts : rd s (cmdprocP d) HDR_STATE ≠ 1)
    (hdrains : rd s (cmdprocP d) HDR_STATE ≠ 3) (entries : List (List Byte)) (refused : Bool) :
    cmdprocSoft s d entries refused = cmdprocReset s d entries refused :=
  resetOrWait_of_resting hstarts hdrains _

theorem engineSoft_of_engine {k : Nat} (hmode : (slice s k).mode ≠ 0) : engineSoft s k = s :=
  if_pos hmode

theorem engineSoft_of_moving {k : Nat} (hmode : (slice s k).mode = 0)
    (hstate : rd s (engineP k) HDR_STATE = 1 ∨ rd s (engineP k) HDR_STATE = 3) : engineSoft s k
      = { s with resetWaits := SMap.put s.resetWaits (engineP k).base 1 } :=
  (if_neg (not_not_intro hmode)).trans (resetOrWait_of_moving hstate _)

theorem engineSoft_of_resting {k : Nat} (hmode : (slice s k).mode = 0)
    (hstarts : rd s (engineP k) HDR_STATE ≠ 1) (hdrains : rd s (engineP k) HDR_STATE ≠ 3) :
    engineSoft s k = engineReset s k :=
  (if_neg (not_not_intro hmode)).trans (resetOrWait_of_resting hstarts hdrains _)

theorem softReset_of_undefined (h : definesReset p.kind = false) (x : ResetIn) :
    softReset s p x = s := by
  obtain ⟨kind, inst⟩ := p
  cases kind with
  | tile | mover | engine | slice | cmdproc => cases h
  | _ => rfl

/-- A soft reset that may act waits for the end of the start or of the drain. -/
theorem softReset_of_waiting (hwait : resetMayWait s p = true)
    (hstate : rd s p HDR_STATE = 1 ∨ rd s p HDR_STATE = 3) (x : ResetIn) :
    softReset s p x = { s with resetWaits := SMap.put s.resetWaits p.base 1 } := by
  obtain ⟨kind, inst⟩ := p
  cases kind with
  | cmdproc => exact cmdprocSoft_of_moving hstate _ _
  | engine =>
    have hmode : (slice s inst).mode = 0 := by simpa [resetMayWait] using hwait
    exact engineSoft_of_moving hmode hstate
  | mover =>
    have hrun : (tile s inst).runState ≠ 2 := by simpa [resetMayWait] using hwait
    exact moverSoft_of_moving hrun hstate
  | _ => cases hwait

/-! ### The commands -/

theorem exec_pageSoftReset (h : takesHdr s req n HDR_SOFT_RESET p = true) (x : ResetIn) :
    exec (.pageSoftReset req n x) s = .next (softReset s p x) :=
  congrArg Host.Outcome.next (hdrWrite_of_takesHdr h _)

theorem exec_blockEnableWrite (h : takesHdr s req n HDR_ENABLE p = true) (on : Bool) :
    exec (.blockEnableWrite req n on) s = .next (enableWrite s p on) :=
  congrArg Host.Outcome.next (hdrWrite_of_takesHdr h _)

theorem exec_lockWrite (h : takesHdr s req n HDR_LOCK p = true) (lock on : Bool) (soft : Option ResetIn) :
    exec (.lockWrite req n lock on soft) s = .next (ctrlWrite s req p lock on soft) :=
  congrArg Host.Outcome.next (hdrWrite_of_takesHdr h _)

theorem onPage_of_pageAt {k : Nat} (hpage : pageAt (4096 * k) = some p) (hplaza : plazaUp s = true)
    (act : PageId → State) : onPage s k act = act p := by
  simp only [onPage, hpage, hplaza, if_true]

/-- The start of an optical engine says what it finds, and that of no other block. -/
theorem exec_blockStartDone {st : Option OeStart} (hpage : pageAt (4096 * n.val) = some p)
    (hst : (p.kind == .oe) = st.isSome) (hplaza : plazaUp s = true) (x : ResetIn) :
    exec (.blockStartDone n st x) s = .next (startDone s p st x) :=
  (if_neg (by simp [hpage, hst])).trans
    (congrArg Host.Outcome.next (onPage_of_pageAt hpage hplaza _))

theorem exec_blockDrainDone (hpage : pageAt (4096 * n.val) = some p) (hplaza : plazaUp s = true)
    (x : ResetIn) : exec (.blockDrainDone n x) s = .next (drainDone s p x) :=
  congrArg Host.Outcome.next (onPage_of_pageAt hpage hplaza _)

theorem exec_intForceWrite (h : takesHdr s req n HDR_INT_FORCE p = true) (v : BitVec 32) :
    exec (.intForceWrite req n v) s = .next (forceWrite s p v.toNat) :=
  congrArg Host.Outcome.next (hdrWrite_of_takesHdr h _)

theorem exec_intStatusClear (h : takesHdr s req n HDR_INT_STATUS p = true) (v : BitVec 32) :
    exec (.intStatusClear req n v) s = .next (clearRaw s p v.toNat) :=
  congrArg Host.Outcome.next (hdrWrite_of_takesHdr h _)

theorem exec_intEnableWrite (h : takesHdr s req n HDR_INT_ENABLE p = true) (v : BitVec 32) :
    exec (.intEnableWrite req n v) s = .next (intEnable s p v.toNat) :=
  congrArg Host.Outcome.next (hdrWrite_of_takesHdr h _)

end Sys2Proof.Proofs
end

section
/-!
PROOF. The rows of the table for `BLK_CTRL` and for the interrupt registers (R294, R297, R298, R339 to R341,
R347).
-/
open Sys2Proof Sys2Proof.Machine Sys2Proof.Safety Sys2Proof.Laws
namespace Sys2Proof.Proofs

/-- Settles O30: the kind of the page, the mode of its slice, the run state of its tile and `STATE` choose
among the cases of a soft reset. -/
theorem blockControls : Obligations.BlockControls := by
  refine ⟨?enable, ?started, ?lit, ?drained, ?undefined, ?waits, ?tile, ?mover, ?running, ?engine,
    ?engineMode, ?slice, ?cmdproc, ?lock, ?lockReset⟩
  case enable => exact fun s req n p on hw => exec_blockEnableWrite hw on
  case started =>
    intro s n p x hpage hoe hplaza _
    exact exec_blockStartDone hpage (by simpa using hoe) hplaza x
  case lit =>
    intro s n p y x hpage hoe hplaza _
    exact exec_blockStartDone hpage (by simpa using hoe) hplaza x
  case drained => exact fun s n p x hpage hplaza _ _ => exec_blockDrainDone hpage hplaza x
  case undefined =>
    intro s req n p x hw hkind
    rw [exec_pageSoftReset hw, softReset_of_undefined hkind]
  case waits =>
    intro s req n p x hw hwait hstate
    rw [exec_pageSoftReset hw, softReset_of_waiting hwait hstate]
  case tile =>
    rintro s req n ⟨kind, inst⟩ x hw (rfl : kind = .tile)
    exact exec_pageSoftReset hw x
  case mover =>
    rintro s req n ⟨kind, inst⟩ x hw (rfl : kind = .mover) hrun hstarts hdrains
    exact (exec_pageSoftReset hw x).trans
      (congrArg Host.Outcome.next (moverSoft_of_resting hrun hstarts hdrains))
  case running =>
    rintro s req n ⟨kind, inst⟩ x hw (rfl : kind = .mover) hrun
    exact (exec_pageSoftReset hw x).trans (congrArg Host.Outcome.next (moverSoft_of_running hrun))
  case engine =>
    rintro s req n ⟨kind, inst⟩ x hw (rfl : kind = .engine) hmode hstarts hdrains
    exact (exec_pageSoftReset hw x).trans
      (congrArg Host.Outcome.next (engineSoft_of_resting hmode hstarts hdrains))
  case engineMode =>
    rintro s req n ⟨kind, inst⟩ x hw ((rfl : kind = .engine) | (rfl : kind = .slice)) hmode
    · exact (exec_pageSoftReset hw x).trans (congrArg Host.Outcome.next (engineSoft_of_engine hmode))
    · exact (exec_pageSoftReset hw x).trans
        (congrArg Host.Outcome.next (sliceSoft_of_engine hmode x.errs))
  case slice =>
    rintro s req n ⟨kind, inst⟩ x hw (rfl : kind = .slice) hmode
    exact (exec_pageSoftReset hw x).trans
      (congrArg Host.Outcome.next (sliceSoft_of_controller hmode x.errs))
  case cmdproc =>
    rintro s req n ⟨kind, inst⟩ x hw (rfl : kind = .cmdproc) hstarts hdrains
    exact (exec_pageSoftReset hw x).trans
      (congrArg Host.Outcome.next (cmdprocSoft_of_resting hstarts hdrains _ _))
  case lock => exact fun s req n p l on hw => exec_lockWrite hw l on none
  case lockReset => exact fun s req n p l on x hw => exec_lockWrite hw l on (some x)

/-- Settles O31: each row of the table finds its conditions met. -/
theorem interruptCommands : Obligations.InterruptCommands := by
  refine ⟨?force, ?status, ?enable, ?eoi, ?unmask⟩
  case force => exact fun s req n p v hw => exec_intForceWrite hw v
  case status => exact fun s req n p v hw => exec_intStatusClear hw v
  case enable => exact fun s req n p v hw => exec_intEnableWrite hw v
  case eoi => exact fun s req d m hw => congrArg Host.Outcome.next (fieldWrite_of_takesWrite hw _)
  case unmask =>
    intro s f v e hplaza hport
    exact congrArg Host.Outcome.next (if_pos (by simp [hplaza, hport]))

end Sys2Proof.Proofs
end

section
/-!
PROOF. The interrupt registers of a page (R294, R341), and the capture of its error log (R293).
-/
open Sys2Proof Sys2Proof.Machine Sys2Proof.Safety Sys2Proof.Laws
namespace Sys2Proof.Proofs

variable {s u : State} {p q : PageId} {f : Fld}

/-! ### The interrupt registers -/

/-- `INT_RAW` and `INT_ENABLE` hold what was written to them while the vectors are delivered. -/
theorem rd_deliver_wr_same (hok : regsOk s = true) (hf : 8 * f.off + f.lo < 8 * 0x100) (v : Nat) :
    rd (deliver (wr s p f v)) p f = v % 2 ^ f.wid := by
  rw [rd_deliver (hdr_fkey_ne_inService p hf), rd_wr_same (keysFrom_of_regsOk hok)]

/-- A write of a field and the delivery of the vectors leave every field of a header that stands elsewhere. -/
theorem rd_deliver_wr_of_ne {g : Fld} (hok : regsOk s = true) (hg : 8 * g.off + g.lo < 8 * 0x100)
    (hne : fkey q g 0 ≠ fkey p f 0) (v : Nat) : rd (deliver (wr s p f v)) q g = rd s q g := by
  rw [rd_deliver (hdr_fkey_ne_inService q hg), rd_wr_of_ne (keysFrom_of_regsOk hok) hne]

/-- The fields of a header beside `INT_RAW` stand apart from it, in whatever page. -/
theorem fkey_ne_intRaw : ∀ f ∈ [HDR_ENABLE, HDR_STATE, HDR_PEND_ENABLE, HDR_FENCED, HDR_MODE, HDR_LOCK,
      HDR_INT_ENABLE, HDR_LAST_ERR, HDR_ERR_ADDR_LO, HDR_ERR_ADDR_HI, HDR_ERR_SYNDROME,
      HDR_ERR_CORR_COUNT, HDR_ERR_RETRY_COUNT],
    8 * f.off + f.lo < 8 * 0x100 ∧ 8 * f.off + f.lo ≠ 8 * HDR_INT_RAW.off + HDR_INT_RAW.lo := by
  decide

/-- No page defines more than 9 interrupt bits. -/
theorem intBits_le (k : PageKind) : intBits k ≤ 9 := by
  cases k <;> decide

theorem intMasked_lt (k : PageKind) (v : Nat) : intMasked k v < 2 ^ 32 :=
  Nat.lt_of_lt_of_le (Nat.mod_lt _ (Nat.two_pow_pos _))
    (Nat.pow_le_pow_right (by decide) (Nat.le_trans (intBits_le k) (by decide)))

/-- A write of `INT_STATUS` clears the bits that it names, and raises those again whose condition is
present. -/
theorem rd_clearRaw (hok : regsOk s = true) (p : PageId) (v : BitVec 32) :
    rd (clearRaw s p v.toNat) p HDR_INT_RAW = (rd s p HDR_INT_RAW &&& (2 ^ 32 - 1 - v.toNat))
      ||| (rd s p HDR_INT_RAW &&& v.toNat &&& presentBits s p) := by
  have hv : v.toNat < 2 ^ 32 := v.isLt
  have hcleared : rd s p HDR_INT_RAW &&& (2 ^ 32 - 1 - v.toNat) < 2 ^ 32 :=
    Nat.and_lt_two_pow _ (by omega)
  have hpresent : rd s p HDR_INT_RAW &&& v.toNat &&& presentBits s p < 2 ^ 32 :=
    Nat.lt_of_le_of_lt Nat.and_le_left (Nat.and_lt_two_pow _ hv)
  unfold clearRaw
  extract_lets raw t
  have ht : regsOk t = true ∧ presentBits t p = presentBits s p := by
    unfold t
    split
    · exact ⟨hok, rfl⟩
    · exact ⟨hok, rfl⟩
  rw [rd_deliver_wr_same ht.1 (by decide), ht.2, Nat.mod_eq_of_lt hv]
  exact Nat.mod_eq_of_lt (Nat.or_lt_two_pow hcleared hpresent)

/-- What every requester reads in `INT_STATUS`: the bits that are raised and enabled. -/
theorem fieldVal_intStatus (s : State) (req : Nat) (p : PageId) :
    fieldVal s req p HDR_INT_STATUS 0 = rd s p HDR_INT_RAW &&& rd s p HDR_INT_ENABLE := rfl

/-- Settles O49. -/
theorem interruptRegistersWorkTogether : Obligations.InterruptRegistersWorkTogether := by
  intro s req n p v hok
  refine ⟨fun hw => ?force, fun hw => ?status, fun hw => ?enable, fun r => fieldVal_intStatus s r p⟩
  case force =>
    refine ⟨forceWrite s p v.toNat, exec_intForceWrite hw v, rd_deliver_wr_same hok (by decide) _,
      fun q f hf => ?_, fun q hbase => ?_⟩
    · obtain ⟨hheader, hplace⟩ := fkey_ne_intRaw f hf
      exact rd_deliver_wr_of_ne hok hheader
        (fkey_ne_of_places p q (by omega) (by decide) hplace) _
    · exact rd_deliver_wr_of_ne hok (by decide) (fkey_ne_of_base_ne hbase) _
  case status => exact ⟨clearRaw s p v.toNat, exec_intStatusClear hw v, rd_clearRaw hok p v⟩
  case enable =>
    refine ⟨intEnable s p v.toNat, exec_intEnableWrite hw v, ?_, ?_⟩
    · exact (rd_deliver_wr_same hok (by decide) _).trans (Nat.mod_eq_of_lt (intMasked_lt p.kind _))
    · exact rd_deliver_wr_of_ne hok (by decide) (fkey_ne_of_places p p (by decide) (by decide) (by decide)) _

/-! ### The error log -/

/-- The capture of a page's error log: what the registers beside `ERR_ADDR_LO` hold. -/
def errCapture (s : State) (p : PageId) : Capture :=
  ⟨rd s p HDR_ERR_ADDR_HI, rd s p HDR_ERR_SYNDROME, rd s p HDR_LAST_ERR⟩

/-- A read at 0x028 captures, whether it is 4 or 8 bytes wide. -/
theorem find_captures_readReg {o : Nat} (hpage : pageAt o = some p) (hoff : o - p.base = 0x28)
    (req : Nat) (wide : Bool) :
    SMap.find (readReg s req o wide).1.captures p.base = some (errCapture s p) := by
  have hcapture : SMap.find (captureErr s p).captures p.base = some (errCapture s p) := by
    rw [captureErr, find_put, if_pos rfl, errCapture]
  unfold readReg
  rw [hpage]
  dsimp only
  rw [hoff]
  cases wide with
  | true => exact hcapture
  | false => exact hcapture

/-- What a read of the error log answers is not part of the captures. -/
theorem exec_errAddrLoRead {req : PortId} {n : Fin 16384} {size : Nat} (hplaza : plazaUp s = true)
    (hport : portUp s req = true) (herror : regError s req (4096 * n.val + 0x28) size = 0) :
    exec (.errAddrLoRead req n size) s
      = .next (emit (readReg s req (4096 * n.val + 0x28) (size == 8)).1
          (.regData req (readReg s req (4096 * n.val + 0x28) (size == 8)).2)) := by
  change Host.Outcome.next (hostRead s req (4096 * n.val + 0x28) size) = _
  rw [hostRead, if_neg (by simp [hplaza, hport])]
  dsimp only
  rw [if_neg (not_not_intro herror)]

/-- While a capture stands, its registers read as it holds them, and every other of the header as it is. -/
theorem fieldVal_of_capture {c : Capture} (h : SMap.find u.captures p.base = some c) (req : Nat) :
    fieldVal u req p HDR_ERR_ADDR_HI 0 = c.hi ∧ fieldVal u req p HDR_ERR_SYNDROME 0 = c.synd ∧
      fieldVal u req p HDR_LAST_ERR 0 = c.code ∧ fieldVal u req p HDR_STATE 0 = rd u p HDR_STATE := by
  have live {f : Fld} (hacc : f.acc ≠ .wo) (hview : f.view = false) (hoff : f.off ≠ 0x200) :
      fieldVal u req p f 0 = (captured u p f).getD (rd u p f 0) := by
    rw [fieldVal, if_neg hacc, hview, if_neg (by decide), if_neg (by simp [hoff])]
  refine ⟨?_, ?_, ?_, ?_⟩ <;>
    rw [live (by decide) rfl (by decide), captured, h] <;> rfl

/-- Settles O51: the read captures the three registers, and a capture is what every requester reads. -/
theorem errorLogIsCaptured : Obligations.ErrorLogIsCaptured := by
  intro s req n z p hplaza hport hpage herror
  refine ⟨_, exec_errAddrLoRead hplaza hport herror, fun u r hstands => ?_⟩
  have hbase : p.base = 4096 * n.val := (base_of_pageAt hpage).trans (by omega)
  exact fieldVal_of_capture
    (hstands.trans (find_captures_readReg hpage (by omega) req (z == 8))) r

end Sys2Proof.Proofs
end

section
/-!
PROOF. The rows of the table for rails, resets, the firmware bundle, the record, training and self-test
(R11, R300 to R318): each finds its conditions met, and what a reset leaves.
-/
open Sys2Proof Sys2Proof.Machine Sys2Proof.Safety Sys2Proof.Laws
namespace Sys2Proof.Proofs

variable {s : State} {p : PageId} {f : Fld} {i : Nat}

/-! ### What a reset leaves (R11, R351) -/

theorem find_filter_eq_none {α : Type} {m : SMap α} {keep : Nat → Bool} {k : Nat}
    (h : keep k = false) : SMap.find (m.filter (fun kv => keep kv.1)) k = none := by
  cases hfind : SMap.find (m.filter (fun kv => keep kv.1)) k with
  | none => rfl
  | some v =>
    have hkept : keep k = true := (List.mem_filter.mp (mem_of_find hfind)).2
    rw [h] at hkept
    cases hkept

/-- A register that a Plaza reset does not keep reads its reset value after it. -/
theorem rd_plazaReset (h : keptByReset (fkey p f i) = false) :
    rd (plazaReset s) p f i = fieldResetAt p f i := by
  change (SMap.find (s.regs.filter (fun kv => keptByReset kv.1)) (fkey p f i)).getD _ = _
  rw [find_filter_eq_none h]
  rfl

/-- Dawn is in stage 0 after a Plaza reset. -/
theorem stage_plazaReset : stage (plazaReset s) = 0 := rd_plazaReset (by decide)

/-- The Plaza as the fall of PWRGOOD leaves it, before it is reset. -/
def pwrgoodLow (s : State) : State :=
  { s with dawn := { s.dawn with pwrgood := false, railsGood := false } }

theorem exec_pwrgoodFall (haon : s.dawn.aon = true) (hgood : s.dawn.pwrgood = true) :
    exec .pwrgoodFall s = .next (plazaReset (pwrgoodLow s)) :=
  congrArg Host.Outcome.next (if_pos (by simp [haon, hgood]))

/-- The removal of VDD_AON, or a dip of it, in which a free value says whether the latch is kept. -/
theorem exec_vddAonRemove (dip : Bool) : exec (.vddAonRemove dip) s
    = .next (if dip && (freeBool s).1 then
        { powerDown (freeBool s).2 with regs := s.regs.filter (fun kv => latchBit kv.1) }
      else powerDown (if dip then (freeBool s).2 else s)) := rfl

/-- Settles O9. -/
theorem railsAndResets : Obligations.RailsAndResets := by
  refine ⟨?rise, ?good, ?halt, ?pwrgood, ?fall, ?reset, ?removed, ?dip⟩
  case rise => exact fun s haon => congrArg Host.Outcome.next (if_neg (by simp [haon]))
  case good =>
    intro s hruns hstage hhalted hrounds
    exact congrArg Host.Outcome.next (if_pos (by simp [hruns, hstage, hhalted, hrounds]))
  case halt =>
    intro s ch hruns hstage hhalted hrounds
    have hlost : railLost s = true :=
      List.any_eq_true.mpr ⟨ch.val, List.mem_range.mpr ch.isLt, decide_eq_true hrounds⟩
    exact congrArg Host.Outcome.next (if_pos (by simp [hruns, hstage, hhalted, hlost]))
  case pwrgood =>
    exact fun s o haon hgood => congrArg Host.Outcome.next (if_pos (by simp [haon, hgood]))
  case fall =>
    intro s haon hgood
    exact ⟨plazaReset (pwrgoodLow s), exec_pwrgoodFall haon hgood, stage_plazaReset, rfl, rfl, rfl, rfl,
      rfl, rfl, rfl, rfl, rfl, rfl, rfl, rfl, rfl⟩
  case reset =>
    exact fun s haon hgood => congrArg Host.Outcome.next (if_pos (by simp [haon, hgood]))
  case removed => exact fun s => exec_vddAonRemove false
  case dip =>
    intro s
    rw [exec_vddAonRemove]
    cases (freeBool s).1 with
    | true => exact ⟨_, rfl, .inr rfl, rfl, rfl⟩
    | false => exact ⟨_, rfl, .inl rfl, rfl, rfl⟩

/-! ### The firmware bundle and the record (R302, R304, R309, R311) -/

theorem exec_fwBundleCheck {bundle rec : List Byte} (hstage : inStage s 2 = true)
    (hwaits : rd s dawnP DAWN_FW_STATE = 2) : exec (.fwBundleCheck bundle rec) s
      = .next (
          let t := bytesIn s (ownerPort s) (min (rd s dawnP DAWN_FW_SIZE) bundle.length)
          if bundleReject s bundle ≠ 0 then bundleRefused t (bundleReject s bundle) bundle.length
          else bundleAccepted (bytesIn t (ownerPort t) (min (rd t dawnP DAWN_REC_SIZE) rec.length))
            (bundle.take (rd s dawnP DAWN_FW_SIZE)) rec) :=
  congrArg Host.Outcome.next (if_pos (by simp [hstage, hwaits]))

@[simp] theorem raise_dawn (s : State) (p : PageId) (b : Nat) : (raise s p b).dawn = s.dawn :=
  raise_induction (P := fun x => x.dawn = s.dawn) (fun _ _ _ _ _ h => h) (fun _ _ h => h)
    (fun _ _ h => h) rfl p b

@[simp] theorem emitFailed_dawn (s : State) : (emitFailed s).dawn = s.dawn := by
  simp [emitFailed, lastErr]

@[simp] theorem dawnDma_dawn (s : State) (a which : Nat) : (dawnDma s a which).dawn = s.dawn := by
  simp [dawnDma, hostRefused, lastErr]

@[simp] theorem bytesOut_dawn (s : State) (port n : Nat) : (bytesOut s port n).dawn = s.dawn := rfl

/-- An emission ends in each of its ways: too long, refused by host memory, or written. -/
theorem endEmit_emit (s : State) (takes : Nat) : (endEmit s takes).dawn.emit = none := by
  unfold endEmit
  split
  next hnone => exact hnone
  next b hsome =>
    extract_lets d t a port got u
    have hu : u.dawn = t.dawn := by
      simp only [u, bytesOut_dawn, apply_ite State.dawn, emit_dawn, ite_self]
    split
    · simp [t, d]
    · split
      · simp [hu, t, d]
      · simp [hu, t, d]

/-- Settles O10. -/
theorem firmwareAndRecord : Obligations.FirmwareAndRecord := by
  refine ⟨?go, ?refused, ?accepted, ?done, ?emit, ?emitted⟩
  case go =>
    intro s req hw hwaits
    exact congrArg Host.Outcome.next ((fieldWrite_of_takesWrite hw _).trans (if_pos hwaits))
  case refused =>
    intro s b r hstage hwaits hreject
    rw [exec_fwBundleCheck hstage hwaits]
    exact congrArg Host.Outcome.next (if_pos hreject)
  case accepted =>
    intro s b r hstage hwaits hreject
    refine ⟨_, (exec_fwBundleCheck hstage hwaits).trans
      (congrArg Host.Outcome.next (if_neg (not_not_intro hreject))), rfl⟩
  case done =>
    intro s l hl hstage hengines
    have hsections : sectionsOk l = true := hl
    exact (if_neg (by simp [hsections])).trans
      (congrArg Host.Outcome.next (if_pos (by simp [hstage, hengines])))
  case emit =>
    intro s req l hl hw hover
    have hsections : sectionsOk l = true := hl
    exact (if_neg (by simp [hsections])).trans (congrArg Host.Outcome.next
      ((fieldWrite_of_takesWrite hw _).trans (if_pos hover)))
  case emitted =>
    intro s n b hplaza _
    exact ⟨endEmit s n, congrArg Host.Outcome.next (if_pos hplaza), rfl, endEmit_emit s n⟩

/-! ### Release, training and the start of the optics -/

/-- Settles O11. -/
theorem releaseAndTraining : Obligations.ReleaseAndTraining := by
  refine ⟨?release, ?group, ?ports, ?optics⟩
  case release =>
    exact fun s f r hstage hdie => congrArg Host.Outcome.next (if_pos (by simp [hstage, hdie]))
  case group =>
    intro s g pm rate v0 v1 ms r hmods hrate hpm hstage hup htrained
    have hlength : ms.length = groupModules g := hmods
    exact (if_neg (by simp [hlength, hrate, hpm])).trans
      (congrArg Host.Outcome.next (if_pos (by simp [hstage, hup, htrained])))
  case ports =>
    intro s d l r hstage hup htrained
    exact congrArg Host.Outcome.next (if_pos (by simp [hstage, hup, htrained]))
  case optics =>
    intro s e x hstage hup hstarted
    exact congrArg Host.Outcome.next (if_pos (by simp [hstage, hup, hstarted]))

/-! ### Self-test and the yield map -/

/-- Dawn is in one stage at a time. -/
theorem inStage_six_of_seven (h : inStage s 7 = true) : inStage s 6 = false := by
  simp only [inStage, Bool.and_eq_true, beq_iff_eq] at h
  simp [inStage, h.1.2]

/-- Settles O12. -/
theorem selfTestAndMap : Obligations.SelfTestAndMap := by
  refine ⟨?tower, ?turn, ?tile, ?budget, ?map⟩
  case tower =>
    intro s l hstage hwaves
    exact congrArg Host.Outcome.next ((if_pos hstage).trans (if_pos hwaves))
  case turn =>
    intro s l hstage hwaves
    exact congrArg Host.Outcome.next ((if_pos hstage).trans (if_neg (Nat.not_lt.mpr hwaves)))
  case tile =>
    intro s l hstage hwaves
    exact congrArg Host.Outcome.next ((if_neg (by simp [inStage_six_of_seven hstage])).trans
      (if_pos (by simp [hstage, hwaves])))
  case budget =>
    intro s d row col us hstage hup hwave hbudget
    exact congrArg Host.Outcome.next (if_pos (by simp [hstage, hup, hwave, hbudget]))
  case map =>
    exact fun s hstage hwaves => congrArg Host.Outcome.next (if_pos (by simp [hstage, hwaves]))

end Sys2Proof.Proofs
end

section
/-!
PROOF. The life cycle, scan, attestation and the signing policy (R320 to R325, R330 to R332): which
check ends each request, and what it leaves.
-/
open Sys2Proof Sys2Proof.Machine Sys2Proof.Safety Sys2Proof.Laws
namespace Sys2Proof.Proofs

variable {s t : State}

@[simp] theorem raise_sec (s : State) (p : PageId) (b : Nat) : (raise s p b).sec = s.sec :=
  raise_induction (P := fun x => x.sec = s.sec) (fun _ _ _ _ _ h => h) (fun _ _ h => h)
    (fun _ _ h => h) rfl p b

@[simp] theorem raise_images (s : State) (p : PageId) (b : Nat) : (raise s p b).images = s.images :=
  raise_induction (P := fun x => x.images = s.images) (fun _ _ _ _ _ h => h) (fun _ _ h => h)
    (fun _ _ h => h) rfl p b

@[simp] theorem regRefused_sec (s : State) (req o code : Nat) (write : Bool) :
    (regRefused s req o code write).sec = s.sec := by
  simp [regRefused, portRefused, logErr, bump, apply_ite State.sec]

/-! ### Requests of a transition (R322 to R324) -/

section
variable {target confirm : Nat}

/-- The state in which a request is judged: the count of the bits written begins anew. -/
def bitsCounted (s : State) : State := wr s secP SEC_BITS_WRITTEN 0

theorem lcReq_of_not_exists (hlc : s.sec.lc = none) (hon : rd s secP HDR_STATE = 2)
    (hexists : transitionExists (lcState s) target = false) :
    lcReq s target confirm = lcFail (bitsCounted s) 3 := by
  have hfrom : lcState (wr s secP SEC_BITS_WRITTEN 0) = lcState s := rfl
  simp [lcReq, hlc, hon, hfrom, hexists, bitsCounted]

theorem lcReq_of_accepted (hlc : s.sec.lc = none) (hon : rd s secP HDR_STATE = 2)
    (hfield : target ≠ 3) (hexists : transitionExists (lcState s) target = true)
    (hquiet : quietPackage (bitsCounted s) = true)
    (hstaged : stagedLacks (bitsCounted s) target = false)
    (hconfirm : target ≠ 4 ∨ confirm = if lcState s = 0 then 0 else pkgSerial s % 2 ^ 16)
    (hgate : gateOk (bitsCounted s) = true) :
    lcReq s target confirm = beginLc (bitsCounted s) target := by
  have hfrom : lcState (wr s secP SEC_BITS_WRITTEN 0) = lcState s := rfl
  have hserial : pkgSerial (wr s secP SEC_BITS_WRITTEN 0) = pkgSerial s := rfl
  unfold bitsCounted at *
  simp [lcReq, hlc, hon, hfrom, hserial, hexists, hquiet, hstaged, hfield, hgate]
  exact fun hscrap hwrong => absurd (hconfirm.resolve_left (not_not_intro hscrap)) hwrong

/-- How a request of a transition ends: ignored, with a result other than 1, or with the transition begun
that the table gives. -/
inductive LcReqEnds (s : State) (target : Nat) : State → Prop
  | ignored : LcReqEnds s target s
  | failed {u : State} (code : Nat) (hsec : u.sec = s.sec) : LcReqEnds s target (lcFail u code)
  | begun {u : State} (hexists : transitionExists (lcState s) target = true) (hsec : u.sec = s.sec)
    (hfuses : u.fuses = s.fuses) : LcReqEnds s target (beginLc u target)

theorem LcReqEnds.ite {a b : State} {c : Prop} [Decidable c] (ha : LcReqEnds s target a)
    (hb : LcReqEnds s target b) : LcReqEnds s target (if c then a else b) := by
  split <;> assumption

theorem freshChallenge_sec_fuses (s : State) :
    (freshChallenge s).sec = s.sec ∧ (freshChallenge s).fuses = s.fuses :=
  List.foldlRecOn (motive := fun x : State => x.sec = s.sec ∧ x.fuses = s.fuses) (List.range 8) _ ⟨rfl, rfl⟩
    fun _ hx _ _ => hx

/-- A request for FIELD draws a fresh challenge before its token is judged (R323). -/
theorem lcReq_ends (s : State) (target confirm : Nat) : LcReqEnds s target (lcReq s target confirm) := by
  unfold lcReq
  extract_lets u from' ok v
  have hv : v.sec = s.sec ∧ v.fuses = s.fuses := by
    unfold v
    split
    · exact freshChallenge_sec_fuses u
    · exact ⟨rfl, rfl⟩
  refine .ite .ignored ?_
  by_cases hexists : transitionExists (lcState s) target = true
  · exact .ite (.failed 3 rfl) (.ite (.failed 2 rfl) (.ite (.failed 6 rfl)
      (.ite (.failed 5 hv.1) (.ite (.failed 4 hv.1) (.begun hexists hv.1 hv.2)))))
  · have hnone : transitionExists from' target = false := Bool.not_eq_true _ ▸ hexists
    rw [hnone]
    exact .failed 3 rfl

/-- The identity seed is drawn from free values, which are no fuses. -/
theorem beginLc_fuses (s : State) (target : Nat) : (beginLc s target).fuses = s.fuses := by
  rw [beginLc, wr_fuses]
  change (if target = 1 then drawSeed s else (0, s)).2.fuses = s.fuses
  split
  · rfl
  · rfl

theorem beginLc_lc {l : LcRun} (h : (beginLc s target).sec.lc = some l) : l.target = target := by
  cases h
  rfl

theorem lcFail_lc (s : State) (code : Nat) : (lcFail s code).sec.lc = none := by
  simp [lcFail, lastErr]

/-- The table's transitions go one state forward, or to SCRAP from any other (R322). -/
theorem transitionExists_iff {from' : Nat} : transitionExists from' target = true ↔
    target = 4 ∧ from' ≠ 4 ∨ target = from' + 1 ∧ target ≤ 3 := by
  simp [transitionExists]

/-- Where a request leaves a transition that did not run before, it is the one asked for, and the table
gives it. -/
theorem LcReqEnds.begun_of_lc {l : LcRun} (h : LcReqEnds s target t) (hlc : s.sec.lc = none)
    (hbegun : t.sec.lc = some l) :
    l.target = target ∧ transitionExists (lcState s) target = true ∧ t.fuses = s.fuses := by
  cases h with
  | ignored => cases hlc.symm.trans hbegun
  | failed code hsec => cases (lcFail_lc _ code).symm.trans hbegun
  | begun hexists hsec hfuses => exact ⟨beginLc_lc hbegun, hexists, (beginLc_fuses _ _).trans hfuses⟩

theorem lcState_le (s : State) : lcState s ≤ 4 := by
  unfold lcState stateOf
  repeat' split
  all_goals decide

end

/-! ### Scan and attestation (R321, R331, R332) -/

/-- A write is ignored, refused, or acts. -/
theorem fieldWrite_induction {P : State → Prop} {req : Nat} {p : PageId} {f : Fld} {i : Nat}
    {act : State → State} (hsame : P s) (hrefused : ∀ o code, P (regRefused s req o code true))
    (hact : P (act s)) : P (fieldWrite s req p f i act) := by
  unfold fieldWrite guardedWrite
  split
  · exact hsame
  · exact hact
  · exact hrefused _ _

theorem exec_scanEnable {req : PortId} {scan engine : Bool} (hw : takesWrite s req secP SEC_SCAN_EN = true)
    (htest : testable s = true) (hset : (scan || engine) = true) : exec (.scanEnable req scan engine) s
      = .next (wr (wr (scanOn s) secP SEC_SCAN_EN (ofBool scan)) secP SEC_ENGINE_EN (ofBool engine)) := by
  refine congrArg Host.Outcome.next ((fieldWrite_of_takesWrite hw _).trans ?_)
  rw [testCtrl, if_pos htest, if_pos hset]

/-- Once test access has been taken, a request for a report ends in a refusal, or in nothing. -/
theorem attGo_sec_of_scanned (hscanned : s.sec.scanned = true) (port d : Nat) (pkg : Bool) :
    (attGo s port d pkg).sec = s.sec := by
  unfold attGo
  extract_lets p owner t
  have ht : t.sec = s.sec := by
    unfold t
    split <;> rfl
  split
  · exact ht
  · rw [if_pos (by simp [ht, hscanned]), raise_sec, wr_sec, ht]

theorem exec_attGo_sec_of_scanned {req : PortId} {d : DistId} {pkg : Bool}
    (hscanned : s.sec.scanned = true) (h : exec (.attGo req d pkg) s = .next t) : t.sec = s.sec := by
  cases h
  refine fieldWrite_induction (P := fun x => x.sec = s.sec) rfl (fun _ _ => regRefused_sec _ _ _ _ _) ?_
  split
  · exact regRefused_sec _ _ _ _ _
  · exact attGo_sec_of_scanned hscanned _ _ _

/-- A transition that a request has begun is the one asked for, and the table gives it. -/
theorem exec_lcReq_begun {req : PortId} {k : Fin 8} {c : BitVec 16} {l : LcRun}
    (h : exec (.lcReq req k c) s = .next t) (hlc : s.sec.lc = none) (hbegun : t.sec.lc = some l) :
    l.target = k.val ∧ transitionExists (lcState s) k = true ∧ t.fuses = s.fuses := by
  cases h
  revert hbegun
  refine fieldWrite_induction (P := fun x => x.sec.lc = some l → l.target = k.val ∧
    transitionExists (lcState s) k = true ∧ x.fuses = s.fuses) (fun hbegun => ?_)
    (fun o code hbegun => ?_) (fun hbegun => (lcReq_ends s k c.toNat).begun_of_lc hlc hbegun)
  · cases hlc.symm.trans hbegun
  · rw [regRefused_sec] at hbegun
    cases hlc.symm.trans hbegun

/-- Settles O59. -/
theorem securityGoesOneWay : Obligations.SecurityGoesOneWay := by
  refine ⟨?begun, ?scan, ?report⟩
  case begun =>
    intro s t req k c l hexec hlc hbegun
    obtain ⟨htarget, hexists, hfuses⟩ := exec_lcReq_begun hexec hlc hbegun
    have hstate := lcState_le s
    have hforward := transitionExists_iff.mp hexists
    exact ⟨htarget, by omega, by omega, by omega, hfuses⟩
  case scan =>
    exact fun s req a b hw htest hset => ⟨_, exec_scanEnable hw htest hset, rfl, rfl⟩
  case report =>
    intro s t req d k hscanned hexec
    rw [exec_attGo_sec_of_scanned hscanned hexec]
    exact ⟨rfl, rfl⟩

/-- Settles O36: the conditions name the check that ends the request, or leave none. -/
theorem securityCommands : Obligations.SecurityCommands := by
  refine ⟨?begun, ?none, ?pulse, ?sag, ?done, ?scan, ?report, ?written, ?policy, ?digest⟩
  case begun =>
    intro s req k c hw hon hlc hfield hexists hquiet hstaged hconfirm hgate
    exact congrArg Host.Outcome.next ((fieldWrite_of_takesWrite hw _).trans
      (lcReq_of_accepted hlc hon (fun h => hfield (Fin.ext h)) hexists hquiet hstaged
        (hconfirm.imp_left fun h hscrap => h (Fin.ext hscrap)) hgate))
  case none =>
    intro s req k c hw hon hlc hexists
    exact congrArg Host.Outcome.next ((fieldWrite_of_takesWrite hw _).trans
      (lcReq_of_not_exists hlc hon hexists))
  case pulse => exact fun s ok l _ hplaza _ => congrArg Host.Outcome.next (if_pos hplaza)
  case sag =>
    intro s l mv hlc hplaza htodo
    change Host.Outcome.next _ = _
    simp [hlc, hplaza, htodo]
  case done =>
    intro s l hlc hplaza htodo
    change Host.Outcome.next _ = _
    simp [hlc, hplaza, htodo]
  case scan => exact fun s req a b hw htest hset => exec_scanEnable hw htest hset
  case report =>
    intro s req d k hw howner _ _ _ _
    exact congrArg Host.Outcome.next ((fieldWrite_of_takesWrite hw _).trans
      (if_neg (by simp [howner])))
  case written =>
    intro s d x hplaza hfind
    refine congrArg Host.Outcome.next ((if_pos hplaza).trans ?_)
    simp only [attDone, hfind, Bool.false_eq_true, if_false]
  case policy =>
    exact fun s req d v hw => congrArg Host.Outcome.next
      ((if_pos rfl).trans (fieldWrite_of_takesWrite hw _))
  case digest =>
    exact fun s req d w v hword hw => congrArg Host.Outcome.next
      ((if_neg hword).trans (fieldWrite_of_takesWrite hw _))

end Sys2Proof.Proofs
end

section
/-!
PROOF. The signing policy (R330, R339): where a write of it applies, a change of it leaves the District
without an image.
-/
open Sys2Proof Sys2Proof.Machine Sys2Proof.Safety Sys2Proof.Laws
namespace Sys2Proof.Proofs

variable {s : State} {d : DistId} {p : PageId} {f : Fld} {i bit v : Nat}

/-! ### Emptied slots -/

theorem imageAt_emptySlots_same (s : State) (d : Nat) (k : Fin 16) :
    imageAt (emptySlots s d (fun _ => true)) d k = none := by
  have hkeep : (fun kv : Nat × Image => !(kv.1 / 16 == d && true))
      = (fun kv => (fun n => !(n / 16 == d)) kv.1) := by simp
  unfold imageAt emptySlots
  dsimp only
  rw [hkeep]
  exact find_filter_eq_none (keep := fun n => !(n / 16 == d)) (by simp; omega)

/-- A filter by the key leaves what stands at a key that it keeps, where the keys rise. -/
theorem find_filter_of_kept {α : Type} {m : SMap α} {keep : Nat → Bool} {k lo : Nat}
    (hm : keysFrom lo m = true) (h : keep k = true) :
    SMap.find (m.filter (fun kv => keep kv.1)) k = SMap.find m k := by
  induction m generalizing lo with
  | nil => rfl
  | cons kv m ih =>
    obtain ⟨j, w⟩ := kv
    simp only [keysFrom, Bool.and_eq_true, decide_eq_true_eq] at hm
    have hrest := ih hm.2
    rw [List.filter_cons]
    by_cases hj : keep j = true
    · rw [if_pos hj, SMap.find, SMap.find, hrest]
    · rw [if_neg hj, SMap.find, if_neg (by rintro rfl; exact hj h)]
      split
      · exact find_none_of_lt (keysFrom_filter hm.2) (by omega)
      · exact hrest

theorem imageAt_emptySlots_of_ne (hok : regsOk s = true) {e : Nat} (k : Fin 16) (hne : e ≠ d.val) :
    imageAt (emptySlots s d (fun _ => true)) e k = imageAt s e k := by
  simp only [regsOk, Bool.and_eq_true] at hok
  have hkeep : (fun kv : Nat × Image => !(kv.1 / 16 == d.val && true))
      = (fun kv => (fun n => !(n / 16 == d.val)) kv.1) := by simp
  unfold imageAt emptySlots
  dsimp only
  rw [hkeep]
  exact find_filter_of_kept (keep := fun n => !(n / 16 == d.val)) hok.2 (by simp; omega)

theorem launchRefusal_of_none {k : Nat} (h : imageAt s d k = none) :
    launchRefusal s d k = some (stImgNone, 0) := by
  simp only [launchRefusal, h]

/-! ### A write of the policy -/

theorem policyWrite_of_locked (h : locked s p = true) : policyWrite s d p f i bit v = s := if_pos h

theorem policyWrite_of_busy (hopen : locked s p = false) (hidle : distIdle s d = false) :
    policyWrite s d p f i bit v = raise s p bit := by
  simp [policyWrite, hopen, hidle]

theorem policyWrite_of_same (hopen : locked s p = false) (hidle : distIdle s d = true)
    (hv : v < 2 ^ f.wid) (h : rd s p f i = v) : policyWrite s d p f i bit v = s := by
  simp [policyWrite, hopen, hidle, h, Nat.mod_eq_of_lt hv]

theorem policyWrite_of_change (hopen : locked s p = false) (hidle : distIdle s d = true)
    (hv : v < 2 ^ f.wid) (h : rd s p f i ≠ v) :
    policyWrite s d p f i bit v = emptySlots (wr s p f v i) d (fun _ => true) := by
  simp [policyWrite, hopen, hidle, h, Nat.mod_eq_of_lt hv]

/-- The fields of the policy of a District: `SIGN_REQUIRED`, or a word of `IMG_KEY_DIGEST`, with the value
that a write gives it. -/
def PolicyField (d : DistId) (v : BitVec 32) (w : Fin 9) (p : PageId) (f : Fld) (i x : Nat) : Prop :=
  (w.val = 0 ∧ p = districtP d ∧ f = DISTRICT_SIGN_REQUIRED ∧ i = 0 ∧ x = bitsOf v.toNat 3 1) ∨
    (w.val ≠ 0 ∧ p = secP ∧ f = SEC_IMG_KEY_DIGEST ∧ i = 8 * d.val + (w.val - 1) ∧ x = v.toNat)

namespace PolicyField

variable {w : Fin 9} {x : Nat} {y : BitVec 32}

theorem lt (h : PolicyField d y w p f i x) : x < 2 ^ f.wid := by
  obtain ⟨-, -, rfl, -, rfl⟩ | ⟨-, -, rfl, -, rfl⟩ := h
  · exact Nat.mod_lt _ (by decide)
  · exact y.isLt

theorem exec_signPolicyWrite {req : PortId} (h : PolicyField d y w p f i x)
    (hw : takesWrite s req p f i = true) :
    exec (.signPolicyWrite req d w y) s = .next (policyWrite s d p f i 3 x) := by
  obtain ⟨hword, rfl, rfl, rfl, rfl⟩ | ⟨hword, rfl, rfl, rfl, rfl⟩ := h
  · exact congrArg Host.Outcome.next ((if_pos hword).trans (fieldWrite_of_takesWrite hw _))
  · exact congrArg Host.Outcome.next ((if_neg hword).trans (fieldWrite_of_takesWrite hw _))

/-- No interrupt of its page writes a field of the policy. -/
theorem fkey_not_mem_raiseKeys (h : PolicyField d y w p f i x) : fkey p f i ∉ raiseKeys p := by
  obtain ⟨-, rfl, rfl, rfl, -⟩ | ⟨-, rfl, rfl, rfl, -⟩ := h
  · revert d
    decide
  · have digest : ∀ k : Fin 40, fkey secP SEC_IMG_KEY_DIGEST k ∉ raiseKeys secP := by decide
    exact digest ⟨8 * d.val + (w.val - 1), by omega⟩

end PolicyField

/-- Settles O57: a lock, a District at work, and the value that the field holds choose what the write does. -/
theorem signPolicyEmptiesTheSlots : Obligations.SignPolicyEmptiesTheSlots := by
  intro s req d v w p f i x hpolicy hok hw
  have hfield : PolicyField d v w p f i x := hpolicy
  refine ⟨policyWrite s d p f i 3 x, hfield.exec_signPolicyWrite hw, policyWrite_of_locked,
    fun hopen hbusy => ?busy, fun hopen hidle => ?written,
    fun hopen hidle hsame => policyWrite_of_same hopen hidle hfield.lt hsame,
    fun hopen hidle hchange => ?emptied⟩
  case busy =>
    rw [policyWrite_of_busy hopen hbusy]
    exact ⟨rd_raise (by decide) hfield.fkey_not_mem_raiseKeys, raise_images s p 3,
      bitOf_rd_intRaw_raise s (by decide) (hdr_fkey_ne_inService p (by decide))⟩
  case written =>
    by_cases hsame : rd s p f i = x
    · rw [policyWrite_of_same hopen hidle hfield.lt hsame, hsame]
    · rw [policyWrite_of_change hopen hidle hfield.lt hsame]
      exact (rd_wr_same (keysFrom_of_regsOk hok) p f x i).trans (Nat.mod_eq_of_lt hfield.lt)
  case emptied =>
    rw [policyWrite_of_change hopen hidle hfield.lt hchange]
    have hwritten : regsOk (wr s p f x i) = true := regsOk_wr hok p f x i
    exact ⟨fun k => ⟨imageAt_emptySlots_same _ d k,
        launchRefusal_of_none (imageAt_emptySlots_same _ d k)⟩,
      fun e k hne => imageAt_emptySlots_of_ne hwritten k hne⟩

end Sys2Proof.Proofs
end

section
/-!
SUPPORT. No fence, and nothing that a fence sets off, touches the soft resets that wait (R298): one
equation per operation says that it leaves the field `resetWaits`, from the counters and the
interrupts up to the fence of a tile and of a link group (R295).
-/
open Sys2Proof Sys2Proof.Machine Sys2Proof.Safety Sys2Proof.Laws
namespace Sys2Proof.Proofs

/-! ### Branches and folds -/

@[simp] theorem ite_resetWaits {c : Prop} [Decidable c] (s t : State) :
    (if c then s else t).resetWaits = if c then s.resetWaits else t.resetWaits :=
  apply_ite State.resetWaits c s t

@[simp] theorem ite_fst_resetWaits {c : Prop} [Decidable c] {β : Type} (x y : State × β) :
    (if c then x else y).1.resetWaits = if c then x.1.resetWaits else y.1.resetWaits :=
  apply_ite (fun x : State × β => x.1.resetWaits) c x y

@[simp] theorem foldl_resetWaits {α : Type} {f : State → α → State}
    (hf : ∀ s a, (f s a).resetWaits = s.resetWaits) (l : List α) (s : State) :
    (l.foldl f s).resetWaits = s.resetWaits :=
  List.foldlRecOn (motive := fun x => x.resetWaits = s.resetWaits) l f rfl fun _ hx a _ =>
    (hf _ a).trans hx

@[simp] theorem foldl_fst_resetWaits {α β : Type} {f : State × β → α → State × β}
    (hf : ∀ r a, (f r a).1.resetWaits = r.1.resetWaits) (l : List α) (r : State × β) :
    (l.foldl f r).1.resetWaits = r.1.resetWaits :=
  List.foldlRecOn (motive := fun x => x.1.resetWaits = r.1.resetWaits) l f rfl
    fun _ hx a _ => (hf _ a).trans hx

/-! ### Counters, flows and interrupts (R293, R294) -/

@[simp] theorem bump_resetWaits (s : State) (p : PageId) (f : Fld) (n : Nat) (i : Nat) :
    (bump s p f n i).resetWaits = s.resetWaits := rfl

@[simp] theorem bump64_resetWaits (s : State) (p : PageId) (lo hi : Fld) (n : Nat) :
    (bump64 s p lo hi n).resetWaits = s.resetWaits := rfl

@[simp] theorem freeNat_resetWaits (s : State) :
    (freeNat s).2.resetWaits = s.resetWaits := rfl

@[simp] theorem freeBool_resetWaits (s : State) :
    (freeBool s).2.resetWaits = s.resetWaits := rfl

@[simp] theorem assignFlow_resetWaits (s : State) (g flow : Nat) :
    (assignFlow s g flow).resetWaits = s.resetWaits := by
  unfold assignFlow
  split <;> simp

@[simp] theorem takeFlips_resetWaits (s : State) (g flow : Nat) (b : List Byte) :
    (takeFlips s g flow b).1.resetWaits = s.resetWaits := by
  unfold takeFlips
  repeat' split
  all_goals simp

@[simp] theorem crossData_resetWaits (s : State) (gs : List Nat) (flow : Nat) (b : List Byte) :
    (crossData s gs flow b).1.resetWaits = s.resetWaits := by simp [crossData]

@[simp] theorem plazaData_resetWaits (s : State) (src n : Nat) (b : List Byte) :
    (plazaData s src n b).1.resetWaits = s.resetWaits := by simp [plazaData]

@[simp] theorem sendVector_resetWaits (s : State) (d v : Nat) :
    (sendVector s d v).resetWaits = s.resetWaits := by simp [sendVector]

@[simp] theorem deliver1_resetWaits (s : State) (d v : Nat) :
    (deliver1 s d v).resetWaits = s.resetWaits := by simp [deliver1]

@[simp] theorem deliver_resetWaits (s : State) :
    (deliver s).resetWaits = s.resetWaits := by simp [deliver]

@[simp] theorem raise_resetWaits (s : State) (p : PageId) (b : Nat) :
    (raise s p b).resetWaits = s.resetWaits := by simp [raise]

@[simp] theorem lastErr_resetWaits (s : State) (p : PageId) (code : Nat) :
    (lastErr s p code).resetWaits = s.resetWaits := rfl

@[simp] theorem logErr_resetWaits (s : State) (p : PageId) (code lo hi synd : Nat) :
    (logErr s p code lo hi synd).resetWaits = s.resetWaits := rfl

@[simp] theorem refuse_resetWaits (s : State) (d a code : Nat) :
    (refuse s d a code).resetWaits = s.resetWaits := by simp [refuse]

/-! ### Slices (R123 to R137) -/

@[simp] theorem logSector_resetWaits (s : State) (n code sec req synd : Nat) :
    (logSector s n code sec req synd).resetWaits = s.resetWaits := rfl

@[simp] theorem failSector_resetWaits (s : State) (n sec : Nat) (p : List (Nat × Nat)) :
    (failSector s n sec p).resetWaits = s.resetWaits := rfl

@[simp] theorem controllerRead_resetWaits (s : State) (n sec req : Nat) (err : Option SectorErr) :
    (controllerRead s n sec req err).1.resetWaits = s.resetWaits := by
  unfold controllerRead
  dsimp only
  repeat' split
  all_goals simp

@[simp] theorem readSector_resetWaits (s : State) (n sec req : Nat) (err : Option SectorErr) :
    (readSector s n sec req err).1.resetWaits = s.resetWaits := by simp [readSector]

@[simp] theorem putSector_resetWaits (s : State) (n sec : Nat) (bytes : List Byte) :
    (putSector s n sec bytes).resetWaits = s.resetWaits := rfl

@[simp] theorem putWin_resetWaits (s : State) (n off : Nat) (bytes : List Byte) :
    (putWin s n off bytes).resetWaits = s.resetWaits := rfl

@[simp] theorem mergeDropped_resetWaits (s : State) (n sec : Nat) (synd : Nat) :
    (mergeDropped s n sec synd).resetWaits = s.resetWaits := by
  rw [mergeDropped, raise_resetWaits, logSector_resetWaits, bump_resetWaits]

@[simp] theorem putAny_resetWaits (s : State) (n sec : Nat) (d : List Byte) :
    (putAny s n sec d).resetWaits = s.resetWaits := by simp [putAny]

@[simp] theorem flushEntry_resetWaits (s : State) (n sec : Nat) (err : Option SectorErr) :
    (flushEntry s n sec err).resetWaits = s.resetWaits := by
  unfold flushEntry
  dsimp only
  repeat' split
  all_goals simp

@[simp] theorem gather_resetWaits (s : State) (n : Nat) (w : Narrow) :
    (gather s n w).resetWaits = s.resetWaits := rfl

@[simp] theorem putWindow_resetWaits (s : State) (n off : Nat) (who : Option Nat) (fuel : Nat)
    (bytes : List Byte) :
    (putWindow s n off who fuel bytes).resetWaits = s.resetWaits := by
  induction fuel generalizing s off bytes with
  | zero => rfl
  | succ k ih =>
    unfold putWindow
    split
    · rfl
    · simp [ih]

@[simp] theorem drainPuts_resetWaits (s : State) (n : Nat) (fuel : Nat) :
    (drainPuts s n fuel).resetWaits = s.resetWaits := by
  induction fuel generalizing s with
  | zero => rfl
  | succ k ih =>
    unfold drainPuts
    dsimp only
    split
    · split
      · rfl
      · simp [ih]
    · rfl

@[simp] theorem settleSlice_resetWaits (s : State) (n : Nat) :
    (settleSlice s n).resetWaits = s.resetWaits := by simp [settleSlice]

@[simp] theorem flushSector_resetWaits (s : State) (n sec : Nat) (err : Option SectorErr) :
    (flushSector s n sec err).resetWaits = s.resetWaits := by simp [flushSector]

@[simp] theorem flushAll_resetWaits (s : State) (n : Nat) (errs : SectorErrs) (fuel : Nat) :
    (flushAll s n errs fuel).resetWaits = s.resetWaits := by
  induction fuel generalizing s with
  | zero => rfl
  | succ k ih =>
    unfold flushAll
    split
    · rfl
    · simp [ih]

@[simp] theorem sliceSector_resetWaits (s : State) (n sec req : Nat) (err : Option SectorErr) :
    (sliceSector s n sec req err).1.resetWaits = s.resetWaits := by
  unfold sliceSector
  split <;> simp

@[simp] theorem sliceWriteSector_resetWaits (s : State) (n sec : Nat) (bytes : List Byte) :
    (sliceWriteSector s n sec bytes).resetWaits = s.resetWaits := by simp [sliceWriteSector]

@[simp] theorem sliceWriteBytes_resetWaits (s : State) (n off : Nat) (fuel : Nat)
    (bytes : List Byte) :
    (sliceWriteBytes s n off fuel bytes).resetWaits = s.resetWaits := by
  induction fuel generalizing s off bytes with
  | zero => rfl
  | succ k ih =>
    unfold sliceWriteBytes
    split
    · rfl
    · simp [ih]

@[simp] theorem countRun_resetWaits (s : State) (n tag mask : Nat) :
    (countRun s n tag mask).resetWaits = s.resetWaits := by simp [countRun]

@[simp] theorem emptyRun_resetWaits (s : State) (n tag code bit : Nat) :
    (emptyRun s n tag code bit).resetWaits = s.resetWaits := by simp [emptyRun]

@[simp] theorem modeRefused_resetWaits (s : State) (n : Nat) :
    (modeRefused s n).resetWaits = s.resetWaits := by simp [modeRefused]

@[simp] theorem beginEnter_resetWaits (s : State) (n : Nat) :
    (beginEnter s n).resetWaits = s.resetWaits := rfl

@[simp] theorem modeWrite_resetWaits (s : State) (n w : Nat) :
    (modeWrite s n w).resetWaits = s.resetWaits := by simp [modeWrite]

@[simp] theorem goWrite_resetWaits (s : State) (n w : Nat) (who : Option Nat) :
    (goWrite s n w who).resetWaits = s.resetWaits := by simp [goWrite]

@[simp] theorem winWrite_resetWaits (s : State) (n off : Nat) (bytes : List Byte)
    (who : Option Nat) :
    (winWrite s n off bytes who).1.resetWaits = s.resetWaits := by simp [winWrite]

@[simp] theorem winSectorRead_resetWaits (s : State) (n off req : Nat) (err : Option SectorErr) :
    (winSectorRead s n off req err).1.resetWaits = s.resetWaits := by simp [winSectorRead]

/-! ### Engines and tiles -/

@[simp] theorem repayRefresh_resetWaits (s : State) (n : Nat) :
    (repayRefresh s n).resetWaits = s.resetWaits := rfl

@[simp] theorem engineTime_resetWaits (s : State) (n : Nat) (lo hi : Fld) (ran : Bool) :
    (engineTime s n lo hi ran).resetWaits = s.resetWaits := by simp [engineTime]

@[simp] theorem engineFence_resetWaits (s : State) (n : Nat) :
    (engineFence s n).resetWaits = s.resetWaits := by simp [engineFence]

@[simp] theorem owe_resetWaits (s : State) (sender key : Nat) :
    (owe s sender key).resetWaits = s.resetWaits := by simp [owe]

@[simp] theorem dropInbound_resetWaits (s : State) (n : Nat) :
    (dropInbound s n).resetWaits = s.resetWaits := by simp [dropInbound]

@[simp] theorem quietTile_resetWaits (s : State) (n : Nat) :
    (quietTile s n).resetWaits = s.resetWaits := by simp [quietTile]

@[simp] theorem landSome_resetWaits (s : State) (n : Nat) (u : Tile) (pends : List Pend) :
    (landSome s n u pends).resetWaits = s.resetWaits := by
  induction pends generalizing s u with
  | nil => rfl
  | cons p ps ih => simp [landSome, ih]

@[simp] theorem stopTile_resetWaits (s : State) (n : Nat) :
    (stopTile s n).resetWaits = s.resetWaits := by simp [stopTile]

/-! ### Command processors (R247 to R258) -/

@[simp] theorem countStall_resetWaits (s : State) (d : Nat) :
    (countStall s d).resetWaits = s.resetWaits := by simp [countStall]

@[simp] theorem fireVector0_resetWaits (s : State) (d : Nat) :
    (fireVector0 s d).resetWaits = s.resetWaits := by simp [fireVector0]

@[simp] theorem moderate_resetWaits (s : State) (d : Nat) (irq : Bool) :
    (moderate s d irq).resetWaits = s.resetWaits := by simp [moderate]

@[simp] theorem brokenOff_resetWaits (s : State) (d : Nat) :
    (brokenOff s d).resetWaits = s.resetWaits := by simp [brokenOff]

@[simp] theorem hostRefused_resetWaits (s : State) (port : Nat) :
    (hostRefused s port).resetWaits = s.resetWaits := by simp [hostRefused]

@[simp] theorem writeEntry_resetWaits (s : State) (d : Nat) (e : CplEntry) :
    (writeEntry s d e).resetWaits = s.resetWaits := by simp [writeEntry]

@[simp] theorem postEntry_resetWaits (s : State) (d : Nat) (e : CplEntry) :
    (postEntry s d e).resetWaits = s.resetWaits := by simp [postEntry]

@[simp] theorem postNotice_resetWaits (s : State) (d status data : Nat) :
    (postNotice s d status data).resetWaits = s.resetWaits := by simp [postNotice]

@[simp] theorem complete_resetWaits (s : State) (d op : Nat) (h : CmdHdr) (status data : Nat) :
    (complete s d op h status data).resetWaits = s.resetWaits := by simp [complete]

@[simp] theorem refuseAt_resetWaits (s : State) (d a e : Nat) :
    (refuseAt s d a e).resetWaits = s.resetWaits := by simp [refuseAt]

@[simp] theorem dropJob_resetWaits (s : State) (d seq : Nat) :
    (dropJob s d seq).resetWaits = s.resetWaits := rfl

@[simp] theorem setJob_resetWaits (s : State) (d : Nat) (j : Job) :
    (setJob s d j).resetWaits = s.resetWaits := rfl

@[simp] theorem finishJob_resetWaits (s : State) (d : Nat) (j : Job) (status data : Nat) :
    (finishJob s d j status data).resetWaits = s.resetWaits := by simp [finishJob]

@[simp] theorem failJob_resetWaits (s : State) (d : Nat) (j : Job) (status data : Nat) :
    (failJob s d j status data).resetWaits = s.resetWaits := by simp [failJob]

@[simp] theorem endLaunch_resetWaits (s : State) (d : Nat) (j : Job) (status data : Nat) :
    (endLaunch s d j status data).resetWaits = s.resetWaits := by
  unfold endLaunch
  split <;> simp

/-! ### Links and ports -/

@[simp] theorem pinFlow_resetWaits (s : State) (port flow l : Nat) :
    (pinFlow s port flow l).resetWaits = s.resetWaits := by
  unfold pinFlow
  split <;> simp

@[simp] theorem sendRound_resetWaits (s : State) (l : Nat) (lanes : List Nat)
    (unit : Nat → Nat → Nat) :
    (sendRound s l lanes unit).resetWaits = s.resetWaits := rfl

@[simp] theorem makeWord_resetWaits (s : State) (l : Nat) :
    (makeWord s l).resetWaits = s.resetWaits := rfl

@[simp] theorem sendSides_resetWaits (s : State) (l : Nat) :
    (sendSides s l).resetWaits = s.resetWaits := by simp [sendSides]

@[simp] theorem sendLinkWord_resetWaits (s : State) (l : Nat) :
    (sendLinkWord s l).resetWaits = s.resetWaits := by simp [sendLinkWord]

@[simp] theorem sendFlit_resetWaits (s : State) (l seq : Nat) (payload : List Byte) :
    (sendFlit s l seq payload).resetWaits = s.resetWaits := by simp [sendFlit]

@[simp] theorem pumpLink_resetWaits (s : State) (l : Nat) (fuel : Nat) :
    (pumpLink s l fuel).resetWaits = s.resetWaits := by
  induction fuel generalizing s with
  | zero => rfl
  | succ k ih => simp [pumpLink, ih]

@[simp] theorem sendOnLink_resetWaits (s : State) (l : Nat) (bytes : List Byte) :
    (sendOnLink s l bytes).resetWaits = s.resetWaits := by simp [sendOnLink]

@[simp] theorem sendWord_resetWaits (s : State) (l : Nat) :
    (sendWord s l).resetWaits = s.resetWaits := by simp [sendWord]

@[simp] theorem sendMsg_resetWaits (s : State) (l msg arg : Nat) :
    (sendMsg s l msg arg).resetWaits = s.resetWaits := by simp [sendMsg]

@[simp] theorem forgetPartner_resetWaits (s : State) (l : Nat) :
    (forgetPartner s l).resetWaits = s.resetWaits := rfl

@[simp] theorem setPortState_resetWaits (s : State) (port st : Nat) :
    (setPortState s port st).resetWaits = s.resetWaits := by simp [setPortState]

@[simp] theorem enterPort_resetWaits (s : State) (port st : Nat) :
    (enterPort s port st).resetWaits = s.resetWaits := by simp [enterPort]

@[simp] theorem portBare_resetWaits (s : State) (port : Nat) :
    (portBare s port).resetWaits = s.resetWaits := by simp [portBare]

@[simp] theorem dropPacket_resetWaits (s : State) (port reason : Nat) (dest src : Nat × Nat)
    (quarter : Nat) :
    (dropPacket s port reason dest src quarter).resetWaits = s.resetWaits := by simp [dropPacket]

@[simp] theorem departPacket_resetWaits (s : State) (port flow : Nat) (bytes : List Byte) :
    (departPacket s port flow bytes).resetWaits = s.resetWaits := by
  unfold departPacket
  split <;> simp

@[simp] theorem deliverHere_resetWaits (s : State) (i inP : Nat) (b : List Byte) :
    (deliverHere s i inP b).1.resetWaits = s.resetWaits := by simp [deliverHere]

@[simp] theorem sendPacket_resetWaits (s : State) (d flow : Nat) (dest : Nat × Nat)
    (blvd : Bool) (mk : Nat → List Byte) :
    (sendPacket s d flow dest blvd mk).1.resetWaits = s.resetWaits := by
  unfold sendPacket
  repeat' split
  all_goals simp

/-! ### Collectives -/

@[simp] theorem collFailed_resetWaits (s : State) (e n off : Nat) :
    (collFailed s e n off).resetWaits = s.resetWaits := by
  rw [collFailed, wr_resetWaits, wr_resetWaits]

@[simp] theorem collRefused_resetWaits (s : State) (e n off code : Nat) :
    (collRefused s e n off code).resetWaits = s.resetWaits := by simp [collRefused]

@[simp] theorem collSectors_resetWaits (s : State) (n : Nat) (errs : SectorErrs) (secs : List Nat) :
    (collSectors s n errs secs).1.resetWaits = s.resetWaits := by
  induction secs generalizing s with
  | nil => rfl
  | cons k ks ih =>
    unfold collSectors
    dsimp only
    split <;> simp [ih]

@[simp] theorem collRead_resetWaits (s : State) (e n off len : Nat) (errs : SectorErrs) :
    (collRead s e n off len errs).1.resetWaits = s.resetWaits := by simp [collRead]

@[simp] theorem collGather_resetWaits (s : State) (c : Coll) (e base : Nat) (errs : SectorErrs)
    (parts : List (Nat × Nat × Nat)) :
    (collGather s c e base errs parts).1.resetWaits = s.resetWaits := by
  induction parts generalizing s with
  | nil => rfl
  | cons p ps ih =>
    obtain ⟨j, o, n⟩ := p
    unfold collGather
    dsimp only
    split
    · simp
    · split <;> simp [ih]

@[simp] theorem collSumFrom_resetWaits (s : State) (c : Coll) (e base k : Nat)
    (errs : SectorErrs) (acc : List Byte) (fuel : Nat) (j : Nat) :
    (collSumFrom s c e base k errs acc fuel j).1.resetWaits = s.resetWaits := by
  induction fuel generalizing s acc j with
  | zero => rfl
  | succ m ih =>
    unfold collSumFrom
    dsimp only
    split <;> simp [ih]

@[simp] theorem contribution_resetWaits (s : State) (c : Coll) (q k : Nat) (errs : SectorErrs) :
    (contribution s c q k errs).1.resetWaits = s.resetWaits := by
  unfold contribution
  dsimp only
  repeat' split
  all_goals simp

@[simp] theorem collWrite_resetWaits (s : State) (e n off : Nat) (bytes : List Byte) :
    (collWrite s e n off bytes).1.resetWaits = s.resetWaits := by simp [collWrite]

@[simp] theorem oweTo_resetWaits (s : State) (key port flow : Nat) :
    (oweTo s key port flow).resetWaits = s.resetWaits := by
  unfold oweTo
  split <;> simp

@[simp] theorem sendRank_resetWaits (s : State) (c : Coll) (e r : Nat) (mk : Nat → List Byte) :
    (sendRank s c e r mk).resetWaits = s.resetWaits := by
  unfold sendRank
  split <;> simp

@[simp] theorem sendCtl_resetWaits (s : State) (c : Coll) (r ctl target : Nat) :
    (sendCtl s c r ctl target).resetWaits = s.resetWaits := by simp [sendCtl]

@[simp] theorem countBytes_resetWaits (s : State) (c : Coll) (idx n : Nat) (isIn : Bool) :
    (countBytes s c idx n isIn).resetWaits = s.resetWaits := by simp [countBytes]

@[simp] theorem sendWave_resetWaits (s : State) (c : Coll) (target : Nat) :
    (sendWave s c target).resetWaits = s.resetWaits := by simp [sendWave]

@[simp] theorem collEvent_resetWaits (s : State) (c : Coll) (p : Nat × Nat × Nat) :
    (collEvent s c p).resetWaits = s.resetWaits := by
  unfold collEvent
  split <;> simp

@[simp] theorem collClose_resetWaits (s : State) (c : Coll) (status cause : Nat)
    (origin : Option (Nat × Nat)) :
    (collClose s c status cause origin).resetWaits = s.resetWaits := by
  unfold collClose
  extract_lets o target dropped line told posted ended counted waved
  have htold : told.resetWaits = dropped.resetWaits :=
    foldl_resetWaits (fun s n => by dsimp only; split <;> simp) _ _
  have hposted : posted.resetWaits = told.resetWaits := by simp [posted]
  have hended : ended.resetWaits = posted.resetWaits := by
    unfold ended
    split
    · rfl
    · split
      · split <;> simp
      · rfl
  have hcounted : counted.resetWaits = ended.resetWaits :=
    foldl_resetWaits (fun s e => by simp) _ _
  have hwaved : waved.resetWaits = counted.resetWaits := by
    unfold waved
    split
    · rfl
    · exact foldl_resetWaits (fun _ _ => bump_resetWaits _ _ _ _ _) _ _
  have hdropped : dropped.resetWaits = s.resetWaits := dropColl_resetWaits _ _
  split
  · rw [hcounted, hended, hposted, htold, hdropped]
  · rw [sendWave_resetWaits, hwaved, hcounted, hended, hposted, htold, hdropped]

@[simp] theorem collEnd_resetWaits (s : State) (key status cause : Nat) (origin : Option
    (Nat × Nat)) :
    (collEnd s key status cause origin).resetWaits = s.resetWaits := by
  unfold collEnd
  split <;> simp

@[simp] theorem collLateEnd_resetWaits (s : State) (key : Nat) :
    (collLateEnd s key).resetWaits = s.resetWaits := by
  unfold collLateEnd
  repeat' split
  all_goals simp

@[simp] theorem sendBlk_resetWaits (s : State) (c : Coll) (b : Blk) :
    (sendBlk s c b).resetWaits = s.resetWaits := by simp [sendBlk]

@[simp] theorem sendBlkK_resetWaits (s : State) (key : Nat) (b : Blk) :
    (sendBlkK s key b).resetWaits = s.resetWaits := by
  unfold sendBlkK
  split <;> simp

@[simp] theorem collCheck_resetWaits (s : State) (key : Nat) :
    (collCheck s key).resetWaits = s.resetWaits := by
  unfold collCheck
  split <;> simp

@[simp] theorem sendFirst_resetWaits (s : State) (key r : Nat) (errs : SectorErrs) :
    (sendFirst s key r errs).resetWaits = s.resetWaits := by
  unfold sendFirst
  split
  · rfl
  · refine (foldl_resetWaits (fun s qk => ?_) _ _).trans (setColl_resetWaits _ _)
    split
    · rfl
    · dsimp only
      split <;> simp

@[simp] theorem collPump_resetWaits (s : State) (key : Nat) (errs : SectorErrs) :
    (collPump s key errs).resetWaits = s.resetWaits := by
  unfold collPump
  dsimp only
  repeat' split
  all_goals simp

@[simp] theorem collPumpAll_resetWaits (s : State) (errs : SectorErrs) :
    (collPumpAll s errs).resetWaits = s.resetWaits := by simp [collPumpAll]

@[simp] theorem countHold_resetWaits (s : State) (c : Coll) :
    (countHold s c).resetWaits = s.resetWaits := by
  rw [countHold, foldl_resetWaits fun _ _ => bump64_resetWaits _ _ _ _ _, freeNat_resetWaits]

@[simp] theorem noteHold_resetWaits (s : State) (key : Nat) :
    (noteHold s key).resetWaits = s.resetWaits := by
  unfold noteHold
  split
  · rfl
  · rw [ite_resetWaits, foldl_resetWaits fun _ _ => bump_resetWaits _ _ _ _ _]
    simp

@[simp] theorem noteHolds_resetWaits (s : State) :
    (noteHolds s).resetWaits = s.resetWaits := by simp [noteHolds]

@[simp] theorem takeCount_resetWaits (s : State) (c : Coll) :
    (takeCount s c).resetWaits = s.resetWaits := rfl

@[simp] theorem collStop_resetWaits (s : State) (key status cause : Nat) :
    (collStop s key status cause).resetWaits = s.resetWaits := by
  unfold collStop
  split <;> simp

@[simp] theorem collEndAll_resetWaits (s : State) (p : Coll → Bool) (status cause : Nat) :
    (collEndAll s p status cause).resetWaits = s.resetWaits := by simp [collEndAll]

@[simp] theorem dropPosts_resetWaits (s : State) (d : Nat) (slot : Option Nat) :
    (dropPosts s d slot).resetWaits = s.resetWaits := rfl

@[simp] theorem abortColls_resetWaits (s : State) (d : Nat) (slot : Option Nat) :
    (abortColls s d slot).resetWaits = s.resetWaits := by simp [abortColls]

@[simp] theorem collPathLost_resetWaits (s : State) (port : Nat) :
    (collPathLost s port).resetWaits = s.resetWaits := by simp [collPathLost]

/-! ### A link that falls -/

@[simp] theorem freeFlows_resetWaits (s : State) (l : Nat) :
    (freeFlows s l).resetWaits = s.resetWaits := rfl

@[simp] theorem discardFlits_resetWaits (s : State) (l : Nat) :
    (discardFlits s l).resetWaits = s.resetWaits := by simp [discardFlits]

@[simp] theorem rxFell_resetWaits (s : State) (l : Nat) :
    (rxFell s l).resetWaits = s.resetWaits := by
  unfold rxFell
  dsimp only
  split <;> simp

@[simp] theorem portLost_resetWaits (s : State) (l port : Nat) :
    (portLost s l port).resetWaits = s.resetWaits := by simp [portLost]

@[simp] theorem txFell_resetWaits (s : State) (l : Nat) :
    (txFell s l).resetWaits = s.resetWaits := by simp [txFell]

@[simp] theorem stopTx_resetWaits (s : State) (l : Nat) :
    (stopTx s l).resetWaits = s.resetWaits := by simp [stopTx]

@[simp] theorem stopRx_resetWaits (s : State) (l st : Nat) :
    (stopRx s l st).resetWaits = s.resetWaits := by simp [stopRx]

@[simp] theorem dirsDown_resetWaits (s : State) (ts : List Nat) (rs : List (Nat × Nat)) :
    (dirsDown s ts rs).resetWaits = s.resetWaits := by simp [dirsDown]

@[simp] theorem linksDown_resetWaits (s : State) (ls : List (Nat × Nat)) :
    (linksDown s ls).resetWaits = s.resetWaits := by simp [linksDown]

@[simp] theorem portRefused_resetWaits (s : State) (req addr code : Nat) (write : Bool) :
    (portRefused s req addr code write).resetWaits = s.resetWaits := by simp [portRefused]

/-! ### Memory, and the requests of the hosts -/

@[simp] theorem pollAcks_resetWaits (s : State) :
    (pollAcks s).resetWaits = s.resetWaits := by
  refine foldl_resetWaits (fun s d => ?_) _ _
  refine foldl_resetWaits (fun s j => ?_) _ _
  split <;> simp

@[simp] theorem sramWrite_resetWaits (s : State) (n off : Nat) (bytes : List Byte) :
    (sramWrite s n off bytes).resetWaits = s.resetWaits := rfl

@[simp] theorem sramParity_resetWaits (s : State) (n : Nat) (h : ParHit) (lasting : Bool) :
    (sramParity s n h lasting).resetWaits = s.resetWaits := by
  unfold sramParity
  extract_lets p t
  have ht : t.resetWaits = s.resetWaits := logErr_resetWaits _ _ _ _ _ _
  rw [ite_resetWaits, raise_resetWaits, setTile_resetWaits, bump_resetWaits, ht, ite_self]

@[simp] theorem pieceCome_resetWaits (s : State) (d n : Nat) (b : List Byte) :
    (pieceCome s d n b).1.resetWaits = s.resetWaits := by simp [pieceCome]

@[simp] theorem pieceRead_resetWaits (s : State) (d a len : Nat) (err : Option SectorErr) :
    (pieceRead s d a len err).1.resetWaits = s.resetWaits := by
  unfold pieceRead
  dsimp only
  repeat' split
  all_goals simp

@[simp] theorem pieceWrite_resetWaits (s : State) (d a : Nat) (bytes : List Byte) (who : Nat) :
    (pieceWrite s d a bytes who).1.resetWaits = s.resetWaits := by
  unfold pieceWrite
  dsimp only
  repeat' split
  all_goals simp

@[simp] theorem dmaRead_resetWaits (s : State) (d : Nat) (errs : SectorErrs) (i a : Nat)
    (fuel : Nat) (len : Nat) :
    (dmaRead s d errs i a fuel len).1.resetWaits = s.resetWaits := by
  induction fuel generalizing s i a len with
  | zero => rfl
  | succ k ih =>
    unfold dmaRead
    split
    · rfl
    · dsimp only
      split <;> simp [ih]

@[simp] theorem dmaWrite_resetWaits (s : State) (d who a : Nat) (fuel : Nat) (bytes : List Byte) :
    (dmaWrite s d who a fuel bytes).1.resetWaits = s.resetWaits := by
  induction fuel generalizing s a bytes with
  | zero => rfl
  | succ k ih =>
    unfold dmaWrite
    split
    · rfl
    · dsimp only
      split <;> simp [ih]

@[simp] theorem bytesIn_resetWaits (s : State) (port n : Nat) :
    (bytesIn s port n).resetWaits = s.resetWaits := rfl

@[simp] theorem bytesOut_resetWaits (s : State) (port n : Nat) :
    (bytesOut s port n).resetWaits = s.resetWaits := rfl

@[simp] theorem windowRefused_resetWaits (s : State) (d a code : Nat) (write : Bool) :
    (windowRefused s d a code write).resetWaits = s.resetWaits := by simp [windowRefused]

@[simp] theorem poisonedCpl_resetWaits (s : State) (p : Nat) :
    (poisonedCpl s p).resetWaits = s.resetWaits := rfl

theorem hostLoad_resetWaits {s t : State} {q : HostReq} (h : hostLoad s q = some t) :
    t.resetWaits = s.resetWaits := by
  unfold hostLoad at h
  split at h
  · exact nomatch h
  · obtain ⟨x, -, rfl⟩ := Option.map_eq_some_iff.mp h
    simp

theorem hostStore_resetWaits {s t : State} {q : HostReq} (h : hostStore s q = some t) :
    t.resetWaits = s.resetWaits := by
  obtain ⟨x, -, rfl⟩ := Option.map_eq_some_iff.mp h
  simp

@[simp] theorem serve_resetWaits (s : State) (qs : List HostReq) :
    (serve s qs).resetWaits = s.resetWaits := by
  induction qs generalizing s with
  | nil => rfl
  | cons q qs ih =>
    unfold serve
    dsimp only
    split
    next t ht =>
      rw [ih]
      split at ht
      · exact nomatch ht
      · split at ht
        · exact hostStore_resetWaits ht
        · exact hostLoad_resetWaits ht
    · rw [ih]

@[simp] theorem pollBells_resetWaits (s : State) :
    (pollBells s).resetWaits = s.resetWaits := by simp [pollBells]

@[simp] theorem pollHost_resetWaits (s : State) :
    (pollHost s).resetWaits = s.resetWaits := by simp [pollHost]

/-! ### A fence (R295) -/

@[simp] theorem haltChan_resetWaits (s : State) (n c code a : Nat) (keep lost : List MCmd) :
    (haltChan s n c code a keep lost).resetWaits = s.resetWaits := by simp [haltChan]

@[simp] theorem moverRefused_resetWaits (s : State) (n a code : Nat) :
    (moverRefused s n a code).resetWaits = s.resetWaits := by simp [moverRefused]

@[simp] theorem haltHead_resetWaits (s : State) (n c code a : Nat) :
    (haltHead s n c code a).resetWaits = s.resetWaits := by simp [haltHead]

@[simp] theorem useCredits_resetWaits (s : State) (n : Nat) (r : Route) (k : Nat) :
    (useCredits s n r k).resetWaits = s.resetWaits := rfl

@[simp] theorem takeLines_resetWaits (s : State) (n o k : Nat) :
    (takeLines s n o k).resetWaits = s.resetWaits := by
  unfold takeLines
  dsimp only
  split <;> simp

@[simp] theorem haltTile_resetWaits (s : State) (n : Nat) :
    (haltTile s n).resetWaits = s.resetWaits := by simp [haltTile]

@[simp] theorem stopLaunches_resetWaits (s : State) (d : Nat) :
    (stopLaunches s d).resetWaits = s.resetWaits := by
  refine foldl_resetWaits (fun s j => ?_) _ _
  split <;> simp

@[simp] theorem loseLaunches_resetWaits (s : State) (n : Nat) (p : List Nat → Bool) :
    (loseLaunches s n p).resetWaits = s.resetWaits := by
  refine foldl_resetWaits (fun s d => ?_) _ _
  refine foldl_resetWaits (fun s j => ?_) _ _
  split <;> simp

@[simp] theorem voidRespare_resetWaits (s : State) (n : Nat) :
    (voidRespare s n).resetWaits = s.resetWaits := by
  refine foldl_resetWaits (fun s d => ?_) _ _
  refine foldl_resetWaits (fun s j => ?_) _ _
  split <;> simp

@[simp] theorem failWaiter_resetWaits (s : State) (w : Nat × Nat) :
    (failWaiter s w).resetWaits = s.resetWaits := by
  unfold failWaiter
  dsimp only
  repeat' split
  all_goals simp

@[simp] theorem fenceFirst_resetWaits (s : State) (n : Nat) :
    (fenceFirst s n).resetWaits = s.resetWaits := by simp [fenceFirst]

@[simp] theorem loseSlice_resetWaits (s : State) (n : Nat) :
    (loseSlice s n).resetWaits = s.resetWaits := rfl

@[simp] theorem loseRequest_resetWaits (s : State) (n m : Nat) (w : Nat × Nat) :
    (loseRequest s n m w).resetWaits = s.resetWaits := by simp [loseRequest]

@[simp] theorem loseLines_resetWaits (s : State) (n m q : Nat) :
    (loseLines s n m q).resetWaits = s.resetWaits := by simp [loseLines]

@[simp] theorem loseSent_resetWaits (s : State) (n k o : Nat) :
    (loseSent s n k o).resetWaits = s.resetWaits := by
  unfold loseSent
  dsimp only
  split <;> simp

@[simp] theorem loseThrough_resetWaits (s : State) (n : Nat) :
    (loseThrough s n).resetWaits = s.resetWaits := by simp [loseThrough]

@[simp] theorem loseRouter_resetWaits (s : State) (n : Nat) :
    (loseRouter s n).resetWaits = s.resetWaits := by simp [loseRouter]

@[simp] theorem fenceTile_resetWaits (s : State) (n : Nat) (router lost : Bool) :
    (fenceTile s n router lost).resetWaits = s.resetWaits := by simp [fenceTile]

@[simp] theorem dieLostEnd_resetWaits (s : State) (d die : Nat) (j : Job) :
    (dieLostEnd s d die j).resetWaits = s.resetWaits := by
  unfold dieLostEnd
  dsimp only
  split <;> simp

@[simp] theorem distLosesDie_resetWaits (s : State) (die d : Nat) :
    (distLosesDie s die d).resetWaits = s.resetWaits := by simp [distLosesDie]

@[simp] theorem loseDie_resetWaits (s : State) (die : Nat) :
    (loseDie s die).resetWaits = s.resetWaits := rfl

/-! ### The map, the dies and Dawn -/

@[simp] theorem setDigest_resetWaits (s : State) :
    (setDigest s).resetWaits = s.resetWaits := by
  rw [setDigest, foldl_resetWaits fun _ _ => wr_resetWaits _ _ _ _ _]

@[simp] theorem compareDigest_resetWaits (s : State) :
    (compareDigest s).resetWaits = s.resetWaits := by
  unfold compareDigest
  split <;> simp

@[simp] theorem loseMap_resetWaits (s : State) (die : Nat) :
    (loseMap s die).resetWaits = s.resetWaits := by simp [loseMap]

@[simp] theorem fenceDie_resetWaits (s : State) (die cause : Nat) :
    (fenceDie s die cause).resetWaits = s.resetWaits := by simp [fenceDie]

@[simp] theorem engineDark_resetWaits (s : State) (e : Nat) :
    (engineDark s e).resetWaits = s.resetWaits := by
  unfold engineDark
  extract_lets as ls bs t u
  have hu : u.resetWaits = t.resetWaits := foldl_resetWaits (fun _ _ => wr_resetWaits _ _ _ _ _) _ _
  simp [hu, t]

@[simp] theorem lasersOff_resetWaits (s : State) (e : Nat) :
    (lasersOff s e).resetWaits = s.resetWaits := rfl

@[simp] theorem fenceOe_resetWaits (s : State) (e cause : Nat) :
    (fenceOe s e cause).resetWaits = s.resetWaits := by simp [fenceOe]

@[simp] theorem haltDawn_resetWaits (s : State) (code : Nat) :
    (haltDawn s code).resetWaits = s.resetWaits := by simp [haltDawn]

@[simp] theorem nextStage_resetWaits (s : State) (k : Nat) :
    (nextStage s k).resetWaits = s.resetWaits := rfl

@[simp] theorem dawnAdvance_resetWaits (s : State) :
    (dawnAdvance s).resetWaits = s.resetWaits := by simp [dawnAdvance]

@[simp] theorem fenceGroup_resetWaits (s : State) (g cause : Nat) :
    (fenceGroup s g cause).resetWaits = s.resetWaits := by simp [fenceGroup]

@[simp] theorem farSideLost_resetWaits (s : State) (g code cause : Nat) :
    (farSideLost s g code cause).resetWaits = s.resetWaits := by simp [farSideLost]

@[simp] theorem tileLost_resetWaits (s : State) (n : Nat) (router slice : Bool) :
    (tileLost s n router slice).resetWaits = s.resetWaits := by simp [tileLost]

theorem execOeHeartbeatLost_resetWaits {s t : State} {e : OeId} {why : Fin 3}
    (h : execOeHeartbeatLost e why s = .next t) : t.resetWaits = s.resetWaits := by
  cases h
  simp

end Sys2Proof.Proofs
end

section
/-!
PROOF. A soft reset written while a block starts or drains waits for `STATE` ON or OFF (R298).
-/
open Sys2Proof Sys2Proof.Machine Sys2Proof.Safety Sys2Proof.Laws
namespace Sys2Proof.Proofs

variable {s : State} {p : PageId}

/-- A value put where the same value stands already changes nothing. -/
theorem SMap.put_put_same {α : Type} (m : SMap α) (i : Nat) (v : α) :
    SMap.put (SMap.put m i v) i v = SMap.put m i v := by
  induction m with
  | nil => simp [SMap.put]
  | cons e m ih =>
    obtain ⟨k, w⟩ := e
    simp only [SMap.put]
    split
    · simp [SMap.put]
    · split
      · simp [SMap.put]
      · next hne hlt => simp [SMap.put, hne, hlt, ih]

/-- The state where a soft reset of page `p` waits. -/
def withWait (s : State) (p : PageId) : State :=
  { s with resetWaits := SMap.put s.resetWaits p.base 1 }

/-- A second soft reset is merged with the one that waits. -/
theorem withWait_withWait (s : State) (p : PageId) : withWait (withWait s p) p = withWait s p := by
  simp only [withWait, SMap.put_put_same]

@[simp] theorem slice_withWait (s : State) (p : PageId) (k : Nat) :
    slice (withWait s p) k = slice s k := rfl

@[simp] theorem tile_withWait (s : State) (p : PageId) (k : Nat) :
    tile (withWait s p) k = tile s k := rfl

@[simp] theorem takesWrite_withWait (s : State) (p q : PageId) (req : Nat) (f : Fld) :
    takesWrite (withWait s p) req q f = takesWrite s req q f := rfl

@[simp] theorem rd_withWait (s : State) (p q : PageId) (f : Fld) :
    rd (withWait s p) q f = rd s q f := rfl

/-- A command that makes a soft reset wait wherever a condition holds that no waiting soft reset
changes: the second one is merged with the first. -/
theorem waits_and_merges {c c' : Instr} {Q : State → Prop}
    (hc : ∀ u, Q u → exec c u = .next (withWait u p))
    (hc' : ∀ u, Q u → exec c' u = .next (withWait u p))
    (hkeep : Q s → Q (withWait s p)) (h : Q s) :
    ∃ t : State, exec c s = .next t ∧
      t = { s with resetWaits := SMap.put s.resetWaits p.base 1 } ∧ exec c' t = .next t :=
  ⟨withWait s p, hc s h, rfl,
    (hc' _ (hkeep h)).trans (congrArg Host.Outcome.next (withWait_withWait s p))⟩

/-! ### The end of a start and of a drain -/

/-- A start ends at ON, where a waiting soft reset takes effect. -/
theorem startDone_of_on (hstate : rd s p HDR_STATE = 1)
    (hon : rd (blockStarted s p (drainBlock p)) p HDR_STATE = 2) (x : ResetIn) :
    startDone s p none x
      = blockGoesOn (pollLaunches (resetWaited (blockStarted s p (drainBlock p)) p x)) p :=
  (if_neg (not_not_intro hstate)).trans (if_pos hon)

/-- An optical engine takes what its start found, and then as every block. -/
theorem startDone_of_oe {y : OeStart} (hkind : p.kind = .oe) (hstate : rd s p HDR_STATE = 1)
    (hon : rd (blockStarted (engineStarted s p.inst y) p (drainBlock p)) p HDR_STATE = 2)
    (x : ResetIn) : startDone s p (some y) x
      = pollLaunches (resetWaited (blockStarted (engineStarted s p.inst y) p (drainBlock p)) p x) := by
  rw [startDone, if_neg (not_not_intro hstate)]
  dsimp only
  rw [if_pos hkind, if_pos hon, blockGoesOn, hkind]

theorem drainDone_of_oe (hkind : p.kind = .oe) (hstate : rd s p HDR_STATE = 3)
    (hdrain : mayDrain s p = true) (x : ResetIn)
    (hpend : rd (resetWaited (lasersOff (wr s p HDR_STATE 0) p.inst) p x) p HDR_PEND_ENABLE ≠ 1) :
    drainDone s p x = resetWaited (lasersOff (wr s p HDR_STATE 0) p.inst) p x := by
  simp [drainDone, hstate, hdrain, hkind, hpend]

/-- A drain ends at OFF, where a waiting soft reset takes effect; then the block starts again where
`PEND_ENABLE` is set. -/
theorem drainDone_of_other (hkind : p.kind ≠ .oe) (hstate : rd s p HDR_STATE = 3)
    (hdrain : mayDrain s p = true) (x : ResetIn) :
    drainDone s p x =
      if rd (resetWaited (wr s p HDR_STATE 0) p x) p HDR_PEND_ENABLE = 1 then
        startBlock p (wr (wr (resetWaited (wr s p HDR_STATE 0) p x) p HDR_PEND_ENABLE 0) p HDR_STATE 1)
      else resetWaited (wr s p HDR_STATE 0) p x := by
  simp [drainDone, hstate, hdrain, hkind]

theorem resetWaited_of_none (h : SMap.find s.resetWaits p.base = none) (x : ResetIn) :
    resetWaited s p x = s := if_pos (by simp [h])

/-- Settles O52: a waiting soft reset is one entry of `resetWaits`, which the end of the start or of
the drain takes out and which no fence touches. -/
theorem softResetWaits : Obligations.SoftResetWaits := by
  refine ⟨?page, ?undefined, ?cmdproc, ?engine, ?engineMode, ?sliceMode, ?mover, ?running, ?started,
    ?drained, ?oe, ?waited, ?tile, ?fences⟩
  case page =>
    intro s req n p y z hw hwait hstate
    have hpage (x : ResetIn) (u : State) (h : takesHdr u req n HDR_SOFT_RESET p = true ∧
        resetMayWait u p = true ∧ (rd u p HDR_STATE = 1 ∨ rd u p HDR_STATE = 3)) :
        exec (.pageSoftReset req n x) u = .next (withWait u p) := by
      obtain ⟨hw, hwait, hstate⟩ := h
      rw [exec_pageSoftReset hw, softReset_of_waiting hwait hstate, withWait]
    exact waits_and_merges (hpage y) (hpage z) id ⟨hw, hwait, hstate⟩
  case undefined =>
    intro s req n p y hw hkind
    rw [exec_pageSoftReset hw, softReset_of_undefined hkind]
  case cmdproc =>
    intro s req d l x hw hstate
    have hcmd (u : State) (h : takesWrite u req (cmdprocP d) HDR_SOFT_RESET = true ∧
        (rd u (cmdprocP d) HDR_STATE = 1 ∨ rd u (cmdprocP d) HDR_STATE = 3)) :
        exec (.cmdprocSoftReset req d l x) u = .next (withWait u (cmdprocP d)) :=
      congrArg Host.Outcome.next
        ((fieldWrite_of_takesWrite h.1 _).trans (cmdprocSoft_of_moving h.2 l x))
    exact waits_and_merges hcmd hcmd id ⟨hw, hstate⟩
  case engine =>
    intro s req k hw hmode hstate
    have hengine (u : State) (h : takesWrite u req (engineP k) HDR_SOFT_RESET = true ∧
        (slice u k).mode = 0 ∧ (rd u (engineP k) HDR_STATE = 1 ∨ rd u (engineP k) HDR_STATE = 3)) :
        exec (.engineSoftReset req k) u = .next (withWait u (engineP k)) := by
      obtain ⟨hw, hmode, hstate⟩ := h
      exact congrArg Host.Outcome.next
        ((fieldWrite_of_takesWrite hw _).trans (engineSoft_of_moving hmode hstate))
    exact waits_and_merges hengine hengine (by simp) ⟨hw, hmode, hstate⟩
  case engineMode =>
    intro s req k hw hmode
    exact congrArg Host.Outcome.next
      ((fieldWrite_of_takesWrite hw _).trans (engineSoft_of_engine hmode))
  case sliceMode =>
    intro s req k e hw hmode
    exact congrArg Host.Outcome.next
      ((fieldWrite_of_takesWrite hw _).trans (sliceSoft_of_engine hmode e))
  case mover =>
    intro s req k hw hrun hstate
    have hmover (u : State) (h : takesWrite u req (moverP k) HDR_SOFT_RESET = true ∧
        (tile u k).runState ≠ 2 ∧
        (rd u (moverP k) HDR_STATE = 1 ∨ rd u (moverP k) HDR_STATE = 3)) :
        exec (.moverSoftReset req k) u = .next (withWait u (moverP k)) := by
      obtain ⟨hw, hrun, hstate⟩ := h
      exact congrArg Host.Outcome.next
        ((fieldWrite_of_takesWrite hw _).trans (moverSoft_of_moving hrun hstate))
    exact waits_and_merges hmover hmover (by simp) ⟨hw, hrun, hstate⟩
  case running =>
    intro s req k hw hrun
    exact congrArg Host.Outcome.next
      ((fieldWrite_of_takesWrite hw _).trans (moverSoft_of_running hrun))
  case started =>
    intro s n p x hpage hkind hplaza hstate hon
    rw [exec_blockStartDone hpage (by simpa using hkind) hplaza, startDone_of_on hstate hon]
  case drained =>
    intro s n p x u hpage hkind hplaza hstate hdrain hu
    rw [exec_blockDrainDone hpage hplaza, drainDone_of_other hkind hstate hdrain, ← hu]
    exact ⟨fun hpend => by rw [if_neg hpend], fun hpend => by rw [if_pos hpend]⟩
  case oe =>
    intro s n p y x hpage hkind hplaza
    refine ⟨fun hstate hon => ?_, fun hstate hdrain hpend => ?_⟩
    · rw [exec_blockStartDone hpage (by simp [hkind]) hplaza, startDone_of_oe hkind hstate hon]
    · rw [exec_blockDrainDone hpage hplaza, drainDone_of_oe hkind hstate hdrain x hpend]
  case waited =>
    intro s p x
    refine ⟨fun h => resetWaited_of_none h x, fun h hkind => ?_, fun h hkind => ?_,
      fun h hkind => ?_⟩ <;>
    rw [resetWaited, if_neg (by simpa [Option.isNone_iff_eq_none] using h)] <;> simp only [hkind]
  case tile =>
    exact fun s req k hw => congrArg Host.Outcome.next (fieldWrite_of_takesWrite hw _)
  case fences =>
    intro s t k e w c hc hexec
    simp only [List.mem_cons, List.not_mem_nil, or_false] at hc
    obtain rfl | rfl | rfl | rfl := hc
    · cases hexec; exact tileLost_resetWaits s k false false
    · cases hexec; exact tileLost_resetWaits s k true false
    · cases hexec; exact tileLost_resetWaits s k false true
    · exact execOeHeartbeatLost_resetWaits hexec

end Sys2Proof.Proofs
end

section
/-!
PROOF. Lost dies and faults of the die-to-die groups (R18, R20, R21, R289): each event finds its
conditions met. Beside them, what every step keeps of the addressed memories.
-/
open Sys2Proof Sys2Proof.Machine Sys2Proof.Safety Sys2Proof.Laws
namespace Sys2Proof.Proofs

/-- Settles O6. -/
theorem stepKeepsMemories : Obligations.StepKeepsMemories := fun _ _ hok h =>
  (step_kept h).mem hok

variable {s : State}

/-! ### The far side of a group is lost (R20, R21) -/

theorem exec_dieHeartbeatLost {d : DieId} (hplaza : plazaUp s = true) (hup : dieUp s d = true) :
    exec (.dieHeartbeatLost d) s = .next (dieLost (wr s (d2dP d) D2D_HB_MISSED 8) d 3 1) :=
  congrArg Host.Outcome.next (if_pos (by simp [hplaza, hup]))

theorem exec_oeHeartbeatLost {e : OeId} (hplaza : plazaUp s = true) (hup : oeUp s e = true)
    (why : Fin 3) : exec (.oeHeartbeatLost e why) s
      = .next (farSideLost (if why.val = 0 then wr s (d2dP (4 + e)) D2D_HB_MISSED 8 else s) (4 + e)
          ([3, 4, 7].getD why 3) 0) :=
  congrArg Host.Outcome.next (if_pos (by simp [hplaza, hup]))

/-- The error code of each way in which an optical engine is lost, but for its heartbeats. -/
theorem oeLostCode_of_ne_zero {why : Fin 3} (h : why ≠ 0) :
    [3, 4, 7].getD why.val 3 = if why = 1 then 4 else 7 := by
  revert why; decide

/-! ### Modules of a group (R18, R19, R289) -/

section
variable {g : GroupId} {m : Fin 24} (hruns : groupRuns s g = true) (hm : m.val < groupModules g)
include hruns hm

theorem exec_d2dFlitCrcError (hon : modState s g m ≠ 2) (flips : List (Nat × Nat)) :
    exec (.d2dFlitCrcError g m flips) s
      = .next (if flips.isEmpty then d2dReplay s g m else d2dUnseen s g m flips) :=
  congrArg Host.Outcome.next (if_pos (by simp [hruns, hm, hon]))

theorem exec_d2dLaneFail (hon : modState s g m ≠ 2) (dir : Bool) (lane : Fin 68) (halfFree : Bool) :
    exec (.d2dLaneFail g m dir lane halfFree) s
      = .next (laneFail s g m (ofBool dir) lane halfFree) :=
  congrArg Host.Outcome.next (if_pos (by simp [hruns, hm, hon]))

theorem exec_d2dModuleRetrained (hretrains : modState s g m = 3) (ok : Bool) :
    exec (.d2dModuleRetrained g m ok) s
      = .next (if ok then flowsGoOn (wr s (d2dP g) D2D_STATE (ofBool (modHalf s g m)) m)
          else disableModule s g m) :=
  congrArg Host.Outcome.next (if_pos (by simp [hruns, hm, hretrains]))

end

/-- Settles O13: each event finds its conditions met. -/
theorem dieFaults : Obligations.DieFaults := by
  refine ⟨?heartbeat, ?reset, ?clock, ?engine, ?engineLost, ?found, ?unseen, ?lane, ?retrained,
    ?failed⟩
  case heartbeat => exact fun s d hplaza hup => exec_dieHeartbeatLost hplaza hup
  case reset => exact fun s d _ _ => rfl
  case clock => exact fun s d _ _ => rfl
  case engine => exact fun s e hplaza hup => exec_oeHeartbeatLost hplaza hup 0
  case engineLost =>
    intro s e w hplaza hup hw
    have hval : w.val ≠ 0 := Fin.val_ne_of_ne hw
    rw [exec_oeHeartbeatLost hplaza hup, if_neg hval, oeLostCode_of_ne_zero hw]
  case found => exact fun s g m hruns hm hon => exec_d2dFlitCrcError hruns hm hon []
  case unseen =>
    intro s g m f hf hruns hm hon
    rw [exec_d2dFlitCrcError hruns hm hon, if_neg (by simpa using hf)]
    rfl
  case lane =>
    exact fun s g m dir lane h hruns hm hon => exec_d2dLaneFail hruns hm hon dir lane h
  case retrained =>
    exact fun s g m hruns hm hstate => exec_d2dModuleRetrained hruns hm hstate true
  case failed =>
    exact fun s g m hruns hm hstate => exec_d2dModuleRetrained hruns hm hstate false

end Sys2Proof.Proofs
end

section
/-!
SUPPORT. What comes about in a cycle of a tile leaves the count of cycles, the reads of a retry and the
entries that are not yet due as they are, and reads of SRAM change no register (R67, R95, R106).
-/
open Sys2Proof Sys2Proof.Machine Sys2Proof.Safety Sys2Proof.Laws
namespace Sys2Proof.Proofs

variable {t u : Tile}

/-! ### One entry of the agenda (R67) -/

/-- A line on its way to an outbound queue. -/
def isPush : Act → Bool
  | .push _ _ _ => true
  | _ => false

/-- The cycle, the reads of a retry, and every entry of the agenda stand; entries that are added are
lines on their way to an outbound queue. -/
structure AddsPushes (t u : Tile) : Prop where
  cyc : u.cyc = t.cyc
  retry : u.retry = t.retry
  agenda : ∃ l : List Pend, u.agenda = t.agenda ++ l ∧ ∀ p ∈ l, isPush p.act = true

namespace AddsPushes

theorem of_eq (hcyc : u.cyc = t.cyc) (hretry : u.retry = t.retry) (hagenda : u.agenda = t.agenda) :
    AddsPushes t u :=
  ⟨hcyc, hretry, [], by rw [hagenda, List.append_nil], by simp⟩

theorem refl (t : Tile) : AddsPushes t t := of_eq rfl rfl rfl

theorem trans {x : Tile} (h : AddsPushes t u) (k : AddsPushes u x) : AddsPushes t x := by
  obtain ⟨l, hl, hpush⟩ := h.agenda
  obtain ⟨l', hl', hpush'⟩ := k.agenda
  refine ⟨k.cyc.trans h.cyc, k.retry.trans h.retry, l ++ l', ?_, fun p hp => ?_⟩
  · rw [hl', hl, List.append_assoc]
  · exact (List.mem_append.mp hp).elim (hpush p) (hpush' p)

theorem setS (t : Tile) (n : Nat) (w : Word) : AddsPushes t (t.setS n w) := by
  unfold Tile.setS
  split <;> exact of_eq rfl rfl rfl

theorem setP (t : Tile) (n mask bits : Nat) : AddsPushes t (t.setP n mask bits) := by
  unfold Tile.setP
  split <;> exact of_eq rfl rfl rfl

theorem doRow (t : Tile) (id i : Nat) : AddsPushes t (doRow t id i) := by
  unfold Machine.doRow
  split
  · exact refl t
  · dsimp only
    split <;> exact of_eq rfl rfl rfl

theorem acceptCmd (t : Tile) (c : Nat) (m : MCmd) : AddsPushes t (acceptCmd t c m) := by
  unfold Machine.acceptCmd
  dsimp only
  split <;> exact of_eq rfl rfl rfl

/-- Only SM.STOQ adds an entry: the line that it has read. -/
theorem doAct (t : Tile) (p : Pend) : AddsPushes t (doAct t p) := by
  obtain ⟨due, b, slot, act⟩ := p
  cases act with
  | p n mask bits => exact setP t n mask bits
  | s n w => exact setS t n w
  | row run i => exact doRow t run i
  | accept c m => exact acceptCmd t c m
  | stoq o a => exact ⟨rfl, rfl, _, rfl, by simp [isPush]⟩
  | _ => exact of_eq rfl rfl rfl

theorem foldl_doAct (t : Tile) (ps : List Pend) : AddsPushes t (ps.foldl Machine.doAct t) := by
  induction ps generalizing t with
  | nil => exact refl t
  | cons p ps ih => exact (doAct t p).trans (ih _)

end AddsPushes

/-! ### A cycle (R95, R106) -/

theorem comeAbout_addsPushes (t : Tile) (f : Pend → Bool) :
    AddsPushes { t with agenda := t.agenda.filter (fun p => !f p) } (comeAbout t f) :=
  .foldl_doAct _ _

theorem mem_agenda_comeAbout {f : Pend → Bool} {p : Pend} (hp : p ∈ t.agenda) (hf : f p = false) :
    p ∈ (comeAbout t f).agenda := by
  obtain ⟨l, hl, -⟩ := (comeAbout_addsPushes t f).agenda
  rw [hl]
  exact List.mem_append_left _ (List.mem_filter.mpr ⟨hp, by simp [hf]⟩)

@[simp] theorem startCycle_cyc (t : Tile) : (startCycle t).cyc = t.cyc := (comeAbout_addsPushes t _).cyc

@[simp] theorem startCycle_retry (t : Tile) : (startCycle t).retry = t.retry :=
  (comeAbout_addsPushes t _).retry

@[simp] theorem nextCycle_cyc (t : Tile) (duty : Nat) : (nextCycle t duty).cyc = t.cyc + 1 := rfl

@[simp] theorem nextCycle_retry (t : Tile) (duty : Nat) : (nextCycle t duty).retry = t.retry :=
  (comeAbout_addsPushes t _).retry

/-- An entry that is due in a later cycle is still on the agenda in the next one. -/
theorem mem_agenda_nextCycle {p : Pend} (hp : p ∈ t.agenda) (hdue : t.cyc < p.due) (duty : Nat) :
    p ∈ (nextCycle t duty).agenda :=
  mem_agenda_comeAbout hp (by simp [hdue])

/-! ### Registers, accumulators and SRAM -/

theorem sameStores_refl (t : Tile) : sameStores t t := ⟨rfl, rfl, rfl, rfl, rfl, rfl⟩

theorem sameStores_trans {x : Tile} (h : sameStores t u) (k : sameStores u x) : sameStores t x := by
  obtain ⟨hdata, hcode, hv, hs, hp, hacc⟩ := h
  obtain ⟨kdata, kcode, kv, ks, kp, kacc⟩ := k
  exact ⟨hdata.trans kdata, hcode.trans kcode, hv.trans kv, hs.trans ks, hp.trans kp,
    hacc.trans kacc⟩

/-- A read of SRAM, and a line that reaches an outbound queue, change no store of the tile. -/
theorem sameStores_doAct {p : Pend} (h : p.act.isRead = true ∨ isPush p.act = true) :
    sameStores (doAct t p) t := by
  obtain ⟨due, b, slot, act⟩ := p
  cases act with
  | act run k a => exact sameStores_refl t
  | ldw a => exact sameStores_refl t
  | vldRead id k a => exact sameStores_refl t
  | stoq o a => exact sameStores_refl t
  | push o bytes from' => exact sameStores_refl t
  | _ => simp [Act.isRead, isPush] at h

theorem sameStores_foldl_doAct {ps : List Pend}
    (h : ∀ p ∈ ps, p.act.isRead = true ∨ isPush p.act = true) :
    sameStores (ps.foldl doAct t) t := by
  induction ps generalizing t with
  | nil => exact sameStores_refl t
  | cons p ps ih =>
    exact sameStores_trans (ih fun q hq => h q (List.mem_cons_of_mem _ hq))
      (sameStores_doAct (h p List.mem_cons_self))

/-- Where only reads of SRAM and lines on their way come about, every store of the tile stands. -/
theorem sameStores_comeAbout {f : Pend → Bool}
    (h : ∀ p ∈ t.agenda, f p = true → p.act.isRead = true ∨ isPush p.act = true) :
    sameStores (comeAbout t f) t := by
  have hfold : sameStores (comeAbout t f) { t with agenda := t.agenda.filter (fun p => !f p) } :=
    sameStores_foldl_doAct fun p hp => h p (List.mem_filter.mp hp).1 (List.mem_filter.mp hp).2
  exact hfold

theorem sameStores_endCycle (h : ∀ p ∈ t.agenda, p.due ≤ t.cyc → p.act.isRow = false →
    p.act.isRead = true ∨ isPush p.act = true) : sameStores (endCycle t) t := by
  unfold endCycle
  refine sameStores_comeAbout fun p hp hnow => ?_
  simp only [Bool.and_eq_true, decide_eq_true_eq, Bool.not_eq_true'] at hnow
  exact h p hp hnow.1 hnow.2

/-- What the start of a cycle leaves on the agenda is due later, or is an array row, a read of the
cycle, or a line on its way. -/
theorem agenda_startCycle {p : Pend} (hp : p ∈ (startCycle t).agenda) :
    t.cyc < p.due ∨ p.act.isRow = true ∨ p.act.isRead = true ∨ isPush p.act = true := by
  obtain ⟨l, hl, hpush⟩ := (comeAbout_addsPushes t
    (fun p => p.due < t.cyc || (p.due == t.cyc && !p.act.isRow && !p.act.isRead))).agenda
  rw [startCycle, hl, List.mem_append, List.mem_filter] at hp
  obtain ⟨-, hlate⟩ | hadded := hp
  · simp only [Bool.not_eq_true', Bool.or_eq_false_iff, Bool.and_eq_false_imp, Bool.and_eq_true,
      decide_eq_false_iff_not, beq_iff_eq, Bool.not_eq_false'] at hlate
    obtain ⟨hnotPast, hnow⟩ := hlate
    by_cases hdue : p.due = t.cyc
    · cases hrow : p.act.isRow with
      | true => exact .inr (.inl rfl)
      | false => exact .inr (.inr (.inl (hnow ⟨hdue, hrow⟩)))
    · exact .inl (by omega)
  · exact .inr (.inr (.inr (hpush p hadded)))

/-- The fetch moves on (R87, R88): what the tile stores and has in flight is no part of it. -/
theorem flow_eq (t : Tile) (b : Nat) : ∃ loops pc doneLoops delay redirect pendLoop,
    flow t b = { t with
      loops := loops, pc := pc, doneLoops := doneLoops, delay := delay, redirect := redirect,
      pendLoop := pendLoop } := by
  unfold flow
  dsimp only
  split
  · exact ⟨_, _, _, _, _, _, rfl⟩
  · split <;> exact ⟨_, _, _, _, _, _, rfl⟩

end Sys2Proof.Proofs
end

section
/-!
PROOF. The commands of one slot instruction (R63, R64, R71, R73, R76, R84, R86, R90, R91, R95, R368): a
bundle that holds it alone issues where its checks pass, and takes the trap of an illegal encoding; what a
VX instruction and a scalar instruction book.
-/
open Sys2Proof Sys2Proof.Machine Sys2Proof.Safety Sys2Proof.Laws
namespace Sys2Proof.Proofs

variable {s : State} {n : Nat} {i : Bundle}

/-! ### A bundle that issues (R95, R97, R108) -/

theorem badHits_eq_nil_of_isEmpty_cons {t : Tile} {r : LineRead} {rs : List LineRead}
    (h : (badHits t (r :: rs)).isEmpty = true) : badHits t [r] = [] ∧ badHits t rs = [] := by
  have happend : badHits t (r :: rs) = badHits t [r] ++ badHits t rs := by
    rw [badHits, badHits, badHits, ← List.filterMap_append, List.singleton_append]
  rw [List.isEmpty_iff, happend, List.append_eq_nil_iff] at h
  exact h

/-- Where no check of the bundle traps or waits, it issues. -/
theorem tryIssue_of_wouldIssue {t : Tile} {b : Nat} (h : wouldIssue t n b i = true) (duty : Nat) :
    tryIssue t n b duty i false = issueNow t n b duty i (checkBundle t n b i) := by
  simp only [wouldIssue, Bool.and_eq_true] at h
  obtain ⟨htraps, hwaits⟩ := h
  simp [tryIssue, htraps, hwaits]

/-- A bundle that issues behind no read of a retry leaves none. -/
theorem withRetry_of_no_hits {r : Tile × List Eff} (hretry : r.1.retry = []) (tid : Nat)
    (par : List ParHit) : withRetry r tid [] par = r := by
  obtain ⟨t, effs⟩ := r
  have hsame : ({ t with retry := [] } : Tile) = t := by rw [← hretry]
  simp [withRetry, hsame]

theorem ldwStart_retry (t : Tile) (f : LdwF) : (ldwStart t f).retry = t.retry := rfl

theorem runStart_retry (t : Tile) (swap add : Bool) (bank m vs afmt r0 win src : Nat) :
    (runStart t swap add bank m vs afmt r0 win src).retry = t.retry := by
  have hswap : (swapBlocks t swap).retry = t.retry := by
    unfold swapBlocks; split <;> rfl
  unfold runStart
  dsimp only
  split <;> exact hswap

theorem mxStart_retry (t : Tile) (i : Mx) : (mxStart t i).retry = t.retry := by
  cases i <;> simp [mxStart, runStart_retry, ldwStart_retry]

theorem smStart_retry (t : Tile) (i : Sm) : (smStart t i).retry = t.retry := by
  cases i <;> rfl

theorem nxStart_retry (t : Tile) (i : Nx) : (nxStart t i).retry = t.retry := by
  cases i with
  | send o r k csrc sc =>
    simp only [nxStart]
    generalize (if csrc then (t.sreg sc).toNat else k) = m
    cases t.route r with
    | none => rfl
    | some rt => dsimp only; split <;> rfl
  | sig r =>
    simp only [nxStart]
    cases t.route r <;> rfl
  | _ => rfl

theorem ctStart_retry (t : Tile) (b : Nat) (i : Ct) : (ctStart t b i).retry = t.retry := by
  cases i <;> rfl

@[simp] theorem flow_retry (t : Tile) (b : Nat) : (flow t b).retry = t.retry := by
  obtain ⟨_, _, _, _, _, _, h⟩ := flow_eq t b
  rw [h]

theorem issueNow_retry (t : Tile) (b duty : Nat) (c : Checked) :
    (issueNow t n b duty i c).1.retry = t.retry := by
  change (nextCycle (flow _ b) duty).retry = _
  rw [nextCycle_retry, flow_retry]
  change (ctStart _ b i.ct).retry = _
  rw [ctStart_retry, nxStart_retry, smStart_retry, mxStart_retry]

/-- What `issues` says, part by part. -/
theorem issues_iff : issues s n i = true ↔
    (tile s n).ready = true ∧ (tile s n).hold = none ∧ (tile s n).fetchEnd = false ∧
    (startCycle (tile s n)).pc < (startCycle (tile s n)).bundles ∧
    wouldIssue (startCycle (tile s n)) n (startCycle (tile s n)).pc i = true ∧
    (badHits (startCycle (tile s n)) (fetchRead (startCycle (tile s n)).pc ::
      cycleReads (tile s n) n (startCycle (tile s n)).pc i)).isEmpty = true := by
  simp [issues, and_assoc]

theorem retry_of_ready {t : Tile} (h : t.ready = true) : t.retry = [] := by
  simp only [Tile.ready, Bool.and_eq_true, List.isEmpty_iff] at h
  exact h.1.2

/-- The command of one instruction issues the bundle that holds it alone (log entry 11). -/
theorem slotIssue_of_issues (h : issues s n i = true) : slotIssue s n i = issued s n i := by
  obtain ⟨hready, hhold, hfetch, hpc, hwould, hbad⟩ := issues_iff.mp h
  obtain ⟨hline, hreads⟩ := badHits_eq_nil_of_isEmpty_cons hbad
  simp [slotIssue, hready, hhold, hfetch, bundleCycle, Nat.not_le.mpr hpc, fetchHits, readHits, hline, hreads,
    issued, issuedTile, tryIssue_of_wouldIssue hwould, withRetry_of_no_hits, issueNow_retry,
    retry_of_ready hready]

/-! ### A bundle that traps (R64, R90, R91) -/

theorem fetchesNow_iff : fetchesNow s n = true ↔
    (tile s n).ready = true ∧ (tile s n).hold = none ∧ (tile s n).fetchEnd = false ∧
    (startCycle (tile s n)).pc < (startCycle (tile s n)).bundles ∧
    fetchTraps (startCycle (tile s n)) (startCycle (tile s n)).pc = [] := by
  simp [fetchesNow, and_assoc]

/-- A trap makes no retry (R91). -/
theorem withRetry_takeTrap (t : Tile) (b : Nat) (traps : List (Nat × Nat)) (tid : Nat)
    (hits par : List ParHit) :
    withRetry (takeTrap t b traps, []) tid hits par = (takeTrap t b traps, []) := rfl

/-- A bundle whose checks find one trap takes it. -/
theorem slotIssue_of_trap {code slots : Nat} (h : fetchesNow s n = true)
    (htraps : ∀ t : Tile, (checkBundle t n t.pc i).traps = [(code, slots)]) :
    slotIssue s n i = trapTaken s n code slots := by
  obtain ⟨hready, hhold, hfetch, hpc, hclean⟩ := fetchesNow_iff.mp h
  have htaken (duty : Nat) : tryIssue (startCycle (tile s n)) n (startCycle (tile s n)).pc duty i false
      = (takeTrap (startCycle (tile s n)) (startCycle (tile s n)).pc [(code, slots)], []) := by
    simp [tryIssue, htraps, hclean]
  simp [slotIssue, hready, hhold, hfetch, bundleCycle, Nat.not_le.mpr hpc, wouldTrap, htraps, htaken,
    withRetry_takeTrap, applyTile, trapTaken]

theorem slotIssue_illegalCt (h : fetchesNow s n = true) :
    slotIssue s n { ct := .illegal } = trapTaken s n 0x10 16 := slotIssue_of_trap h fun _ => rfl

theorem slotIssue_trapCt (h : fetchesNow s n = true) (code : Nat) :
    slotIssue s n { ct := .trap code } = trapTaken s n code 16 := slotIssue_of_trap h fun _ => rfl

/-! ### Fields wider than the instruction's (R76, R77) -/

theorem sramAddr_mod (sb : Word) (loff : Nat) : sramAddr sb (loff % 2 ^ 15) = sramAddr sb loff := by
  unfold sramAddr; omega

/-- Two instructions of the SM slot that do the same: they plan, wait, pop and return the same. -/
structure SameSm (a b : Sm) : Prop where
  plan : ∀ t, smPlan t a = smPlan t b
  wait : ∀ t n, smWait t n a = smWait t n b
  reads : ∀ t k, issueReads t k { sm := a } = issueReads t k { sm := b }
  start : ∀ t, smStart t a = smStart t b
  credits : ∀ t n, smCredits t n a = smCredits t n b

namespace SameSm

variable {a b : Sm}

theorem check (h : SameSm a b) (t : Tile) (k : Nat) :
    checkBundle t n k { sm := a } = checkBundle t n k { sm := b } := by
  simp only [checkBundle, h.plan, h.wait]

theorem issues_eq (h : SameSm a b) : issues s n { sm := a } = issues s n { sm := b } := by
  simp only [issues, wouldIssue, cycleReads, h.check, h.reads]

theorem issued_eq (h : SameSm a b) : issued s n { sm := a } = issued s n { sm := b } := by
  simp only [issued, issuedTile, issueNow, h.check, h.start, h.credits]

/-- The command that issues the one does what the other does. -/
theorem slotIssue (h : SameSm a b) (hissues : issues s n { sm := b } = true) :
    slotIssue s n { sm := a } = issued s n { sm := b } :=
  (slotIssue_of_issues (h.issues_eq.trans hissues)).trans h.issued_eq

variable (loff : Nat)

theorem vld (vd sb pmask lmask : Nat) :
    SameSm (.vld vd sb (loff % 2 ^ 15) pmask lmask) (.vld vd sb loff pmask lmask) :=
  ⟨fun _ => by simp only [smPlan, vldPlan, sramAddr_mod], fun _ _ => rfl, fun _ _ => rfl,
    fun _ => rfl, fun _ _ => rfl⟩

theorem vst (va sb pmask lmask : Nat) :
    SameSm (.vst va sb (loff % 2 ^ 15) pmask lmask) (.vst va sb loff pmask lmask) :=
  ⟨fun _ => by simp only [smPlan, vstPlan, sramAddr_mod], fun _ _ => rfl, fun _ _ => rfl,
    fun _ => rfl, fun _ _ => rfl⟩

theorem qtos (k q port sb : Nat) :
    SameSm (.qtos k q port sb (loff % 2 ^ 15)) (.qtos k q port sb loff) :=
  ⟨fun _ => by simp only [smPlan, qtosPlan, sramAddr_mod], fun _ _ => rfl, fun _ _ => rfl,
    fun _ => rfl, fun _ _ => rfl⟩

theorem stoq (k o port sb : Nat) :
    SameSm (.stoq k o port sb (loff % 2 ^ 15)) (.stoq k o port sb loff) :=
  ⟨fun _ => by simp only [smPlan, stoqPlan, sramAddr_mod], fun _ _ => rfl, fun _ _ => rfl,
    fun _ => rfl, fun _ _ => rfl⟩

end SameSm

/-- The fields of SM.CH fit where its command is well formed (R79). -/
theorem chFields_of_ok {f : ChF} (h : f.ok = true) :
    ({ f with ch := f.ch % 8, port := f.port % 4 } : ChF) = f := by
  simp only [ChF.ok, fitsIn, Bool.and_eq_true, decide_eq_true_eq] at h
  have hch : f.ch % 8 = f.ch := Nat.mod_eq_of_lt (by omega)
  have hport : f.port % 4 = f.port := Nat.mod_eq_of_lt (by omega)
  rw [hch, hport]

/-- A command that issues its instruction alone leaves the package as `issued` says. -/
theorem exec_slot {c : Instr} (hexec : exec c s = .next (slotIssue s n i))
    (h : issues s n i = true) : exec c s = .next (issued s n i) :=
  hexec.trans (congrArg Host.Outcome.next (slotIssue_of_issues h))

/-- A function of CT.ALU that R86 gives. -/
theorem exec_ctAlu {f : Fin 16} (hf : f.val ≤ 12) (t : TileId) (d a b : Fin 32) :
    exec (.ctAlu t d a b f) s = .next (slotIssue s t { ct := .alu d a b f }) := by
  change Host.Outcome.next (slotIssue s t { ct := if f.val > 12 then .illegal else .alu d a b f }) = _
  rw [if_neg (Nat.not_lt.mpr hf)]

/-- Settles O15: every command issues the bundle that holds its instruction, or a bundle that does the
same; an encoding that the specification reserves is an illegal one. -/
theorem slotCommandsIssue : Obligations.SlotCommandsIssue := by
  refine ⟨?ldw, ?run, ?win, ?vld, ?vst, ?qtov, ?vtoq, ?qtos, ?stoq, ?ch, ?fence, ?send, ?sig, ?wait,
    ?coll, ?hevt, ?li, ?alu, ?addi, ?loop, ?rdl, ?br, ?phase, ?done, ?trap, ?trapReserved,
    ?aluReserved, ?brReserved⟩
  case ldw => exact fun s t f h => exec_slot rfl h
  case qtov => exact fun s t v q m h => exec_slot rfl h
  case vtoq => exact fun s t v o m h => exec_slot rfl h
  case fence => exact fun s t m h => exec_slot rfl h
  case sig => exact fun s t r h => exec_slot rfl h
  case wait => exact fun s t e b h => exec_slot rfl h
  case coll => exact fun s t n e a h => exec_slot rfl h
  case hevt => exact fun s t e h => exec_slot rfl h
  case li => exact fun s t d i hi h => exec_slot rfl h
  case addi => exact fun s t d a i h => exec_slot rfl h
  case loop => exact fun s t l c e h => exec_slot rfl h
  case rdl => exact fun s t d l h => exec_slot rfl h
  case phase => exact fun s t k l h => exec_slot rfl h
  case done => exact fun s t h => exec_slot rfl h
  case run =>
    intro s t f hf h
    simp only [RunF.ok, Bool.and_eq_true, decide_eq_true_eq] at hf
    exact exec_slot (if_neg (by simp; omega)) h
  case win =>
    intro s t f hf h
    simp only [WinF.ok, Bool.and_eq_true, decide_eq_true_eq] at hf
    exact exec_slot (if_neg (by simp; omega)) h
  case vld => exact fun s t v b l p m h => congrArg Host.Outcome.next ((SameSm.vld l _ _ _ _).slotIssue h)
  case vst => exact fun s t v b l p m h => congrArg Host.Outcome.next ((SameSm.vst l _ _ _ _).slotIssue h)
  case qtos =>
    intro s t n q p b l hpos hle h
    exact (if_neg (by simp; omega)).trans
      (congrArg Host.Outcome.next ((SameSm.qtos l _ _ _ _).slotIssue h))
  case stoq =>
    intro s t n o p b l hpos hle h
    exact (if_neg (by simp; omega)).trans
      (congrArg Host.Outcome.next ((SameSm.stoq l _ _ _ _).slotIssue h))
  case ch =>
    intro s t f hf h
    refine exec_slot ?_ h
    conv => rhs; rw [← chFields_of_ok hf]
    rfl
  case send =>
    intro s t o r n cs sc hpos hle h
    exact exec_slot (if_neg (by simp; omega)) h
  case alu => exact fun s t d a b f hf h => exec_slot (exec_ctAlu hf t d a b) h
  case br =>
    intro s t a b k x hk h
    refine exec_slot ?_ h
    change Host.Outcome.next (slotIssue s t { ct := if k.val = 7 then .illegal else .br a b k x }) = _
    rw [if_neg hk]
  case trap =>
    intro s t k hk h
    change Host.Outcome.next (slotIssue s t { ct := if k.val < 0x80 then .illegal else .trap k }) = _
    rw [if_neg (by omega), slotIssue_trapCt h]
  case trapReserved =>
    intro s t k hk h
    change Host.Outcome.next (slotIssue s t { ct := if k.val < 0x80 then .illegal else .trap k }) = _
    rw [if_pos hk, slotIssue_illegalCt h]
  case aluReserved =>
    intro s t d a b f hf h
    change Host.Outcome.next (slotIssue s t { ct := if f.val > 12 then .illegal else .alu d a b f }) = _
    rw [if_pos hf, slotIssue_illegalCt h]
  case brReserved =>
    intro s t a b k x hk h
    change Host.Outcome.next (slotIssue s t { ct := if k.val = 7 then .illegal else .br a b k x }) = _
    rw [if_pos hk, slotIssue_illegalCt h]

/-! ### The VX slot (R73, R368) -/

theorem exec_vxInstr (s : State) (o : VxOpc) (t : TileId) (f : VxF) :
    exec (vxInstr o t f) s = .next (slotIssue s t { vx := .op o f }) := by
  cases o <;> rfl

theorem checkBundle_traps_of_illegal_vx {o : VxOpc} {f : VxF} (h : vxLegal o f = false) (t : Tile)
    (b : Nat) : (checkBundle t n b { vx := .op o f }).traps = [(0x10, 2)] := by
  have hplan : vxPlan t (.op o f) = { traps := [trapIllegal] } := by simp [vxPlan, h]
  simp only [checkBundle, hplan]
  rfl

/-- Settles O16: the opcode's command issues the bundle that holds its instruction alone; fields that
the opcode does not let hold are an illegal encoding. -/
theorem vectorCommandsIssue : Obligations.VectorCommandsIssue := by
  refine ⟨fun s o t f h => exec_slot (exec_vxInstr s o t f) h, fun s o t f hf h => ?_⟩
  rw [exec_vxInstr, slotIssue_of_trap h fun _ => checkBundle_traps_of_illegal_vx hf _ _]

end Sys2Proof.Proofs
end

section
/-!
PROOF. What an issued VX instruction and an issued scalar instruction leave for later cycles (R67, R73,
R74, R86): their results are booked, and a VX instruction writes nothing as it issues.
-/
open Sys2Proof Sys2Proof.Machine Sys2Proof.Safety Sys2Proof.Laws
namespace Sys2Proof.Proofs

variable {s : State} {n : Nat} {i : Bundle} {t : Tile} {p : Pend}

/-! ### A bundle that only books results (R67) -/

/-- The bundle does nothing at once: all that it does is booked for later cycles. -/
structure StartsNothing (i : Bundle) : Prop where
  start : ∀ (t : Tile) (b : Nat), ctStart (nxStart (smStart (mxStart t i.mx) i.sm) i.nx) b i.ct = t
  credits : ∀ (t : Tile) (n : Nat), smCredits t n i.sm = []
  nx : ∀ t : Tile, nxEffects t i.nx = []
  ct : ctEffects i.ct = []

theorem startsNothing_vx (v : Vx) : StartsNothing { vx := v } :=
  ⟨fun _ _ => rfl, fun _ _ => rfl, fun _ => rfl, rfl⟩

/-- The tile with the results of bundle `b` booked. -/
def booked (t : Tile) (b : Nat) (c : Checked) : Tile :=
  { t with
    agenda := t.agenda ++ pends b 0 c.mx ++ pends b 1 c.vx ++ pends b 2 c.sm ++ pends b 4 c.ct,
    resv := t.resv.filter (fun u => u.1 > t.cyc) ++ c.mx.mem ++ c.sm.mem,
    lands := t.lands.filter (fun l => l.cycle > t.cyc) ++ c.vx.lands ++ c.sm.lands ++ c.ct.lands,
    nextId := t.nextId + 2, nextSeq := t.nextSeq + 2, hold := none }

theorem issueNow_of_startsNothing (h : StartsNothing i) (t : Tile) (b duty : Nat) (c : Checked) :
    issueNow t n b duty i c = ((nextCycle (flow (booked t b c) b) duty).countRun, []) := by
  simp only [issueNow, h.start, h.credits, h.nx, h.ct, booked, List.map_nil, List.append_nil]

@[simp] theorem flow_cyc (t : Tile) (b : Nat) : (flow t b).cyc = t.cyc := by
  obtain ⟨_, _, _, _, _, _, h⟩ := flow_eq t b
  rw [h]

@[simp] theorem flow_agenda (t : Tile) (b : Nat) : (flow t b).agenda = t.agenda := by
  obtain ⟨_, _, _, _, _, _, h⟩ := flow_eq t b
  rw [h]

theorem sameStores_flow (t : Tile) (b : Nat) : sameStores (flow t b) t := by
  obtain ⟨_, _, _, _, _, _, h⟩ := flow_eq t b
  rw [h]
  exact sameStores_refl t

/-- The tile at the start of its present cycle, with the results of the bundle booked. -/
def bookedNow (s : State) (n : Nat) (i : Bundle) : Tile :=
  let u := startCycle (tile s n)
  flow (booked u u.pc (checkBundle u n u.pc i)) u.pc

theorem tile_issued_of_startsNothing (h : StartsNothing i) (s : State) (n : Nat) :
    tile (issued s n i) n = (nextCycle (bookedNow s n i) (tileDuty s n)).countRun := by
  rw [issued, issuedTile, issueNow_of_startsNothing h, applyTile, List.foldl_nil, tile_setTile,
    if_pos rfl]
  rfl

theorem bookedNow_cyc : (bookedNow s n i).cyc = (tile s n).cyc :=
  (flow_cyc _ _).trans (startCycle_cyc _)

theorem bookedNow_agenda : (bookedNow s n i).agenda = (startCycle (tile s n)).agenda
    ++ pends (startCycle (tile s n)).pc 0 (mxPlan (startCycle (tile s n)) i.mx)
    ++ pends (startCycle (tile s n)).pc 1 (vxPlan (startCycle (tile s n)) i.vx)
    ++ pends (startCycle (tile s n)).pc 2 (smPlan (startCycle (tile s n)) i.sm)
    ++ pends (startCycle (tile s n)).pc 4
        (ctPlan (startCycle (tile s n)) (startCycle (tile s n)).pc i.ct) :=
  flow_agenda _ _

/-- A result that is booked for a later cycle is on the agenda when the cycle of its issue has ended. -/
theorem mem_agenda_issued (h : StartsNothing i) (hp : p ∈ (bookedNow s n i).agenda)
    (hdue : (tile s n).cyc < p.due) : p ∈ (tile (issued s n i) n).agenda := by
  rw [tile_issued_of_startsNothing h]
  exact mem_agenda_nextCycle hp (by rwa [bookedNow_cyc]) (tileDuty s n)

theorem mem_pends {b slot : Nat} {q : Plan} {a : Nat × Act} (ha : a ∈ q.acts) :
    (⟨a.1, b, slot, a.2⟩ : Pend) ∈ pends b slot q :=
  List.mem_map.mpr ⟨a, ha, rfl⟩

/-! ### The VX slot (R73, R74) -/

theorem vxLatency_pos (o : VxOpc) : 0 < vxLatency o := by
  cases o <;> decide

/-- Every result of the plan is due in a later cycle. -/
def ActsLater (t : Tile) (q : Plan) : Prop := ∀ a ∈ q.acts, t.cyc < a.1

theorem actsLater_planV {lat : Nat} (h : 0 < lat) (vd g : Nat) (lanes : List Nat) (flags : FFlags) :
    ActsLater t (planV t lat vd g lanes flags) := by
  simp [ActsLater, planV, h]

theorem actsLater_planP (pd g bits : Nat) : ActsLater t (planP t pd g bits) := by
  simp [ActsLater, planP]

theorem actsLater_planPart {lat : Nat} (h : 0 < lat) (vd lo k v : Nat) (flags : FFlags) :
    ActsLater t (planPart t lat vd lo k v flags) := by
  simp [ActsLater, planPart, h]

theorem actsLater_planCvt (f : VxF) (g : Nat) : ActsLater t (planCvt t f g) := by
  unfold planCvt
  dsimp only
  split
  · exact actsLater_planV (by decide) _ _ _ _
  · exact actsLater_planPart (by decide) _ _ _ _ _

theorem actsLater_planCvtmx (f : VxF) : ActsLater t (planCvtmx t f) := by
  intro a ha
  exact (List.mem_append.mp ha).elim (actsLater_planPart (by decide) _ _ _ _ _ a)
    (actsLater_planPart (by decide) _ _ _ _ _ a)

theorem actsLater_planAcrd (f : VxF) (g : Nat) : ActsLater t (planAcrd t f g) := by
  unfold planAcrd
  dsimp only
  split
  · simp [ActsLater]
  · exact actsLater_planV (by decide) _ _ _ _

theorem actsLater_planAcwr (f : VxF) : ActsLater t (planAcwr t f) := by
  unfold planAcwr
  dsimp only
  split <;> simp [ActsLater]

/-- No VX instruction has a result in the cycle in which it issues (R74). -/
theorem actsLater_vxResult (t : Tile) (o : VxOpc) (f : VxF) : ActsLater t (vxResult t o f) := by
  have hlat := vxLatency_pos o
  cases o
  case cmp | plog => exact actsLater_planP _ _ _
  case ext => simp [ActsLater, vxResult, hlat]
  case cvt => exact actsLater_planCvt _ _
  case cvtmx => exact actsLater_planCvtmx _
  case acrd => exact actsLater_planAcrd _ _
  case acwr => exact actsLater_planAcwr _
  all_goals exact actsLater_planV hlat _ _ _ _

theorem actsLater_vxPlan (t : Tile) (v : Vx) : ActsLater t (vxPlan t v) := by
  unfold vxPlan
  split
  case h_1 | h_2 => simp [ActsLater]
  case h_3 o f =>
    split
    · simp [ActsLater]
    · split
      · simp [ActsLater]
      · exact actsLater_vxResult t o f

theorem sameStores_countRun_nextCycle (t : Tile) (duty : Nat) :
    sameStores (nextCycle t duty).countRun (endCycle t) := ⟨rfl, rfl, rfl, rfl, rfl, rfl⟩

/-- The end of the cycle reads SRAM and moves lines; what a VX instruction has booked comes about in
later cycles. -/
theorem sameStores_endCycle_bookedNow (v : Vx) :
    sameStores (endCycle (bookedNow s n { vx := v })) (startCycle (tile s n)) := by
  refine sameStores_trans (sameStores_endCycle fun p hmem hdue hrow => ?_) (sameStores_flow _ _)
  rw [bookedNow_cyc] at hdue
  rw [bookedNow_agenda] at hmem
  simp only [mxPlan, smPlan, ctPlan, ctBad, pends, List.map_nil, List.append_nil, List.mem_append,
    List.mem_map, Bool.false_eq_true, if_false] at hmem
  obtain hearlier | ⟨a, ha, rfl⟩ := hmem
  · obtain hlater | hisRow | hharmless := agenda_startCycle hearlier
    · omega
    · simp [hrow] at hisRow
    · exact hharmless
  · have hlater := actsLater_vxPlan _ v a ha
    rw [startCycle_cyc] at hlater
    exact absurd hdue (Nat.not_le.mpr hlater)

/-- Settles O38: at the end of the cycle no result of the instruction is due yet. -/
theorem vectorResultsAreBooked : Obligations.VectorResultsAreBooked := by
  intro o k f s h
  refine ⟨issued s k { vx := .op o f }, exec_slot (exec_vxInstr s o k f) h, ?_, ?_, fun a ha => ?_⟩
  · rw [tile_issued_of_startsNothing (startsNothing_vx _)]
    exact sameStores_trans (sameStores_countRun_nextCycle _ _) (sameStores_endCycle_bookedNow _)
  · rw [tile_issued_of_startsNothing (startsNothing_vx _)]
    exact congrArg (· + 1) bookedNow_cyc
  · have hlater : (tile s k).cyc < a.1 := by
      simpa only [startCycle_cyc] using actsLater_vxPlan _ _ a ha
    refine ⟨hlater, mem_agenda_issued (startsNothing_vx _) ?_ hlater⟩
    rw [bookedNow_agenda]
    exact List.mem_append_left _ (List.mem_append_left _ (List.mem_append_right _ (mem_pends ha)))

/-! ### The CT slot (R86) -/

/-- An instruction that has a scalar result does nothing else (R86). -/
theorem startsNothing_ct {i : Ct} (hstart : ∀ (t : Tile) (b : Nat), ctStart t b i = t)
    (hct : ctEffects i = []) : StartsNothing { ct := i } :=
  ⟨hstart, fun _ _ => rfl, fun _ => rfl, hct⟩

/-- A scalar result is booked for the cycle that its latency gives. -/
theorem mem_agenda_issued_scalar {i : Ct} (h : StartsNothing { ct := i }) {lat sd v : Nat}
    (hlat : 0 < lat)
    (hplan : ctPlan (startCycle (tile s n)) (startCycle (tile s n)).pc i
      = scalarPlan (startCycle (tile s n)) lat sd v) :
    (⟨(tile s n).cyc + lat, (startCycle (tile s n)).pc, 4, .s sd (BitVec.ofNat 32 v)⟩ : Pend)
      ∈ (tile (issued s n { ct := i }) n).agenda := by
  refine mem_agenda_issued h ?_ (Nat.lt_add_of_pos_right hlat)
  have hact : ((tile s n).cyc + lat, Act.s sd (BitVec.ofNat 32 v))
      ∈ (scalarPlan (startCycle (tile s n)) lat sd v).acts := by simp [scalarPlan]
  rw [bookedNow_agenda, hplan]
  exact List.mem_append_right _ (mem_pends hact)

/-- Settles O41: the plan of the instruction is its result, after its latency. -/
theorem scalarResultsAreBooked : Obligations.ScalarResultsAreBooked := by
  intro k s
  refine ⟨?li, ?alu, ?addi, ?rdl⟩
  case li =>
    exact fun d i hi h => ⟨_, exec_slot rfl h,
      mem_agenda_issued_scalar (startsNothing_ct (fun _ _ => rfl) rfl) (by decide) rfl⟩
  case alu =>
    intro d a b f hf h
    have hlat : 0 < if f.val = 8 then 3 else 1 := by split <;> decide
    exact ⟨_, exec_slot (exec_ctAlu hf k d a b) h,
      mem_agenda_issued_scalar (startsNothing_ct (fun _ _ => rfl) rfl) hlat rfl⟩
  case addi =>
    exact fun d a i h => ⟨_, exec_slot rfl h,
      mem_agenda_issued_scalar (startsNothing_ct (fun _ _ => rfl) rfl) (by decide) rfl⟩
  case rdl =>
    exact fun d l h => ⟨_, exec_slot rfl h,
      mem_agenda_issued_scalar (startsNothing_ct (fun _ _ => rfl) rfl) (by decide) rfl⟩

end Sys2Proof.Proofs
end

section
/-!
PROOF. The register files of a tile (R65, R66, R73): results under a byte mask, S0 and P0, and that no
register page shows a register or an accumulator.
-/
open Sys2Proof Sys2Proof.Machine Sys2Proof.Safety Sys2Proof.Laws
namespace Sys2Proof.Proofs

/-! ### Results under a mask (R73) -/

/-- Every lane is merged under its own four bits of the mask. -/
theorem getElem?_mergeLanes (mask : Nat) (old new : List Word) (k : Nat) :
    (mergeLanes mask old new)[k]?
      = (old[k]?).map fun o => ((new[k]?).map (mergeLane (mask / 16 ^ k) o)).getD o := by
  induction old generalizing mask new k with
  | nil => cases new <;> rfl
  | cons o old ih =>
    cases new with
    | nil => cases h : (o :: old)[k]? <;> simp [mergeLanes, h]
    | cons w new =>
      cases k with
      | zero => simp [mergeLanes]
      | succ k =>
        have hshift : mask / 16 / 16 ^ k = mask / 16 ^ (k + 1) := by
          rw [Nat.div_div_eq_div_mul, Nat.pow_succ']
        simp [mergeLanes, ih, hshift]

theorem vreg_setV (t : Tile) (n mask m : Nat) (lanes : List Word) :
    (t.setV n mask lanes).vreg m = if m = n then mergeLanes mask (t.vreg n) lanes else t.vreg m :=
  getD_put _ _ _ _ _

/-- Settles O39: a lane is taken from the result, or keeps its old value, as its four bits say. -/
theorem landingsKeepMaskedLanes : Obligations.LandingsKeepMaskedLanes := by
  intro t n mask lanes hold hnew
  have merged (k : Nat) (hk : k < 64) : ∃ old new, (t.vreg n)[k]? = some old ∧ lanes[k]? = some new ∧
      ((t.setV n mask lanes).vreg n)[k]? = some (mergeLane (mask / 16 ^ k) old new) := by
    have hkold : k < (t.vreg n).length := by omega
    have hknew : k < lanes.length := by omega
    refine ⟨_, _, List.getElem?_eq_getElem hkold, List.getElem?_eq_getElem hknew, ?_⟩
    rw [vreg_setV, if_pos rfl, getElem?_mergeLanes, List.getElem?_eq_getElem hkold,
      List.getElem?_eq_getElem hknew]
    rfl
  refine ⟨fun k hk hset => ?_, fun k hk hclear => ?_, fun m hm => ?_⟩
  · obtain ⟨old, new, -, hnew, hmerged⟩ := merged k hk
    simp [hmerged, hnew, mergeLane, hset]
  · obtain ⟨old, new, hold, -, hmerged⟩ := merged k hk
    simp [hmerged, hold, mergeLane, hclear]
  · rw [vreg_setV, if_neg hm]

/-! ### The register pages (R65, R66) -/

section
variable (s : State) (n : Nat) (v : SMap (List Word)) (x : SMap Word) (p : SMap Nat)
  (a : SMap (List Word))

/-- The package with the register files of tile `n` replaced. -/
def withFiles : State := setTile s n { tile s n with v := v, s := x, p := p, acc := a }

/-- Only register files of a tile are replaced. -/
theorem tile_withFiles (m : Nat) : ∃ v' x' p' a', tile (withFiles s n v x p a) m
    = { tile s m with v := v', s := x', p := p', acc := a' } := by
  rw [withFiles, tile_setTile]
  split
  next h => exact ⟨v, x, p, a, by rw [h]⟩
  next => exact ⟨_, _, _, _, rfl⟩

theorem tileView_withFiles (m : Nat) (f : Fld) (i : Nat) :
    tileView (withFiles s n v x p a) m f i = tileView s m f i := by
  obtain ⟨_, _, _, _, h⟩ := tile_withFiles s n v x p a m
  simp only [tileView, h]
  rfl

theorem moverView_withFiles (m : Nat) (f : Fld) (i : Nat) :
    moverView (withFiles s n v x p a) m f i = moverView s m f i := by
  obtain ⟨_, _, _, _, h⟩ := tile_withFiles s n v x p a m
  simp only [moverView, h]
  rfl

/-- No field that the part computes shows a register or an accumulator. -/
theorem viewVal_withFiles (req : Nat) (q : PageId) (f : Fld) (i : Nat) :
    viewVal (withFiles s n v x p a) req q f i = viewVal s req q f i := by
  obtain ⟨kind, inst⟩ := q
  unfold viewVal
  split
  · rfl
  · cases kind with
    | tile => exact tileView_withFiles s n v x p a inst f i
    | mover => exact moverView_withFiles s n v x p a inst f i
    | _ => rfl

theorem regWord_withFiles (req : Nat) (q : PageId) (off : Nat) :
    regWord (withFiles s n v x p a) req q off = regWord s req q off := by
  have hfield (f : Fld) (i : Nat) :
      fieldVal (withFiles s n v x p a) req q f i = fieldVal s req q f i := by
    rw [fieldVal, viewVal_withFiles]
    rfl
  have hhidden : hiddenWord (withFiles s n v x p a) req q off = hiddenWord s req q off := rfl
  simp only [regWord, hhidden, hfield]

end

/-- Settles O40. -/
theorem registerFilesAreHidden : Obligations.RegisterFilesAreHidden :=
  ⟨fun _ _ _ _ => ⟨rfl, rfl, rfl, rfl⟩, fun s n req off q v x p a => regWord_withFiles s n v x p a req q off⟩

end Sys2Proof.Proofs
end

section
/-!
PROOF. The District-interleaved space (R25, R26): an address decodes to a byte of a tile of the slice list, and
no two addresses to the same byte.
-/
open Sys2Proof Sys2Proof.Machine Sys2Proof.Safety Sys2Proof.Laws
namespace Sys2Proof.Proofs

variable {s : State} {d : DistId} {a n o : Nat}

/-! ### The slice list (R25) -/

theorem tileExists_of_mem_sliceList {d : Nat} (h : n ∈ sliceList s d) : tileExists s n = true := by
  simp only [sliceList, List.mem_flatMap, List.mem_filter] at h
  obtain ⟨_, -, -, hn⟩ := h
  exact hn

theorem lt_of_mem_sliceList {d : Nat} (h : n ∈ sliceList s d) : n < 1920 := by
  have hn := tileExists_of_mem_sliceList h
  simp only [tileExists, Bool.and_eq_true, decide_eq_true_eq] at hn
  exact hn.1.1

theorem nodup_bitList (k v : Nat) : (bitList k v).Nodup := List.nodup_range.filter _

/-- No tile stands twice in a slice list: its place in its quarter-die and the quarter-die name it. -/
theorem nodup_sliceList (s : State) (d : Nat) : (sliceList s d).Nodup := by
  rw [sliceList, List.nodup_flatMap]
  refine ⟨fun p _ => (List.Nodup.map (fun q q' h => by omega) (nodup_bitList _ _)).filter _, ?_⟩
  refine List.nodup_range.imp_of_mem fun {p p'} hp hp' hne => ?_
  rw [List.mem_range] at hp hp'
  intro m hm hm'
  simp only [List.mem_filter, List.mem_map] at hm hm'
  obtain ⟨⟨q, -, hq⟩, -⟩ := hm
  obtain ⟨⟨q', -, hq'⟩, -⟩ := hm'
  omega

/-! ### The decode (R26) -/

/-- A byte of a slice that a District's list holds, at an offset within the mapped bytes. -/
theorem decodeAddr_slice {d : Nat} (hn : n < 1920) (ho : o < sliceBytes) :
    decodeAddr s d (2 ^ 29 * n + o) = some (.slice n o) := by
  unfold sliceBytes at ho
  have hend : 2 ^ 29 * n + o < sliceEnd := by unfold sliceEnd; omega
  have hoff : (2 ^ 29 * n + o) % 2 ^ 29 = o := by omega
  have htile : (2 ^ 29 * n + o) / 2 ^ 29 = n := by omega
  have hmapped : o < sliceBytes := ho
  simp only [decodeAddr, if_pos hend, hoff, htile, if_pos hmapped]

/-- The blocks of 4 KiB that a District's window has. -/
def windowBlocks (s : State) (d : Nat) : Nat :=
  (sliceList s d).length * rd s pkgswP PKGSW_DIST_GLB_SIZE d * 256

/-- A block of the window lies in one of the rows that its size gives. -/
theorem row_lt_of_lt_windowBlocks {d g : Nat} (h : g < windowBlocks s d) :
    0 < (sliceList s d).length ∧
      g / (sliceList s d).length < rd s pkgswP PKGSW_DIST_GLB_SIZE d * 256 := by
  rw [windowBlocks, Nat.mul_assoc] at h
  exact ⟨Nat.pos_of_mul_pos_right (Nat.zero_lt_of_lt h), Nat.div_lt_of_lt_mul h⟩

theorem decodeAddr_window (hlo : glbBase ≤ a) (hhi : a < glbEnd) : decodeAddr s d a
    = if windowBlocks s d ≤ (a - glbBase) / 4096 then none
      else some (.slice ((sliceList s d).getD ((a - glbBase) / 4096 % (sliceList s d).length) 0)
        (rd s pkgswP PKGSW_DIST_GLB_BASE d * 2 ^ 20
          + (a - glbBase) / 4096 / (sliceList s d).length * 4096 + (a - glbBase) % 4096)) := by
  have hslices : ¬ a < sliceEnd := by
    unfold glbBase at hlo; unfold sliceEnd; omega
  have hd : ¬ d.val ≥ 4 := by omega
  simp only [decodeAddr, if_neg hslices, if_pos (And.intro hlo hhi), if_neg hd]
  rfl

/-- Settles O45. -/
theorem globalWindowDecodes : Obligations.GlobalWindowDecodes := by
  intro s d a ha hsize
  have hhi : glbBase + a < glbEnd := by omega
  have hsub : glbBase + a - glbBase = a := Nat.add_sub_cancel_left _ _
  have hdecode := decodeAddr_window (s := s) (d := d) (Nat.le_add_right glbBase a) hhi
  rw [hsub] at hdecode
  refine ⟨fun hout => ?_, fun hin => ?_⟩
  · have hout : windowBlocks s d ≤ a / 4096 := hout
    rw [resolve, hdecode, if_pos hout]
  · have hin : a / 4096 < windowBlocks s d := hin
    obtain ⟨hlen, hrow⟩ := row_lt_of_lt_windowBlocks hin
    have hindex := Nat.mod_lt (a / 4096) hlen
    have hget : (sliceList s d).getD (a / 4096 % (sliceList s d).length) 0
        = (sliceList s d)[a / 4096 % (sliceList s d).length] := List.getD_eq_getElem _ _ hindex
    have hoff : rd s pkgswP PKGSW_DIST_GLB_BASE d * 2 ^ 20
        + a / 4096 / (sliceList s d).length * 4096 + a % 4096 < sliceBytes := by
      unfold sliceBytes; omega
    refine ⟨_, List.getElem?_eq_getElem hindex, ?_⟩
    rw [resolve, resolve, hdecode, if_neg (Nat.not_le.mpr hin), hget,
      decodeAddr_slice (lt_of_mem_sliceList (List.getElem_mem hindex)) hoff]

/-! ### The window names no byte twice (R25, R26) -/

/-- What an address of a District's window names: a tile of the list by the block's number, and a byte
of it by the row of blocks. -/
theorem decodeAddr_window_slice (hlo : glbBase ≤ a) (hhi : a < glbEnd)
    (h : decodeAddr s d a = some (.slice n o)) :
    ∃ hi : (a - glbBase) / 4096 % (sliceList s d).length < (sliceList s d).length,
      (sliceList s d)[(a - glbBase) / 4096 % (sliceList s d).length] = n ∧
      o = rd s pkgswP PKGSW_DIST_GLB_BASE d * 2 ^ 20
        + (a - glbBase) / 4096 / (sliceList s d).length * 4096 + (a - glbBase) % 4096 ∧
      (a - glbBase) / 4096 / (sliceList s d).length < rd s pkgswP PKGSW_DIST_GLB_SIZE d * 256 := by
  rw [decodeAddr_window hlo hhi] at h
  split at h
  · cases h
  · next hin =>
    obtain ⟨hlen, hrow⟩ := row_lt_of_lt_windowBlocks (Nat.not_le.mp hin)
    have hindex := Nat.mod_lt ((a - glbBase) / 4096) hlen
    rw [List.getD_eq_getElem _ _ hindex] at h
    injection h with h
    injection h with hn ho
    exact ⟨hindex, hn, ho.symm, hrow⟩

/-- Settles O47: the tile gives the place in the row of blocks, since no tile stands twice in the list; the
byte gives the row and the byte of the block. -/
theorem globalWindowIsOneToOne : Obligations.GlobalWindowIsOneToOne := by
  intro s d a b n o halo hahi hblo hbhi ha
  obtain ⟨hia, hna, hoa, hrow⟩ := decodeAddr_window_slice halo hahi ha
  refine ⟨hna ▸ List.getElem_mem hia, by omega, by omega, fun hb => ?_⟩
  obtain ⟨hib, hnb, hob, -⟩ := decodeAddr_window_slice hblo hbhi hb
  have hplace : (a - glbBase) / 4096 % (sliceList s d).length
      = (b - glbBase) / 4096 % (sliceList s d).length :=
    (nodup_sliceList s d).getElem_inj_iff.mp (hna.trans hnb.symm)
  have hblock : (a - glbBase) / 4096 = (b - glbBase) / 4096 := by
    rw [← Nat.div_add_mod ((a - glbBase) / 4096) (sliceList s d).length, hplace,
      show (a - glbBase) / 4096 / (sliceList s d).length
        = (b - glbBase) / 4096 / (sliceList s d).length by omega, Nat.div_add_mod]
  omega

end Sys2Proof.Proofs
end

section
/-!
PROOF. The commands of the interrupt registers, of register reads, of the SMBus, of DIST_GLB, of the cap and of
THROTTLE_N (R29, R260, R274, R293, R294, R338, R341, R347, R354) leave every unit of the package as it was: one
equation per operation.
-/
open Sys2Proof Sys2Proof.Machine Sys2Proof.Safety Sys2Proof.Laws
namespace Sys2Proof.Proofs

/-- The units that registers only report on: tiles, slices, links, Crossings, collectives, images,
command processors, fuses, security and topology. -/
def units (s : State) : SMap Tile × SMap Slice × SMap Link × SMap Cross × List Coll × SMap Image ×
    SMap Proc × Fuses × Sec × Topo :=
  (s.tiles, s.slices, s.links, s.crossings, s.colls, s.images, s.procs, s.fuses, s.sec, s.topo)

theorem ite_units {c : Prop} [Decidable c] {s x y : State} (hx : units x = units s)
    (hy : units y = units s) : units (if c then x else y) = units s := by
  split
  · exact hx
  · exact hy

theorem foldl_units {α : Type} {f : State → α → State} (hf : ∀ s a, units (f s a) = units s)
    (l : List α) (s : State) : units (l.foldl f s) = units s :=
  List.foldlRecOn (motive := fun x => units x = units s) l f rfl fun _ hx a _ => (hf _ a).trans hx

/-! ### Registers and interrupts (R293, R294, R346, R347) -/

theorem wr_units (s : State) (p : PageId) (f : Fld) (v i : Nat) : units (wr s p f v i) = units s := rfl

theorem emit_units (s : State) (o : Out) : units (emit s o) = units s := rfl

theorem sendVector_units (s : State) (d v : Nat) : units (sendVector s d v) = units s :=
  ite_units (ite_units rfl rfl) rfl

theorem deliver1_units (s : State) (d v : Nat) : units (deliver1 s d v) = units s :=
  ite_units (sendVector_units s d v) rfl

theorem deliver_units (s : State) : units (deliver s) = units s :=
  foldl_units (fun _ _ => foldl_units (fun _ _ => deliver1_units _ _ _) _ _) _ _

theorem raise_units (s : State) (p : PageId) (b : Nat) : units (raise s p b) = units s := by
  rw [raise, deliver_units, wr_units]

theorem lastErr_units (s : State) (p : PageId) (code : Nat) : units (lastErr s p code) = units s :=
  wr_units _ _ _ _ _

theorem portRefused_units (s : State) (req addr code : Nat) (write : Bool) :
    units (portRefused s req addr code write) = units s := by
  simp only [portRefused, raise_units, logErr, bump, wr_units]

theorem logEvent_units (s : State) (code domain arg value : Nat) :
    units (logEvent s code domain arg value) = units s := by
  simp only [logEvent, raise_units, wr_units]

theorem regRefused_units (s : State) (req o code : Nat) (write : Bool) :
    units (regRefused s req o code write) = units s := by
  unfold regRefused
  extract_lets u
  have hu : units u = units s := portRefused_units _ _ _ _ _
  exact ite_units hu ((emit_units _ _).trans hu)

theorem readReg_units (s : State) (req o : Nat) (wide : Bool) :
    units (readReg s req o wide).1 = units s := by
  obtain ⟨_, _, h⟩ := readReg_fst_eq s req o wide
  rw [h]
  rfl

theorem fieldWrite_units {s : State} {act : State → State} (hact : units (act s) = units s)
    (req : Nat) (p : PageId) (f : Fld) (i : Nat) : units (fieldWrite s req p f i act) = units s :=
  fieldWrite_induction (P := fun x => units x = units s) rfl (fun _ _ => regRefused_units _ _ _ _ _) hact

theorem hdrWrite_units {act : PageId → State → State} (hact : ∀ p s, units (act p s) = units s)
    (s : State) (req page : Nat) (f : Fld) : units (hdrWrite s req page f act) = units s := by
  unfold hdrWrite hostWrite
  split
  · rfl
  · refine ite_units (regRefused_units _ _ _ _ _) ?_
    split
    · rfl
    · exact hact _ _

theorem hostRead_units (s : State) (req o size : Nat) : units (hostRead s req o size) = units s := by
  unfold hostRead
  extract_lets e r
  have hr : units r.1 = units s := readReg_units _ _ _ _
  exact ite_units rfl (ite_units (regRefused_units _ _ _ _ _) hr)

/-! ### The commands -/

theorem forceWrite_units (s : State) (p : PageId) (v : Nat) : units (forceWrite s p v) = units s := by
  rw [forceWrite, deliver_units, wr_units]

theorem intEnable_units (s : State) (p : PageId) (v : Nat) : units (intEnable s p v) = units s := by
  rw [intEnable, deliver_units, wr_units]

theorem clearRaw_units (s : State) (p : PageId) (v : Nat) : units (clearRaw s p v) = units s := by
  rw [clearRaw, deliver_units, wr_units]
  exact ite_units rfl rfl

theorem eoi_units (s : State) (d mask : Nat) : units (eoi s d mask) = units s := by
  refine foldl_units (fun x v => ite_units ?_ rfl) _ _
  rw [deliver1_units]
  exact ite_units rfl rfl

theorem msixWrite_units (s : State) (d v : Nat) (e : MsixEntry) : units (msixWrite s d v e) = units s :=
  ite_units (sendVector_units _ _ _) rfl

theorem smbRead_units (s : State) (wide : Bool) : units (smbRead s wide) = units s := by
  unfold smbRead
  extract_lets n o e r
  have hr : units r.1 = units s := by
    dsimp only [r]
    split
    · exact readReg_units _ _ _ _
    · rfl
  exact hr

theorem glbApply_units (s : State) (d base size : Nat) : units (glbApply s d base size) = units s :=
  ite_units (raise_units _ _ _) rfl

theorem glbWrite_units (s : State) (req d : Nat) (base size : Option Nat) :
    units (glbWrite s req d base size) = units s := by
  refine ite_units (raise_units _ _ _) ?_
  repeat' split
  all_goals first | rfl | exact glbApply_units _ _ _ _

theorem capWrite_units (s : State) (v : Nat) : units (capWrite s v) = units s := by
  unfold capWrite
  extract_lets p v lim old written clamped cleared
  have hclamped : units clamped = units s := by
    refine ite_units ?_ (wr_units _ _ _ _ _)
    rw [raise_units, lastErr_units, wr_units]
  refine ite_units ?_ hclamped
  rw [logEvent_units, wr_units]
  exact hclamped

theorem execDistGlbWrite_units {s t : State} {req : PortId} {d : DistId} {b z : Option (Fin 512)}
    (h : execDistGlbWrite req d b z s = .next t) : units t = units s := by
  unfold execDistGlbWrite at h
  split at h
  · cases h
  · injection h with h
    rw [← h]
    exact ite_units rfl (ite_units (regRefused_units _ _ _ _ _) (glbWrite_units _ _ _ _ _))

theorem execThrottleNAssert_eq (s : State) : execThrottleNAssert s
    = .next (if s.dawn.aon && !extActive s then raise (wr s pwrP PWR_EXT_ACTIVE 1) pwrP 1 else s) := by
  unfold execThrottleNAssert
  split <;> rfl

theorem throttleN_units (s : State) : units (raise (wr s pwrP PWR_EXT_ACTIVE 1) pwrP 1) = units s := by
  rw [raise_units, wr_units]

/-- Settles O50: none of the commands changes any of the units. -/
theorem registerCommandsFrame : Obligations.RegisterCommandsFrame := by
  intro s t req n v d m k e w z8 o b z c hc hexec
  have next {x : State} (hx : units x = units s) (hnext : exec c s = .next x) : units t = units s := by
    rw [← Host.Outcome.next.inj (hnext.symm.trans hexec)]
    exact hx
  have hunits : units t = units s := by
    simp only [List.mem_cons, List.not_mem_nil, or_false] at hc
    obtain rfl | rfl | rfl | rfl | rfl | rfl | rfl | rfl | rfl | rfl | rfl | rfl | rfl | rfl := hc
    · exact next (hdrWrite_units (fun p s => forceWrite_units s p v.toNat) s req n HDR_INT_FORCE) rfl
    · exact next (hdrWrite_units (fun p s => clearRaw_units s p v.toNat) s req n HDR_INT_STATUS) rfl
    · exact next (hdrWrite_units (fun p s => intEnable_units s p v.toNat) s req n HDR_INT_ENABLE) rfl
    · exact next (fieldWrite_units (eoi_units s d m.toNat) req plazaP PLAZA_INT_EOI d) rfl
    · exact next (ite_units (msixWrite_units s req k e) rfl) rfl
    · exact next (hostRead_units s req (4096 * n.val + 0x28) z8) rfl
    · exact next (hostRead_units s req o z8) rfl
    · exact next (ite_units (x := { s with smbOffset := v.toNat }) rfl rfl) rfl
    · exact next (ite_units (smbRead_units s false) rfl) rfl
    · exact next (ite_units (smbRead_units s true) rfl) rfl
    · exact execDistGlbWrite_units hexec
    · exact next (fieldWrite_units (capWrite_units s v.toNat) req pwrP PWR_PWR_CAP_W 0) rfl
    · exact next (ite_units (throttleN_units s) rfl) (execThrottleNAssert_eq s)
    · exact next (wr_units s pwrP PWR_EXT_ACTIVE 0 0) rfl
  simpa only [units, Prod.mk.injEq] using hunits

end Sys2Proof.Proofs
end

section
/-!
PROOF. Register access by a host function and over the SMBus (R29, R293, R336 to R338, R354): an access that no
check refuses is carried out; a DIST_GLB half waits for the other one, and the pair takes effect or is
dropped.
-/
open Sys2Proof Sys2Proof.Machine Sys2Proof.Safety Sys2Proof.Laws
namespace Sys2Proof.Proofs

variable {s : State} {req : PortId}

/-! ### An access that no check refuses (R336, R337) -/

theorem exec_loHalfRead {o : Fin 67108864} {size : Nat} (hplaza : plazaUp s = true)
    (hport : portUp s req = true) (herror : regError s req o size = 0) :
    exec (.loHalfRead req o size) s = .next (emit (readReg s req o (size == 8)).1
      (.regData req (readReg s req o (size == 8)).2)) := by
  change Host.Outcome.next (hostRead s req o size) = _
  rw [hostRead, if_neg (by simp [hplaza, hport])]
  dsimp only
  rw [if_neg (not_not_intro herror)]

theorem hostWrite_of_taken {o size v : Nat} {p : PageId} (hplaza : plazaUp s = true)
    (hport : portUp s req = true) (herror : putError s req o size v = 0) (hpage : pageAt o = some p)
    (act : PageId → Nat → State → State) : hostWrite s req o size v act = act p (o - p.base) s := by
  rw [hostWrite, if_neg (by simp [hplaza, hport])]
  dsimp only
  rw [if_neg (not_not_intro herror), hpage]

theorem exec_registerWrite_word {o : Fin 67108864} {v : Nat} {p : PageId} (hplaza : plazaUp s = true)
    (hport : portUp s req = true) (herror : putError s req o 4 v = 0) (hpage : pageAt o = some p)
    (hbusy : moverBusy s p (o - p.base) = false) (x : ResetIn) :
    exec (.registerWrite req o 4 v x) s
      = .next (wordApply s req p (o - p.base) (v % 2 ^ 32) x) := by
  refine congrArg Host.Outcome.next ((hostWrite_of_taken hplaza hport herror hpage _).trans ?_)
  simp [hbusy]

theorem exec_registerWrite_pair {o : Fin 67108864} {v : Nat} {p : PageId} (hplaza : plazaUp s = true)
    (hport : portUp s req = true) (herror : putError s req o 8 v = 0) (hpage : pageAt o = some p)
    (hlow : moverBusy s p (o - p.base) = false) (hhigh : moverBusy s p (o - p.base + 4) = false)
    (x : ResetIn) :
    exec (.registerWrite req o 8 v x) s = .next (pairApply s req p (o - p.base) v x) := by
  refine congrArg Host.Outcome.next ((hostWrite_of_taken hplaza hport herror hpage _).trans ?_)
  simp [hlow, hhigh]

/-! ### DIST_GLB (R29) -/

section
variable {d : DistId} (hplaza : plazaUp s = true) (hport : portUp s req = true)
include hplaza hport

theorem exec_distGlbWrite_base
    (herror : regError s req (pkgswP.base + fldOff PKGSW_DIST_GLB_BASE d) 4 = 0) (b : Fin 512) :
    exec (.distGlbWrite req d (some b) none) s = .next (glbWrite s req d (some b.val) none) := by
  exact congrArg Host.Outcome.next
    ((if_neg (by simp [hplaza, hport])).trans (if_neg (not_not_intro herror)))

theorem exec_distGlbWrite_size
    (herror : regError s req (pkgswP.base + fldOff PKGSW_DIST_GLB_SIZE d) 4 = 0) (z : Fin 512) :
    exec (.distGlbWrite req d none (some z)) s = .next (glbWrite s req d none (some z.val)) := by
  exact congrArg Host.Outcome.next
    ((if_neg (by simp [hplaza, hport])).trans (if_neg (not_not_intro herror)))

theorem exec_distGlbWrite_pair
    (herror : regError s req (pkgswP.base + fldOff PKGSW_DIST_GLB_BASE d) 8 = 0) (b z : Fin 512) :
    exec (.distGlbWrite req d (some b) (some z)) s
      = .next (glbWrite s req d (some b.val) (some z.val)) := by
  exact congrArg Host.Outcome.next
    ((if_neg (by simp [hplaza, hport])).trans (if_neg (not_not_intro herror)))

end

/-- A write by another function, under LOCK, or while the District runs a launch, is dropped. -/
theorem glbWrite_of_barred {d : Nat} (h : (req.val ≠ ownerPort s ∧ req.val ≠ d) ∨
    locked s pkgswP = true ∨ distLaunched s d = true) (base size : Option Nat) :
    glbWrite s req d base size = raise s pkgswP 1 :=
  if_pos (by simpa [or_assoc] using h)

/-- The function may write the registers of District `d` now. -/
structure MayWriteGlb (s : State) (req d : Nat) : Prop where
  owner : req = ownerPort s ∨ req = d
  unlocked : locked s pkgswP = false
  idle : distLaunched s d = false

namespace MayWriteGlb

variable {d : Nat} (h : MayWriteGlb s req d)
include h

theorem not_barred : ¬ ((req.val ≠ ownerPort s && req.val ≠ d) || locked s pkgswP
    || distLaunched s d) = true := by
  obtain ⟨howner, hlock, hidle⟩ := h
  obtain howner | howner := howner <;> simp [howner, hlock, hidle]

theorem glbWrite_base_held {b : Nat} (hnone : SMap.find s.glbHeld (2 * d + 1) = none) :
    glbWrite s req d (some b) none = { s with glbHeld := SMap.put s.glbHeld (2 * d) b } := by
  rw [glbWrite, if_neg h.not_barred]
  simp only [hnone]

theorem glbWrite_base_pair {b z : Nat} (hheld : SMap.find s.glbHeld (2 * d + 1) = some z) :
    glbWrite s req d (some b) none = glbApply s d b z := by
  rw [glbWrite, if_neg h.not_barred]
  simp only [hheld]

theorem glbWrite_size_held {z : Nat} (hnone : SMap.find s.glbHeld (2 * d) = none) :
    glbWrite s req d none (some z) = { s with glbHeld := SMap.put s.glbHeld (2 * d + 1) z } := by
  rw [glbWrite, if_neg h.not_barred]
  simp only [hnone]

theorem glbWrite_size_pair {b z : Nat} (hheld : SMap.find s.glbHeld (2 * d) = some b) :
    glbWrite s req d none (some z) = glbApply s d b z := by
  rw [glbWrite, if_neg h.not_barred]
  simp only [hheld]

theorem glbWrite_pair (b z : Nat) : glbWrite s req d (some b) (some z) = glbApply s d b z := by
  rw [glbWrite, if_neg h.not_barred]

end MayWriteGlb

/-- The held halves of a District's pair are no longer held. -/
def glbTaken (s : State) (d : Nat) : State :=
  { s with glbHeld := SMap.del (SMap.del s.glbHeld (2 * d)) (2 * d + 1) }

theorem glbApply_of_beyond {d base size : Nat} (h : 384 < base + size) :
    glbApply s d base size = raise (glbTaken s d) pkgswP 1 := if_pos h

theorem glbApply_of_within {d base size : Nat} (h : base + size ≤ 384) : glbApply s d base size
    = wr (wr (glbTaken s d) pkgswP PKGSW_DIST_GLB_BASE base d) pkgswP PKGSW_DIST_GLB_SIZE size d :=
  if_neg (Nat.not_lt.mpr h)

theorem fkey_glb_base_ne_size (d e : Nat) :
    fkey pkgswP PKGSW_DIST_GLB_BASE d ≠ fkey pkgswP PKGSW_DIST_GLB_SIZE e := by
  have hbase : fkey pkgswP PKGSW_DIST_GLB_BASE d = 8 * (pkgswP.base + 0x110) + 0 + d / 1 * 128 + d % 1 * 0 :=
    rfl
  have hsize : fkey pkgswP PKGSW_DIST_GLB_SIZE e = 8 * (pkgswP.base + 0x114) + 0 + e / 1 * 128 + e % 1 * 0 :=
    rfl
  omega

/-- A pair within a slice reads back. -/
theorem rd_glbApply (hok : regsOk s = true) {d base size : Nat} (h : base + size ≤ 384) :
    rd (glbApply s d base size) pkgswP PKGSW_DIST_GLB_BASE d = base ∧
      rd (glbApply s d base size) pkgswP PKGSW_DIST_GLB_SIZE d = size := by
  rw [glbApply_of_within h]
  have hkeys : keysFrom 0 (glbTaken s d).regs = true := keysFrom_of_regsOk hok
  have hkeys' : keysFrom 0 (wr (glbTaken s d) pkgswP PKGSW_DIST_GLB_BASE base d).regs = true :=
    keysFrom_of_regsOk ((wr_kept (Kept.refl (glbTaken s d)) pkgswP _ _ _).regs hok)
  refine ⟨?_, ?_⟩
  · rw [rd_wr_of_ne hkeys' (fkey_glb_base_ne_size d d), rd_wr_same hkeys]
    exact Nat.mod_eq_of_lt (by simp [PKGSW_DIST_GLB_BASE]; omega)
  · rw [rd_wr_same hkeys']
    exact Nat.mod_eq_of_lt (by simp [PKGSW_DIST_GLB_SIZE]; omega)

/-- A further half takes the place of the one that is held. -/
theorem put_put_of_eq {α : Type} (m : SMap α) (i : Nat) (v w : α) :
    SMap.put (SMap.put m i v) i w = SMap.put m i w := by
  induction m with
  | nil => simp [SMap.put]
  | cons e m ih =>
    obtain ⟨k, x⟩ := e
    simp only [SMap.put]
    split
    · simp [SMap.put]
    · split
      · simp [SMap.put]
      · next hne hlt => simp [SMap.put, hne, hlt, ih]

/-- Settles O32. -/
theorem registerAccess : Obligations.RegisterAccess := by
  refine ⟨?errAddr, ?loHalf, ?word, ?pair, ?heldBase, ?heldSize, ?base, ?size, ?baseBeyond, ?both,
    ?bothBeyond, ?baseBarred, ?sizeBarred, ?offset, ?badPec, ?read32, ?read64⟩
  case errAddr => exact fun s req n z hplaza hport herror => exec_errAddrLoRead hplaza hport herror
  case loHalf => exact fun s req o z hplaza hport herror => exec_loHalfRead hplaza hport herror
  case word =>
    exact fun s req o v x p hplaza hport herror hpage hbusy =>
      exec_registerWrite_word hplaza hport herror hpage hbusy x
  case pair =>
    exact fun s req o v x p hplaza hport herror hpage hlow hhigh =>
      exec_registerWrite_pair hplaza hport herror hpage hlow hhigh x
  case heldBase =>
    intro s req d b e hplaza hport herror howner hlock hidle hnone
    have hmay : MayWriteGlb s req d := ⟨howner, hlock, hidle⟩
    refine ⟨_, ?_, ?_, rfl, ?_⟩
    · rw [exec_distGlbWrite_base hplaza hport herror, hmay.glbWrite_base_held hnone]
    · rfl
    · have hother : SMap.find (SMap.put s.glbHeld (2 * d.val) b.val) (2 * d.val + 1) = none := by
        rw [find_put, if_neg (by omega), hnone]
      refine (exec_distGlbWrite_base (s := { s with glbHeld := SMap.put s.glbHeld (2 * d.val) b.val })
        hplaza hport herror e).trans ?_
      rw [MayWriteGlb.glbWrite_base_held (s := { s with glbHeld := SMap.put s.glbHeld (2 * d.val) b.val })
        ⟨howner, hlock, hidle⟩ hother]
      simp only [put_put_of_eq]
  case heldSize =>
    intro s req d z e hplaza hport herror howner hlock hidle hnone
    have hmay : MayWriteGlb s req d := ⟨howner, hlock, hidle⟩
    refine ⟨_, ?_, ?_, rfl, ?_⟩
    · rw [exec_distGlbWrite_size hplaza hport herror, hmay.glbWrite_size_held hnone]
    · rfl
    · have hother : SMap.find (SMap.put s.glbHeld (2 * d.val + 1) z.val) (2 * d.val) = none := by
        rw [find_put, if_neg (by omega), hnone]
      refine (exec_distGlbWrite_size (s := { s with glbHeld := SMap.put s.glbHeld (2 * d.val + 1) z.val })
        hplaza hport herror e).trans ?_
      rw [MayWriteGlb.glbWrite_size_held (s := { s with glbHeld := SMap.put s.glbHeld (2 * d.val + 1) z.val })
        ⟨howner, hlock, hidle⟩ hother]
      simp only [put_put_of_eq]
  case base =>
    intro s req d b z hok hplaza hport herror howner hlock hidle hheld hfits
    refine ⟨_, exec_distGlbWrite_base hplaza hport herror b, ?_⟩
    rw [MayWriteGlb.glbWrite_base_pair ⟨howner, hlock, hidle⟩ hheld]
    exact rd_glbApply hok hfits
  case size =>
    intro s req d z b hok hplaza hport herror howner hlock hidle hheld hfits
    refine ⟨_, exec_distGlbWrite_size hplaza hport herror z, ?_⟩
    rw [MayWriteGlb.glbWrite_size_pair ⟨howner, hlock, hidle⟩ hheld]
    exact rd_glbApply hok hfits
  case baseBeyond =>
    intro s req d b z hplaza hport herror howner hlock hidle hheld hbeyond
    rw [exec_distGlbWrite_base hplaza hport herror, MayWriteGlb.glbWrite_base_pair
      ⟨howner, hlock, hidle⟩ hheld]
    exact congrArg Host.Outcome.next (glbApply_of_beyond hbeyond)
  case both =>
    intro s req d b z hok hplaza hport herror howner hlock hidle hfits
    refine ⟨_, exec_distGlbWrite_pair hplaza hport herror b z, ?_⟩
    rw [MayWriteGlb.glbWrite_pair ⟨howner, hlock, hidle⟩]
    exact rd_glbApply hok hfits
  case bothBeyond =>
    intro s req d b z hplaza hport herror howner hlock hidle hbeyond
    rw [exec_distGlbWrite_pair hplaza hport herror, MayWriteGlb.glbWrite_pair ⟨howner, hlock, hidle⟩]
    exact congrArg Host.Outcome.next (glbApply_of_beyond hbeyond)
  case baseBarred =>
    intro s req d b hplaza hport herror hbarred
    rw [exec_distGlbWrite_base hplaza hport herror, glbWrite_of_barred hbarred]
  case sizeBarred =>
    intro s req d z hplaza hport herror hbarred
    rw [exec_distGlbWrite_size hplaza hport herror, glbWrite_of_barred hbarred]
  case offset =>
    exact fun s o haon => congrArg Host.Outcome.next (if_pos (by simp [haon]))
  case badPec => exact fun s o => congrArg Host.Outcome.next (if_neg (by simp))
  case read32 => exact fun s haon => congrArg Host.Outcome.next (if_pos haon)
  case read64 => exact fun s haon => congrArg Host.Outcome.next (if_pos haon)

end Sys2Proof.Proofs
end

section
/-!
PROOF. A page under `LOCK` (R29, R336, R339): a write to registers whose fields are all RWL, or RO, changes
nothing, as no action of the page is on such a register but those that `LOCK` itself bars; a write of
DIST_GLB is dropped and reported.
-/
open Sys2Proof Sys2Proof.Machine Sys2Proof.Safety Sys2Proof.Laws
namespace Sys2Proof.Proofs

variable {s : State} {req off v : Nat} {p : PageId} {k : PageKind} {f : Fld} {i : Nat}

/-! ### The fields of a register -/

theorem mem_fieldsAt (hf : f ∈ allFields k) (hi : i < f.cnt) (hoff : off = fldOff f i) :
    (f, i) ∈ fieldsAt k off := by
  refine List.mem_flatMap.mpr ⟨f, hf, ?_⟩
  by_cases hcnt : f.cnt = 1
  · obtain rfl : i = 0 := by omega
    simp [hcnt, hoff]
  · simp [hcnt, hoff, hi]

theorem lt_of_entryAt (h : entryAt f off = some i) : i < f.cnt :=
  List.mem_range.mp (List.mem_of_find?_eq_some h)

theorem fldOff_of_entryAt (h : entryAt f off = some i) : off = fldOff f i :=
  (beq_iff_eq.mp (List.find?_some (p := fun i => fldOff f i == off) h)).symm

/-- All fields of the register are RWL, or RO, and none is of a DIST_GLB pair. -/
def OnlyLocked (k : PageKind) (off : Nat) : Prop :=
  ∀ e ∈ fieldsAt k off, (e.1.acc = .rwl ∨ e.1.acc = .ro) ∧
    e.1 ≠ PKGSW_DIST_GLB_BASE ∧ e.1 ≠ PKGSW_DIST_GLB_SIZE

/-- A field that such a register cannot hold. -/
abbrev Unlockable (k : PageKind) (f : Fld) : Prop :=
  f ∈ allFields k ∧ (f.acc ≠ .rwl ∧ f.acc ≠ .ro ∨ f = PKGSW_DIST_GLB_BASE ∨ f = PKGSW_DIST_GLB_SIZE)

theorem unlockable_hdr (hf : f ∈ hdrFields) (hrwl : f.acc ≠ .rwl) (hro : f.acc ≠ .ro) : Unlockable k f :=
  ⟨List.mem_append_left _ hf, .inl ⟨hrwl, hro⟩⟩

namespace OnlyLocked

variable (h : OnlyLocked k off)
include h

theorem ne_fldOff (hf : Unlockable k f) (hi : i < f.cnt) : off ≠ fldOff f i := by
  intro hoff
  obtain ⟨hacc, hbase, hsize⟩ := h (f, i) (mem_fieldsAt hf.1 hi hoff)
  obtain ⟨hrwl, hro⟩ | hglb := hf.2
  · exact hacc.elim hrwl hro
  · exact hglb.elim hbase hsize

theorem entryAt_none (hf : Unlockable k f) : entryAt f off = none := by
  cases hentry : entryAt f off with
  | none => rfl
  | some i => exact absurd (fldOff_of_entryAt hentry) (h.ne_fldOff hf (lt_of_entryAt hentry))

theorem onBit_eq (hf : Unlockable k f) (hi : 0 < f.cnt) (act : State → State) :
    onBit s v f off act = s :=
  if_neg (by simp [h.ne_fldOff hf hi])

/-! ### The actions of a page -/

theorem headerApply_eq (hk : p.kind = k) (x : ResetIn) : headerApply s req p off v x = s := by
  subst hk
  have hne : ∀ f ∈ hdrFields, f.acc ≠ .rwl → f.acc ≠ .ro → 0 < f.cnt → off ≠ fldOff f :=
    fun f hf hrwl hro hcnt => h.ne_fldOff (unlockable_hdr hf hrwl hro) hcnt
  rw [headerApply, if_neg (hne HDR_ENABLE (by decide) (by decide) (by decide) (by decide)),
    if_neg (hne HDR_INT_STATUS (by decide) (by decide) (by decide) (by decide)),
    if_neg (hne HDR_INT_ENABLE (by decide) (by decide) (by decide) (by decide)),
    if_neg (hne HDR_INT_FORCE (by decide) (by decide) (by decide) (by decide))]

end OnlyLocked

section
variable (h : OnlyLocked p.kind off)
include h

/-- The words of a Quarter entry are RW. -/
theorem OnlyLocked.not_quarter (hk : p.kind = .topo) (halign : off % 4 = 0) :
    ¬ (0x140 ≤ off ∧ off < 0x180 ∧ off % 16 < 12) := by
  rintro ⟨hlo, hhi, hword⟩
  rw [hk] at h
  have hentry : (off - 0x140) / 16 < 4 := by omega
  have h0 := h.ne_fldOff (f := TOPO_QID) (by decide) hentry
  have h1 := h.ne_fldOff (f := TOPO_RECT) (by decide) hentry
  have h2 := h.ne_fldOff (f := TOPO_SQUARE_SET) (by decide) hentry
  simp only [fldOff, TOPO_QID, TOPO_RECT, TOPO_SQUARE_SET, Nat.div_one, Nat.mod_one] at h0 h1 h2
  omega

/-- The words that configure a mover are RW. -/
theorem OnlyLocked.not_moverReg (hk : p.kind = .mover) (halign : off % 4 = 0) : moverReg off = false := by
  rw [hk] at h
  have hmesh := h.ne_fldOff (f := MOVER_Q_MESH) (i := 0) (by decide) (by decide)
  have hlow := fun hi => h.ne_fldOff (f := MOVER_DEST_TILE) (i := (off - 0x800) / 8) (by decide) hi
  have hhigh := fun hi => h.ne_fldOff (f := MOVER_DEST_Y) (i := (off - 0x800) / 8) (by decide) hi
  simp only [fldOff, MOVER_Q_MESH, MOVER_DEST_TILE, MOVER_DEST_Y, Nat.div_one, Nat.mod_one] at hmesh hlow hhigh
  simp only [moverReg, Bool.or_eq_false_iff, beq_eq_false_iff_ne, Bool.and_eq_false_iff, decide_eq_false_iff_not]
  omega

theorem linkApply_of_onlyLocked (halign : off % 4 = 0) : linkApply s p off v = s := by
  unfold linkApply
  extract_lets n
  split
  case h_1 hk =>
    rw [hk] at h
    rw [if_neg (h.ne_fldOff (f := BLVD_TX_ENABLE) (by decide) (by decide)),
      if_neg (h.ne_fldOff (f := BLVD_RX_ENABLE) (by decide) (by decide))]
  case h_2 hk =>
    rw [hk] at h
    exact h.onBit_eq (f := ALLEY_RETRAIN) (by decide) (by decide) _
  case h_3 hk =>
    rw [hk] at h
    exact h.onBit_eq (f := CROSSING_APPLY) (by decide) (by decide) _
  case h_4 hk =>
    have hquarter := h.not_quarter hk halign
    rw [hk] at h
    rw [if_neg (h.ne_fldOff (f := TOPO_PORT_ACCEPT) (by decide) (by decide)),
      if_neg (h.ne_fldOff (f := TOPO_SQUARE_ACCEPT) (by decide) (by decide)),
      if_neg (by simpa [and_assoc] using hquarter)]
  case h_5 hk =>
    rw [hk] at h
    exact h.onBit_eq (f := COLL_COLL_ABORT) (by decide) (by decide) _
  case h_6 => rfl

theorem packageApply_of_onlyLocked (hlock : locked s p = true) (x : ResetIn) :
    packageApply s req p off v x = s := by
  unfold packageApply
  extract_lets n keep
  split
  case h_1 hk =>
    rw [hk] at h
    rw [h.entryAt_none (f := PLAZA_INT_EOI) (by decide)]
    rfl
  case h_2 hk =>
    rw [hk] at h
    rw [h.entryAt_none (f := PKGSW_DIST_GLB_BASE) (by decide),
      h.entryAt_none (f := PKGSW_DIST_GLB_SIZE) (by decide)]
  case h_3 hk =>
    have hp : districtP n = p := by cases p; simp_all [districtP, n]
    have hmask : maskWrite s n v = s := if_pos (by simp [hp, hlock])
    have hsign : ∀ b w, policyWrite s n p DISTRICT_SIGN_REQUIRED 0 b w = s := fun _ _ => if_pos hlock
    rw [hmask, hsign, ite_self, ite_self]
  case h_4 hk =>
    rw [hk] at h
    rw [if_neg (h.ne_fldOff (f := CMDPROC_CMD_DOORBELL) (by decide) (by decide)),
      if_neg (h.ne_fldOff (f := CMDPROC_CPL_HEAD) (by decide) (by decide))]
  case h_5 hk =>
    rw [hk] at h
    rw [if_neg (h.ne_fldOff (f := SEC_TARGET) (by decide) (by decide)),
      if_neg (h.ne_fldOff (f := SEC_SCAN_EN) (by decide) (by decide)),
      h.entryAt_none (f := SEC_ATT_GO) (by decide)]
    cases entryAt SEC_IMG_KEY_DIGEST off with
    | none => rfl
    | some i => exact if_pos hlock
  case h_6 hk =>
    rw [hk] at h
    rw [if_neg (h.ne_fldOff (f := PWR_PWR_CAP_W) (by decide) (by decide)),
      h.entryAt_none (f := PWR_OP_TARGET) (by decide)]
    rfl
  case h_7 hk =>
    rw [hk] at h
    rw [h.onBit_eq (f := DUSK_TW_REQ) (by decide) (by decide),
      h.onBit_eq (f := DUSK_TW_EXIT) (by decide) (by decide)]
  case h_8 hk =>
    rw [hk] at h
    rw [h.onBit_eq (f := DAWN_FW_GO) (by decide) (by decide),
      h.onBit_eq (f := DAWN_REC_EMIT) (by decide) (by decide)]
  case h_9 => rfl

theorem ownApply_of_onlyLocked (halign : off % 4 = 0) (hlock : locked s p = true) (x : ResetIn) :
    ownApply s req p off v x = s := by
  unfold ownApply
  split
  · exact h.headerApply_eq rfl x
  split
  · next hk =>
    have hreg := h.not_moverReg hk halign
    have hmesh : off ≠ 0x124 := by rintro rfl; simp [moverReg] at hreg
    rw [moverWord, if_neg hmesh, if_neg (by simp [hreg])]
  · rw [linkApply_of_onlyLocked h halign, packageApply_of_onlyLocked h hlock]

theorem plainApply_of_onlyLocked (hlock : locked s p = true) (refused : Bool) :
    plainApply s p off v refused = s := by
  refine List.foldlRecOn (motive := fun t => t = s) _ _ rfl ?_
  rintro t rfl ⟨f, i⟩ hmem
  refine if_pos ?_
  obtain ⟨hacc, -, -⟩ : (f.acc = .rwl ∨ f.acc = .ro) ∧ _ := h _ hmem
  obtain hacc | hacc := hacc
  · simp [fieldDropped, hacc, hlock]
  · simp [hacc]

theorem wordApply_of_onlyLocked (halign : off % 4 = 0) (hlock : locked s p = true) (x : ResetIn) :
    wordApply s req p off v x = s := by
  rw [wordApply, ownApply_of_onlyLocked h halign hlock, plainApply_of_onlyLocked h hlock]

end

theorem pairApply_of_onlyLocked (h : OnlyLocked p.kind off) (h' : OnlyLocked p.kind (off + 4))
    (halign : off % 4 = 0) (hlock : locked s p = true) (x : ResetIn) : pairApply s req p off v x = s := by
  have hwords : wordApply (wordApply s req p off (v % 2 ^ 32) x) req p (off + 4) (v / 2 ^ 32) x = s := by
    rw [wordApply_of_onlyLocked h halign hlock, wordApply_of_onlyLocked h' (by omega) hlock]
  unfold pairApply
  extract_lets hi
  split
  · next hk hentry =>
    rw [hk] at h
    rw [h.entryAt_none (f := PKGSW_DIST_GLB_BASE) (by decide)] at hentry
    contradiction
  · next hk =>
    have hquarter := h.not_quarter hk halign
    rw [if_neg (by simp; omega)]
    exact hwords
  · exact hwords

/-! ### The write of a host -/

theorem regError_of_putError {o size : Nat} (h : putError s req o size v = 0) : regError s req o size = 0 := by
  unfold putError writeErr at h
  split at h
  · exact absurd h (by decide)
  · exact h

theorem aligned_of_regError {o size : Nat} (hpage : pageAt o = some p) (h : regError s req o size = 0) :
    o % 4 = 0 := by
  by_contra hne
  have hbad : (!((size == 4 && o % 4 == 0) || (size == 8 && o % 8 == 0))) = true := by
    have : o % 8 ≠ 0 := by omega
    simp [hne, this]
  simp only [regError, hpage, hbad, if_true] at h
  split at h
  · exact absurd h (by decide)
  split at h
  · exact absurd h (by decide)
  · exact absurd h (by decide)

theorem off_aligned_of_putError {o size : Nat} (hpage : pageAt o = some p) (h : putError s req o size v = 0) :
    (o - p.base) % 4 = 0 := by
  have := aligned_of_regError hpage (regError_of_putError h)
  have := base_of_pageAt hpage
  omega

theorem moverBusy_of_onlyLocked (h : OnlyLocked p.kind off) (halign : off % 4 = 0) :
    moverBusy s p off = false := by
  by_cases hk : p.kind = .mover
  · simp [moverBusy, h.not_moverReg hk halign]
  · simp [moverBusy, hk]

/-! ### DIST_GLB under LOCK (R29) -/

/-- The register of a half of a District's pair holds that field alone. -/
theorem fieldsAt_distGlb (d : DistId) :
    fieldsAt .pkgsw (fldOff PKGSW_DIST_GLB_BASE d) = [(PKGSW_DIST_GLB_BASE, d.val)] ∧
      fieldsAt .pkgsw (fldOff PKGSW_DIST_GLB_SIZE d) = [(PKGSW_DIST_GLB_SIZE, d.val)] := by
  fin_cases d <;> decide

theorem entryAt_distGlb (d : DistId) :
    entryAt PKGSW_DIST_GLB_BASE (fldOff PKGSW_DIST_GLB_BASE d) = some d.val ∧
      entryAt PKGSW_DIST_GLB_BASE (fldOff PKGSW_DIST_GLB_SIZE d) = none ∧
      entryAt PKGSW_DIST_GLB_SIZE (fldOff PKGSW_DIST_GLB_SIZE d) = some d.val := by
  fin_cases d <;> decide

theorem fldOff_distGlb (d : DistId) : fldOff PKGSW_DIST_GLB_BASE d = 0x110 + 16 * d.val ∧
    fldOff PKGSW_DIST_GLB_SIZE d = 0x114 + 16 * d.val := by
  fin_cases d <;> decide

theorem pageAt_pkgsw (h : off < 0x1000) : pageAt (pkgswP.base + off) = some pkgswP := by
  have hbase : pkgswP.base = 0x4000 := rfl
  have hpage : (pkgswP.base + off) / 0x1000 = 4 := by omega
  rw [pageAt, if_pos (by omega), hpage]
  rfl

theorem glbWrite_of_locked {d : Nat} {b z : Option Nat} (hlock : locked s pkgswP = true) :
    glbWrite s req d b z = raise s pkgswP 1 :=
  if_pos (by simp [hlock])

/-- A field that the action of its register writes is not written again. -/
theorem fieldApply_of_ownWrite {refused : Bool} (hown : ownWrite f = true) :
    fieldApply s p f i v refused = s :=
  if_pos (by simp [hown])

theorem wordApply_distGlb_base (hlock : locked s pkgswP = true) (d : DistId) (x : ResetIn) :
    wordApply s req pkgswP (fldOff PKGSW_DIST_GLB_BASE d) v x = raise s pkgswP 1 := by
  have hoff := (fldOff_distGlb d).1
  have hfields : fieldsAt pkgswP.kind (fldOff PKGSW_DIST_GLB_BASE d) = _ := (fieldsAt_distGlb d).1
  have hown : ownApply s req pkgswP (fldOff PKGSW_DIST_GLB_BASE d) v x = raise s pkgswP 1 := by
    rw [ownApply, if_neg (by omega), if_neg (by decide), packageApply]
    simp only [pkgswP, linkApply, (entryAt_distGlb d).1]
    exact glbWrite_of_locked hlock
  rw [wordApply, hown, plainApply, hfields, List.foldl_cons, List.foldl_nil,
    fieldApply_of_ownWrite (f := PKGSW_DIST_GLB_BASE) (by decide)]

theorem wordApply_distGlb_size (hlock : locked s pkgswP = true) (d : DistId) (x : ResetIn) :
    wordApply s req pkgswP (fldOff PKGSW_DIST_GLB_SIZE d) v x = raise s pkgswP 1 := by
  have hoff := (fldOff_distGlb d).2
  have hfields : fieldsAt pkgswP.kind (fldOff PKGSW_DIST_GLB_SIZE d) = _ := (fieldsAt_distGlb d).2
  have hown : ownApply s req pkgswP (fldOff PKGSW_DIST_GLB_SIZE d) v x = raise s pkgswP 1 := by
    rw [ownApply, if_neg (by omega), if_neg (by decide), packageApply]
    simp only [pkgswP, linkApply, (entryAt_distGlb d).2.1, (entryAt_distGlb d).2.2]
    exact glbWrite_of_locked hlock
  rw [wordApply, hown, plainApply, hfields, List.foldl_cons, List.foldl_nil,
    fieldApply_of_ownWrite (f := PKGSW_DIST_GLB_SIZE) (by decide)]

theorem pairApply_distGlb (hlock : locked s pkgswP = true) (d : DistId) (x : ResetIn) :
    pairApply s req pkgswP (fldOff PKGSW_DIST_GLB_BASE d) v x = raise s pkgswP 1 := by
  simp only [pairApply, pkgswP, (entryAt_distGlb d).1]
  exact glbWrite_of_locked hlock

/-- Settles O53. -/
theorem lockedFieldsKeepTheirValue : Obligations.LockedFieldsKeepTheirValue := by
  refine ⟨?word, ?pair, ?distGlb⟩
  case word =>
    intro s req o v x p hplaza hport herror hpage hlock hfields
    have halign := off_aligned_of_putError hpage herror
    rw [exec_registerWrite_word hplaza hport herror hpage (moverBusy_of_onlyLocked hfields halign),
      wordApply_of_onlyLocked hfields halign hlock]
  case pair =>
    intro s req o v x p hplaza hport herror hpage hlock hfields
    have halign := off_aligned_of_putError hpage herror
    have hlow : OnlyLocked p.kind (o.val - p.base) := fun e he => hfields e (List.mem_append_left _ he)
    have hhigh : OnlyLocked p.kind (o.val - p.base + 4) := fun e he => hfields e (List.mem_append_right _ he)
    rw [exec_registerWrite_pair hplaza hport herror hpage (moverBusy_of_onlyLocked hlow halign)
      (moverBusy_of_onlyLocked hhigh (by omega)), pairApply_of_onlyLocked hlow hhigh halign hlock]
  case distGlb =>
    intro s req o v z x d hplaza hport herror hlock hplace
    obtain ⟨hbase, hsize⟩ := fldOff_distGlb d
    obtain ⟨rfl, ho | ho⟩ | ⟨rfl, ho⟩ := hplace
    · have hpage : pageAt o.val = some pkgswP := ho ▸ pageAt_pkgsw (by omega)
      rw [exec_registerWrite_word hplaza hport herror hpage rfl, ho, Nat.add_sub_cancel_left,
        wordApply_distGlb_base hlock]
    · have hpage : pageAt o.val = some pkgswP := ho ▸ pageAt_pkgsw (by omega)
      rw [exec_registerWrite_word hplaza hport herror hpage rfl, ho, Nat.add_sub_cancel_left,
        wordApply_distGlb_size hlock]
    · have hpage : pageAt o.val = some pkgswP := ho ▸ pageAt_pkgsw (by omega)
      rw [exec_registerWrite_pair hplaza hport herror hpage rfl rfl, ho, Nat.add_sub_cancel_left,
        pairApply_distGlb hlock]

end Sys2Proof.Proofs
end

section
/-!
PROOF. Movers, lines, signals and credits (R79 to R85, R92, R367): a channel whose first line moves goes on with
the rest; a line or a signal that its tile takes reaches it; a credit goes back to its tile.
-/
open Sys2Proof Sys2Proof.Machine Sys2Proof.Safety Sys2Proof.Laws
namespace Sys2Proof.Proofs

variable {s : State} {t : TileId}

/-! ### A channel -/

theorem moveLines_of_yes {n c i : Nat} {e : SectorErrs} (h : (moveLine s n c e (2 * i)).2 = .yes) (k : Nat) :
    moveLines s n c e i (k + 1) = moveLines (moveLine s n c e (2 * i)).1 n c e (i + 1) k := if_pos h

theorem moverStep_of_yes {c : Nat} {m : MCmd} {e : SectorErrs} (hhead : headCmd s t c = some m)
    (hyes : (moveLine s t c e 0).2 = .yes) (n : Nat) :
    moverStep s t c m.op (n + 1) e = moveLines (moveLine s t c e 0).1 t c e 1 n := by
  rw [moverStep, hhead]
  exact (if_pos rfl).trans (moveLines_of_yes (i := 0) hyes n)

theorem exec_channelHalt {c : Fin 8} {e : SectorErrs} (h : (moveLine s t c e 0).2 = .halted) :
    exec (.channelHalt t c e) s = .next (moveLine s t c e 0).1 :=
  congrArg Host.Outcome.next (if_pos h)

theorem exec_moverCommandDone {c : Fin 8} {m : MCmd} {r : List MCmd} (hcmds : ((tile s t).chan c).cmds = m :: r)
    (hgood : m.bad = 0) (hmoved : m.unfinished = false) (hacked : waitsAtWindow s (8 * t + c) = false) :
    exec (.moverCommandDone t c) s
      = .next (setTile s t ((tile s t).setChan c { (tile s t).chan c with cmds := r })) := by
  refine congrArg Host.Outcome.next ?_
  simp only [moverDone, hcmds, hgood, hmoved, hacked]
  rfl

/-! ### What crosses a link group (R17, R18, R289) -/

/-- The state with other flows and errors of its link groups. -/
def withLinks (s : State) (flows : SMap Nat) (flips : SMap (List (Nat × Nat))) : State :=
  { s with dawn := { s.dawn with flows := flows, flips := flips } }

theorem assignFlow_eq_withLinks (s : State) (g flow : Nat) :
    ∃ a b, assignFlow s g flow = withLinks s a b := by
  unfold assignFlow
  split
  · exact ⟨_, s.dawn.flips, rfl⟩
  · exact ⟨s.dawn.flows, s.dawn.flips, rfl⟩

theorem takeFlips_eq_withLinks (s : State) (g flow : Nat) (b : List Byte) :
    ∃ x y, (takeFlips s g flow b).1 = withLinks s x y := by
  unfold takeFlips
  split
  · exact ⟨s.dawn.flows, s.dawn.flips, rfl⟩
  · split
    · exact ⟨s.dawn.flows, s.dawn.flips, rfl⟩
    · exact ⟨s.dawn.flows, _, rfl⟩

/-- A transfer changes the package only in where its flow goes and which errors are still to come. -/
theorem crossData_eq_withLinks (s : State) (gs : List Nat) (flow : Nat) (b : List Byte) :
    ∃ x y, (crossData s gs flow b).1 = withLinks s x y := by
  unfold crossData
  refine List.foldlRecOn (motive := fun r : State × List Byte => ∃ x y, r.1 = withLinks s x y) _ _
    ⟨s.dawn.flows, s.dawn.flips, rfl⟩ ?_
  rintro r ⟨x, y, hr⟩ g -
  obtain ⟨x', y', hassigned⟩ := assignFlow_eq_withLinks r.1 g flow
  obtain ⟨x'', y'', htaken⟩ := takeFlips_eq_withLinks (assignFlow r.1 g flow) g flow r.2
  exact ⟨x'', y'', by rw [htaken, hassigned, hr]; rfl⟩

theorem crossNat_eq_withLinks (s : State) (gs : List Nat) (flow k v : Nat) :
    ∃ x y, (crossNat s gs flow k v).1 = withLinks s x y := crossData_eq_withLinks s gs flow _

/-! ### Lines and signals between tiles of the package -/

theorem exec_meshLineArrive_tile {o : Fin 16} {n : Nat} {g : Send} {r : List Send}
    (hsends : ((tile s t).outQ o).sends = g :: r) (hready : sendReady s t o g = true) :
    exec (.meshLineArrive (.tile t o) n) s
      = .next (if g.route.remote then sendRemote s t o n g else sendLocal s t o g) := by
  refine congrArg Host.Outcome.next ?_
  simp only [sendLines, hsends, hready]
  rfl

theorem exec_meshSignalArrive_tile {k : Nat} {g : Sig} (hsig : (tile s t).sigs[k]? = some g)
    (hahead : sigAhead (tile s t) g.route g.seq = false) (hheld : routeHeld s t g.route = false)
    (hlocal : g.route.remote = false) (htakes : meshTakes s g.route.tile = true) {x : State × Nat}
    (hcross : crossNat (setTile s t { tile s t with sigs := (tile s t).sigs.eraseIdx k })
      (routeGroups t g.route) (tileFlow t g.route) 1 (g.route.queue % 8) = x) :
    exec (.meshSignalArrive (.tile t k)) s = .next (setTile x.1 g.route.tile
      ((tile x.1 g.route.tile).addEv (x.2 % 8) (meshClass t g.route.tile))) := by
  have hthere : meshTakes x.1 g.route.tile = true := by
    obtain ⟨a, b, hlinks⟩ := crossNat_eq_withLinks
      (setTile s t { tile s t with sigs := (tile s t).sigs.eraseIdx k }) (routeGroups t g.route)
      (tileFlow t g.route) 1 (g.route.queue % 8)
    rw [← hcross, hlinks]
    exact htakes
  refine congrArg Host.Outcome.next ?_
  simp only [sendSig, hsig, hahead, hheld, hlocal, hcross, hthere]
  rfl

/-! ### From other packages -/

theorem exec_meshLineArrive_package {n i : Nat} (hplace : meshInAt s t = some i)
    (hline : pktType (s.meshIn.getD i []) = 1)
    (hheld : flowHeld s (tileDie t) (pktFlow (s.meshIn.getD i [])) = false)
    (hwanted : lineWanted s t (pktQueue (s.meshIn.getD i [])) = true)
    (hroom : ((tile s t).inQ (pktQueue (s.meshIn.getD i []))).lines.length < 16) {x : State × List Byte}
    (hcross : crossData s [tileDie t] (pktFlow (s.meshIn.getD i [])) (((s.meshIn.getD i []).drop 16).take 64) = x) :
    exec (.meshLineArrive (.package t) n) s = .next (enqueue { x.1 with
      meshIn := if pktLines (s.meshIn.getD i []) ≤ 1 then s.meshIn.eraseIdx i
        else s.meshIn.set i (cutLine (s.meshIn.getD i [])) } t (pktQueue (s.meshIn.getD i [])) x.2 causeOpt
      (some (2048 + (pktSrc (s.meshIn.getD i [])).1 + 256 * (pktSrc (s.meshIn.getD i [])).2))) := by
  have hfits : lineFits s t (pktQueue (s.meshIn.getD i [])) = true := by
    simp only [lineFits, hroom, decide_true, Bool.or_true]
  have hthere : ∀ l, lineWanted { x.1 with meshIn := l } t (pktQueue (s.meshIn.getD i [])) = true := by
    intro l
    obtain ⟨a, b, hlinks⟩ := crossData_eq_withLinks s [tileDie t] (pktFlow (s.meshIn.getD i []))
      (((s.meshIn.getD i []).drop 16).take 64)
    rw [← hcross, hlinks]
    exact hwanted
  refine congrArg Host.Outcome.next ?_
  simp only [remoteLine, hplace, hline, hheld, hfits, hcross, lineInto, hthere]
  rfl

theorem exec_meshSignalArrive_package {i : Nat} (hplace : meshInAt s t = some i)
    (hsig : pktType (s.meshIn.getD i []) = 2)
    (hheld : flowHeld s (tileDie t) (pktFlow (s.meshIn.getD i [])) = false) (htakes : meshTakes s t = true)
    {x : State × Nat}
    (hcross : crossNat s [tileDie t] (pktFlow (s.meshIn.getD i [])) 1 (pktEvent (s.meshIn.getD i [])) = x) :
    exec (.meshSignalArrive (.package t)) s = .next (setTile { x.1 with meshIn := s.meshIn.eraseIdx i } t
      ((tile s t).addEv (x.2 % 8) causeOpt)) := by
  obtain ⟨a, b, hlinks⟩ := crossNat_eq_withLinks s [tileDie t] (pktFlow (s.meshIn.getD i [])) 1
    (pktEvent (s.meshIn.getD i []))
  have hthere : meshTakes { x.1 with meshIn := s.meshIn.eraseIdx i } t = true := by
    rw [← hcross, hlinks]
    exact htakes
  have htile : tile { x.1 with meshIn := s.meshIn.eraseIdx i } t = tile s t := by
    rw [← hcross, hlinks]
    rfl
  refine congrArg Host.Outcome.next ?_
  simp only [remoteSig, hplace, hsig, hheld, hcross, hthere, htile]
  rfl

/-! ### Credits (R367) -/

theorem exec_meshCreditReturn_own {k : Nat} {r : List Nat} (howed : (tile s t).owed = k :: r)
    (hheld : creditHeld s t k = false) : exec (.meshCreditReturn t none) s = .next (setTile
      (crossFlow s (dieGroups (tileDie (k / 16)) (tileDie t)) (creditFlow t k)) t { tile s t with
        owed := r, credits := SMap.put (tile s t).credits k (SMap.getD (tile s t).credits k 0 - 1) }) := by
  refine congrArg Host.Outcome.next ?_
  simp only [creditBack, howed, List.find?_cons, hheld]
  simp

theorem exec_meshCreditReturn_far {f : FarQueue} (hplaza : plazaUp s = true) (hexists : tileExists s t = true)
    (hheld : plazaHeld s 9 t = false) : exec (.meshCreditReturn t (some f)) s = .next (setTile
      (plazaCross s 9 t) t { tile s t with
        credits := SMap.put (tile s t).credits (farKey f) (SMap.getD (tile s t).credits (farKey f) 0 - 1) }) :=
  congrArg Host.Outcome.next (if_pos (by simp [hplaza, hexists, hheld]))

/-- Settles O19. -/
theorem moverAndMesh : Obligations.MoverAndMesh := by
  refine ⟨?read, ?write, ?fill, ?tread, ?halt, ?done, ?sendLocal, ?sendRemote, ?corrupted, ?packageLine, ?signal,
    ?packageSignal, ?credit, ?farCredit⟩
  case read =>
    exact fun s t c n m e hhead hop hyes => congrArg Host.Outcome.next (hop ▸ moverStep_of_yes hhead hyes n)
  case write =>
    exact fun s t c n m hhead hop hyes => congrArg Host.Outcome.next (hop ▸ moverStep_of_yes hhead hyes n)
  case fill =>
    exact fun s t c n m hhead hop hyes => congrArg Host.Outcome.next (hop ▸ moverStep_of_yes hhead hyes n)
  case tread =>
    exact fun s t c n m e hhead hop hyes => congrArg Host.Outcome.next (hop ▸ moverStep_of_yes hhead hyes n)
  case halt => exact fun s t c e hhalted => exec_channelHalt hhalted
  case done => exact fun s t c m r hcmds hgood hmoved hacked => exec_moverCommandDone hcmds hgood hmoved hacked
  case sendLocal =>
    intro s t o n g r b x hsends hlines hready hlocal hfits
    rw [exec_meshLineArrive_tile hsends hready, if_neg (by simp [hlocal])]
  case sendRemote =>
    intro s t o n g r b x hsends hlines hready hremote hn hleft
    rw [exec_meshLineArrive_tile hsends hready, if_pos hremote]
  case corrupted => exact fun s t o n k => rfl
  case packageLine =>
    exact fun s t n i x hplace hline hheld hwanted hroom hcross =>
      exec_meshLineArrive_package hplace hline hheld hwanted hroom hcross
  case signal =>
    exact fun s t k g x hsig hahead hheld hlocal htakes hcross =>
      exec_meshSignalArrive_tile hsig hahead hheld hlocal htakes hcross
  case packageSignal =>
    exact fun s t i x hplace hsig hheld htakes hcross =>
      exec_meshSignalArrive_package hplace hsig hheld htakes hcross
  case credit => exact fun s t k r howed hheld => exec_meshCreditReturn_own howed hheld
  case farCredit => exact fun s t f hplaza hexists hheld => exec_meshCreditReturn_far hplaza hexists hheld

end Sys2Proof.Proofs
end

section
/-!
PROOF. The commands of a near-bank engine (R140 to R161, R297, R298): a window access that is served acts on the
window with the bytes that came; the mode, runs and refresh go on; the end of a refresh pause.
-/
open Sys2Proof Sys2Proof.Machine Sys2Proof.Safety Sys2Proof.Laws
namespace Sys2Proof.Proofs

variable {s : State} {t : TileId} {d : DistId} {x : Target}

/-! ### The window (R140 to R142, R149) -/

section
variable {o : Fin 1048576} (hx : (resolve s d (windowAt t o)).toOption = some x)
  (hlives : sliceLives s t = true) (hheld : plazaHeld s d t = false)
include hx hlives hheld

theorem exec_engineWindowRead (q : Fin 4) (e : Option SectorErr) :
    exec (.engineWindowAccess t d o q none e) s
      = .next (winSectorRead (plazaData s d t []).1 t (o.val / 32 * 32) q e).1 :=
  congrArg Host.Outcome.next (windowRequest_of_served hx hlives hheld _ _)

theorem exec_engineWindowWrite {b : List Byte} (hb : 0 < b.length) (hline : o.val % 64 + b.length ≤ 64)
    (q : Fin 4) (e : Option SectorErr) : exec (.engineWindowAccess t d o q (some b) e) s
      = .next (windowPut (plazaData s d t b).1 d t o (plazaData s d t b).2) := by
  refine (if_neg ?_).trans (congrArg Host.Outcome.next (windowRequest_of_served hx hlives hheld _ _))
  simp only [Bool.or_eq_true, decide_eq_true_eq]
  omega

end

theorem exec_engineGo {w : Nat} {u : State} (hx : (resolve s d (windowAt t 0xFFF40)).toOption = some x)
    (hlives : sliceLives s t = true) (hheld : plazaHeld s d t = false) (hw : w < 2 ^ 32)
    (hcome : plazaData s d t (leBytes 4 w) = (u, leBytes 4 w)) :
    exec (.engineGo t d w) s = .next (goWrite u t w none) := by
  have hword : leNat (leBytes 4 w) = w := (leNat_leBytes 4 w).trans (Nat.mod_eq_of_lt hw)
  refine congrArg Host.Outcome.next ((windowRequest_of_served hx hlives hheld _ _).trans ?_)
  rw [hcome, hword]

/-- In engine mode a GO of a good word waits in the window's queue. -/
theorem goWrite_of_engine {n w : Nat} (hmode : (slice s n).mode = 1) (hgood : goBad w = false) (who : Option Nat) :
    goWrite s n w who
      = setSlice s n (flushForGo { slice s n with queue := (slice s n).queue ++ [.go w false who] }) := by
  simp only [goWrite, hmode, hgood]
  rfl

/-! ### The mode (R142) -/

theorem modeEntered_of_stays {n : Nat} (hmode : (slice s n).mode = 2) (hflushed : flushedIn (slice s n) = true)
    (hheld : (slice s n).held ≠ some 0) (htw : rd s duskP DUSK_TW_STATE ≠ 1) :
    modeEntered s n = setSlice s n { slice s n with
      mode := 1, held := none, queue := (slice s n).queue.map WinOp.onTime } := by
  simp only [modeEntered, hmode, hflushed, hheld, htw]
  rfl

theorem modeEntered_of_leaves {n : Nat} (hmode : (slice s n).mode = 2) (hflushed : flushedIn (slice s n) = true)
    (hheld : (slice s n).held = some 0) :
    modeEntered s n = setSlice s n { slice s n with
      mode := 3, held := none, queue := (slice s n).queue.map WinOp.onTime } := by
  simp only [modeEntered, hmode, hflushed, hheld]
  rfl

/-! ### Runs and refresh (R157, R158) -/

theorem exec_enginePass (hlives : sliceLives s t = true) (hdue : passDue (slice s t) = true)
    (hgoes : rd s (engineP t) ENGINE_PAUSED = 0) (e : EngErrs) :
    exec (.enginePass t e) s = .next (runPass s t e) :=
  congrArg Host.Outcome.next (if_pos (by simp [hlives, hdue, hgoes]))

theorem exec_hubRefreshDue (hlives : sliceLives s t = true) (hmode : (slice s t).mode ≠ 0) :
    exec (.hubRefreshDue t) s = .next (hubRefresh s t) :=
  congrArg Host.Outcome.next (if_pos (by simp [hlives, hmode]))

theorem hubRefresh_of_running {n : Nat} (hrun : (slice s n).run ≠ none) (howed : rd s (engineP n) ENGINE_OWED < 8) :
    hubRefresh s n = wr s (engineP n) ENGINE_OWED (rd s (engineP n) ENGINE_OWED + 1) :=
  (if_neg (by simpa using hrun)).trans (if_pos howed)

theorem hubRefresh_of_idle {n : Nat} (hrun : (slice s n).run = none) :
    hubRefresh s n = refreshIntervals s n 1 :=
  if_pos (by simp [hrun])

/-- Refresh that is repaid takes no free value, and leaves the register file but for `OWED`. -/
theorem repayRefresh_fresh (s : State) (n : Nat) : (repayRefresh s n).fresh = s.fresh := rfl

theorem repayRefresh_tiles (s : State) (n : Nat) : (repayRefresh s n).tiles = s.tiles := rfl

/-- The state in which a pass resumes after a pause of a length. -/
def afterPause (s : State) (n len : Nat) : State :=
  let p := engineP n
  let s := bump64 (wr (repayRefresh s n) p ENGINE_PAUSED 0) p ENGINE_PAUSE_CYC_LO ENGINE_PAUSE_CYC_HI len
  wr s p ENGINE_PAUSE_MAX (max (rd s p ENGINE_PAUSE_MAX) len)

theorem exec_refreshPauseEnd (hlives : sliceLives s t = true) (hpaused : rd s (engineP t) ENGINE_PAUSED = 1) :
    exec (.refreshPauseEnd t) s = .next (afterPause (freeNat s).2 t ((freeNat s).1 % 3001)) :=
  congrArg Host.Outcome.next (if_pos (by simp [hlives, hpaused]))

/-- The counters of a pause are written behind the flag that it leaves clear. -/
theorem afterPause_paused (hok : regsOk s = true) (n len : Nat) :
    rd (afterPause s n len) (engineP n) ENGINE_PAUSED = 0 := by
  have hrepaid : regsOk (repayRefresh s n) = true := (repayRefresh_kept s n (Kept.refl s)).regs hok
  have hclear : ReadsAs (engineP n) ENGINE_PAUSED 0 0 _ := .written (p := engineP n) hrepaid (by decide)
  exact (((hclear.wr_of_ne _ (fkey_ne_of_place (engineP n) (by decide))).wr_of_ne _
    (fkey_ne_of_place (engineP n) (by decide))).wr_of_ne _ (fkey_ne_of_place (engineP n) (by decide))).val

/-! ### ENABLE (R160) -/

theorem exec_engineEnableWrite {req : PortId} (hw : takesWrite s req (engineP t) HDR_ENABLE = true)
    (hopen : tileFenced s t = false) (on : Bool) :
    exec (.engineEnableWrite req t on) s = .next (engineEnable s t on) :=
  congrArg Host.Outcome.next ((fieldWrite_of_takesWrite hw _).trans (if_neg (by simp [hopen])))

theorem exec_engineSoftReset {req : PortId} (hw : takesWrite s req (engineP t) HDR_SOFT_RESET = true) :
    exec (.engineSoftReset req t) s = .next (engineSoft s t) :=
  congrArg Host.Outcome.next (fieldWrite_of_takesWrite hw _)

/-- Settles O21. -/
theorem engineCommands : Obligations.EngineCommands := by
  refine ⟨?read, ?write, ?enter, ?leave, ?entered, ?enteredHeld, ?left, ?go, ?accept, ?pass, ?complete, ?owed, ?hub,
    ?pause, ?pauseEnd, ?enable, ?reset, ?resetEngine⟩
  case read => exact fun s t d x o q e hx hlives hheld => exec_engineWindowRead hx hlives hheld q e
  case write =>
    exact fun s t d x o q b e hb hline hx hlives hheld => exec_engineWindowWrite hx hlives hheld hb hline q e
  case enter =>
    intro s t d x u hx hlives hheld hcome hon hmode
    rw [exec_engineModeWrite_of_served hx hlives hheld (by decide) (congrArg Prod.snd hcome), hcome,
      modeWrite_one_of_controller hon hmode]
  case leave =>
    intro s t d x u hx hlives hheld hcome hmode
    refine ⟨modeWrite u t 0, ?_, ?_⟩
    · rw [exec_engineModeWrite_of_served hx hlives hheld (by decide) (congrArg Prod.snd hcome), hcome]
    · simp [modeWrite_zero_of_engine hmode]
  case entered =>
    intro s t hlives hmode hflushed hheld htw
    exact congrArg Host.Outcome.next ((if_pos hlives).trans (modeEntered_of_stays hmode hflushed hheld htw))
  case enteredHeld =>
    intro s t hlives hmode hflushed hheld
    exact congrArg Host.Outcome.next ((if_pos hlives).trans (modeEntered_of_leaves hmode hflushed hheld))
  case left => exact fun s t hlives _ => congrArg Host.Outcome.next (if_pos hlives)
  case go =>
    intro s t d x w u hx hlives hheld hw hcome hmode hgood
    rw [exec_engineGo hx hlives hheld hw hcome, goWrite_of_engine hmode hgood]
  case accept => exact fun s t hlives _ => congrArg Host.Outcome.next (if_pos hlives)
  case pass => exact fun s t e hlives hdue hgoes => exec_enginePass hlives hdue hgoes e
  case complete => exact fun s t r hlives _ _ => congrArg Host.Outcome.next (if_pos hlives)
  case owed =>
    intro s t hlives hmode hrun howed
    rw [exec_hubRefreshDue hlives hmode, hubRefresh_of_running hrun howed]
  case hub =>
    intro s t hlives hmode hrun
    rw [exec_hubRefreshDue hlives hmode, hubRefresh_of_idle hrun]
  case pause =>
    exact fun s t hlives hdue howed hgoes =>
      congrArg Host.Outcome.next (if_pos (by simp [hlives, hdue, howed, hgoes]))
  case pauseEnd =>
    intro s t hok hlives hpaused
    exact ⟨_, exec_refreshPauseEnd hlives hpaused, rfl, afterPause_paused hok t _, rfl⟩
  case enable => exact fun s req t on hw hopen => exec_engineEnableWrite hw hopen on
  case reset =>
    intro s req t hw hmode hstarts hdrains
    rw [exec_engineSoftReset hw, engineSoft_of_resting hmode hstarts hdrains]
  case resetEngine =>
    intro s req t hw hmode
    rw [exec_engineSoftReset hw, engineSoft_of_engine hmode]

end Sys2Proof.Proofs
end

section
/-!
PROOF. A slot instruction stays in its tile (R63, R67, R73, R86, R90, R95): what its issue asks of the package, a
credit, a post to the Plaza or a hint, changes no register, accumulator or SRAM of a tile and no slice.
-/
open Sys2Proof Sys2Proof.Machine Sys2Proof.Safety Sys2Proof.Laws
namespace Sys2Proof.Proofs

/-! ### What an issue asks of the package -/

/-- From `s` to `x`, no slice changes, nor what any tile stores. -/
structure SameContents (s x : State) : Prop where
  slices : x.slices = s.slices
  tiles : ∀ n, sameStores (tile x n) (tile s n)

namespace SameContents

variable {s x y : State}

theorem refl (s : State) : SameContents s s := ⟨rfl, fun _ => sameStores_refl _⟩

theorem trans (h : SameContents s x) (k : SameContents x y) : SameContents s y :=
  ⟨k.slices.trans h.slices, fun n => sameStores_trans (k.tiles n) (h.tiles n)⟩

theorem ite {c : Prop} [Decidable c] (hx : SameContents s x) (hy : SameContents s y) :
    SameContents s (if c then x else y) := by
  split
  · exact hx
  · exact hy

theorem of_eq (hslices : x.slices = s.slices) (htiles : x.tiles = s.tiles) : SameContents s x :=
  ⟨hslices, fun n => by
    have htile : tile x n = tile s n := by rw [tile, htiles]; rfl
    exact htile ▸ sameStores_refl _⟩

theorem of_keepsStores (h : KeepsStores s x) : SameContents s x := of_eq h.slices h.tiles

theorem setTile (s : State) (n : Nat) {t : Tile} (ht : sameStores t (tile s n)) :
    SameContents s (setTile s n t) := by
  refine ⟨rfl, fun m => ?_⟩
  rw [tile_setTile]
  split
  · next hm => exact hm ▸ ht
  · exact sameStores_refl _

theorem owe (s : State) (sender key : Nat) : SameContents s (owe s sender key) :=
  ite (setTile s sender ⟨rfl, rfl, rfl, rfl, rfl, rfl⟩) (of_eq rfl rfl)

theorem pollWaits (s : State) (d : Nat) : KeepsStores s (pollWaits s d) := by
  refine KeepsStores.foldl _ (.refl s) fun y j => ?_
  split
  · exact .ite (((KeepsStores.refl y).wr _ _ _ _).finishJob _ _ _ _) (.refl y)
  · exact .refl y

theorem hostEvent (s : State) (d e : Nat) : KeepsStores s (hostEvent s d e) :=
  .trans (.ite (((KeepsStores.refl s).bump _ _ _ _).postEntry _ _) ((KeepsStores.refl s).bump _ _ _ _))
    (pollWaits _ d)

theorem postInstance (s : State) (dist slot pos : Nat) (desc : List Byte) (members : List Nat) :
    SameContents s (postInstance s dist slot pos desc members).1 := by
  unfold Machine.postInstance
  split
  · exact refl s
  · exact of_eq rfl rfl

theorem plazaNat (s : State) (src n k v : Nat) : SameContents s (plazaNat s src n k v).1 := by
  obtain ⟨a, b, hlinks⟩ := crossNat_eq_withLinks s [tileDie n] (plazaFlow src n) k v
  rw [Machine.plazaNat, hlinks]
  exact of_eq rfl rfl

theorem postArrive (s : State) (n : Nat) (p : Post) : SameContents s (postArrive s n p) := by
  cases p with
  | coll dist slot pos e arg desc members =>
    simp only [Machine.postArrive]
    let x := Machine.plazaNat s 8 n 4 arg
    let r := Machine.postInstance x.1 dist slot pos desc members
    have hcross : SameContents s x.1 := plazaNat s 8 n 4 arg
    refine ite (hcross.trans (of_eq rfl rfl)) ?_
    have hinst : SameContents s r.1 := hcross.trans (postInstance x.1 dist slot pos desc members)
    split
    · exact hinst
    · exact hinst.trans (of_eq rfl rfl)
  | hevt e =>
    have hcross := plazaNat s 8 n 1 e
    exact ite (hcross.trans (of_keepsStores (hostEvent _ _ _))) hcross

theorem tilePost (s : State) (n : Nat) (p : Post) : SameContents s (tilePost s n p) :=
  ite (of_eq rfl rfl) (postArrive s n p)

theorem collPost (s : State) (n entry e arg : Nat) : SameContents s (collPost s n entry e arg) := by
  unfold Machine.collPost
  split
  · exact refl s
  split
  · split
    · exact refl s
    · extract_lets d pos t noted
      have hnoted : SameContents s noted := ite (setTile s n ⟨rfl, rfl, rfl, rfl, rfl, rfl⟩) (refl s)
      exact hnoted.trans (tilePost _ _ _)
  · exact refl s

theorem postHint (s : State) (d cls lead : Nat) : SameContents s (postHint s d cls lead) :=
  ite (of_eq rfl rfl) (of_eq rfl rfl)

theorem applyEff (s : State) (n : Nat) (e : Eff) : SameContents s (applyEff s n e) := by
  cases e with
  | credit sender key => exact owe s sender key
  | coll entry e arg => exact collPost s n entry e arg
  | hevt e => exact tilePost s n (.hevt e)
  | phase cls lead => exact postHint s (tileDie n) cls lead

end SameContents

/-! ### The issue of a bundle -/

/-- A tile's cycle changes no other tile's stores, and no slice. -/
theorem applyTile_stays (s : State) (n : Nat) (r : Tile × List Eff) :
    (applyTile s n r).slices = s.slices ∧
      ∀ m, m ≠ n → sameStores (tile (applyTile s n r) m) (tile s m) := by
  have heffs : SameContents (setTile s n r.1) (applyTile s n r) :=
    List.foldlRecOn (motive := SameContents (setTile s n r.1)) _ _ (.refl _)
      fun x hx e _ => hx.trans (.applyEff x n e)
  refine ⟨heffs.slices, fun m hm => ?_⟩
  have hother : tile (setTile s n r.1) m = tile s m := by rw [tile_setTile, if_neg hm]
  exact hother ▸ heffs.tiles m

theorem slotIssue_stays (s : State) (n : Nat) (i : Bundle) :
    (slotIssue s n i).slices = s.slices ∧
      ∀ m, m ≠ n → sameStores (tile (slotIssue s n i) m) (tile s m) := by
  unfold slotIssue
  extract_lets t
  split
  · exact ⟨rfl, fun _ _ => sameStores_refl _⟩
  · exact applyTile_stays s n _

theorem eq_of_next {x t : State} (h : Host.Outcome.next x = (.next t : Host.Outcome State Fault Refusal)) :
    t = x := (Host.Outcome.next.inj h).symm

theorem eq_of_wellFormed {c : Prop} [Decidable c] {f : Fault} {x t : State}
    (h : (if c then .fault f else .next x : Host.Outcome State Fault Refusal) = .next t) : t = x := by
  split at h
  · contradiction
  · exact eq_of_next h

/-- The command of a slot instruction issues a bundle on its tile, or is malformed. -/
theorem exec_of_slotBundle {c : Instr} {k : TileId} {i : Bundle} {s t : State} (h : slotBundle c = some (k, i))
    (hexec : exec c s = .next t) : ∃ b, t = slotIssue s k b := by
  unfold slotBundle at h
  split at h <;> cases h
  all_goals first
    | exact ⟨_, eq_of_next hexec⟩
    | exact ⟨_, eq_of_wellFormed hexec⟩

/-- Settles O37. -/
theorem slotCommandsStayInTheirTile : Obligations.SlotCommandsStayInTheirTile := by
  intro c k i s t hslot hexec
  obtain ⟨b, rfl⟩ := exec_of_slotBundle hslot hexec
  obtain ⟨hslices, htiles⟩ := slotIssue_stays s k b
  refine ⟨htiles, fun n => ?_⟩
  have hslice : slice (slotIssue s k b) n = slice s n := by rw [slice, hslices]; rfl
  rw [hslice]
  exact ⟨rfl, rfl, rfl, rfl, rfl⟩

end Sys2Proof.Proofs
end

section
/-!
PROOF. A host's window write stays in its District (R23, R246): what a write to the slice, the window or the SRAM
of a tile does beside it is in registers of pages other than the Districts'; each piece goes where the check of R23
finds a tile of the District, and what it has written leaves every tile its owner.
-/
open Sys2Proof Sys2Proof.Machine Sys2Proof.Safety Sys2Proof.Laws
namespace Sys2Proof.Proofs

/-! ### Writes beside the pages of the Districts -/

/-- The page is no District's. -/
def OffDistricts (q : PageId) : Prop := q.base < 0x10000 ∨ 0x14000 ≤ q.base

/-- The bit numbers in BAR0 of the pages of the Districts. -/
def InDistricts (k : Nat) : Prop := 8 * 0x10000 ≤ k ∧ k < 8 * 0x14000

theorem OffDistricts.fkey {q : PageId} (h : OffDistricts q) {f : Fld} (hf : 8 * f.off + f.lo < 8 * 0x1000) :
    ¬ InDistricts (fkey q f 0) := by
  have hpage := base_mod q
  have hkey : Machine.fkey q f 0 = 8 * (q.base + f.off) + f.lo := by simp [Machine.fkey]
  rintro ⟨hlo, hhi⟩
  obtain hbase | hbase := h <;> omega

theorem offDistricts_pkgsw : OffDistricts pkgswP := .inl (by decide)
theorem offDistricts_hostport {d : Nat} (h : d < 4) : OffDistricts (hostportP d) :=
  .inl (by simp only [hostportP, PageId.base]; omega)
theorem offDistricts_slice (n : Nat) : OffDistricts (sliceP n) := .inr (by simp only [sliceP, PageId.base]; omega)
theorem offDistricts_engine (n : Nat) : OffDistricts (engineP n) := .inr (by simp only [engineP, PageId.base]; omega)

/-- From `s` to `x`, no slice changes and no stores of a tile but those that `P` names; what is listed of the
registers of the Districts stays listed. -/
structure Touches (P : Nat → Prop) (s x : State) : Prop where
  slices : ∀ n, ¬ P n → slice x n = slice s n
  tiles : ∀ n, ¬ P n → sameStores (tile x n) (tile s n)
  listed : ∀ k v, InDistricts k → SMap.find s.regs k = some v → SMap.find x.regs k = some v
  scrubs : x.scrubs = s.scrubs

namespace Touches

variable {P Q : Nat → Prop} {s x y : State} {n : Nat}

theorem refl (P : Nat → Prop) (s : State) : Touches P s s :=
  ⟨fun _ _ => rfl, fun _ _ => sameStores_refl _, fun _ _ _ h => h, rfl⟩

theorem trans (h : Touches P s x) (k : Touches P x y) : Touches P s y :=
  ⟨fun n hn => (k.slices n hn).trans (h.slices n hn), fun n hn => sameStores_trans (k.tiles n hn) (h.tiles n hn),
    fun i v hi hv => k.listed i v hi (h.listed i v hi hv), k.scrubs.trans h.scrubs⟩

theorem mono (h : Touches P s x) (hPQ : ∀ n, P n → Q n) : Touches Q s x :=
  ⟨fun n hn => h.slices n (mt (hPQ n) hn), fun n hn => h.tiles n (mt (hPQ n) hn), h.listed, h.scrubs⟩

theorem ite {c : Prop} [Decidable c] (hx : Touches P s x) (hy : Touches P s y) :
    Touches P s (if c then x else y) := by
  split
  · exact hx
  · exact hy

theorem foldl {α : Type} {f : State → α → State} (l : List α) (h : Touches P s x)
    (hf : ∀ y, ∀ a ∈ l, Touches P y (f y a)) : Touches P s (l.foldl f x) :=
  List.foldlRecOn (motive := Touches P s) l f h fun _ hy a ha => hy.trans (hf _ a ha)

/-- Fields other than the tiles, the slices, the registers and the scrubs do not matter. -/
theorem of_eq (h : Touches P s x) (hslices : y.slices = x.slices) (htiles : y.tiles = x.tiles)
    (hregs : y.regs = x.regs) (hscrubs : y.scrubs = x.scrubs) : Touches P s y := by
  have hslice : ∀ n, slice y n = slice x n := fun n => by rw [slice, hslices]; rfl
  have htile : ∀ n, tile y n = tile x n := fun n => by rw [tile, htiles]; rfl
  exact ⟨fun n hn => (hslice n).trans (h.slices n hn), fun n hn => htile n ▸ h.tiles n hn,
    fun k v hk hv => hregs ▸ h.listed k v hk hv, hscrubs.trans h.scrubs⟩

/-! ### Registers and reports -/

theorem wr_of_key (h : Touches P s x) {q : PageId} {f : Fld} {i : Nat} (v : Nat)
    (hkey : ¬ InDistricts (fkey q f i)) : Touches P s (wr x q f v i) := by
  refine ⟨h.slices, h.tiles, fun k w hk hw => ?_, h.scrubs⟩
  have hne : k ≠ fkey q f i := fun e => hkey (e ▸ hk)
  have hx := h.listed k w hk hw
  rw [Machine.wr, apply_ite (SMap.find · k)]
  split
  · exact find_del_of_find hx hne
  · rw [find_put, if_neg hne, hx]

section
variable {q : PageId} (h : Touches P s x) (hq : OffDistricts q)
include h hq

theorem wr (f : Fld) (v : Nat) (hf : 8 * f.off + f.lo < 8 * 0x1000 := by decide) : Touches P s (wr x q f v) :=
  h.wr_of_key v (hq.fkey hf)

theorem bump (f : Fld) (n : Nat) (hf : 8 * f.off + f.lo < 8 * 0x1000 := by decide) :
    Touches P s (bump x q f n) := h.wr hq f _ hf

theorem bump64 (lo hi : Fld) (n : Nat) (hlo : 8 * lo.off + lo.lo < 8 * 0x1000 := by decide)
    (hhi : 8 * hi.off + hi.lo < 8 * 0x1000 := by decide) : Touches P s (bump64 x q lo hi n) :=
  (h.wr hq lo _ hlo).wr hq hi _ hhi

theorem lastErr (code : Nat) : Touches P s (lastErr x q code) := h.wr hq _ _

theorem logErr (code lo hi synd : Nat) : Touches P s (logErr x q code lo hi synd) :=
  (((h.wr hq _ _).wr hq _ _).wr hq _ _).wr hq _ _

end

theorem emit (h : Touches P s x) (o : Out) : Touches P s (emit x o) := h.of_eq rfl rfl rfl rfl

theorem sendVector (h : Touches P s x) {d : Nat} (hd : d < 4) (v : Nat) : Touches P s (sendVector x d v) := by
  have hkey : ¬ InDistricts (fkey plazaP PLAZA_IN_SERVICE d) := by
    intro hin
    obtain ⟨hlo, hhi⟩ := hin
    simp only [fkey, plazaP, PageId.base, PLAZA_IN_SERVICE] at hlo
    omega
  exact ite (ite (h.emit _) ((h.emit _).wr_of_key _ hkey)) (h.of_eq rfl rfl rfl rfl)

theorem deliver (h : Touches P s x) : Touches P s (deliver x) :=
  foldl [2, 3, 4] h fun y v _ => foldl (List.range 4) (refl P y) fun z _ hd =>
    ite ((refl P z).sendVector (List.mem_range.mp hd) v) (refl P z)

theorem raise (h : Touches P s x) {q : PageId} (hq : OffDistricts q) (b : Nat) : Touches P s (raise x q b) :=
  (h.wr hq _ _).deliver

theorem refuse (h : Touches P s x) (d a code : Nat) : Touches P s (refuse x d a code) := by
  have hq := offDistricts_pkgsw
  unfold Machine.refuse
  extract_lets counted logged
  have hcounted : Touches P s counted := ite (h.bump hq _ _) (ite (h.bump hq _ _) (ite (h.bump hq _ _) h))
  have hlogged : Touches P s logged := ite hcounted (hcounted.logErr hq _ _ _ _)
  have hheld : Touches P s { logged with refusalHeld := true } := hlogged.of_eq rfl rfl rfl rfl
  exact hheld.raise hq 0

theorem portRefused (h : Touches P s x) {d : Nat} (hd : d < 4) (a code : Nat) (write : Bool) :
    Touches P s (portRefused x d a code write) := by
  have hq := offDistricts_hostport hd
  refine ((h.bump hq _ _ ?_).logErr hq _ _ _ _).raise hq 0
  cases write <;> decide

theorem windowRefused (h : Touches P s x) {d : Nat} (hd : d < 4) (a code : Nat) (write : Bool) :
    Touches P s (windowRefused x d a code write) := by
  unfold Machine.windowRefused
  extract_lets y
  have hy : Touches P s y := h.portRefused hd a code write
  exact ite hy (hy.emit _)

/-! ### A slice and its window -/

theorem setSlice (h : Touches P s x) (hn : P n) (y : Slice) : Touches P s (setSlice x n y) := by
  refine ⟨fun m hm => ?_, h.tiles, h.listed, h.scrubs⟩
  have hne : m ≠ n := fun e => hm (e ▸ hn)
  rw [slice_setSlice, if_neg hne, h.slices m hm]

theorem setTile (h : Touches P s x) (hn : P n) (t : Tile) : Touches P s (setTile x n t) := by
  refine ⟨h.slices, fun m hm => ?_, h.listed, h.scrubs⟩
  have hne : m ≠ n := fun e => hm (e ▸ hn)
  rw [tile_setTile, if_neg hne]
  exact h.tiles m hm

theorem modeRefused (h : Touches P s x) (n : Nat) : Touches P s (modeRefused x n) :=
  (h.lastErr (offDistricts_engine n) 6).raise (offDistricts_engine n) 4

section
variable (hn : P n)
include hn

theorem putWin (h : Touches P s x) (off : Nat) (b : List Byte) : Touches P s (putWin x n off b) := h.setSlice hn _

theorem gather (h : Touches P s x) (w : Narrow) : Touches P s (gather x n w) := h.setSlice hn _

theorem putWindow (h : Touches P s x) (off : Nat) (who : Option Nat) (k : Nat) (b : List Byte) :
    Touches P s (putWindow x n off who k b) := by
  induction k generalizing x off b with
  | zero => exact h
  | succ k ih =>
    unfold Machine.putWindow
    exact ite h (ih (ite h (ite ((h.setSlice hn _).putWin hn _ _) (h.gather hn _))) _ _)

theorem drainPuts (h : Touches P s x) (k : Nat) : Touches P s (drainPuts x n k) := by
  induction k generalizing x with
  | zero => exact h
  | succ k ih =>
    unfold Machine.drainPuts
    dsimp only
    split
    · exact ite h (ih ((h.setSlice hn _).putWindow hn _ _ _ _))
    · exact h

theorem settleSlice (h : Touches P s x) : Touches P s (settleSlice x n) :=
  ((h.setSlice hn _).drainPuts hn _).setSlice hn _

theorem sliceWriteSector (h : Touches P s x) (sec : Nat) (b : List Byte) :
    Touches P s (sliceWriteSector x n sec b) :=
  (((h.setSlice hn _).setSlice hn _).bump64 (offDistricts_slice n) _ _ _).settleSlice hn

theorem modeWrite (h : Touches P s x) (w : Nat) : Touches P s (modeWrite x n w) :=
  ite (h.modeRefused n) (ite (ite (h.modeRefused n) (ite ((h.setSlice hn _).setSlice hn _)
    (ite (h.setSlice hn _) h))) (ite (h.setSlice hn _) (ite (h.setSlice hn _) h)))

theorem countRun (h : Touches P s x) (tag mask : Nat) : Touches P s (countRun x n tag mask) := by
  have hq := offDistricts_engine n
  have hcounted := (((h.setSlice hn { slice x n with
    runsDone := ((slice x n).runsDone + 1) % 2 ^ 32, poisonMask := mask }).wr hq ENGINE_LAST_TAG tag).bump hq
    ENGINE_RUNS 1)
  exact (ite hcounted (hcounted.bump hq _ _)).raise hq 0

theorem emptyRun (h : Touches P s x) (tag code bit : Nat) : Touches P s (emptyRun x n tag code bit) :=
  (((h.setSlice hn _).countRun hn _ _).lastErr (offDistricts_engine n) _).raise (offDistricts_engine n) _

theorem goWrite (h : Touches P s x) (w : Nat) (who : Option Nat) : Touches P s (goWrite x n w who) :=
  ite (h.emptyRun hn _ _ _) (ite (h.emptyRun hn _ _ _) (h.setSlice hn _))

theorem winWrite (h : Touches P s x) (off : Nat) (b : List Byte) (who : Option Nat) :
    Touches P s (winWrite x n off b who).1 := by
  unfold Machine.winWrite
  simp only [apply_ite Prod.fst]
  exact ite (ite h (ite h (ite (h.modeWrite hn _) (ite (ite (h.goWrite hn _ _) (h.goWrite hn _ _)) h))))
    (ite h (ite h (ite (h.putWindow hn _ _ _ _) (h.setSlice hn _))))

theorem sramWrite (h : Touches P s x) (off : Nat) (b : List Byte) : Touches P s (sramWrite x n off b) :=
  h.setTile hn _

end

theorem plazaData (h : Touches P s x) (src m : Nat) (b : List Byte) : Touches P s (plazaData x src m b).1 := by
  obtain ⟨u, hlinks⟩ := plazaData_eq_setDawn x src m b
  rw [hlinks]
  exact h.of_eq rfl rfl rfl rfl

end Touches

/-! ### One piece (R23) -/

/-- District `d` holds the tile. -/
def Holds (s : State) (d n : Nat) : Prop := tileOwner s n = d

theorem tileOwner_of_tileError {s : State} {d n : Nat} (hd : d ≠ 0xF) (h : tileError s d n = 0) :
    tileOwner s n = d := by
  by_contra hother
  unfold tileError at h
  split at h
  · cases h
  · rw [if_pos (by simp [hd, hother])] at h
    cases h

theorem tileError_of_resolve {s : State} {d a n o : Nat} {x : Target} (h : resolve s d a = .ok x)
    (hx : x = .slice n o ∨ x = .sram n o ∨ x = .win n o) : tileError s d n = 0 := by
  unfold resolve at h
  split at h
  case h_1 => contradiction
  case h_2 =>
    obtain rfl := Except.ok.inj h
    simp at hx
  case h_3 t hreg _ =>
    have hchecked : ∀ {e : Nat}, (if e = 0 then Except.ok t else .error e) = Except.ok x → e = 0 ∧ t = x := by
      intro e he
      split at he
      · next hnone => exact ⟨hnone, Except.ok.inj he⟩
      · contradiction
    cases t with
    | reg o => exact absurd rfl (hreg o)
    | slice m o =>
      obtain ⟨hnone, rfl⟩ := hchecked h
      simp only [Target.slice.injEq, reduceCtorEq, or_false] at hx
      exact hx.1 ▸ hnone
    | sram m o =>
      obtain ⟨hnone, rfl⟩ := hchecked h
      simp only [Target.sram.injEq, reduceCtorEq, or_false, false_or] at hx
      exact hx.1 ▸ hnone
    | win m o =>
      obtain ⟨hnone, rfl⟩ := hchecked h
      simp only [Target.win.injEq, reduceCtorEq, false_or] at hx
      exact hx.1 ▸ hnone

/-- A piece changes a tile of the District alone, or none, and the latter where it is refused or held. -/
theorem pieceWrite_touches {s : State} {d : Nat} (hd : d < 4) (a : Nat) (b : List Byte) (who : Nat) :
    Touches (Holds s d) s (pieceWrite s d a b who).1 ∧
      ∀ l, (pieceWrite s d a b who).2 = .ok l → ∃ n, tileOwner s n = d := by
  have hrefl := Touches.refl (Holds s d) s
  have howner : ∀ {n o : Nat} {x : Target}, resolve s d a = .ok x →
      (x = .slice n o ∨ x = .sram n o ∨ x = .win n o) → tileOwner s n = d :=
    fun hres hx => tileOwner_of_tileError (by omega) (tileError_of_resolve hres hx)
  unfold pieceWrite
  split
  case h_1 e _ =>
    dsimp only
    exact ⟨hrefl.refuse d a e, by simp only [reduceCtorEq, false_implies, implies_true]⟩
  case h_2 =>
    dsimp only
    exact ⟨hrefl.refuse d a errAccess, by simp only [reduceCtorEq, false_implies, implies_true]⟩
  case h_3 n o hres =>
    have hn : Holds s d n := howner hres (.inl rfl)
    refine ⟨?_, fun _ _ => ⟨n, hn⟩⟩
    have hcome := hrefl.plazaData d n b
    split
    · dsimp only
      exact hrefl.refuse _ _ _
    split
    · exact hrefl
    dsimp only
    split
    · dsimp only
      exact hcome.sliceWriteSector hn _ _
    · dsimp only
      exact hcome.gather hn _
  case h_4 n o hres =>
    have hn : Holds s d n := howner hres (.inr (.inl rfl))
    refine ⟨?_, fun _ _ => ⟨n, hn⟩⟩
    split
    · dsimp only
      exact hrefl.refuse _ _ _
    split
    · exact hrefl
    · dsimp only
      exact (hrefl.plazaData d n b).sramWrite hn _ _
  case h_5 n o hres =>
    have hn : Holds s d n := howner hres (.inr (.inr rfl))
    refine ⟨?_, fun _ _ => ⟨n, hn⟩⟩
    have hwritten := (hrefl.plazaData d n b).winWrite hn o (plazaData s d n b).2 (some who)
    split
    · exact hrefl
    dsimp only
    split
    · dsimp only
      exact hwritten.refuse _ _ _
    · exact hwritten

/-! ### The owner of a tile (R244) -/

theorem foldl_clearBit_zero (l : List Scrub) : l.foldl (fun m x => clearBit m x.qdie) 0 = 0 := by
  induction l with
  | nil => rfl
  | cons x l ih =>
    have hclear : clearBit 0 x.qdie = 0 := by simp [clearBit, bitOf]
    rw [List.foldl_cons, hclear, ih]

/-- A District that holds a quarter-die has its mask listed. -/
theorem mask_listed {s : State} {d q : Nat} (h : bitOf (qdieMask s d) q = true) :
    ∃ v, SMap.find s.regs (fkey (districtP d) DISTRICT_QDIE_MASK 0) = some v := by
  cases hfind : SMap.find s.regs (fkey (districtP d) DISTRICT_QDIE_MASK 0) with
  | some v => exact ⟨v, rfl⟩
  | none =>
    have hmask : rd s (districtP d) DISTRICT_QDIE_MASK = 0 := by
      rw [rd, SMap.getD, hfind]
      rfl
    rw [qdieMask, hmask, foldl_clearBit_zero] at h
    simp [bitOf] at h

theorem inDistricts_mask {d : Nat} (hd : d < 4) : InDistricts (fkey (districtP d) DISTRICT_QDIE_MASK 0) := by
  have hkey : fkey (districtP d) DISTRICT_QDIE_MASK 0 = 8 * ((16 + d) * 0x1000 + 0x100) + 0 + 0 / 1 * 0 + 0 % 1 * 0 :=
    rfl
  exact ⟨by omega, by omega⟩

section
variable {P : Nat → Prop} {s x : State} {d : Nat} (h : Touches P s x)
include h

theorem qdieMask_eq_of_touches (hd : d < 4) {v : Nat}
    (hv : SMap.find s.regs (fkey (districtP d) DISTRICT_QDIE_MASK 0) = some v) : qdieMask x d = qdieMask s d := by
  have hx := h.listed _ v (inDistricts_mask hd) hv
  rw [qdieMask, qdieMask, h.scrubs, rd, rd, SMap.getD, SMap.getD, hx, hv]

theorem bitOf_qdieMask_of_touches (hd : d < 4) {q : Nat} (hq : bitOf (qdieMask s d) q = true) :
    bitOf (qdieMask x d) q = true := by
  obtain ⟨v, hv⟩ := mask_listed hq
  rw [qdieMask_eq_of_touches h hd hv, hq]

end

theorem qdieOwner_eq_iff {s : State} {q d : Nat} (hd : d < 4) : qdieOwner s q = d ↔
    bitOf (qdieMask s d) q = true ∧ ∀ e < d, bitOf (qdieMask s e) q = false := by
  have hfind : (List.range 4).find? (fun d => bitOf (qdieMask s d) q) = some d ↔
      bitOf (qdieMask s d) q = true ∧ ∀ e < d, bitOf (qdieMask s e) q = false := by
    rw [List.find?_range_eq_some]
    simp [hd]
  rw [← hfind]
  unfold qdieOwner
  split
  · next hsome => rw [hsome, Option.some_inj]
  · next hnone =>
    rw [hnone]
    constructor
    · omega
    · intro hbad
      cases hbad

/-- A District that holds a tile comes to hold no other. -/
theorem tileOwner_of_touches {P : Nat → Prop} {s x : State} {d m n : Nat} (h : Touches P s x) (hd : d < 4)
    (hm : tileOwner s m = d) (hn : tileOwner x n = d) : tileOwner s n = d := by
  obtain ⟨hmask, -⟩ := (qdieOwner_eq_iff hd).mp hm
  obtain ⟨v, hv⟩ := mask_listed hmask
  obtain ⟨hown, hfirst⟩ := (qdieOwner_eq_iff hd).mp hn
  refine (qdieOwner_eq_iff hd).mpr ⟨qdieMask_eq_of_touches h hd hv ▸ hown, fun e he => ?_⟩
  by_contra hheld
  have hlate := bitOf_qdieMask_of_touches h (he.trans hd) (Bool.eq_true_of_not_eq_false hheld)
  rw [hfirst e he] at hlate
  exact Bool.false_ne_true hlate

/-! ### A window write (R246) -/

theorem dmaWrite_touches {d : Nat} (hd : d < 4) (who : Nat) (k : Nat) (s : State) (a : Nat) (b : List Byte) :
    Touches (Holds s d) s (dmaWrite s d who a k b).1 := by
  induction k generalizing s a b with
  | zero => exact .refl _ s
  | succ k ih =>
    unfold dmaWrite
    split
    · exact .refl _ s
    extract_lets m r
    obtain ⟨hpiece, howned⟩ := pieceWrite_touches (s := s) hd a (b.take m) who
    split
    case h_1 => exact .refl _ s
    case h_2 => exact hpiece
    case h_3 => exact hpiece
    case h_4 l hl =>
      obtain ⟨n, hn⟩ := howned l hl
      exact hpiece.trans ((ih r.1 _ _).mono fun _ hm => tileOwner_of_touches hpiece hd hn hm)

theorem hostStore_touches {s t : State} {q : HostReq} (hd : q.port < 4) (h : hostStore s q = some t) :
    Touches (Holds s q.port) s t := by
  obtain ⟨x, -, rfl⟩ := Option.map_eq_some_iff.mp h
  have hwritten := dmaWrite_touches hd (hostKey q.port) (q.bytes.length + 1) s q.addr q.bytes
  have hcounted := hwritten.bump64 (offDistricts_hostport hd) HOSTPORT_BYTES_IN_LO HOSTPORT_BYTES_IN_HI
    q.bytes.length
  dsimp only
  split
  · exact hcounted
  · exact hcounted.windowRefused hd _ _ true

theorem windowAccess_touches {s : State} {d : Nat} (hd : d < 4) (off : Nat) (q : HostReq) (hq : q.write = true) :
    Touches (Holds s d) s (windowAccess s d off q) := by
  have hrefl := Touches.refl (Holds s d) s
  unfold windowAccess
  extract_lets g q'
  split
  · exact hrefl.windowRefused hd _ _ _
  · simp only [serve]
    split
    · next t ht =>
      have hstore : hostStore s q' = some t := by
        have hwrite : q'.write = true := hq
        rw [hwrite] at ht
        simpa using (Option.ite_none_left_eq_some.mp ht).2
      exact hostStore_touches (q := q') hd hstore
    · exact hrefl.of_eq rfl rfl rfl rfl

/-- Settles O48. -/
theorem windowWriteStaysInTheDistrict : Obligations.WindowWriteStaysInTheDistrict := by
  intro s t p o b hexec n hn
  obtain rfl := eq_of_wellFormed hexec
  have hwrite : Touches (Holds s p.val) s _ :=
    .ite (c := barOpen s p = true) (windowAccess_touches p.isLt o
      { port := p, addr := 0, len := b.length, write := true, bytes := b } rfl) (.refl _ s)
  have hslice := hwrite.slices n hn
  exact ⟨congrArg Slice.mem hslice, congrArg Slice.buf hslice, congrArg Slice.flags hslice, hwrite.tiles n hn⟩

end Sys2Proof.Proofs
end

section
/-!
SUPPORT. The windows of the Districts are no other operation's (R29): the part of the register file that holds the
DIST_GLB pairs, and where a field of a page stands outside it.
-/
open Sys2Proof Sys2Proof.Machine Sys2Proof.Safety Sys2Proof.Laws
namespace Sys2Proof.Proofs

/-! ### The registers of the windows -/

/-- The bit numbers in BAR0 of the Districts' register groups of the page `PKGSW`. -/
def inGlb (k : Nat) : Bool := 8 * 0x4110 ≤ k && k < 8 * 0x4150

/-- What a register file holds of them. -/
def glbPart (m : SMap Nat) : SMap Nat := m.filter (fun kv => inGlb kv.1)

/-- Entry `i` of a field of a page stands elsewhere. -/
def OffGlb (p : PageId) (f : Fld) (i : Nat) : Prop := inGlb (fkey p f i) = false

theorem glbPart_put {m : SMap Nat} {k v : Nat} (hk : inGlb k = false) : glbPart (SMap.put m k v) = glbPart m := by
  unfold glbPart
  induction m with
  | nil => simp [SMap.put, hk]
  | cons e m ih =>
    obtain ⟨j, w⟩ := e
    simp only [SMap.put]
    by_cases hkj : k = j
    · rw [if_pos hkj]
      have hj : inGlb j = false := hkj ▸ hk
      simp [hk, hj]
    · rw [if_neg hkj]
      split
      · simp [hk]
      · rw [List.filter_cons, List.filter_cons, ih]

theorem glbPart_del {m : SMap Nat} {k : Nat} (hk : inGlb k = false) : glbPart (SMap.del m k) = glbPart m := by
  unfold glbPart
  induction m with
  | nil => rfl
  | cons e m ih =>
    obtain ⟨j, w⟩ := e
    simp only [SMap.del]
    by_cases hkj : k = j
    · rw [if_pos hkj]
      have hj : inGlb j = false := hkj ▸ hk
      simp [hj]
    · rw [if_neg hkj]
      split
      · rfl
      · rw [List.filter_cons, List.filter_cons, ih]

@[simp] theorem wr_glb {p : PageId} {f : Fld} {i : Nat} (h : OffGlb p f i) (s : State) (v : Nat) :
    glbPart (wr s p f v i).regs = glbPart s.regs := by
  unfold wr
  dsimp only
  split
  · exact glbPart_del h
  · exact glbPart_put h

/-! ### Where the fields stand -/

theorem fkey_ge_base (p : PageId) (f : Fld) (i : Nat) : 8 * p.base ≤ fkey p f i := by
  unfold fkey
  omega

theorem offGlb_of_lt {p : PageId} {f : Fld} {i : Nat} (h : fkey p f i < 8 * 0x4110) : OffGlb p f i := by
  simp only [OffGlb, inGlb, Bool.and_eq_false_iff, decide_eq_false_iff_not]
  omega

/-- The pages behind `PKGSW`. -/
theorem offGlb_of_base {p : PageId} (h : 0x5000 ≤ p.base) (f : Fld) (i : Nat) : OffGlb p f i := by
  have hge := fkey_ge_base p f i
  simp only [OffGlb, inGlb, Bool.and_eq_false_iff, decide_eq_false_iff_not]
  omega

@[simp] theorem offGlb_pwr (f : Fld) (i : Nat) : OffGlb pwrP f i := offGlb_of_base (by decide) f i
@[simp] theorem offGlb_therm (f : Fld) (i : Nat) : OffGlb thermP f i := offGlb_of_base (by decide) f i
@[simp] theorem offGlb_bist (f : Fld) (i : Nat) : OffGlb bistP f i := offGlb_of_base (by decide) f i
@[simp] theorem offGlb_dawn (f : Fld) (i : Nat) : OffGlb dawnP f i := offGlb_of_base (by decide) f i
@[simp] theorem offGlb_topo (f : Fld) (i : Nat) : OffGlb topoP f i := offGlb_of_base (by decide) f i

section
variable (n : Nat) (f : Fld) (i : Nat)

@[simp] theorem offGlb_hostport : OffGlb (hostportP n) f i :=
  offGlb_of_base (by simp only [hostportP, PageId.base]; omega) f i
@[simp] theorem offGlb_district : OffGlb (districtP n) f i :=
  offGlb_of_base (by simp only [districtP, PageId.base]; omega) f i
@[simp] theorem offGlb_cmdproc : OffGlb (cmdprocP n) f i :=
  offGlb_of_base (by simp only [cmdprocP, PageId.base]; omega) f i
@[simp] theorem offGlb_cdie : OffGlb (cdieP n) f i :=
  offGlb_of_base (by simp only [cdieP, PageId.base]; omega) f i
@[simp] theorem offGlb_d2d : OffGlb (d2dP n) f i :=
  offGlb_of_base (by simp only [d2dP, PageId.base]; omega) f i
@[simp] theorem offGlb_oe : OffGlb (oeP n) f i :=
  offGlb_of_base (by simp only [oeP, PageId.base]; omega) f i
@[simp] theorem offGlb_blvd : OffGlb (blvdP n) f i :=
  offGlb_of_base (by simp only [blvdP, PageId.base]; omega) f i
@[simp] theorem offGlb_crossing : OffGlb (crossingP n) f i :=
  offGlb_of_base (by simp only [crossingP, PageId.base]; omega) f i
@[simp] theorem offGlb_alley : OffGlb (alleyP n) f i :=
  offGlb_of_base (by simp only [alleyP, PageId.base]; omega) f i
@[simp] theorem offGlb_coll : OffGlb (collP n) f i :=
  offGlb_of_base (by simp only [collP, PageId.base]; omega) f i
@[simp] theorem offGlb_tile : OffGlb (tileP n) f i :=
  offGlb_of_base (by simp only [tileP, PageId.base]; omega) f i
@[simp] theorem offGlb_slice : OffGlb (sliceP n) f i :=
  offGlb_of_base (by simp only [sliceP, PageId.base]; omega) f i
@[simp] theorem offGlb_engine : OffGlb (engineP n) f i :=
  offGlb_of_base (by simp only [engineP, PageId.base]; omega) f i
@[simp] theorem offGlb_mover : OffGlb (moverP n) f i :=
  offGlb_of_base (by simp only [moverP, PageId.base]; omega) f i

end

/-- A field of the header, on whatever page. -/
theorem offGlb_of_hdr (p : PageId) {f : Fld} (h : 8 * f.off + f.lo < 8 * 0x100) : OffGlb p f 0 := by
  have hpage := base_mod p
  have hkey : fkey p f 0 = 8 * (p.base + f.off) + f.lo := by simp [fkey]
  simp only [OffGlb, inGlb, hkey, Bool.and_eq_false_iff, decide_eq_false_iff_not]
  omega

section
variable (p : PageId)

@[simp] theorem offGlb_enable : OffGlb p HDR_ENABLE 0 := offGlb_of_hdr p (by decide)
@[simp] theorem offGlb_lock : OffGlb p HDR_LOCK 0 := offGlb_of_hdr p (by decide)
@[simp] theorem offGlb_state : OffGlb p HDR_STATE 0 := offGlb_of_hdr p (by decide)
@[simp] theorem offGlb_pendEnable : OffGlb p HDR_PEND_ENABLE 0 := offGlb_of_hdr p (by decide)
@[simp] theorem offGlb_fenced : OffGlb p HDR_FENCED 0 := offGlb_of_hdr p (by decide)
@[simp] theorem offGlb_lastErr : OffGlb p HDR_LAST_ERR 0 := offGlb_of_hdr p (by decide)
@[simp] theorem offGlb_intRaw : OffGlb p HDR_INT_RAW 0 := offGlb_of_hdr p (by decide)
@[simp] theorem offGlb_intEnable : OffGlb p HDR_INT_ENABLE 0 := offGlb_of_hdr p (by decide)
@[simp] theorem offGlb_errCorrCount : OffGlb p HDR_ERR_CORR_COUNT 0 := offGlb_of_hdr p (by decide)
@[simp] theorem offGlb_errRetryCount : OffGlb p HDR_ERR_RETRY_COUNT 0 := offGlb_of_hdr p (by decide)
@[simp] theorem offGlb_errAddrLo : OffGlb p HDR_ERR_ADDR_LO 0 := offGlb_of_hdr p (by decide)
@[simp] theorem offGlb_errAddrHi : OffGlb p HDR_ERR_ADDR_HI 0 := offGlb_of_hdr p (by decide)
@[simp] theorem offGlb_errSyndrome : OffGlb p HDR_ERR_SYNDROME 0 := offGlb_of_hdr p (by decide)

end

@[simp] theorem offGlb_link (l : Nat) (f : Fld) (i : Nat) : OffGlb (linkPage l) f i := by
  unfold linkPage
  split
  · exact offGlb_alley _ f i
  · exact offGlb_blvd _ f i

/-! Of the pages before `PKGSW`, and of `PKGSW` itself, the fields that commands write. -/

@[simp] theorem offGlb_keepRings : OffGlb duskP DUSK_KEEP_RINGS 0 := offGlb_of_lt (by decide)
@[simp] theorem offGlb_twState : OffGlb duskP DUSK_TW_STATE 0 := offGlb_of_lt (by decide)
@[simp] theorem offGlb_wakePending : OffGlb duskP DUSK_WAKE_PENDING 0 := offGlb_of_lt (by decide)
@[simp] theorem offGlb_wakeCause : OffGlb duskP DUSK_WAKE_CAUSE 0 := offGlb_of_lt (by decide)
@[simp] theorem offGlb_twCount : OffGlb duskP DUSK_TW_COUNT 0 := offGlb_of_lt (by decide)
@[simp] theorem offGlb_twMs : OffGlb duskP DUSK_TW_MS 0 := offGlb_of_lt (by decide)
@[simp] theorem offGlb_roundLo : OffGlb duskP DUSK_ROUND_LO 0 := offGlb_of_lt (by decide)
@[simp] theorem offGlb_roundHi : OffGlb duskP DUSK_ROUND_HI 0 := offGlb_of_lt (by decide)
@[simp] theorem offGlb_lcResult : OffGlb secP SEC_LC_RESULT 0 := offGlb_of_lt (by decide)
@[simp] theorem offGlb_lcPhase : OffGlb secP SEC_LC_PHASE 0 := offGlb_of_lt (by decide)
@[simp] theorem offGlb_bitsWritten : OffGlb secP SEC_BITS_WRITTEN 0 := offGlb_of_lt (by decide)
@[simp] theorem offGlb_idReady : OffGlb secP SEC_ID_READY 0 := offGlb_of_lt (by decide)
@[simp] theorem offGlb_scanEn : OffGlb secP SEC_SCAN_EN 0 := offGlb_of_lt (by decide)
@[simp] theorem offGlb_engineEn : OffGlb secP SEC_ENGINE_EN 0 := offGlb_of_lt (by decide)
@[simp] theorem offGlb_senseFail : OffGlb fuseP FUSE_SENSE_FAIL 0 := offGlb_of_lt (by decide)
@[simp] theorem offGlb_sensed : OffGlb fuseP FUSE_SENSED 0 := offGlb_of_lt (by decide)
@[simp] theorem offGlb_serialTagLo : OffGlb fuseP FUSE_SERIAL_TAG_LO 0 := offGlb_of_lt (by decide)
@[simp] theorem offGlb_serialTagHi : OffGlb fuseP FUSE_SERIAL_TAG_HI 0 := offGlb_of_lt (by decide)
@[simp] theorem offGlb_refusedUnmapped : OffGlb pkgswP PKGSW_REFUSED_UNMAPPED 0 := offGlb_of_lt (by decide)
@[simp] theorem offGlb_refusedAccess : OffGlb pkgswP PKGSW_REFUSED_ACCESS 0 := offGlb_of_lt (by decide)
@[simp] theorem offGlb_refusedFenced : OffGlb pkgswP PKGSW_REFUSED_FENCED 0 := offGlb_of_lt (by decide)

/-! ### Branches and folds -/

@[simp] theorem ite_glb {c : Prop} [Decidable c] (s t : State) :
    glbPart (if c then s else t).regs = if c then glbPart s.regs else glbPart t.regs :=
  apply_ite (fun s : State => glbPart s.regs) c s t

@[simp] theorem ite_fst_glb {c : Prop} [Decidable c] {β : Type} (x y : State × β) :
    glbPart (if c then x else y).1.regs = if c then glbPart x.1.regs else glbPart y.1.regs :=
  apply_ite (fun x : State × β => glbPart x.1.regs) c x y

@[simp] theorem ite_snd_glb {c : Prop} [Decidable c] {β : Type} (x y : β × State) :
    glbPart (if c then x else y).2.regs = if c then glbPart x.2.regs else glbPart y.2.regs :=
  apply_ite (fun x : β × State => glbPart x.2.regs) c x y

@[simp] theorem foldl_glb {α : Type} {f : State → α → State}
    (hf : ∀ s a, glbPart (f s a).regs = glbPart s.regs) (l : List α) (s : State) :
    glbPart (l.foldl f s).regs = glbPart s.regs :=
  List.foldlRecOn (motive := fun x => glbPart x.regs = glbPart s.regs) l f rfl fun _ hx a _ => (hf _ a).trans hx

@[simp] theorem foldl_fst_glb {α β : Type} {f : State × β → α → State × β}
    (hf : ∀ r a, glbPart (f r a).1.regs = glbPart r.1.regs) (l : List α) (r : State × β) :
    glbPart (l.foldl f r).1.regs = glbPart r.1.regs :=
  List.foldlRecOn (motive := fun x => glbPart x.1.regs = glbPart r.1.regs) l f rfl
    fun _ hx a _ => (hf _ a).trans hx

/-- As `foldl_glb`, for a step that keeps the part for the members of the list. -/
theorem foldl_mem_glb {α : Type} {f : State → α → State} {l : List α}
    (hf : ∀ s, ∀ a ∈ l, glbPart (f s a).regs = glbPart s.regs) (s : State) :
    glbPart (l.foldl f s).regs = glbPart s.regs :=
  List.foldlRecOn (motive := fun x => glbPart x.regs = glbPart s.regs) l f rfl
    fun _ hx a ha => (hf _ a ha).trans hx

@[simp] theorem elim_glb {α : Type} {s : State} {f : α → State} (hf : ∀ a, glbPart (f a).regs = glbPart s.regs)
    (o : Option α) : glbPart (o.elim s f).regs = glbPart s.regs := by
  cases o with
  | none => rfl
  | some a => exact hf a

/-! ### Counters and interrupts -/

@[simp] theorem bump_glb {p : PageId} {f : Fld} {i : Nat} (h : OffGlb p f i) (s : State) (n : Nat) :
    glbPart (bump s p f n i).regs = glbPart s.regs := wr_glb h s _

@[simp] theorem bump64_glb {p : PageId} {lo hi : Fld} (hlo : OffGlb p lo 0) (hhi : OffGlb p hi 0) (s : State)
    (n : Nat) : glbPart (bump64 s p lo hi n).regs = glbPart s.regs := (wr_glb hhi _ _).trans (wr_glb hlo _ _)

theorem offGlb_inService {d : Nat} (h : d < 4) : OffGlb plazaP PLAZA_IN_SERVICE d := by
  refine offGlb_of_lt ?_
  simp only [fkey, plazaP, PageId.base, PLAZA_IN_SERVICE]
  omega

theorem offGlb_noticePend {d : Nat} (h : d < 4) : OffGlb plazaP PLAZA_NOTICE_PEND d := by
  refine offGlb_of_lt ?_
  simp only [fkey, plazaP, PageId.base, PLAZA_NOTICE_PEND]
  omega

theorem offGlb_challenge {i : Nat} (h : i < 8) : OffGlb secP SEC_CHALLENGE i := by
  refine offGlb_of_lt ?_
  simp only [fkey, secP, PageId.base, SEC_CHALLENGE]
  omega

theorem offGlb_attStatus {i : Nat} (h : i < 4) : OffGlb secP SEC_ATT_STATUS i := by
  refine offGlb_of_lt ?_
  simp only [fkey, secP, PageId.base, SEC_ATT_STATUS]
  omega

theorem offGlb_attPkg {i : Nat} (h : i < 4) : OffGlb secP SEC_ATT_PKG i := by
  refine offGlb_of_lt ?_
  simp only [fkey, secP, PageId.base, SEC_ATT_PKG]
  omega

theorem offGlb_keyDigest {i : Nat} (h : i < 40) : OffGlb secP SEC_IMG_KEY_DIGEST i := by
  refine offGlb_of_lt ?_
  simp only [fkey, secP, PageId.base, SEC_IMG_KEY_DIGEST]
  omega

theorem offGlb_railOor {i : Nat} (h : i < 96) : OffGlb duskP DUSK_RAIL_OOR (i / 32) := by
  refine offGlb_of_lt ?_
  simp only [fkey, duskP, PageId.base, DUSK_RAIL_OOR]
  omega

/-- Vectors 0 and 1 are never in service, and the other ones are one of four functions'. -/
theorem sendVector_glb {d v : Nat} (h : v < 2 ∨ d < 4) (s : State) :
    glbPart (sendVector s d v).regs = glbPart s.regs := by
  unfold sendVector
  dsimp only
  obtain hv | hd := h
  · rw [if_pos hv]
    split <;> rfl
  · simp [wr_glb (offGlb_inService hd)]

theorem deliver1_glb {d : Nat} (h : d < 4) (s : State) (v : Nat) :
    glbPart (deliver1 s d v).regs = glbPart s.regs := by
  simp [deliver1, sendVector_glb (.inr h)]

@[simp] theorem deliver_glb (s : State) : glbPart (deliver s).regs = glbPart s.regs :=
  foldl_glb (fun _ v => foldl_mem_glb (fun x _ hd => deliver1_glb (List.mem_range.mp hd) x v) _) _ s

@[simp] theorem raise_glb (s : State) (p : PageId) (b : Nat) :
    glbPart (raise s p b).regs = glbPart s.regs := by simp [raise]

@[simp] theorem lastErr_glb (s : State) (p : PageId) (code : Nat) :
    glbPart (lastErr s p code).regs = glbPart s.regs := by simp [lastErr]

@[simp] theorem logErr_glb (s : State) (p : PageId) (code lo hi synd : Nat) :
    glbPart (logErr s p code lo hi synd).regs = glbPart s.regs := by simp [logErr]

@[simp] theorem clearFields_glb {p : PageId} {fs : List Fld} (h : ∀ f ∈ fs, OffGlb p f 0) (s : State) :
    glbPart (clearFields s p fs).regs = glbPart s.regs :=
  (deliver_glb _).trans (foldl_mem_glb (fun x f hf => wr_glb (h f hf) x 0) s)

end Sys2Proof.Proofs
end

section
/-!
SUPPORT. What leaves the registers of the windows (R29): the operations on
link groups and flows, slices and their engines, schedules.
-/
open Sys2Proof Sys2Proof.Machine Sys2Proof.Safety Sys2Proof.Laws
namespace Sys2Proof.Proofs

/-! ### Machine/Ops.lean -/

@[simp] theorem freeNat_glb (s : State) :
    glbPart (freeNat s).2.regs = glbPart s.regs := by simp [freeNat]

@[simp] theorem freeWord_glb (s : State) :
    glbPart (freeWord s).2.regs = glbPart s.regs := by simp [freeWord]

@[simp] theorem freeBool_glb (s : State) :
    glbPart (freeBool s).2.regs = glbPart s.regs := by simp [freeBool]

@[simp] theorem assignFlow_glb (s : State) (g flow : Nat) :
    glbPart (assignFlow s g flow).regs = glbPart s.regs := by
  unfold assignFlow
  split <;> simp

@[simp] theorem crossFlow_glb (s : State) (gs : List Nat) (flow : Nat) :
    glbPart (crossFlow s gs flow).regs = glbPart s.regs := by simp [crossFlow]

@[simp] theorem takeFlips_glb (s : State) (g flow : Nat) (b : List Byte) :
    glbPart (takeFlips s g flow b).1.regs = glbPart s.regs := by
  unfold takeFlips
  repeat' split
  all_goals simp

@[simp] theorem crossData_glb (s : State) (gs : List Nat) (flow : Nat) (b : List Byte) :
    glbPart (crossData s gs flow b).1.regs = glbPart s.regs := by simp [crossData]

@[simp] theorem crossNat_glb (s : State) (gs : List Nat) (flow k v : Nat) :
    glbPart (crossNat s gs flow k v).1.regs = glbPart s.regs := by simp [crossNat]

@[simp] theorem plazaCross_glb (s : State) (src n : Nat) :
    glbPart (plazaCross s src n).regs = glbPart s.regs := by simp [plazaCross]

@[simp] theorem plazaData_glb (s : State) (src n : Nat) (b : List Byte) :
    glbPart (plazaData s src n b).1.regs = glbPart s.regs := by simp [plazaData]

@[simp] theorem plazaNat_glb (s : State) (src n k v : Nat) :
    glbPart (plazaNat s src n k v).1.regs = glbPart s.regs := by simp [plazaNat]

@[simp] theorem rehash_glb (s : State) (g m : Nat) :
    glbPart (rehash s g m).regs = glbPart s.regs := by simp [rehash]

@[simp] theorem refuse_glb (s : State) (d a code : Nat) :
    glbPart (refuse s d a code).regs = glbPart s.regs := by simp [refuse]

/-! ### Machine/SliceOps.lean -/

@[simp] theorem logSector_glb (s : State) (n code sec req synd : Nat) :
    glbPart (logSector s n code sec req synd).regs = glbPart s.regs := by simp [logSector]

@[simp] theorem failSector_glb (s : State) (n sec : Nat) (p : List (Nat × Nat)) :
    glbPart (failSector s n sec p).regs = glbPart s.regs := by simp [failSector]

@[simp] theorem controllerRead_glb (s : State) (n sec req : Nat) (err : Option SectorErr) :
    glbPart (controllerRead s n sec req err).1.regs = glbPart s.regs := by
  unfold controllerRead
  dsimp only
  repeat' split
  all_goals simp

@[simp] theorem readSector_glb (s : State) (n sec req : Nat) (err : Option SectorErr) :
    glbPart (readSector s n sec req err).1.regs = glbPart s.regs := by simp [readSector]

@[simp] theorem putSector_glb (s : State) (n sec : Nat) (bytes : List Byte) :
    glbPart (putSector s n sec bytes).regs = glbPart s.regs := by simp [putSector]

@[simp] theorem putWin_glb (s : State) (n off : Nat) (bytes : List Byte) :
    glbPart (putWin s n off bytes).regs = glbPart s.regs := by simp [putWin]

@[simp] theorem mergeDropped_glb (s : State) (n sec synd : Nat) :
    glbPart (mergeDropped s n sec synd).regs = glbPart s.regs := by simp [mergeDropped]

@[simp] theorem putAny_glb (s : State) (n sec : Nat) (d : List Byte) :
    glbPart (putAny s n sec d).regs = glbPart s.regs := by simp [putAny]

@[simp] theorem flushEntry_glb (s : State) (n sec : Nat) (err : Option SectorErr) :
    glbPart (flushEntry s n sec err).regs = glbPart s.regs := by
  unfold flushEntry
  dsimp only
  repeat' split
  all_goals simp

@[simp] theorem gather_glb (s : State) (n : Nat) (w : Narrow) :
    glbPart (gather s n w).regs = glbPart s.regs := by simp [gather]

@[simp] theorem putWindow_glb (s : State) (n off : Nat) (who : Option Nat) (z0 : Nat) (z1 : List Byte) :
    glbPart (putWindow s n off who z0 z1).regs = glbPart s.regs := by
  induction z0 generalizing s n off who z1 with
  | zero => simp [putWindow]
  | succ k ih => simp [putWindow, ih]

@[simp] theorem drainPuts_glb (s : State) (n z0 : Nat) :
    glbPart (drainPuts s n z0).regs = glbPart s.regs := by
  induction z0 generalizing s n with
  | zero => simp [drainPuts]
  | succ k ih =>
    unfold drainPuts
    dsimp only
    split <;> simp [ih]

@[simp] theorem settleSlice_glb (s : State) (n : Nat) :
    glbPart (settleSlice s n).regs = glbPart s.regs := by simp [settleSlice]

@[simp] theorem flushSector_glb (s : State) (n sec : Nat) (err : Option SectorErr) :
    glbPart (flushSector s n sec err).regs = glbPart s.regs := by simp [flushSector]

@[simp] theorem flushAll_glb (s : State) (n : Nat) (errs : SectorErrs) (k : Nat) :
    glbPart (flushAll s n errs k).regs = glbPart s.regs := by
  induction k generalizing s with
  | zero => rfl
  | succ k ih =>
    unfold flushAll
    split
    · rfl
    · rw [ih, flushSector_glb]

@[simp] theorem sliceSector_glb (s : State) (n sec req : Nat) (err : Option SectorErr) :
    glbPart (sliceSector s n sec req err).1.regs = glbPart s.regs := by
  unfold sliceSector
  split <;> simp

@[simp] theorem sliceSectors_glb (s : State) (n sec req : Nat) (errs : SectorErrs) (i z0 : Nat) :
    glbPart (sliceSectors s n sec req errs i z0).1.regs = glbPart s.regs := by
  induction z0 generalizing s n sec req errs i with
  | zero => simp [sliceSectors]
  | succ k ih =>
    unfold sliceSectors
    dsimp only
    split <;> simp [ih]

@[simp] theorem sliceWriteSector_glb (s : State) (n sec : Nat) (bytes : List Byte) :
    glbPart (sliceWriteSector s n sec bytes).regs = glbPart s.regs := by simp [sliceWriteSector]

@[simp] theorem sliceWriteSectors_glb (s : State) (n sec z0 : Nat) (z1 : List Byte) :
    glbPart (sliceWriteSectors s n sec z0 z1).regs = glbPart s.regs := by
  induction z0 generalizing s n sec z1 with
  | zero => simp [sliceWriteSectors]
  | succ k ih => simp [sliceWriteSectors, ih]

@[simp] theorem sliceWriteBytes_glb (s : State) (n off z0 : Nat) (z1 : List Byte) :
    glbPart (sliceWriteBytes s n off z0 z1).regs = glbPart s.regs := by
  induction z0 generalizing s n off z1 with
  | zero => simp [sliceWriteBytes]
  | succ k ih => simp [sliceWriteBytes, ih]

@[simp] theorem refreshOps_glb (s : State) (n k : Nat) :
    glbPart (refreshOps s n k).regs = glbPart s.regs := by simp [refreshOps]

@[simp] theorem refreshIntervals_glb (s : State) (n k : Nat) :
    glbPart (refreshIntervals s n k).regs = glbPart s.regs := by simp [refreshIntervals]

/-! ### Machine/EngineOps.lean -/

@[simp] theorem logEngine_glb (s : State) (n code src sec synd : Nat) :
    glbPart (logEngine s n code src sec synd).regs = glbPart s.regs := by simp [logEngine]

@[simp] theorem engineRead_glb (s : State) (n src sec : Nat) (err : Option SectorErr) :
    glbPart (engineRead s n src sec err).1.regs = glbPart s.regs := by
  unfold engineRead
  dsimp only
  repeat' split
  all_goals simp

@[simp] theorem engineReads_glb (s : State) (n : Nat) (errs : EngErrs) (z0 : List (Nat × Nat)) :
    glbPart (engineReads s n errs z0).1.regs = glbPart s.regs := by
  induction z0 generalizing s n errs with
  | nil => simp [engineReads]
  | cons x xs ih => simp [engineReads, ih]

@[simp] theorem countRun_glb (s : State) (n tag mask : Nat) :
    glbPart (countRun s n tag mask).regs = glbPart s.regs := by simp [countRun]

@[simp] theorem emptyRun_glb (s : State) (n tag code bit : Nat) :
    glbPart (emptyRun s n tag code bit).regs = glbPart s.regs := by simp [emptyRun]

@[simp] theorem showDesc_glb (s : State) (n : Nat) :
    glbPart (showDesc s n).regs = glbPart s.regs := by
  unfold showDesc
  split <;> simp

@[simp] theorem startRun_glb (s : State) (n w : Nat) :
    glbPart (startRun s n w).regs = glbPart s.regs := by simp [startRun]

@[simp] theorem poisonRest_glb (s : State) (n i : Nat) (own : Bool) :
    glbPart (poisonRest s n i own).regs = glbPart s.regs := by
  unfold poisonRest
  dsimp only
  split <;> simp

@[simp] theorem haltRun_glb (s : State) (n i code : Nat) :
    glbPart (haltRun s n i code).regs = glbPart s.regs := by simp [haltRun]

@[simp] theorem badRun_glb (s : State) (n i : Nat) :
    glbPart (badRun s n i).regs = glbPart s.regs := by simp [badRun]

@[simp] theorem runPass_glb (s : State) (n : Nat) (errs : EngErrs) :
    glbPart (runPass s n errs).regs = glbPart s.regs := by
  unfold runPass
  split <;> simp

@[simp] theorem modeRefused_glb (s : State) (n : Nat) :
    glbPart (modeRefused s n).regs = glbPart s.regs := by simp [modeRefused]

@[simp] theorem beginEnter_glb (s : State) (n : Nat) :
    glbPart (beginEnter s n).regs = glbPart s.regs := by simp [beginEnter]

@[simp] theorem modeWrite_glb (s : State) (n w : Nat) :
    glbPart (modeWrite s n w).regs = glbPart s.regs := by simp [modeWrite]

@[simp] theorem goWrite_glb (s : State) (n w : Nat) (who : Option Nat) :
    glbPart (goWrite s n w who).regs = glbPart s.regs := by simp [goWrite]

@[simp] theorem winWrite_glb (s : State) (n off : Nat) (bytes : List Byte) (who : Option Nat) :
    glbPart (winWrite s n off bytes who).1.regs = glbPart s.regs := by simp [winWrite]

@[simp] theorem winSectorRead_glb (s : State) (n off req : Nat) (err : Option SectorErr) :
    glbPart (winSectorRead s n off req err).1.regs = glbPart s.regs := by simp [winSectorRead]

@[simp] theorem flushWindow_glb (s : State) (n k : Nat) :
    glbPart (flushWindow s n k).regs = glbPart s.regs := by
  induction k generalizing s with
  | zero => rfl
  | succ k ih =>
    unfold flushWindow
    split
    · rfl
    · rw [ih, flushSector_glb]

@[simp] theorem engineFresh_glb (s : State) (n : Nat) :
    glbPart (engineFresh s n).regs = glbPart s.regs := by simp [engineFresh]

@[simp] theorem engineRelaunch_glb (s : State) (n : Nat) :
    glbPart (engineRelaunch s n).regs = glbPart s.regs := by simp [engineRelaunch]

@[simp] theorem engineReset_glb (s : State) (n : Nat) :
    glbPart (engineReset s n).regs = glbPart s.regs := by
  unfold engineReset
  dsimp only
  split
  · rfl
  · simp

@[simp] theorem repayRefresh_glb (s : State) (n : Nat) :
    glbPart (repayRefresh s n).regs = glbPart s.regs := by simp [repayRefresh]

@[simp] theorem voidGos_glb (s : State) (n : Nat) :
    glbPart (voidGos s n).regs = glbPart s.regs := by simp [voidGos]

@[simp] theorem leaveDone_glb (s : State) (n : Nat) : glbPart (leaveDone s n).regs = glbPart s.regs := by
  unfold leaveDone
  extract_lets x p repaid y opened idled ended closed z emptied told
  have hrepaid : glbPart repaid.regs = glbPart s.regs :=
    (wr_glb (offGlb_engine n _ 0) _ 0).trans (repayRefresh_glb s n)
  clear_value repaid
  have hopened : glbPart opened.regs = glbPart s.regs := hrepaid
  have hended : glbPart ended.regs = glbPart s.regs := by
    simp only [ended]
    repeat' split
    all_goals simp [idled, hopened]
  have htold : glbPart told.regs = glbPart s.regs := by
    simp only [told]
    split <;> simp [emptied, closed, hended]
  split
  · rw [beginEnter_glb]
    split
    · rw [engineFresh_glb, hended]
    · exact hended
  · split
    · rw [engineFresh_glb, htold]
    · exact htold

@[simp] theorem engineTime_glb (s : State) (n : Nat) (lo hi : Fld) (ran : Bool) :
    glbPart (engineTime s n lo hi ran).regs = glbPart s.regs := by simp [engineTime]

@[simp] theorem engineFence_glb (s : State) (n : Nat) :
    glbPart (engineFence s n).regs = glbPart s.regs := by simp [engineFence]

/-! ### Machine/RunOps.lean -/

@[simp] theorem owe_glb (s : State) (sender key : Nat) :
    glbPart (owe s sender key).regs = glbPart s.regs := by simp [owe]

@[simp] theorem dropInbound_glb (s : State) (n : Nat) :
    glbPart (dropInbound s n).regs = glbPart s.regs := by simp [dropInbound]

@[simp] theorem quietTile_glb (s : State) (n : Nat) :
    glbPart (quietTile s n).regs = glbPart s.regs := by simp [quietTile]

@[simp] theorem landSome_glb (s : State) (n : Nat) (u : Tile) (ps : List Pend) :
    glbPart (landSome s n u ps).regs = glbPart s.regs := by
  induction ps generalizing s u with
  | nil => rfl
  | cons p ps ih => simp [landSome, ih]

@[simp] theorem stopTile_glb (s : State) (n : Nat) :
    glbPart (stopTile s n).regs = glbPart s.regs := by simp [stopTile]

@[simp] theorem softResetTile_glb (s : State) (n : Nat) :
    glbPart (softResetTile s n).regs = glbPart s.regs := by simp [softResetTile]

@[simp] theorem startTile_glb (s : State) (n pos : Nat) (args : List Nat) :
    glbPart (startTile s n pos args).regs = glbPart s.regs := by simp [startTile]
end Sys2Proof.Proofs
end

section
/-!
SUPPORT. What leaves the registers of the windows (R29): the operations on
completions, optical links, topology, collectives, register reads, host data.
-/
open Sys2Proof Sys2Proof.Machine Sys2Proof.Safety Sys2Proof.Laws
namespace Sys2Proof.Proofs

/-! ### Machine/CplOps.lean -/

@[simp] theorem countStall_glb (s : State) (d : Nat) :
    glbPart (countStall s d).regs = glbPart s.regs := by simp [countStall]

@[simp] theorem fireVector0_glb (s : State) (d : Nat) :
    glbPart (fireVector0 s d).regs = glbPart s.regs := sendVector_glb (.inl (by decide)) _

@[simp] theorem moderate_glb (s : State) (d : Nat) (irq : Bool) :
    glbPart (moderate s d irq).regs = glbPart s.regs := by simp [moderate]

@[simp] theorem brokenOff_glb (s : State) (d : Nat) :
    glbPart (brokenOff s d).regs = glbPart s.regs := by simp [brokenOff]

@[simp] theorem hostRefused_glb (s : State) (port : Nat) :
    glbPart (hostRefused s port).regs = glbPart s.regs := by simp [hostRefused]

/-- Only a District notice is of the page `PLAZA`, and of one of four Districts. -/
@[simp] theorem writeEntry_glb {d : Nat} {e : CplEntry} (h : e.kind ≠ 2 ∨ d < 4) (s : State) :
    glbPart (writeEntry s d e).regs = glbPart s.regs := by
  unfold writeEntry
  extract_lets p x i a refused bytes j emitted phased raised full
  have hfull : glbPart full.regs = glbPart s.regs := by simp [full, raised, phased, emitted, p]
  split
  · simp [refused]
  · split
    · simp [sendVector_glb, hfull]
    · split
      · next hkind =>
        have hd : d < 4 := h.resolve_left (not_not_intro hkind)
        rw [deliver1_glb hd, wr_glb (offGlb_noticePend hd), hfull]
      · rw [moderate_glb, hfull]

@[simp] theorem postEntry_glb {d : Nat} {e : CplEntry} (h : e.kind ≠ 2 ∨ d < 4) (s : State) :
    glbPart (postEntry s d e).regs = glbPart s.regs := by simp [postEntry, h]

@[simp] theorem postHeld_glb {d : Nat} (h : d < 4) (s : State) (k : Nat) :
    glbPart (postHeld s d k).regs = glbPart s.regs := by
  induction k generalizing s with
  | zero => rfl
  | succ k ih =>
    unfold postHeld
    dsimp only
    split
    · rfl
    · simp [ih, h]

@[simp] theorem postNotice_glb {d : Nat} (h : d < 4) (s : State) (status data : Nat) :
    glbPart (postNotice s d status data).regs = glbPart s.regs := by simp [postNotice, h]

@[simp] theorem complete_glb (s : State) (d op : Nat) (h : CmdHdr) (status data : Nat) :
    glbPart (complete s d op h status data).regs = glbPart s.regs := by simp [complete]

@[simp] theorem refuseAt_glb (s : State) (d a e : Nat) :
    glbPart (refuseAt s d a e).regs = glbPart s.regs := by simp [refuseAt]

@[simp] theorem dropJob_glb (s : State) (d seq : Nat) :
    glbPart (dropJob s d seq).regs = glbPart s.regs := by simp [dropJob]

@[simp] theorem setJob_glb (s : State) (d : Nat) (j : Job) :
    glbPart (setJob s d j).regs = glbPart s.regs := by simp [setJob]

@[simp] theorem finishJob_glb (s : State) (d : Nat) (j : Job) (status data : Nat) :
    glbPart (finishJob s d j status data).regs = glbPart s.regs := by simp [finishJob]

@[simp] theorem failJob_glb (s : State) (d : Nat) (j : Job) (status data : Nat) :
    glbPart (failJob s d j status data).regs = glbPart s.regs := by simp [failJob]

@[simp] theorem pollWaits_glb (s : State) (d : Nat) :
    glbPart (pollWaits s d).regs = glbPart s.regs := by
  refine foldl_glb (fun x j => ?_) _ s
  split
  · simp
  · rfl

@[simp] theorem hostEvent_glb (s : State) (d e : Nat) :
    glbPart (hostEvent s d e).regs = glbPart s.regs := by simp [hostEvent]

@[simp] theorem launchPoll_glb (s : State) (d : Nat) (j : Job) :
    glbPart (launchPoll s d j).regs = glbPart s.regs := by
  unfold launchPoll
  repeat' split
  all_goals simp

@[simp] theorem tileEnded_glb (s : State) (n : Nat) :
    glbPart (tileEnded s n).regs = glbPart s.regs := by
  unfold tileEnded
  repeat' split
  all_goals simp

@[simp] theorem endLaunch_glb (s : State) (d : Nat) (j : Job) (status data : Nat) :
    glbPart (endLaunch s d j status data).regs = glbPart s.regs := by
  unfold endLaunch
  split <;> simp

/-! ### Machine/LinkOps.lean -/

@[simp] theorem setLink_glb (s : State) (l : Nat) (x : Link) :
    glbPart (setLink s l x).regs = glbPart s.regs := by simp [setLink]

@[simp] theorem setCrossing_glb (s : State) (e : Nat) (x : Cross) :
    glbPart (setCrossing s e x).regs = glbPart s.regs := by simp [setCrossing]

@[simp] theorem pinFlow_glb (s : State) (port flow l : Nat) :
    glbPart (pinFlow s port flow l).regs = glbPart s.regs := by
  unfold pinFlow
  split <;> simp

@[simp] theorem setTxLanes_glb (s : State) (l m : Nat) :
    glbPart (setTxLanes s l m).regs = glbPart s.regs := by simp [setTxLanes]

@[simp] theorem setRxLanes_glb (s : State) (l m : Nat) :
    glbPart (setRxLanes s l m).regs = glbPart s.regs := by simp [setRxLanes]

@[simp] theorem sendRound_glb (s : State) (l : Nat) (lanes : List Nat) (unit : Nat → Nat → Nat) :
    glbPart (sendRound s l lanes unit).regs = glbPart s.regs := by simp [sendRound]

@[simp] theorem makeWord_glb (s : State) (l : Nat) :
    glbPart (makeWord s l).regs = glbPart s.regs := by simp [makeWord]

@[simp] theorem sendSides_glb (s : State) (l : Nat) :
    glbPart (sendSides s l).regs = glbPart s.regs := by simp [sendSides]

@[simp] theorem sendLinkWord_glb (s : State) (l : Nat) :
    glbPart (sendLinkWord s l).regs = glbPart s.regs := by simp [sendLinkWord]

@[simp] theorem sendFlit_glb (s : State) (l seq : Nat) (payload : List Byte) :
    glbPart (sendFlit s l seq payload).regs = glbPart s.regs := by simp [sendFlit]

@[simp] theorem sendTraining_glb (s : State) (l : Nat) (lanes : List Nat) :
    glbPart (sendTraining s l lanes).regs = glbPart s.regs := by simp [sendTraining]

@[simp] theorem pumpLink_glb (s : State) (l z0 : Nat) :
    glbPart (pumpLink s l z0).regs = glbPart s.regs := by
  induction z0 generalizing s l with
  | zero => simp [pumpLink]
  | succ k ih => simp [pumpLink, ih]

@[simp] theorem sendOnLink_glb (s : State) (l : Nat) (bytes : List Byte) :
    glbPart (sendOnLink s l bytes).regs = glbPart s.regs := by simp [sendOnLink]

@[simp] theorem showRetrain_glb (s : State) (l : Nat) :
    glbPart (showRetrain s l).regs = glbPart s.regs := by simp [showRetrain]

@[simp] theorem retrainTx_glb (s : State) (l : Nat) :
    glbPart (retrainTx s l).regs = glbPart s.regs := by simp [retrainTx]

@[simp] theorem retrainRx_glb (s : State) (l : Nat) :
    glbPart (retrainRx s l).regs = glbPart s.regs := by simp [retrainRx]

@[simp] theorem resendAll_glb (s : State) (l : Nat) :
    glbPart (resendAll s l).regs = glbPart s.regs := by simp [resendAll]

@[simp] theorem replayLink_glb (s : State) (l : Nat) :
    glbPart (replayLink s l).regs = glbPart s.regs := by simp [replayLink]

@[simp] theorem sendWord_glb (s : State) (l : Nat) :
    glbPart (sendWord s l).regs = glbPart s.regs := by simp [sendWord]

@[simp] theorem sendMsg_glb (s : State) (l msg arg : Nat) :
    glbPart (sendMsg s l msg arg).regs = glbPart s.regs := by simp [sendMsg]

@[simp] theorem clearMsg_glb (s : State) (l msg : Nat) :
    glbPart (clearMsg s l msg).regs = glbPart s.regs := by simp [clearMsg]

@[simp] theorem clearMsgOf_glb (s : State) (l msg arg : Nat) :
    glbPart (clearMsgOf s l msg arg).regs = glbPart s.regs := by simp [clearMsgOf]

@[simp] theorem forgetPartner_glb (s : State) (l : Nat) :
    glbPart (forgetPartner s l).regs = glbPart s.regs := by simp [forgetPartner]

@[simp] theorem lockLine_glb (s : State) (e k : Nat) :
    glbPart (lockLine s e k).regs = glbPart s.regs := by simp [lockLine]

@[simp] theorem lockLines_glb (s : State) (e : Nat) :
    glbPart (lockLines s e).regs = glbPart s.regs := by simp [lockLines]

@[simp] theorem recheckLines_glb (s : State) (e mask : Nat) :
    glbPart (recheckLines s e mask).regs = glbPart s.regs := by simp [recheckLines]

/-! ### Machine/TopoOps.lean -/

@[simp] theorem setPortState_glb (s : State) (port st : Nat) :
    glbPart (setPortState s port st).regs = glbPart s.regs := by simp [setPortState]

@[simp] theorem enterPort_glb (s : State) (port st : Nat) :
    glbPart (enterPort s port st).regs = glbPart s.regs := by simp [enterPort]

@[simp] theorem portAbsent_glb (s : State) (port : Nat) :
    glbPart (portAbsent s port).regs = glbPart s.regs := by simp [portAbsent]

@[simp] theorem portBare_glb (s : State) (port : Nat) :
    glbPart (portBare s port).regs = glbPart s.regs := by simp [portBare]

@[simp] theorem beaconAt_glb (s : State) (port engine : Nat) (b : List Byte) :
    glbPart (beaconAt s port engine b).regs = glbPart s.regs := by simp [beaconAt]

@[simp] theorem acceptPort_glb (s : State) (port : Nat) :
    glbPart (acceptPort s port).regs = glbPart s.regs := by simp [acceptPort]

@[simp] theorem dropPacket_glb (s : State) (port reason : Nat) (dest src : Nat × Nat) (quarter : Nat) :
    glbPart (dropPacket s port reason dest src quarter).regs = glbPart s.regs := by simp [dropPacket]

@[simp] theorem departPacket_glb (s : State) (port flow : Nat) (bytes : List Byte) :
    glbPart (departPacket s port flow bytes).regs = glbPart s.regs := by
  unfold departPacket
  split <;> simp

@[simp] theorem deliverHere_glb (s : State) (i inP : Nat) (b : List Byte) :
    glbPart (deliverHere s i inP b).1.regs = glbPart s.regs := by simp [deliverHere]

@[simp] theorem sendPacket_glb (s : State) (d flow : Nat) (dest : Nat × Nat) (blvd : Bool)
    (mk : Nat → List Byte) :
    glbPart (sendPacket s d flow dest blvd mk).1.regs = glbPart s.regs := by
  unfold sendPacket
  repeat' split
  all_goals simp

@[simp] theorem arrivePacket_glb (s : State) (port flow : Nat) (b : List Byte) :
    glbPart (arrivePacket s port flow b).regs = glbPart s.regs := by
  unfold arrivePacket
  dsimp only
  repeat' split
  all_goals simp

@[simp] theorem sendBeacon_glb (s : State) (l : Nat) :
    glbPart (sendBeacon s l).regs = glbPart s.regs := by simp [sendBeacon]

@[simp] theorem sendBeacons_glb (s : State) :
    glbPart (sendBeacons s).regs = glbPart s.regs := by simp [sendBeacons]

@[simp] theorem countSilent_glb (s : State) (port : Nat) :
    glbPart (countSilent s port).regs = glbPart s.regs := by simp [countSilent]

/-! ### Machine/CollOps.lean -/

@[simp] theorem collFailed_glb (s : State) (e n off : Nat) :
    glbPart (collFailed s e n off).regs = glbPart s.regs := by simp [collFailed]

@[simp] theorem collRefused_glb (s : State) (e n off code : Nat) :
    glbPart (collRefused s e n off code).regs = glbPart s.regs := by simp [collRefused]

@[simp] theorem collSectors_glb (s : State) (n : Nat) (errs : SectorErrs) (z0 : List Nat) :
    glbPart (collSectors s n errs z0).1.regs = glbPart s.regs := by
  induction z0 generalizing s n errs with
  | nil => simp [collSectors]
  | cons x xs ih =>
    unfold collSectors
    dsimp only
    split <;> simp [ih]

@[simp] theorem collRead_glb (s : State) (e n off len : Nat) (errs : SectorErrs) :
    glbPart (collRead s e n off len errs).1.regs = glbPart s.regs := by simp [collRead]

@[simp] theorem collGather_glb (s : State) (c : Coll) (e base : Nat) (errs : SectorErrs)
    (z0 : List (Nat × Nat × Nat)) :
    glbPart (collGather s c e base errs z0).1.regs = glbPart s.regs := by
  induction z0 generalizing s c e base errs with
  | nil => simp [collGather]
  | cons x xs ih =>
    unfold collGather
    dsimp only
    repeat' split
    all_goals simp [ih]

@[simp] theorem collSumFrom_glb (s : State) (c : Coll) (e base k : Nat) (errs : SectorErrs) (acc : List Byte)
    (z0 z1 : Nat) :
    glbPart (collSumFrom s c e base k errs acc z0 z1).1.regs = glbPart s.regs := by
  induction z0 generalizing s c e base k errs acc z1 with
  | zero => simp [collSumFrom]
  | succ k ih =>
    unfold collSumFrom
    dsimp only
    split <;> simp [ih]

@[simp] theorem contribution_glb (s : State) (c : Coll) (q k : Nat) (errs : SectorErrs) :
    glbPart (contribution s c q k errs).1.regs = glbPart s.regs := by
  unfold contribution
  dsimp only
  repeat' split
  all_goals simp

@[simp] theorem collWrite_glb (s : State) (e n off : Nat) (bytes : List Byte) :
    glbPart (collWrite s e n off bytes).1.regs = glbPart s.regs := by simp [collWrite]

@[simp] theorem collScatter_glb (s : State) (c : Coll) (e base : Nat) (z0 : List (Nat × Nat × Nat))
    (z1 : List Byte) :
    glbPart (collScatter s c e base z0 z1).1.regs = glbPart s.regs := by
  induction z0 generalizing s c e base z1 with
  | nil => simp [collScatter]
  | cons x xs ih => simp [collScatter, ih]

@[simp] theorem collStore_glb (s : State) (c : Coll) (q k : Nat) (bytes : List Byte) :
    glbPart (collStore s c q k bytes).1.regs = glbPart s.regs := by simp [collStore]

@[simp] theorem setColl_glb (s : State) (c : Coll) :
    glbPart (setColl s c).regs = glbPart s.regs := by simp [setColl]

@[simp] theorem oweTo_glb (s : State) (key port flow : Nat) :
    glbPart (oweTo s key port flow).regs = glbPart s.regs := by
  unfold oweTo
  split <;> simp

@[simp] theorem sendRank_glb (s : State) (c : Coll) (e r : Nat) (mk : Nat → List Byte) :
    glbPart (sendRank s c e r mk).regs = glbPart s.regs := by
  unfold sendRank
  split <;> simp

@[simp] theorem sendCtl_glb (s : State) (c : Coll) (r ctl target : Nat) :
    glbPart (sendCtl s c r ctl target).regs = glbPart s.regs := by simp [sendCtl]

@[simp] theorem countBytes_glb (s : State) (c : Coll) (idx n : Nat) (isIn : Bool) :
    glbPart (countBytes s c idx n isIn).regs = glbPart s.regs := by simp [countBytes]

@[simp] theorem sendWave_glb (s : State) (c : Coll) (target : Nat) :
    glbPart (sendWave s c target).regs = glbPart s.regs := by simp [sendWave]

@[simp] theorem collEvent_glb (s : State) (c : Coll) (p : Nat × Nat × Nat) :
    glbPart (collEvent s c p).regs = glbPart s.regs := by
  unfold collEvent
  split <;> simp

@[simp] theorem collClose_glb (s : State) (c : Coll) (status cause : Nat) (origin : Option (Nat × Nat)) :
    glbPart (collClose s c status cause origin).regs = glbPart s.regs := by
  unfold collClose
  dsimp only
  repeat' split
  all_goals simp

@[simp] theorem collEnd_glb (s : State) (key status cause : Nat) (origin : Option (Nat × Nat)) :
    glbPart (collEnd s key status cause origin).regs = glbPart s.regs := by
  unfold collEnd
  split <;> simp

@[simp] theorem collLateEnd_glb (s : State) (key : Nat) :
    glbPart (collLateEnd s key).regs = glbPart s.regs := by
  unfold collLateEnd
  repeat' split
  all_goals simp

@[simp] theorem sendBlk_glb (s : State) (c : Coll) (b : Blk) :
    glbPart (sendBlk s c b).regs = glbPart s.regs := by simp [sendBlk]

@[simp] theorem sendBlkK_glb (s : State) (key : Nat) (b : Blk) :
    glbPart (sendBlkK s key b).regs = glbPart s.regs := by
  unfold sendBlkK
  split <;> simp

@[simp] theorem collCheck_glb (s : State) (key : Nat) :
    glbPart (collCheck s key).regs = glbPart s.regs := by
  unfold collCheck
  split <;> simp

@[simp] theorem collFinish_glb (s : State) (key q k : Nat) (bytes : List Byte) :
    glbPart (collFinish s key q k bytes).regs = glbPart s.regs := by
  unfold collFinish
  split <;> simp

@[simp] theorem sendFirst_glb (s : State) (key r : Nat) (errs : SectorErrs) :
    glbPart (sendFirst s key r errs).regs = glbPart s.regs := by
  unfold sendFirst
  split
  · rfl
  · refine foldl_glb (fun x qk => ?_) _ _
    split
    · rfl
    · dsimp only
      split <;> simp

@[simp] theorem collPump_glb (s : State) (key : Nat) (errs : SectorErrs) :
    glbPart (collPump s key errs).regs = glbPart s.regs := by
  unfold collPump
  dsimp only
  repeat' split
  all_goals simp

@[simp] theorem collPumpAll_glb (s : State) (errs : SectorErrs) :
    glbPart (collPumpAll s errs).regs = glbPart s.regs := by simp [collPumpAll]

@[simp] theorem countHold_glb (s : State) (c : Coll) :
    glbPart (countHold s c).regs = glbPart s.regs := by simp [countHold]

@[simp] theorem noteHold_glb (s : State) (key : Nat) :
    glbPart (noteHold s key).regs = glbPart s.regs := by
  unfold noteHold
  split <;> simp

@[simp] theorem noteHolds_glb (s : State) :
    glbPart (noteHolds s).regs = glbPart s.regs := by simp [noteHolds]

@[simp] theorem takeCount_glb (s : State) (c : Coll) :
    glbPart (takeCount s c).regs = glbPart s.regs := by simp [takeCount]

@[simp] theorem collStart_glb (s : State) (key : Nat) (errs : SectorErrs) :
    glbPart (collStart s key errs).regs = glbPart s.regs := by
  unfold collStart
  dsimp only
  repeat' split
  all_goals simp

@[simp] theorem keepEarly_glb (s : State) (dist : Nat) (b : List Byte) (abort : Bool) (val : Nat) :
    glbPart (keepEarly s dist b abort val).regs = glbPart s.regs := by simp [keepEarly]

@[simp] theorem collReady_glb (s : State) (b : List Byte) (errs : SectorErrs) :
    glbPart (collReady s b errs).regs = glbPart s.regs := by
  unfold collReady
  repeat' split
  all_goals simp

@[simp] theorem collAbortIn_glb (s : State) (b : List Byte) :
    glbPart (collAbortIn s b).regs = glbPart s.regs := by
  unfold collAbortIn
  repeat' split
  all_goals simp

@[simp] theorem ringArrive_glb (s : State) (c : Coll) (idx : Nat) (bytes : List Byte) (errs : SectorErrs) :
    glbPart (ringArrive s c idx bytes errs).regs = glbPart s.regs := by
  unfold ringArrive
  dsimp only
  repeat' split
  all_goals simp

@[simp] theorem collData_glb (s : State) (b : List Byte) (errs : SectorErrs) :
    glbPart (collData s b errs).regs = glbPart s.regs := by
  unfold collData
  repeat' split
  all_goals simp

@[simp] theorem collFold_glb (s : State) (key idx : Nat) (errs : SectorErrs) :
    glbPart (collFold s key idx errs).regs = glbPart s.regs := by
  unfold collFold
  dsimp only
  repeat' split
  all_goals simp

@[simp] theorem postInstance_glb (s : State) (dist slot pos : Nat) (desc : List Byte) (members : List Nat) :
    glbPart (postInstance s dist slot pos desc members).1.regs = glbPart s.regs := by
  unfold postInstance
  split <;> simp

@[simp] theorem postArrive_glb (s : State) (n : Nat) (z0 : Post) :
    glbPart (postArrive s n z0).regs = glbPart s.regs := by
  unfold postArrive
  dsimp only
  repeat' split
  all_goals simp

@[simp] theorem tilePost_glb (s : State) (n : Nat) (p : Post) :
    glbPart (tilePost s n p).regs = glbPart s.regs := by simp [tilePost]

@[simp] theorem postsGoOn_glb (s : State) :
    glbPart (postsGoOn s).regs = glbPart s.regs := by simp [postsGoOn]

@[simp] theorem collPost_glb (s : State) (n entry e arg : Nat) :
    glbPart (collPost s n entry e arg).regs = glbPart s.regs := by
  unfold collPost
  repeat' split
  all_goals simp

@[simp] theorem collStop_glb (s : State) (key status cause : Nat) :
    glbPart (collStop s key status cause).regs = glbPart s.regs := by
  unfold collStop
  split <;> simp

@[simp] theorem collEndAll_glb (s : State) (p : Coll → Bool) (status cause : Nat) :
    glbPart (collEndAll s p status cause).regs = glbPart s.regs := by simp [collEndAll]

@[simp] theorem dropPosts_glb (s : State) (d : Nat) (slot : Option Nat) :
    glbPart (dropPosts s d slot).regs = glbPart s.regs := by simp [dropPosts]

@[simp] theorem abortColls_glb (s : State) (d : Nat) (slot : Option Nat) :
    glbPart (abortColls s d slot).regs = glbPart s.regs := by simp [abortColls]

@[simp] theorem collPathLost_glb (s : State) (port : Nat) :
    glbPart (collPathLost s port).regs = glbPart s.regs := by simp [collPathLost]

@[simp] theorem freeFlows_glb (s : State) (l : Nat) :
    glbPart (freeFlows s l).regs = glbPart s.regs := by simp [freeFlows]

@[simp] theorem discardFlits_glb (s : State) (l : Nat) :
    glbPart (discardFlits s l).regs = glbPart s.regs := by simp [discardFlits]

@[simp] theorem rxFell_glb (s : State) (l : Nat) :
    glbPart (rxFell s l).regs = glbPart s.regs := by
  unfold rxFell
  dsimp only
  split <;> simp

@[simp] theorem portLost_glb (s : State) (l port : Nat) :
    glbPart (portLost s l port).regs = glbPart s.regs := by simp [portLost]

@[simp] theorem txFell_glb (s : State) (l : Nat) :
    glbPart (txFell s l).regs = glbPart s.regs := by simp [txFell]

@[simp] theorem stopTx_glb (s : State) (l : Nat) :
    glbPart (stopTx s l).regs = glbPart s.regs := by simp [stopTx]

@[simp] theorem stopRx_glb (s : State) (l st : Nat) :
    glbPart (stopRx s l st).regs = glbPart s.regs := by simp [stopRx]

@[simp] theorem dirsDown_glb (s : State) (ts : List Nat) (rs : List (Nat × Nat)) :
    glbPart (dirsDown s ts rs).regs = glbPart s.regs := by simp [dirsDown]

@[simp] theorem linksDown_glb (s : State) (ls : List (Nat × Nat)) :
    glbPart (linksDown s ls).regs = glbPart s.regs := by simp [linksDown]

@[simp] theorem linkDown_glb (s : State) (l st : Nat) :
    glbPart (linkDown s l st).regs = glbPart s.regs := by simp [linkDown]

@[simp] theorem moveOwed_glb (s : State) (down survivor : Nat) :
    glbPart (moveOwed s down survivor).regs = glbPart s.regs := by simp [moveOwed]

@[simp] theorem handOver_glb (s : State) (down survivor lastSeq : Nat) :
    glbPart (handOver s down survivor lastSeq).regs = glbPart s.regs := by simp [handOver]

/-! ### Machine/PageOps.lean -/

@[simp] theorem wake_glb (s : State) (cause : Nat) :
    glbPart (wake s cause).regs = glbPart s.regs := by simp [wake]

@[simp] theorem portRefused_glb (s : State) (req addr code : Nat) (write : Bool) :
    glbPart (portRefused s req addr code write).regs = glbPart s.regs := by simp [portRefused]

@[simp] theorem regRefused_glb (s : State) (req o code : Nat) (write : Bool) :
    glbPart (regRefused s req o code write).regs = glbPart s.regs := by simp [regRefused]

@[simp] theorem guardedWrite_glb {act : State → State} (hact : ∀ y, glbPart (act y).regs = glbPart y.regs)
    (s : State) (req : Nat) (p : PageId) (off : Nat) :
    glbPart (guardedWrite s req p off act).regs = glbPart s.regs := by
  unfold guardedWrite
  split <;> simp [hact]

@[simp] theorem fieldWrite_glb {act : State → State} (hact : ∀ y, glbPart (act y).regs = glbPart y.regs)
    (s : State) (req : Nat) (p : PageId) (f : Fld) (i : Nat) :
    glbPart (fieldWrite s req p f i act).regs = glbPart s.regs := guardedWrite_glb hact s req p _

@[simp] theorem resetOrWait_glb {act : State → State} (hact : ∀ y, glbPart (act y).regs = glbPart y.regs)
    (s : State) (p : PageId) :
    glbPart (resetOrWait s p act).regs = glbPart s.regs := by simp [resetOrWait, hact]

/-! ### Machine/DmaOps.lean -/

@[simp] theorem pollAcks_glb (s : State) : glbPart (pollAcks s).regs = glbPart s.regs := by
  refine foldl_glb (fun x d => foldl_glb (fun y j => ?_) _ x) _ s
  split <;> simp

@[simp] theorem sramWrite_glb (s : State) (n off : Nat) (bytes : List Byte) :
    glbPart (sramWrite s n off bytes).regs = glbPart s.regs := by simp [sramWrite]

@[simp] theorem sramParity_glb (s : State) (n : Nat) (h : ParHit) (lasting : Bool) :
    glbPart (sramParity s n h lasting).regs = glbPart s.regs := by simp [sramParity]

@[simp] theorem pieceCome_glb (s : State) (d n : Nat) (b : List Byte) :
    glbPart (pieceCome s d n b).1.regs = glbPart s.regs := by simp [pieceCome]

@[simp] theorem pieceRead_glb (s : State) (d a len : Nat) (err : Option SectorErr) :
    glbPart (pieceRead s d a len err).1.regs = glbPart s.regs := by
  unfold pieceRead
  dsimp only
  repeat' split
  all_goals simp

@[simp] theorem pieceWrite_glb (s : State) (d a : Nat) (bytes : List Byte) (who : Nat) :
    glbPart (pieceWrite s d a bytes who).1.regs = glbPart s.regs := by
  unfold pieceWrite
  dsimp only
  repeat' split
  all_goals simp

@[simp] theorem pieceFill_glb (s : State) (d a : Nat) (bytes : List Byte) :
    glbPart (pieceFill s d a bytes).1.regs = glbPart s.regs := by
  unfold pieceFill
  split <;> simp

@[simp] theorem dmaRead_glb (s : State) (d : Nat) (errs : SectorErrs) (i a z0 z1 : Nat) :
    glbPart (dmaRead s d errs i a z0 z1).1.regs = glbPart s.regs := by
  induction z0 generalizing s d errs i a z1 with
  | zero => simp [dmaRead]
  | succ k ih =>
    unfold dmaRead
    dsimp only
    repeat' split
    all_goals simp [ih]

@[simp] theorem dmaWrite_glb (s : State) (d who a z0 : Nat) (z1 : List Byte) :
    glbPart (dmaWrite s d who a z0 z1).1.regs = glbPart s.regs := by
  induction z0 generalizing s d who a z1 with
  | zero => simp [dmaWrite]
  | succ k ih =>
    unfold dmaWrite
    dsimp only
    repeat' split
    all_goals simp [ih]

@[simp] theorem dmaFill_glb (s : State) (d pattern a z0 : Nat) :
    glbPart (dmaFill s d pattern a z0).1.regs = glbPart s.regs := by
  induction z0 generalizing s d pattern a with
  | zero => simp [dmaFill]
  | succ k ih =>
    unfold dmaFill
    dsimp only
    split <;> simp [ih]

@[simp] theorem bytesIn_glb (s : State) (port n : Nat) :
    glbPart (bytesIn s port n).regs = glbPart s.regs := by simp [bytesIn]

@[simp] theorem bytesOut_glb (s : State) (port n : Nat) :
    glbPart (bytesOut s port n).regs = glbPart s.regs := by simp [bytesOut]

@[simp] theorem dmaEnd_glb (s : State) (d : Nat) (j : Job) (dev len status data : Nat) :
    glbPart (dmaEnd s d j dev len status data).regs = glbPart s.regs := by simp [dmaEnd]

@[simp] theorem dmaRun_glb (s : State) (d : Nat) (j : Job) (data : List Byte) (takes : Nat) (errs : SectorErrs) :
    glbPart (dmaRun s d j data takes errs).regs = glbPart s.regs := by
  unfold dmaRun
  dsimp only
  repeat' split
  all_goals simp

@[simp] theorem windowRefused_glb (s : State) (d a code : Nat) (write : Bool) :
    glbPart (windowRefused s d a code write).regs = glbPart s.regs := by simp [windowRefused]

@[simp] theorem poisonedCpl_glb (s : State) (p : Nat) :
    glbPart (poisonedCpl s p).regs = glbPart s.regs := by simp [poisonedCpl]

theorem hostLoad_glb {s t : State} {q : HostReq} (h : hostLoad s q = some t) :
    glbPart t.regs = glbPart s.regs := by
  unfold hostLoad at h
  split at h
  · contradiction
  · obtain ⟨x, -, rfl⟩ := Option.map_eq_some_iff.mp h
    simp

theorem hostStore_glb {s t : State} {q : HostReq} (h : hostStore s q = some t) :
    glbPart t.regs = glbPart s.regs := by
  obtain ⟨x, -, rfl⟩ := Option.map_eq_some_iff.mp h
  simp

@[simp] theorem serve_glb (s : State) (l : List HostReq) : glbPart (serve s l).regs = glbPart s.regs := by
  induction l generalizing s with
  | nil => rfl
  | cons q qs ih =>
    simp only [serve]
    split
    · next t ht =>
      have hserved : (if q.write then hostStore s q else hostLoad s q) = some t :=
        (Option.ite_none_left_eq_some.mp ht).2
      split at hserved
      · rw [ih, hostStore_glb hserved]
      · rw [ih, hostLoad_glb hserved]
    · exact ih _

@[simp] theorem pollBells_glb (s : State) :
    glbPart (pollBells s).regs = glbPart s.regs := by simp [pollBells]

@[simp] theorem pollHost_glb (s : State) :
    glbPart (pollHost s).regs = glbPart s.regs := by simp [pollHost]
end Sys2Proof.Proofs
end

section
/-!
SUPPORT. What leaves the registers of the windows (R29): the operations on
power, tiles, movers, the mesh, Districts, images, sparing, Dawn, lost dies.
-/
open Sys2Proof Sys2Proof.Machine Sys2Proof.Safety Sys2Proof.Laws
namespace Sys2Proof.Proofs

/-! ### Machine/PowerOps.lean -/

@[simp] theorem logEvent_glb (s : State) (code domain arg value : Nat) :
    glbPart (logEvent s code domain arg value).regs = glbPart s.regs := by simp [logEvent]

@[simp] theorem vrFrame_glb (s : State) (die mv : Nat) :
    glbPart (vrFrame s die mv).regs = glbPart s.regs := by simp [vrFrame]

@[simp] theorem opMoves_glb (s : State) (d k : Nat) :
    glbPart (opMoves s d k).regs = glbPart s.regs := by simp [opMoves]

@[simp] theorem beginOpStep_glb (s : State) (d next goal : Nat) :
    glbPart (beginOpStep s d next goal).regs = glbPart s.regs := by simp [beginOpStep]

@[simp] theorem requestOp_glb (s : State) (d k : Nat) :
    glbPart (requestOp s d k).regs = glbPart s.regs := by simp [requestOp]

@[simp] theorem applyCeiling_glb (s : State) (d c : Nat) (round : Bool) :
    glbPart (applyCeiling s d c round).regs = glbPart s.regs := by simp [applyCeiling]

@[simp] theorem reapply_glb (s : State) (d : Nat) :
    glbPart (reapply s d).regs = glbPart s.regs := by simp [reapply]

@[simp] theorem showHints_glb (s : State) (d : Nat) :
    glbPart (showHints s d).regs = glbPart s.regs := by simp [showHints]

@[simp] theorem activate_glb (s : State) (d cls : Nat) :
    glbPart (activate s d cls).regs = glbPart s.regs := by simp [activate]

@[simp] theorem postHint_glb (s : State) (d cls lead : Nat) :
    glbPart (postHint s d cls lead).regs = glbPart s.regs := by simp [postHint]

@[simp] theorem setRate_glb (s : State) (q rate : Nat) :
    glbPart (setRate s q rate).regs = glbPart s.regs := by simp [setRate]

@[simp] theorem ledgerStep_glb (s : State) (d r : Nat) (binds : Bool) :
    glbPart (ledgerStep s d r binds).regs = glbPart s.regs := by
  unfold ledgerStep
  dsimp only
  repeat' split
  all_goals simp

@[simp] theorem bindStep_glb (s : State) (d : Nat) :
    glbPart (bindStep s d).regs = glbPart s.regs := by simp [bindStep]

@[simp] theorem cutTiles_glb (s : State) (d mw avgIcc : Nat) :
    glbPart (cutTiles s d mw avgIcc).1.regs = glbPart s.regs := by simp [cutTiles]

@[simp] theorem cutGroup_glb (s : State) (d mw p : Nat) :
    glbPart (cutGroup s d mw p).1.regs = glbPart s.regs := by simp [cutGroup]

@[simp] theorem cutDie_glb (s : State) (d mw tileMw engMw avgIcc collMw : Nat) :
    glbPart (cutDie s d mw tileMw engMw avgIcc collMw).1.regs = glbPart s.regs := by
  unfold cutDie
  split <;> simp

@[simp] theorem releaseGroup_glb (s : State) (d : Nat) :
    glbPart (releaseGroup s d).regs = glbPart s.regs := by simp [releaseGroup]

@[simp] theorem easeTiles_glb (s : State) (d : Nat) :
    glbPart (easeTiles s d).regs = glbPart s.regs := by simp [easeTiles]

@[simp] theorem easeDie_glb (s : State) (d : Nat) :
    glbPart (easeDie s d).regs = glbPart s.regs := by
  unfold easeDie
  split <;> simp

@[simp] theorem easeRound_glb (s : State) :
    glbPart (easeRound s).regs = glbPart s.regs := by simp [easeRound]

@[simp] theorem clearRaw_glb (s : State) (p : PageId) (v : Nat) :
    glbPart (clearRaw s p v).regs = glbPart s.regs := by simp [clearRaw]

/-! ### Machine/TileRun.lean -/

@[simp] theorem applyEff_glb (s : State) (n : Nat) (e : Eff) :
    glbPart (applyEff s n e).regs = glbPart s.regs := by
  unfold applyEff
  split <;> simp

@[simp] theorem applyTile_glb (s : State) (n : Nat) (r : Tile × List Eff) :
    glbPart (applyTile s n r).regs = glbPart s.regs := by simp [applyTile]

@[simp] theorem bundleIssue_glb (s : State) (n : Nat) (e : CycleErrs) :
    glbPart (bundleIssue s n e).regs = glbPart s.regs := by simp [bundleIssue]

@[simp] theorem slotIssue_glb (s : State) (n : Nat) (i : Bundle) :
    glbPart (slotIssue s n i).regs = glbPart s.regs := by simp [slotIssue]

@[simp] theorem waitRelease_glb (s : State) (n : Nat) (e : CycleErrs) :
    glbPart (waitRelease s n e).regs = glbPart s.regs := by
  unfold waitRelease
  dsimp only
  repeat' split
  all_goals simp

@[simp] theorem pacingCycle_glb (s : State) (n : Nat) :
    glbPart (pacingCycle s n).regs = glbPart s.regs := by simp [pacingCycle]

@[simp] theorem haltChan_glb (s : State) (n c code a : Nat) (keep lost : List MCmd) :
    glbPart (haltChan s n c code a keep lost).regs = glbPart s.regs := by simp [haltChan]

@[simp] theorem logParity_glb (s : State) (n code : Nat) (h : ParHit) (lasting : Bool) :
    glbPart (logParity s n code h lasting).regs = glbPart s.regs := by simp [logParity]

@[simp] theorem freeWords_glb (s : State) (z0 : Nat) :
    glbPart (freeWords s z0).2.regs = glbPart s.regs := by
  induction z0 generalizing s with
  | zero => simp [freeWords]
  | succ k ih => simp [freeWords, ih]

@[simp] theorem freeBytes_glb (s : State) (z0 : Nat) :
    glbPart (freeBytes s z0).2.regs = glbPart s.regs := by
  induction z0 generalizing s with
  | zero => simp [freeBytes]
  | succ k ih => simp [freeBytes, ih]

@[simp] theorem freeAct_glb (s : State) (p : Pend) :
    glbPart (freeAct s p).2.regs = glbPart s.regs := by
  unfold freeAct
  split <;> simp

@[simp] theorem freeAgenda_glb (f : Pend → Bool) (s : State) (ps : List Pend) :
    glbPart (freeAgenda f s ps).2.regs = glbPart s.regs := by
  induction ps generalizing s with
  | nil => rfl
  | cons p ps ih => simp [freeAgenda, ih]

@[simp] theorem freeCopies_glb (s : State) (n : Nat) (h : ParHit) :
    glbPart (freeCopies s n h).regs = glbPart s.regs := by simp [freeCopies]

@[simp] theorem freeRow_glb (s : State) (n : Nat) (h : ParHit) :
    glbPart (freeRow s n h).regs = glbPart s.regs := by simp [freeRow]

@[simp] theorem freeResults_glb (s : State) (n : Nat) (h : ParHit) :
    glbPart (freeResults s n h).regs = glbPart s.regs := by
  unfold freeResults
  dsimp only
  repeat' split
  all_goals simp

@[simp] theorem parityTrap_glb (s : State) (n : Nat) (hs : List ParHit) (h : ParHit) :
    glbPart (parityTrap s n hs h).regs = glbPart s.regs := by simp [parityTrap]

@[simp] theorem haltDesc_glb (s : State) (n c : Nat) (h : ParHit) :
    glbPart (haltDesc s n c h).regs = glbPart s.regs := by simp [haltDesc]

@[simp] theorem parityLasting_glb (s : State) (n : Nat) (hs : List ParHit) (h : ParHit) :
    glbPart (parityLasting s n hs h).regs = glbPart s.regs := by
  unfold parityLasting
  extract_lets raised marked halted ops
  have hhalted : glbPart halted.regs = glbPart s.regs := by
    refine (foldl_glb (fun x g => ?_) hs marked).trans (by simp [marked, raised])
    split <;> simp
  split
  · rw [parityTrap_glb, hhalted]
  · exact hhalted

@[simp] theorem parityRetry_glb (s : State) (n : Nat) (fails : List Nat) :
    glbPart (parityRetry s n fails).regs = glbPart s.regs := by
  unfold parityRetry
  dsimp only
  repeat' split
  all_goals simp

@[simp] theorem resultLand_glb (s : State) (n : Nat) (f : Act → Bool) :
    glbPart (resultLand s n f).regs = glbPart s.regs := by
  unfold resultLand
  dsimp only
  repeat' split
  all_goals simp

@[simp] theorem endOfTile_glb (s : State) (n : Nat) :
    glbPart (endOfTile s n).regs = glbPart s.regs := by
  unfold endOfTile
  split <;> simp

@[simp] theorem trapSettled_glb (s : State) (n : Nat) :
    glbPart (trapSettled s n).regs = glbPart s.regs := by simp [trapSettled]

@[simp] theorem tileComplete_glb (s : State) (n : Nat) :
    glbPart (tileComplete s n).regs = glbPart s.regs := by simp [tileComplete]

@[simp] theorem slipTimeout_glb (s : State) (n : Nat) :
    glbPart (slipTimeout s n).regs = glbPart s.regs := by
  unfold slipTimeout
  repeat' split
  all_goals simp

/-! ### Machine/MoverOps.lean -/

@[simp] theorem moverRefused_glb (s : State) (n a code : Nat) :
    glbPart (moverRefused s n a code).regs = glbPart s.regs := by simp [moverRefused]

@[simp] theorem storeData_glb (s : State) (n m : Nat) (b : List Byte) :
    glbPart (storeData s n m b).1.regs = glbPart s.regs := by simp [storeData]

@[simp] theorem lineRead_glb (s : State) (n m : Nat) (b : List Byte) :
    glbPart (lineRead s n m b).1.regs = glbPart s.regs := by simp [lineRead]

@[simp] theorem readLine_glb (s : State) (n a : Nat) (errs : SectorErrs) (k : Nat) :
    glbPart (readLine s n a errs k).1.regs = glbPart s.regs := by
  unfold readLine
  dsimp only
  repeat' split
  all_goals simp

@[simp] theorem writeLine_glb (s : State) (n c a : Nat) (bytes : List Byte) (fillOnly : Bool) :
    glbPart (writeLine s n c a bytes fillOnly).1.regs = glbPart s.regs := by
  unfold writeLine
  dsimp only
  repeat' split
  all_goals simp

@[simp] theorem stepCmd_glb (s : State) (n c : Nat) :
    glbPart (stepCmd s n c).regs = glbPart s.regs := by
  unfold stepCmd
  dsimp only
  split <;> simp

@[simp] theorem enqueue_glb (s : State) (n q : Nat) (bytes : List Byte) (cls : Cause) (src : Option Nat) :
    glbPart (enqueue s n q bytes cls src).regs = glbPart s.regs := by simp [enqueue]

@[simp] theorem countOut_glb (s : State) (n : Nat) :
    glbPart (countOut s n).regs = glbPart s.regs := by simp [countOut]

@[simp] theorem dequeue_glb (s : State) (n o : Nat) (cls : Cause) :
    glbPart (dequeue s n o cls).regs = glbPart s.regs := by simp [dequeue]

@[simp] theorem readUnit_glb (s : State) (n base stride : Nat) (errs : SectorErrs) (r z0 : Nat) :
    glbPart (readUnit s n base stride errs r z0).1.regs = glbPart s.regs := by
  induction z0 generalizing s n base stride errs r with
  | zero => simp [readUnit]
  | succ k ih =>
    unfold readUnit
    dsimp only
    split <;> simp [ih]

@[simp] theorem haltHead_glb (s : State) (n c code a : Nat) :
    glbPart (haltHead s n c code a).regs = glbPart s.regs := by simp [haltHead]

@[simp] theorem moveLine_glb (s : State) (n c : Nat) (errs : SectorErrs) (k : Nat) :
    glbPart (moveLine s n c errs k).1.regs = glbPart s.regs := by
  unfold moveLine
  extract_lets t
  split
  · rfl
  · next m _ =>
    extract_lets a r w b q u
    have hu : glbPart u.1.regs = glbPart s.regs := by
      simp only [u]
      split
      · split <;> simp [q]
      · rfl
    have hr : glbPart r.1.regs = glbPart s.regs := readLine_glb s n a errs k
    have hw : glbPart w.1.regs = glbPart s.regs := writeLine_glb s n c a _ true
    clear_value u r w
    repeat' split
    all_goals simp +zetaDelta [hr, hw, hu]
    split <;> simp

@[simp] theorem moveLines_glb (s : State) (n c : Nat) (errs : SectorErrs) (i z0 : Nat) :
    glbPart (moveLines s n c errs i z0).regs = glbPart s.regs := by
  induction z0 generalizing s n c errs i with
  | zero => simp [moveLines]
  | succ k ih => simp [moveLines, ih]

@[simp] theorem moverStep_glb (s : State) (n c op lines : Nat) (errs : SectorErrs) :
    glbPart (moverStep s n c op lines errs).regs = glbPart s.regs := by
  unfold moverStep
  split <;> simp

@[simp] theorem moverHalt_glb (s : State) (n c : Nat) (errs : SectorErrs) :
    glbPart (moverHalt s n c errs).regs = glbPart s.regs := by simp [moverHalt]

@[simp] theorem moverDone_glb (s : State) (n c : Nat) :
    glbPart (moverDone s n c).regs = glbPart s.regs := by
  unfold moverDone
  dsimp only
  split <;> simp

/-! ### Machine/MeshOps.lean -/

@[simp] theorem lineInto_glb (s : State) (n q : Nat) (bytes : List Byte) (cls : Cause) (src : Option Nat) :
    glbPart (lineInto s n q bytes cls src).1.regs = glbPart s.regs := by simp [lineInto]

@[simp] theorem routeFlow_glb (s : State) (n : Nat) (r : Route) :
    glbPart (routeFlow s n r).regs = glbPart s.regs := by simp [routeFlow]

@[simp] theorem useCredits_glb (s : State) (n : Nat) (r : Route) (k : Nat) :
    glbPart (useCredits s n r k).regs = glbPart s.regs := by simp [useCredits]

@[simp] theorem takeLines_glb (s : State) (n o k : Nat) :
    glbPart (takeLines s n o k).regs = glbPart s.regs := by
  unfold takeLines
  dsimp only
  split <;> simp

@[simp] theorem sendLocal_glb (s : State) (n o : Nat) (g : Send) :
    glbPart (sendLocal s n o g).regs = glbPart s.regs := by
  unfold sendLocal
  split <;> simp

@[simp] theorem packLines_glb (s : State) (n o : Nat) (r : Route) (z0 : Nat) :
    glbPart (packLines s n o r z0).1.regs = glbPart s.regs := by
  induction z0 generalizing s n o r with
  | zero => simp [packLines]
  | succ k ih =>
    unfold packLines
    dsimp only
    split <;> simp [ih]

@[simp] theorem sendRemote_glb (s : State) (n o lines : Nat) (g : Send) :
    glbPart (sendRemote s n o lines g).regs = glbPart s.regs := by simp [sendRemote]

@[simp] theorem sendLines_glb (s : State) (n o lines : Nat) :
    glbPart (sendLines s n o lines).regs = glbPart s.regs := by
  unfold sendLines
  split <;> simp

@[simp] theorem sendCorrupted_glb (s : State) (n o lines : Nat) (flips : List (Nat × Nat)) :
    glbPart (sendCorrupted s n o lines flips).regs = glbPart s.regs := by
  unfold sendCorrupted
  dsimp only
  split <;> simp

@[simp] theorem remoteLine_glb (s : State) (n : Nat) :
    glbPart (remoteLine s n).regs = glbPart s.regs := by
  unfold remoteLine
  split <;> simp

@[simp] theorem remoteSig_glb (s : State) (n : Nat) :
    glbPart (remoteSig s n).regs = glbPart s.regs := by
  unfold remoteSig
  split <;> simp

@[simp] theorem sendSig_glb (s : State) (n k : Nat) :
    glbPart (sendSig s n k).regs = glbPart s.regs := by
  unfold sendSig
  dsimp only
  split <;> simp

@[simp] theorem creditBack_glb (s : State) (n : Nat) (far : Option FarQueue) :
    glbPart (creditBack s n far).regs = glbPart s.regs := by
  unfold creditBack
  dsimp only
  repeat' split
  all_goals simp

/-! ### Machine/DistOps.lean -/

@[simp] theorem emptySlots_glb (s : State) (d : Nat) (p : Image → Bool) :
    glbPart (emptySlots s d p).regs = glbPart s.regs := by simp [emptySlots]

@[simp] theorem emptyNaming_glb (s : State) (p : Nat → Bool) :
    glbPart (emptyNaming s p).regs = glbPart s.regs := by simp [emptyNaming]

@[simp] theorem startLaunch_glb (s : State) (d : Nat) (j : Job) :
    glbPart (startLaunch s d j).regs = glbPart s.regs := by
  unfold startLaunch
  split <;> simp

@[simp] theorem pollLaunches_glb (s : State) :
    glbPart (pollLaunches s).regs = glbPart s.regs := by simp [pollLaunches]

@[simp] theorem haltTile_glb (s : State) (n : Nat) :
    glbPart (haltTile s n).regs = glbPart s.regs := by simp [haltTile]

@[simp] theorem stopLaunches_glb (s : State) (d : Nat) :
    glbPart (stopLaunches s d).regs = glbPart s.regs := by
  refine foldl_glb (fun x j => ?_) _ s
  split <;> simp

@[simp] theorem stopDistrict_glb (s : State) (d : Nat) :
    glbPart (stopDistrict s d).regs = glbPart s.regs := by simp [stopDistrict]

@[simp] theorem clearProc_glb (s : State) (d : Nat) :
    glbPart (clearProc s d).regs = glbPart s.regs := by simp [clearProc]

@[simp] theorem resetProc_glb (s : State) (d : Nat) :
    glbPart (resetProc s d).regs = glbPart s.regs := by simp [resetProc]

@[simp] theorem unwriteSlice_glb (s : State) (n : Nat) :
    glbPart (unwriteSlice s n).regs = glbPart s.regs := by simp [unwriteSlice]

@[simp] theorem scrubTile_glb (s : State) (n : Nat) :
    glbPart (scrubTile s n).regs = glbPart s.regs := by simp [scrubTile]

@[simp] theorem loseLaunches_glb (s : State) (n : Nat) (p : List Nat → Bool) :
    glbPart (loseLaunches s n p).regs = glbPart s.regs := by
  refine foldl_glb (fun x d => foldl_glb (fun y j => ?_) _ x) _ s
  split <;> simp

@[simp] theorem voidRespare_glb (s : State) (n : Nat) :
    glbPart (voidRespare s n).regs = glbPart s.regs := by
  refine foldl_glb (fun x d => foldl_glb (fun y j => ?_) _ x) _ s
  split <;> simp

@[simp] theorem failWaiter_glb (s : State) (w : Nat × Nat) :
    glbPart (failWaiter s w).regs = glbPart s.regs := by
  unfold failWaiter
  dsimp only
  repeat' split
  all_goals simp

@[simp] theorem fenceFirst_glb (s : State) (n : Nat) :
    glbPart (fenceFirst s n).regs = glbPart s.regs := by simp [fenceFirst]

@[simp] theorem loseSlice_glb (s : State) (n : Nat) :
    glbPart (loseSlice s n).regs = glbPart s.regs := by simp [loseSlice]

@[simp] theorem loseRequest_glb (s : State) (n m : Nat) (w : Nat × Nat) :
    glbPart (loseRequest s n m w).regs = glbPart s.regs := by simp [loseRequest]

@[simp] theorem loseLines_glb (s : State) (n m q : Nat) :
    glbPart (loseLines s n m q).regs = glbPart s.regs := by simp [loseLines]

@[simp] theorem loseSent_glb (s : State) (n k o : Nat) :
    glbPart (loseSent s n k o).regs = glbPart s.regs := by
  unfold loseSent
  dsimp only
  split <;> simp

@[simp] theorem loseThrough_glb (s : State) (n : Nat) :
    glbPart (loseThrough s n).regs = glbPart s.regs := by simp [loseThrough]

@[simp] theorem loseRouter_glb (s : State) (n : Nat) :
    glbPart (loseRouter s n).regs = glbPart s.regs := by simp [loseRouter]

@[simp] theorem fenceTile_glb (s : State) (n : Nat) (router lost : Bool) :
    glbPart (fenceTile s n router lost).regs = glbPart s.regs := by simp [fenceTile]

@[simp] theorem dieLostEnd_glb (s : State) (d die : Nat) (j : Job) :
    glbPart (dieLostEnd s d die j).regs = glbPart s.regs := by
  unfold dieLostEnd
  dsimp only
  split <;> simp

@[simp] theorem distLosesDie_glb {d : Nat} (h : d < 4) (s : State) (die : Nat) :
    glbPart (distLosesDie s die d).regs = glbPart s.regs := by simp [distLosesDie, h]

@[simp] theorem loseDie_glb (s : State) (die : Nat) : glbPart (loseDie s die).regs = glbPart s.regs := rfl

@[simp] theorem setDigest_glb (s : State) :
    glbPart (setDigest s).regs = glbPart s.regs := by simp [setDigest]

@[simp] theorem compareDigest_glb (s : State) :
    glbPart (compareDigest s).regs = glbPart s.regs := by
  unfold compareDigest
  split <;> simp

@[simp] theorem loseMap_glb (s : State) (die : Nat) :
    glbPart (loseMap s die).regs = glbPart s.regs := by simp [loseMap]

@[simp] theorem fenceDie_glb (s : State) (die cause : Nat) :
    glbPart (fenceDie s die cause).regs = glbPart s.regs := by
  have hdists : ∀ x : State,
      glbPart ((List.range 4).foldl (fun s d => distLosesDie s die d) x).regs = glbPart x.regs :=
    foldl_mem_glb fun x d hd => distLosesDie_glb (List.mem_range.mp hd) x die
  simp [fenceDie, hdists]

@[simp] theorem engineDark_glb (s : State) (e : Nat) :
    glbPart (engineDark s e).regs = glbPart s.regs := by simp [engineDark]

@[simp] theorem lasersOff_glb (s : State) (e : Nat) :
    glbPart (lasersOff s e).regs = glbPart s.regs := by simp [lasersOff]

@[simp] theorem fenceOe_glb (s : State) (e cause : Nat) :
    glbPart (fenceOe s e cause).regs = glbPart s.regs := by simp [fenceOe]

/-! ### Machine/ImageOps.lean -/

@[simp] theorem loadTile_glb (s : State) (ts : List Nat) (b : List Byte) (minor j : Nat) :
    glbPart (loadTile s ts b minor j).regs = glbPart s.regs := by simp [loadTile]

@[simp] theorem loadEnd_glb (s : State) (d : Nat) (j : Job) (data : List Byte) :
    glbPart (loadEnd s d j data).regs = glbPart s.regs := by
  unfold loadEnd
  dsimp only
  repeat' split
  all_goals simp

/-! ### Machine/YieldOps.lean -/

theorem glbPart_filter {p : Nat → Bool} (hp : ∀ k, inGlb k = true → p k = true) (m : SMap Nat) :
    glbPart (m.filter (fun kv => p kv.1)) = glbPart m := by
  unfold glbPart
  rw [List.filter_filter]
  refine List.filter_congr fun kv _ => ?_
  cases hk : inGlb kv.1 with
  | false => rfl
  | true => simp [hp kv.1 hk]

theorem glbPart_foldl_put {f : Nat → Nat} {l : List (Nat × Nat)} (hf : ∀ kv ∈ l, inGlb (f kv.1) = false)
    (m : SMap Nat) : glbPart (l.foldl (fun r kv => SMap.put r (f kv.1) kv.2) m) = glbPart m :=
  List.foldlRecOn (motive := fun x => glbPart x = glbPart m) l _ rfl fun _ hx kv hkv =>
    (glbPart_put (hf kv hkv)).trans hx

/-- A tile's group stands behind `PKGSW`. -/
theorem inGlb_of_groupBit_le {n k : Nat} (h : groupBit n ≤ k) : inGlb k = false := by
  simp only [groupBit, tileP, PageId.base] at h
  simp only [inGlb, Bool.and_eq_false_iff, decide_eq_false_iff_not]
  omega

@[simp] theorem moveRow_glb (s : State) (die row n : Nat) (from' : Nat → Option Nat) :
    glbPart (moveRow s die row n from').regs = glbPart s.regs := by
  unfold moveRow
  extract_lets t0 inRow old cleared lock moved
  have hcleared : glbPart cleared.regs = glbPart s.regs :=
    glbPart_filter (p := fun k => !inRow k) (fun k hk => by
      by_cases hle : groupBit t0 ≤ k
      · exact absurd hk (by simp [inGlb_of_groupBit_le hle])
      · simp [inRow, hle]) s.regs
  have hmoved : glbPart moved.regs = glbPart cleared.regs := by
    refine foldl_glb (fun x l => ?_) _ _
    split
    · rfl
    · next m _ =>
      extract_lets a b mine put told
      have hput : glbPart put.regs = glbPart x.regs :=
        glbPart_foldl_put (f := fun k => k - a + b)
          (fun kv _ => inGlb_of_groupBit_le (n := t0 + l) (Nat.le_add_left _ _)) x.regs
      have htold : glbPart told.regs = glbPart put.regs := by
        simp only [told]
        split <;> simp
      split <;> simp [htold, hput]
  have hlock : ∀ (x : State) (l : Nat), glbPart (lock x l).regs = glbPart x.regs := fun x l =>
    foldl_glb (fun y p => wr_glb (offGlb_lock p) y _) _ x
  rw [foldl_glb hlock, hmoved, hcleared]

@[simp] theorem respareRow_glb (s : State) (die row : Nat) (bad : List Nat) :
    glbPart (respareRow s die row bad).regs = glbPart s.regs := by simp [respareRow]

@[simp] theorem respareEnd_glb (s : State) (d : Nat) (j : Job) (fails : Nat) :
    glbPart (respareEnd s d j fails).regs = glbPart s.regs := by
  unfold respareEnd
  repeat' split
  all_goals simp

/-! ### Machine/DawnOps.lean -/

@[simp] theorem freshChallenge_glb (s : State) : glbPart (freshChallenge s).regs = glbPart s.regs := by
  refine foldl_mem_glb (fun x i hi => ?_) s
  simp [offGlb_challenge (List.mem_range.mp hi)]

@[simp] theorem haltDawn_glb (s : State) (code : Nat) :
    glbPart (haltDawn s code).regs = glbPart s.regs := by simp [haltDawn]

@[simp] theorem stageTime_glb (s : State) (k : Nat) :
    glbPart (stageTime s k).regs = glbPart s.regs := by simp [stageTime]

@[simp] theorem nextStage_glb (s : State) (k : Nat) :
    glbPart (nextStage s k).regs = glbPart s.regs := by simp [nextStage]

@[simp] theorem dawnAdvance_glb (s : State) :
    glbPart (dawnAdvance s).regs = glbPart s.regs := by simp [dawnAdvance]

@[simp] theorem stageOne_glb (s : State) :
    glbPart (stageOne s).regs = glbPart s.regs := by simp [stageOne]

@[simp] theorem leaveReset_glb (s : State) :
    glbPart (leaveReset s).regs = glbPart s.regs := by simp [leaveReset]

@[simp] theorem dawnDma_glb (s : State) (a which : Nat) :
    glbPart (dawnDma s a which).regs = glbPart s.regs := by simp [dawnDma]

@[simp] theorem takeRecord_glb (s : State) (got : List Byte) :
    glbPart (takeRecord s got).regs = glbPart s.regs := by simp [takeRecord]

@[simp] theorem trained_glb (s : State) (k inst : Nat) (ok : Bool) :
    glbPart (trained s k inst ok).regs = glbPart s.regs := by simp [trained]

@[simp] theorem logBist_glb (s : State) (die row col kind : Nat) (repaired : Bool) (loc count us : Nat) :
    glbPart (logBist s die row col kind repaired loc count us).regs = glbPart s.regs := by simp [logBist]

@[simp] theorem bistBad_glb (s : State) (die row col : Nat) :
    glbPart (bistBad s die row col).regs = glbPart s.regs := by simp [bistBad]

@[simp] theorem beyondRepair_glb (s : State) (die row col : Nat) :
    glbPart (beyondRepair s die row col).regs = glbPart s.regs := by simp [beyondRepair]

theorem useSpare_glb {s t : State} {kind die e : Nat} (h : useSpare s kind die e = some t) :
    glbPart t.regs = glbPart s.regs := by
  obtain ⟨-, hspare⟩ := Option.ite_none_left_eq_some.mp h
  cases hspare
  simp

@[simp] theorem recordRepairs_glb (s : State) (kind die : Nat) :
    glbPart (recordRepairs s kind die).regs = glbPart s.regs := by
  refine foldl_glb (fun x e => ?_) _ s
  split
  · next hspare => exact useSpare_glb hspare
  · simp

@[simp] theorem beginEmit_glb (s : State) (trained : List (Nat × Nat × List Byte)) :
    glbPart (beginEmit s trained).regs = glbPart s.regs := by simp [beginEmit]

@[simp] theorem emitFailed_glb (s : State) :
    glbPart (emitFailed s).regs = glbPart s.regs := by simp [emitFailed]

@[simp] theorem endEmit_glb (s : State) (takes : Nat) :
    glbPart (endEmit s takes).regs = glbPart s.regs := by
  unfold endEmit
  split <;> simp

/-! ### Machine/D2D.lean -/

@[simp] theorem fenceGroup_glb (s : State) (g cause : Nat) :
    glbPart (fenceGroup s g cause).regs = glbPart s.regs := by simp [fenceGroup]

@[simp] theorem checkUsable_glb (s : State) (g : Nat) :
    glbPart (checkUsable s g).regs = glbPart s.regs := by simp [checkUsable]

@[simp] theorem flowsGoOn_glb (s : State) :
    glbPart (flowsGoOn s).regs = glbPart s.regs := by simp [flowsGoOn]

@[simp] theorem disableModule_glb (s : State) (g m : Nat) :
    glbPart (disableModule s g m).regs = glbPart s.regs := by simp [disableModule]

@[simp] theorem d2dReplay_glb (s : State) (g m : Nat) :
    glbPart (d2dReplay s g m).regs = glbPart s.regs := by simp [d2dReplay]

@[simp] theorem d2dUnseen_glb (s : State) (g m : Nat) (flips : List (Nat × Nat)) :
    glbPart (d2dUnseen s g m flips).regs = glbPart s.regs := by simp [d2dUnseen]

@[simp] theorem laneFail_glb (s : State) (g m dir lane : Nat) (halfFree : Bool) :
    glbPart (laneFail s g m dir lane halfFree).regs = glbPart s.regs := by simp [laneFail]

@[simp] theorem farSideLost_glb (s : State) (g code cause : Nat) :
    glbPart (farSideLost s g code cause).regs = glbPart s.regs := by simp [farSideLost]

@[simp] theorem dieLost_glb (s : State) (d code cause : Nat) :
    glbPart (dieLost s d code cause).regs = glbPart s.regs := by simp [dieLost]
end Sys2Proof.Proofs
end

section
/-!
SUPPORT. What leaves the registers of the windows (R29): the operations on
commands, host ports, governors, bring-up, security, optics.
-/
open Sys2Proof Sys2Proof.Machine Sys2Proof.Safety Sys2Proof.Laws
namespace Sys2Proof.Proofs

/-! ### Machine/CommandOps.lean -/

@[simp] theorem addJob_glb (s : State) (d op : Nat) (h : CmdHdr) (w : Work) :
    glbPart (addJob s d op h w).regs = glbPart s.regs := by simp [addJob]

@[simp] theorem clearCounts_glb (s : State) (d : Nat) (im : Image) :
    glbPart (clearCounts s d im).regs = glbPart s.regs := by simp [clearCounts]

@[simp] theorem launchStart_glb (s : State) (d : Nat) (h : CmdHdr) (slot : Nat) (args : List Nat) :
    glbPart (launchStart s d h slot args).regs = glbPart s.regs := by
  unfold launchStart
  split <;> simp

@[simp] theorem namedRefused_glb (s : State) (d op : Nat) (h : CmdHdr) (n e : Nat) :
    glbPart (namedRefused s d op h n e).regs = glbPart s.regs := by simp [namedRefused]

@[simp] theorem signalStart_glb (s : State) (d : Nat) (h : CmdHdr) (n c : Nat) :
    glbPart (signalStart s d h n c).regs = glbPart s.regs := by simp [signalStart]

@[simp] theorem fenceStart_glb (s : State) (d : Nat) (h : CmdHdr) (n : Nat) :
    glbPart (fenceStart s d h n).regs = glbPart s.regs := by simp [fenceStart]

@[simp] theorem hintStart_glb (s : State) (d : Nat) (h : CmdHdr) (cls lead dies : Nat) :
    glbPart (hintStart s d h cls lead dies).regs = glbPart s.regs := by
  unfold hintStart
  dsimp only
  split <;> simp

@[simp] theorem respareStart_glb (s : State) (d : Nat) (h : CmdHdr) (die row : Nat) :
    glbPart (respareStart s d h die row).regs = glbPart s.regs := by simp [respareStart]

@[simp] theorem collectiveStart_glb (s : State) (d : Nat) (h : CmdHdr) (slot arg : Nat)
    (desc : Option (List Byte)) :
    glbPart (collectiveStart s d h slot arg desc).regs = glbPart s.regs := by
  unfold collectiveStart
  dsimp only
  repeat' split
  all_goals simp

@[simp] theorem startCmd_glb (s : State) (d : Nat) (h : CmdHdr) (c : Cmd) (desc : Option (List Byte)) :
    glbPart (startCmd s d h c desc).regs = glbPart s.regs := by
  unfold startCmd
  repeat' split
  all_goals simp

@[simp] theorem withRefuse_glb {act : State → State} (hact : ∀ y, glbPart (act y).regs = glbPart y.regs)
    (s : State) (d : Nat) (refused : Bool) :
    glbPart (withRefuse s d refused act).regs = glbPart s.regs := by simp [withRefuse, hact]

@[simp] theorem takeEntry_glb (s : State) (d : Nat) :
    glbPart (takeEntry s d).regs = glbPart s.regs := by simp [takeEntry]

@[simp] theorem startNext_glb (s : State) (d : Nat) (h : CmdHdr) (c : Cmd) (desc : Option (List Byte))
    (refused : Bool) :
    glbPart (startNext s d h c desc refused).regs = glbPart s.regs := by simp [startNext]

@[simp] theorem ringReadFailed_glb (s : State) (d : Nat) :
    glbPart (ringReadFailed s d).regs = glbPart s.regs := by simp [ringReadFailed]

@[simp] theorem fetchNext_glb (s : State) (d : Nat) (entry desc : Option (List Byte)) (refused : Bool) :
    glbPart (fetchNext s d entry desc refused).regs = glbPart s.regs := by
  unfold fetchNext
  split <;> simp

@[simp] theorem doorbell_glb (s : State) (req d v : Nat) :
    glbPart (doorbell s req d v).regs = glbPart s.regs := by simp [doorbell]

@[simp] theorem cplHead_glb {d : Nat} (h : d < 4) (s : State) (v : Nat) :
    glbPart (cplHead s d v).regs = glbPart s.regs := by simp [cplHead, h]

@[simp] theorem abortAll_glb (s : State) (d : Nat) (entries : List (List Byte)) :
    glbPart (abortAll s d entries).regs = glbPart s.regs := by simp [abortAll]

/-! ### Machine/Host.lean -/

@[simp] theorem fwWaiting_glb (s : State) :
    glbPart (fwWaiting s).regs = glbPart s.regs := by simp [fwWaiting]

@[simp] theorem portReset_glb {p : Nat} (h : p < 4) (s : State) :
    glbPart (portReset s p).regs = glbPart s.regs := by simp [portReset, deliver1_glb h]

@[simp] theorem linkTrained_glb (s : State) (p gen width : Nat) (flit : Bool) :
    glbPart (linkTrained s p gen width flit).regs = glbPart s.regs := by simp [linkTrained]

@[simp] theorem hostLinkDown_glb (s : State) (p : Nat) :
    glbPart (hostLinkDown s p).regs = glbPart s.regs := by simp [hostLinkDown]

@[simp] theorem perstFalls_glb {p : Nat} (h : p < 4) (s : State) :
    glbPart (perstFalls s p).regs = glbPart s.regs := by simp [perstFalls, h]

@[simp] theorem beginScrub_glb (s : State) (d q : Nat) :
    glbPart (beginScrub s d q).regs = glbPart s.regs := by simp [beginScrub]

@[simp] theorem maskWrite_glb (s : State) (d v : Nat) :
    glbPart (maskWrite s d v).regs = glbPart s.regs := by simp [maskWrite]

@[simp] theorem scrubDone_glb (s : State) (q : Nat) :
    glbPart (scrubDone s q).regs = glbPart s.regs := by
  unfold scrubDone
  split <;> simp

@[simp] theorem windowAccess_glb (s : State) (d off : Nat) (q : HostReq) :
    glbPart (windowAccess s d off q).regs = glbPart s.regs := by simp [windowAccess]

/-! ### Machine/Power.lean -/

@[simp] theorem capWrite_glb (s : State) (v : Nat) :
    glbPart (capWrite s v).regs = glbPart s.regs := by simp [capWrite]

@[simp] theorem opTargetWrite_glb (s : State) (d v : Nat) :
    glbPart (opTargetWrite s d v).regs = glbPart s.regs := by simp [opTargetWrite]

@[simp] theorem sampleRound_glb (s : State) (raw : List (Nat × Int)) :
    glbPart (sampleRound s raw).regs = glbPart s.regs := by simp [sampleRound]

@[simp] theorem crossCheck_glb (s : State) :
    glbPart (crossCheck s).regs = glbPart s.regs := by simp [crossCheck]

@[simp] theorem railsRound_glb (s : State) :
    glbPart (railsRound s).regs = glbPart s.regs := by simp [railsRound]

@[simp] theorem railCheck_glb (s : State) : glbPart (railCheck s).regs = glbPart s.regs := by
  refine (foldl_mem_glb (fun x i hi => ?_) _).trans (railsRound_glb s)
  simp [offGlb_railOor (List.mem_range.mp hi)]

@[simp] theorem guardEvent_glb (s : State) (d what arg : Nat) :
    glbPart (guardEvent s d what arg).regs = glbPart s.regs := by simp [guardEvent]

@[simp] theorem tjRound_glb (old s : State) (d : Nat) :
    glbPart (tjRound old s d).regs = glbPart s.regs := by simp [tjRound]

@[simp] theorem tdRound_glb (old s : State) (d : Nat) :
    glbPart (tdRound old s d).regs = glbPart s.regs := by simp [tdRound]

@[simp] theorem refreshRound_glb (old s : State) (q : Nat) :
    glbPart (refreshRound old s q).regs = glbPart s.regs := by simp [refreshRound]

@[simp] theorem watchRound_glb (old s : State) (w : Nat) :
    glbPart (watchRound old s w).regs = glbPart s.regs := by simp [watchRound]

@[simp] theorem cutDies_glb (s : State) (ds : List RoundDom) (share : Nat → Nat) (carry : Nat) :
    glbPart (cutDies s ds share carry).1.regs = glbPart s.regs := by simp [cutDies]

@[simp] theorem cutRound_glb (s : State) (mw : Nat) (ds : List RoundDom) :
    glbPart (cutRound s mw ds).regs = glbPart s.regs := by simp [cutRound]

@[simp] theorem capRound_glb (s : State) (r : RoundIn) :
    glbPart (capRound s r).regs = glbPart s.regs := by simp [capRound]

@[simp] theorem opRound_glb (s : State) (d avgDuty : Nat) :
    glbPart (opRound s d avgDuty).regs = glbPart s.regs := by simp [opRound]

@[simp] theorem heatRound_glb (old s : State) :
    glbPart (heatRound old s).regs = glbPart s.regs := by simp [heatRound]

@[simp] theorem senseRound_glb (old s : State) :
    glbPart (senseRound old s).regs = glbPart s.regs := by simp [senseRound]

@[simp] theorem beaconRound_glb (s : State) (lines : List (Fin 4 × BitVec 32)) :
    glbPart (beaconRound s lines).regs = glbPart s.regs := by simp [beaconRound]

@[simp] theorem duskRound_glb (s : State) (r : RoundIn) :
    glbPart (duskRound s r).regs = glbPart s.regs := by simp [duskRound]

@[simp] theorem sensorEvent_glb (s : State) (ch : Nat) :
    glbPart (sensorEvent s ch).regs = glbPart s.regs := by simp [sensorEvent]

@[simp] theorem setSuspect_glb (s : State) (f : Fld) (ch : Nat) (on : Bool) :
    glbPart (setSuspect s f ch on).regs = glbPart s.regs := by simp [setSuspect]

@[simp] theorem tempRelease_glb (s : State) (d : Nat) (td : Bool) :
    glbPart (tempRelease s d td).regs = glbPart s.regs := by simp [tempRelease]

@[simp] theorem opStepDone_glb (s : State) (d : Nat) :
    glbPart (opStepDone s d).regs = glbPart s.regs := by
  unfold opStepDone
  dsimp only
  split <;> simp

@[simp] theorem sampleClasses_glb (s : State) (d power : Nat) :
    glbPart (sampleClasses s d power).regs = glbPart s.regs := by simp [sampleClasses]

@[simp] theorem measureStep_glb (s : State) (d : Nat) (g : GovIn) :
    glbPart (measureStep s d g).regs = glbPart s.regs := by simp [measureStep]

@[simp] theorem actStep_glb (s : State) (d : Nat) :
    glbPart (actStep s d).regs = glbPart s.regs := by simp [actStep]

@[simp] theorem heaterStep_glb (s : State) (e : Nat) (h : Nat × Bool) :
    glbPart (heaterStep s e h).regs = glbPart s.regs := by simp [heaterStep]

@[simp] theorem governorStep_glb (s : State) (gs : List GovIn) (htr : List (Nat × Bool)) :
    glbPart (governorStep s gs htr).regs = glbPart s.regs := by
  unfold governorStep
  extract_lets acted heated
  have hacted : glbPart acted.regs = glbPart s.regs := by
    refine foldl_glb (fun x d => ?_) _ s
    split <;> simp
  have hheated : glbPart heated.regs = glbPart acted.regs := by simp [heated]
  exact hheated.trans hacted

@[simp] theorem startRamp_glb (s : State) (d cls : Nat) :
    glbPart (startRamp s d cls).regs = glbPart s.regs := by simp [startRamp]

/-! ### Machine/Dawn.lean -/

@[simp] theorem fwGo_glb (s : State) :
    glbPart (fwGo s).regs = glbPart s.regs := by simp [fwGo]

@[simp] theorem bundleRefused_glb (s : State) (code got : Nat) :
    glbPart (bundleRefused s code got).regs = glbPart s.regs := by simp [bundleRefused]

@[simp] theorem bundleAccepted_glb (s : State) (b rec : List Byte) :
    glbPart (bundleAccepted s b rec).regs = glbPart s.regs := by simp [bundleAccepted]

@[simp] theorem reportComparators_glb (s : State) (d fails : Nat) :
    glbPart (reportComparators s d fails).regs = glbPart s.regs := by simp [reportComparators]

@[simp] theorem releaseDie_glb (s : State) (fails : Nat) (restored : Bool) :
    glbPart (releaseDie s fails restored).regs = glbPart s.regs := by simp [releaseDie]

@[simp] theorem setModules_glb (s : State) (g : Nat) (mods : List ModTrain) :
    glbPart (setModules s g mods).regs = glbPart s.regs := by simp [setModules]

@[simp] theorem trainGroup_glb (s : State) (g partnerMax rate vmin vmax : Nat) (mods : List ModTrain)
    (restored : Bool) :
    glbPart (trainGroup s g partnerMax rate vmin vmax mods restored).regs = glbPart s.regs := by
  unfold trainGroup
  split <;> simp

@[simp] theorem portFail_glb (s : State) (d : Nat) (f : PortFail) :
    glbPart (portFail s d f).regs = glbPart s.regs := by simp [portFail]

@[simp] theorem trainPorts_glb (s : State) (d : Nat) (fails : List PortFail) (restored : Bool) :
    glbPart (trainPorts s d fails restored).regs = glbPart s.regs := by simp [trainPorts]

@[simp] theorem rowFail_glb (s : State) (f : BistFail) :
    glbPart (rowFail s f).regs = glbPart s.regs := by
  unfold rowFail
  dsimp only
  split
  · next hspare => simp [useSpare_glb hspare]
  · simp

@[simp] theorem unitFail_glb (s : State) (f : BistFail) :
    glbPart (unitFail s f).regs = glbPart s.regs := by simp [unitFail]

@[simp] theorem bistWave_glb (s : State) (tower : Bool) (fails : List BistFail) :
    glbPart (bistWave s tower fails).regs = glbPart s.regs := by simp [bistWave]

@[simp] theorem budgetExpire_glb (s : State) (d row col : Nat) (tower : Bool) (us : Nat) :
    glbPart (budgetExpire s d row col tower us).regs = glbPart s.regs := by simp [budgetExpire]

@[simp] theorem takeBadTiles_glb (s : State) :
    glbPart (takeBadTiles s).regs = glbPart s.regs := by simp [takeBadTiles]

@[simp] theorem formMap_glb (s : State) :
    glbPart (formMap s).regs = glbPart s.regs := by simp [formMap]

@[simp] theorem finishDawn_glb (s : State) (sections : List TrainSection) :
    glbPart (finishDawn s sections).regs = glbPart s.regs := by simp [finishDawn]

@[simp] theorem recEmit_glb (s : State) (sections : List TrainSection) :
    glbPart (recEmit s sections).regs = glbPart s.regs := by simp [recEmit]

/-! ### Machine/Faults.lean -/

@[simp] theorem tileLost_glb (s : State) (n : Nat) (router slice : Bool) :
    glbPart (tileLost s n router slice).regs = glbPart s.regs := by simp [tileLost]

/-! ### Machine/Security.lean -/

@[simp] theorem lcFail_glb (s : State) (code : Nat) :
    glbPart (lcFail s code).regs = glbPart s.regs := by simp [lcFail]

@[simp] theorem lcAbort_glb (s : State) (code index mv : Nat) :
    glbPart (lcAbort s code index mv).regs = glbPart s.regs := by simp [lcAbort]

@[simp] theorem drawSeed_glb (s : State) :
    glbPart (drawSeed s).2.regs = glbPart s.regs := by simp [drawSeed]

@[simp] theorem beginLc_glb (s : State) (target : Nat) :
    glbPart (beginLc s target).regs = glbPart s.regs := by simp [beginLc]

@[simp] theorem lcReq_glb (s : State) (target confirm : Nat) :
    glbPart (lcReq s target confirm).regs = glbPart s.regs := by simp [lcReq]

@[simp] theorem fusePulse_glb (s : State) (ok : Bool) :
    glbPart (fusePulse s ok).regs = glbPart s.regs := by
  unfold fusePulse
  repeat' split
  all_goals simp

@[simp] theorem stopLaunch_glb (s : State) (d : Nat) (j : Job) :
    glbPart (stopLaunch s d j).regs = glbPart s.regs := by
  unfold stopLaunch
  split <;> simp

@[simp] theorem scanOn_glb (s : State) :
    glbPart (scanOn s).regs = glbPart s.regs := by simp [scanOn]

@[simp] theorem testCtrl_glb (s : State) (scan engine : Bool) :
    glbPart (testCtrl s scan engine).regs = glbPart s.regs := by simp [testCtrl]

@[simp] theorem makeReport_glb (s : State) (d : Nat) (pkg : Bool) :
    glbPart (makeReport s d pkg).2.regs = glbPart s.regs := by simp [makeReport]

@[simp] theorem attGo_glb {d : Nat} (h : d < 4) (s : State) (port : Nat) (pkg : Bool) :
    glbPart (attGo s port d pkg).regs = glbPart s.regs := by
  simp [attGo, offGlb_attStatus h, offGlb_attPkg h]

@[simp] theorem attDone_glb {d : Nat} (h : d < 4) (s : State) (refused : Bool) :
    glbPart (attDone s d refused).regs = glbPart s.regs := by
  unfold attDone
  split
  · rfl
  · simp [offGlb_attStatus h]

@[simp] theorem policyWrite_glb {p : PageId} {f : Fld} {i : Nat} (h : OffGlb p f i) (s : State) (d bit v : Nat) :
    glbPart (policyWrite s d p f i bit v).regs = glbPart s.regs := by simp [policyWrite, h]

/-! ### Machine/OpticsOps.lean -/

@[simp] theorem blockEnable_glb {start drain : State → State}
    (hstart : ∀ y, glbPart (start y).regs = glbPart y.regs)
    (hdrain : ∀ y, glbPart (drain y).regs = glbPart y.regs) (s : State) (p : PageId) (on : Bool) :
    glbPart (blockEnable s p on start drain).regs = glbPart s.regs := by
  unfold blockEnable
  dsimp only
  split
  · simp
  · split <;> simp [hstart, hdrain]

@[simp] theorem blockStarted_glb {drain : State → State}
    (hdrain : ∀ y, glbPart (drain y).regs = glbPart y.regs) (s : State) (p : PageId) :
    glbPart (blockStarted s p drain).regs = glbPart s.regs := by simp [blockStarted, hdrain]

@[simp] theorem txStarts_glb (s : State) (l : Nat) :
    glbPart (txStarts s l).regs = glbPart s.regs := by simp [txStarts]

@[simp] theorem lineTrained_glb (s : State) (l : Nat) :
    glbPart (lineTrained s l).regs = glbPart s.regs := by simp [lineTrained]

@[simp] theorem alleySettle_glb (s : State) (l : Nat) :
    glbPart (alleySettle s l).regs = glbPart s.regs := by simp [alleySettle]

@[simp] theorem joinLanes_glb (s : State) (l rx tx : Nat) :
    glbPart (joinLanes s l rx tx).regs = glbPart s.regs := by simp [joinLanes]

@[simp] theorem driveCell_glb (s : State) (e cell : Nat) :
    glbPart (driveCell s e cell).regs = glbPart s.regs := by simp [driveCell]

@[simp] theorem setCells_glb (s : State) (e : Nat) (cs : List CellSet) :
    glbPart (setCells s e cs).regs = glbPart s.regs := by simp [setCells]

@[simp] theorem calibrate_glb (s : State) (e : Nat) (cs : List CellCal) :
    glbPart (calibrate s e cs).regs = glbPart s.regs := by simp [calibrate]

@[simp] theorem measureLoss_glb (s : State) (e : Nat) :
    glbPart (measureLoss s e).regs = glbPart s.regs := by simp [measureLoss]

@[simp] theorem showMove_glb (s : State) (e : Nat) :
    glbPart (showMove s e).regs = glbPart s.regs := by
  unfold showMove
  split <;> simp

@[simp] theorem setStep_glb (s : State) (e : Nat) (m : Move) (k : Nat) :
    glbPart (setStep s e m k).regs = glbPart s.regs := by simp [setStep]

@[simp] theorem settleAlloc_glb (s : State) (l : Nat) :
    glbPart (settleAlloc s l).regs = glbPart s.regs := by simp [settleAlloc]

@[simp] theorem vacate_glb (s : State) (e w : Nat) :
    glbPart (vacate s e w).regs = glbPart s.regs := by simp [vacate]

@[simp] theorem forgetLanes_glb (s : State) (l f : Nat) :
    glbPart (forgetLanes s l f).regs = glbPart s.regs := by simp [forgetLanes]

@[simp] theorem rephase_glb (s : State) (e : Nat) (m : Move) :
    glbPart (rephase s e m).regs = glbPart s.regs := by simp [rephase]

@[simp] theorem relDone_glb (s : State) (e w : Nat) :
    glbPart (relDone s e w).regs = glbPart s.regs := by
  unfold relDone
  split <;> simp

@[simp] theorem bothDown_glb (s : State) (l : Nat) :
    glbPart (bothDown s l).regs = glbPart s.regs := by simp [bothDown]

@[simp] theorem fibreLeaves_glb (s : State) (l f : Nat) :
    glbPart (fibreLeaves s l f).regs = glbPart s.regs := by simp [fibreLeaves]

@[simp] theorem lastGone_glb (s : State) (l st : Nat) :
    glbPart (lastGone s l st).regs = glbPart s.regs := by simp [lastGone]

@[simp] theorem fibreGone_glb (s : State) (e w : Nat) :
    glbPart (fibreGone s e w).regs = glbPart s.regs := by simp [fibreGone]

@[simp] theorem afterDown_glb (s : State) (l : Nat) :
    glbPart (afterDown s l).regs = glbPart s.regs := by
  unfold afterDown
  dsimp only
  split <;> simp

@[simp] theorem checkWidth_glb (s : State) (l : Nat) :
    glbPart (checkWidth s l).regs = glbPart s.regs := by simp [checkWidth]

@[simp] theorem alleyFalls_glb (s : State) (l st : Nat) :
    glbPart (alleyFalls s l st).regs = glbPart s.regs := by simp [alleyFalls]

@[simp] theorem leaveFibre_glb (s : State) (l f : Nat) :
    glbPart (leaveFibre s l f).regs = glbPart s.regs := by simp [leaveFibre]

@[simp] theorem dropLane_glb (s : State) (l lane cause : Nat) (mine : Bool) :
    glbPart (dropLane s l lane cause mine).regs = glbPart s.regs := by simp [dropLane]

@[simp] theorem logLineDrop_glb (s : State) (l cause code : Nat) :
    glbPart (logLineDrop s l cause code).regs = glbPart s.regs := by simp [logLineDrop]

@[simp] theorem dropLine_glb (s : State) (l cause code : Nat) (mine : Bool) :
    glbPart (dropLine s l cause code mine).regs = glbPart s.regs := by simp [dropLine]

@[simp] theorem logPilot_glb (s : State) (e cause : Nat) :
    glbPart (logPilot s e cause).regs = glbPart s.regs := by simp [logPilot]

@[simp] theorem pilotLost_glb (s : State) (e cause : Nat) :
    glbPart (pilotLost s e cause).regs = glbPart s.regs := by simp [pilotLost]

@[simp] theorem logComb_glb (s : State) (e k : Nat) :
    glbPart (logComb s e k).regs = glbPart s.regs := by simp [logComb]

@[simp] theorem logDfb_glb (s : State) (e line : Nat) :
    glbPart (logDfb s e line).regs = glbPart s.regs := by simp [logDfb]

@[simp] theorem logDark_glb (s : State) (e k : Nat) :
    glbPart (logDark s e k).regs = glbPart s.regs := by simp [logDark]

@[simp] theorem lineGoesDark_glb (s : State) (e k : Nat) :
    glbPart (lineGoesDark s e k).regs = glbPart s.regs := by simp [lineGoesDark]

@[simp] theorem allocateAll_glb (s : State) (e : Nat) :
    glbPart (allocateAll s e).regs = glbPart s.regs := by simp [allocateAll]

@[simp] theorem loadCells_glb (s : State) (e : Nat) :
    glbPart (loadCells s e).regs = glbPart s.regs := by simp [loadCells]

@[simp] theorem crossingStarted_glb (s : State) (e : Nat) (st : OeStart) :
    glbPart (crossingStarted s e st).regs = glbPart s.regs := by simp [crossingStarted]

@[simp] theorem engineStarted_glb (s : State) (e : Nat) (st : OeStart) :
    glbPart (engineStarted s e st).regs = glbPart s.regs := by simp [engineStarted]

@[simp] theorem startApply_glb (s : State) (e : Nat) :
    glbPart (startApply s e).regs = glbPart s.regs := by simp [startApply]

@[simp] theorem finishApply_glb (s : State) (e : Nat) :
    glbPart (finishApply s e).regs = glbPart s.regs := by
  unfold finishApply
  dsimp only
  split <;> simp

@[simp] theorem endMove_glb (s : State) (e : Nat) (m : Move) (result field : Nat) :
    glbPart (endMove s e m result field).regs = glbPart s.regs := by simp [endMove]

@[simp] theorem startRelease_glb (s : State) (e w : Nat) :
    glbPart (startRelease s e w).regs = glbPart s.regs := by
  unfold startRelease
  split <;> simp

@[simp] theorem beginMove_glb (s : State) (e w : Nat) (cells : List CellSet) (recals : List CellCal)
    (others : List Nat) :
    glbPart (beginMove s e w cells recals others).regs = glbPart s.regs := by simp [beginMove]

/-! ### Machine/Optics.lean -/

@[simp] theorem opticsStart_glb (s : State) (e : Nat) (st : OeStart) :
    glbPart (opticsStart s e st).regs = glbPart s.regs := by simp [opticsStart]

@[simp] theorem blvdEnable_glb (s : State) (e : Nat) (tx : Bool) (v : Nat) :
    glbPart (blvdEnable s e tx v).regs = glbPart s.regs := by simp [blvdEnable]

@[simp] theorem dfbFault_glb (s : State) (e line code : Nat) :
    glbPart (dfbFault s e line code).regs = glbPart s.regs := by simp [dfbFault]

@[simp] theorem dfbFail_glb (s : State) (e line : Nat) :
    glbPart (dfbFail s e line).regs = glbPart s.regs := by simp [dfbFail]

@[simp] theorem crossingApply_glb (s : State) (e : Nat) :
    glbPart (crossingApply s e).regs = glbPart s.regs := by simp [crossingApply]

@[simp] theorem moveFails_glb (s : State) (e : Nat) (m : Move) (result : Nat) :
    glbPart (moveFails s e m result).regs = glbPart s.regs := by simp [moveFails]

@[simp] theorem moveDone_glb (s : State) (e : Nat) (m : Move) (locked : Bool) (tx : Nat) :
    glbPart (moveDone s e m locked tx).regs = glbPart s.regs := by simp [moveDone]

@[simp] theorem dither_glb (s : State) (e : Nat) (cs : List CellCode) :
    glbPart (dither s e cs).regs = glbPart s.regs := by simp [dither]
end Sys2Proof.Proofs
end

section
/-!
SUPPORT. What leaves the registers of the windows (R29): the operations on
links in service, collectives in service, tile cycles, Twilight.
-/
open Sys2Proof Sys2Proof.Machine Sys2Proof.Safety Sys2Proof.Laws
namespace Sys2Proof.Proofs

/-! ### Machine/Link.lean -/

@[simp] theorem countRelock_glb (s : State) (l lane : Nat) :
    glbPart (countRelock s l lane).regs = glbPart s.regs := by simp [countRelock]

@[simp] theorem laneDark_glb (s : State) (l lane : Nat) :
    glbPart (laneDark s l lane).regs = glbPart s.regs := by simp [laneDark]

@[simp] theorem relockOrDark_glb (s : State) (l lane : Nat) (ask : Bool) :
    glbPart (relockOrDark s l lane ask).regs = glbPart s.regs := by simp [relockOrDark]

@[simp] theorem relocked_glb (s : State) (l lane : Nat) :
    glbPart (relocked s l lane).regs = glbPart s.regs := by simp [relocked]

@[simp] theorem peerTrained_glb (s : State) (l : Nat) :
    glbPart (peerTrained s l).regs = glbPart s.regs := by simp [peerTrained]

@[simp] theorem wordMatches_glb (s : State) (l lane w : Nat) (peer shared : Bool) :
    glbPart (wordMatches s l lane w peer shared).regs = glbPart s.regs := by simp [wordMatches]

@[simp] theorem miscabled_glb (s : State) (l lane : Nat) :
    glbPart (miscabled s l lane).regs = glbPart s.regs := by simp [miscabled]

@[simp] theorem moveTrains_glb (s : State) (l lane : Nat) :
    glbPart (moveTrains s l lane).regs = glbPart s.regs := by
  unfold moveTrains
  dsimp only
  split <;> simp

@[simp] theorem identityWord_glb (s : State) (l lane w : Nat) (peer : Bool) (vers : Nat) :
    glbPart (identityWord s l lane w peer vers).regs = glbPart s.regs := by simp [identityWord]

@[simp] theorem setNak_glb (s : State) (l : Nat) :
    glbPart (setNak s l).regs = glbPart s.regs := by simp [setNak]

@[simp] theorem goodFlit_glb (s : State) (l : Nat) (b : List Byte) :
    glbPart (goodFlit s l b).regs = glbPart s.regs := by simp [goodFlit]

@[simp] theorem countCorrection_glb (s : State) (l slot byte : Nat) :
    glbPart (countCorrection s l slot byte).regs = glbPart s.regs := by simp [countCorrection]

@[simp] theorem receiveFlit_glb (s : State) (l : Nat) (lanes : List (List (BitVec 16))) :
    glbPart (receiveFlit s l lanes).regs = glbPart s.regs := by
  unfold receiveFlit
  dsimp only
  split <;> simp

@[simp] theorem askLater_glb (s : State) (l msg f : Nat) :
    glbPart (askLater s l msg f).regs = glbPart s.regs := by simp [askLater]

@[simp] theorem msgRelease_glb (s : State) (l f : Nat) :
    glbPart (msgRelease s l f).regs = glbPart s.regs := by simp [msgRelease]

@[simp] theorem msgReleaseDone_glb (s : State) (l f : Nat) :
    glbPart (msgReleaseDone s l f).regs = glbPart s.regs := by
  unfold msgReleaseDone
  dsimp only
  repeat' split
  all_goals simp

@[simp] theorem msgGrantReq_glb (s : State) (l f : Nat) :
    glbPart (msgGrantReq s l f).regs = glbPart s.regs := by simp [msgGrantReq]

@[simp] theorem msgGrantAnswer_glb (s : State) (l f : Nat) (accept : Bool) :
    glbPart (msgGrantAnswer s l f accept).regs = glbPart s.regs := by
  unfold msgGrantAnswer
  dsimp only
  split <;> simp

@[simp] theorem msgDrop_glb (s : State) (l lane : Nat) :
    glbPart (msgDrop s l lane).regs = glbPart s.regs := by simp [msgDrop]

@[simp] theorem msgRelock_glb (s : State) (l lane : Nat) :
    glbPart (msgRelock s l lane).regs = glbPart s.regs := by simp [msgRelock]

@[simp] theorem msgRetrain_glb (s : State) (l : Nat) :
    glbPart (msgRetrain s l).regs = glbPart s.regs := by simp [msgRetrain]

@[simp] theorem msgHandover_glb (s : State) (l e seq : Nat) :
    glbPart (msgHandover s l e seq).regs = glbPart s.regs := by simp [msgHandover]

@[simp] theorem alleyMsg_glb (s : State) (l msg f : Nat) :
    glbPart (alleyMsg s l msg f).regs = glbPart s.regs := by simp [alleyMsg]

@[simp] theorem linkMsg_glb (s : State) (l msg arg : Nat) :
    glbPart (linkMsg s l msg arg).regs = glbPart s.regs := by simp [linkMsg]

@[simp] theorem linkWord_glb (s : State) (l w : Nat) :
    glbPart (linkWord s l w).regs = glbPart s.regs := by simp [linkWord]

@[simp] theorem afterRetrain_glb (s : State) (l : Nat) :
    glbPart (afterRetrain s l).regs = glbPart s.regs := by
  unfold afterRetrain
  dsimp only
  split <;> simp

@[simp] theorem retrainEnds_glb (s : State) (l : Nat) :
    glbPart (retrainEnds s l).regs = glbPart s.regs := by simp [retrainEnds]

@[simp] theorem resumeTx_glb (s : State) (l : Nat) :
    glbPart (resumeTx s l).regs = glbPart s.regs := by simp [resumeTx]

@[simp] theorem alleyRxDone_glb (s : State) (l bad badId : Nat) :
    glbPart (alleyRxDone s l bad badId).regs = glbPart s.regs := by simp [alleyRxDone]

@[simp] theorem alleyTxDone_glb (s : State) (l bad badId : Nat) :
    glbPart (alleyTxDone s l bad badId).regs = glbPart s.regs := by simp [alleyTxDone]

@[simp] theorem lineRetrainDone_glb (s : State) (l : Nat) (rx : Bool) (bad badId : Nat) :
    glbPart (lineRetrainDone s l rx bad badId).regs = glbPart s.regs := by
  unfold lineRetrainDone
  dsimp only
  split <;> simp

@[simp] theorem retrainDone_glb (s : State) (l : Nat) (rx : Bool) (bad badId : Nat) :
    glbPart (retrainDone s l rx bad badId).regs = glbPart s.regs := by simp [retrainDone]

@[simp] theorem laneLightLoss_glb (s : State) (l lane : Nat) :
    glbPart (laneLightLoss s l lane).regs = glbPart s.regs := by simp [laneLightLoss]

@[simp] theorem alleyRetrain_glb (s : State) (l : Nat) :
    glbPart (alleyRetrain s l).regs = glbPart s.regs := by simp [alleyRetrain]

/-! ### Machine/Topology.lean -/

@[simp] theorem takePacket_glb (s : State) (l : Nat) (rest : List Byte) :
    glbPart (takePacket s l rest).regs = glbPart s.regs := by simp [takePacket]

@[simp] theorem quarterWord_glb (s : State) (i w v : Nat) :
    glbPart (quarterWord s i w v).regs = glbPart s.regs := by simp [quarterWord]

@[simp] theorem quarterWrite_glb (s : State) (i : Nat) (ws : List (Nat × Nat)) :
    glbPart (quarterWrite s i ws).regs = glbPart s.regs := by simp [quarterWrite]

/-! ### Machine/Collective.lean -/

theorem takeColl_glb {s t : State} {p : List Byte → Bool} {b : List Byte} (h : takeColl s p = some (b, t)) :
    glbPart t.regs = glbPart s.regs := by
  unfold takeColl at h
  split at h
  · contradiction
  · cases h
    rfl

@[simp] theorem countWait_glb (s : State) (b : List Byte) :
    glbPart (countWait s b).regs = glbPart s.regs := by
  unfold countWait
  split <;> simp

@[simp] theorem holdIn_glb (s : State) (b : List Byte) :
    glbPart (holdIn s b).regs = glbPart s.regs := by
  unfold holdIn
  repeat' split
  all_goals simp

@[simp] theorem collAbort_glb (s : State) (e : Nat) :
    glbPart (collAbort s e).regs = glbPart s.regs := by simp [collAbort]

/-! ### Machine/Commands.lean -/

@[simp] theorem endRow_glb {act : State → Job → State} (hact : ∀ y j, glbPart (act y j).regs = glbPart y.regs)
    (s : State) (d seq : Nat) (refused : Bool) :
    glbPart (endRow s d seq refused act).regs = glbPart s.regs := by
  unfold endRow
  split <;> simp [hact]

@[simp] theorem waitTimeout_glb (s : State) (d : Nat) (j : Job) :
    glbPart (waitTimeout s d j).regs = glbPart s.regs := by
  unfold waitTimeout
  split <;> simp

@[simp] theorem cmdprocReset_glb (s : State) (d : Nat) (entries : List (List Byte)) (refused : Bool) :
    glbPart (cmdprocReset s d entries refused).regs = glbPart s.regs := by simp [cmdprocReset]

@[simp] theorem cmdprocSoft_glb (s : State) (d : Nat) (entries : List (List Byte)) (refused : Bool) :
    glbPart (cmdprocSoft s d entries refused).regs = glbPart s.regs := by simp [cmdprocSoft]

/-! ### Machine/Slice.lean -/

@[simp] theorem sliceRequest_glb {act : State → State} (hact : ∀ y, glbPart (act y).regs = glbPart y.regs)
    (s : State) (d n off : Nat) :
    glbPart (sliceRequest s d n off act).regs = glbPart s.regs := by simp [sliceRequest, hact]

@[simp] theorem mergeAged_glb (s : State) (n sec : Nat) :
    glbPart (mergeAged s n sec).regs = glbPart s.regs := by simp [mergeAged]

@[simp] theorem mergeFlush_glb (s : State) (n sec : Nat) (err : Option SectorErr) :
    glbPart (mergeFlush s n sec err).regs = glbPart s.regs := by
  unfold mergeFlush
  split <;> simp

@[simp] theorem scrubSector_glb (s : State) (n : Nat) (err : Option SectorErr) :
    glbPart (scrubSector s n err).regs = glbPart s.regs := by
  unfold scrubSector
  dsimp only
  repeat' split
  all_goals simp

@[simp] theorem sliceSoft_glb (s : State) (n : Nat) (errs : SectorErrs) :
    glbPart (sliceSoft s n errs).regs = glbPart s.regs := by simp [sliceSoft]

/-! ### Machine/Engine.lean -/

@[simp] theorem windowRequest_glb {act : State → List Byte → State}
    (hact : ∀ y b, glbPart (act y b).regs = glbPart y.regs) (s : State) (d n off : Nat) (b : List Byte) :
    glbPart (windowRequest s d n off b act).regs = glbPart s.regs := by
  unfold windowRequest
  split <;> simp [hact]

@[simp] theorem windowPut_glb (s : State) (d n off : Nat) (bytes : List Byte) :
    glbPart (windowPut s d n off bytes).regs = glbPart s.regs := by
  unfold windowPut
  dsimp only
  split <;> simp

@[simp] theorem modeEntered_glb (s : State) (n : Nat) :
    glbPart (modeEntered s n).regs = glbPart s.regs := by simp [modeEntered]

@[simp] theorem modeLeft_glb (s : State) (n : Nat) :
    glbPart (modeLeft s n).regs = glbPart s.regs := by simp [modeLeft]

@[simp] theorem goAccept_glb (s : State) (n : Nat) :
    glbPart (goAccept s n).regs = glbPart s.regs := by
  unfold goAccept
  dsimp only
  repeat' split
  all_goals simp

@[simp] theorem runComplete_glb (s : State) (n : Nat) :
    glbPart (runComplete s n).regs = glbPart s.regs := by
  unfold runComplete
  split <;> simp

@[simp] theorem hubRefresh_glb (s : State) (n : Nat) :
    glbPart (hubRefresh s n).regs = glbPart s.regs := by simp [hubRefresh]

@[simp] theorem engineEnable_glb (s : State) (n : Nat) (on : Bool) :
    glbPart (engineEnable s n on).regs = glbPart s.regs := by
  unfold engineEnable
  dsimp only
  repeat' split
  all_goals simp

@[simp] theorem engineSoft_glb (s : State) (n : Nat) :
    glbPart (engineSoft s n).regs = glbPart s.regs := by simp [engineSoft]

/-! ### Machine/Mover.lean -/

@[simp] theorem moverWord_glb (s : State) (n off v : Nat) :
    glbPart (moverWord s n off v).regs = glbPart s.regs := by simp [moverWord]

@[simp] theorem moverConfig_glb (s : State) (req n : Nat) (route : Option Nat) (value : Nat) :
    glbPart (moverConfig s req n route value).regs = glbPart s.regs := by
  unfold moverConfig
  dsimp only
  repeat' split
  all_goals simp

/-! ### Machine/Tile.lean -/

@[simp] theorem tileReset_glb (s : State) (n : Nat) :
    glbPart (tileReset s n).regs = glbPart s.regs := by simp [tileReset]

@[simp] theorem clearMover_glb (s : State) (n : Nat) :
    glbPart (clearMover s n).regs = glbPart s.regs := by simp [clearMover]

@[simp] theorem moverReset_glb (s : State) (n : Nat) :
    glbPart (moverReset s n).regs = glbPart s.regs := by simp [moverReset]

@[simp] theorem moverSoft_glb (s : State) (n : Nat) :
    glbPart (moverSoft s n).regs = glbPart s.regs := by simp [moverSoft]

/-! ### Machine/Twilight.lean -/

@[simp] theorem askController_glb (s : State) (n : Nat) :
    glbPart (askController s n).regs = glbPart s.regs := by simp [askController]

@[simp] theorem twRequest_glb (s : State) (keep : Bool) :
    glbPart (twRequest s keep).regs = glbPart s.regs := by simp [twRequest]

@[simp] theorem gateSlice_glb (s : State) (n : Nat) :
    glbPart (gateSlice s n).regs = glbPart s.regs := by simp [gateSlice]

@[simp] theorem gateEngine_glb (s : State) (e : Nat) :
    glbPart (gateEngine s e).regs = glbPart s.regs := by simp [gateEngine]

@[simp] theorem beginExit_glb (s : State) (cause : Nat) :
    glbPart (beginExit s cause).regs = glbPart s.regs := by simp [beginExit]

@[simp] theorem twEntered_glb (s : State) :
    glbPart (twEntered s).regs = glbPart s.regs := by simp [twEntered]

@[simp] theorem twExit_glb (s : State) (keep : Bool) :
    glbPart (twExit s keep).regs = glbPart s.regs := by simp [twExit]

@[simp] theorem twLeft_glb (s : State) (st : List OeStart) :
    glbPart (twLeft s st).regs = glbPart s.regs := by
  unfold twLeft
  extract_lets p started
  have hstarted : glbPart started.regs = glbPart s.regs := by
    refine foldl_glb (fun x e => ?_) _ s
    split <;> simp
  simp [hstarted, p]
end Sys2Proof.Proofs
end

section
/-!
SUPPORT. What leaves the registers of the windows (R29): the operations on register reads and writes.
-/
open Sys2Proof Sys2Proof.Machine Sys2Proof.Safety Sys2Proof.Laws
namespace Sys2Proof.Proofs

/-! ### Machine/Views.lean -/

@[simp] theorem captureErr_glb (s : State) (p : PageId) :
    glbPart (captureErr s p).regs = glbPart s.regs := by simp [captureErr]

@[simp] theorem readWord_glb (s : State) (req : Nat) (p : PageId) (off : Nat) :
    glbPart (readWord s req p off).1.regs = glbPart s.regs := by
  unfold readWord
  dsimp only
  repeat' split
  all_goals simp

@[simp] theorem readPair_glb (s : State) (req : Nat) (p : PageId) (off : Nat) :
    glbPart (readPair s req p off).1.regs = glbPart s.regs := by simp [readPair]

@[simp] theorem readReg_glb (s : State) (req o : Nat) (wide : Bool) :
    glbPart (readReg s req o wide).1.regs = glbPart s.regs := by
  unfold readReg
  split <;> simp

@[simp] theorem hostRead_glb (s : State) (req o size : Nat) :
    glbPart (hostRead s req o size).regs = glbPart s.regs := by simp [hostRead]

@[simp] theorem smbRead_glb (s : State) (wide : Bool) :
    glbPart (smbRead s wide).regs = glbPart s.regs := by simp [smbRead]

/-! ### Machine/Pages.lean -/

@[simp] theorem hostWrite_glb {act : PageId → Nat → State → State}
    (hact : ∀ p o y, glbPart (act p o y).regs = glbPart y.regs) (s : State) (req o size v : Nat) :
    glbPart (hostWrite s req o size v act).regs = glbPart s.regs := by
  unfold hostWrite
  dsimp only
  split
  · rfl
  · split
    · simp
    · split <;> simp [hact]

@[simp] theorem hdrWrite_glb {act : PageId → State → State}
    (hact : ∀ p y, glbPart (act p y).regs = glbPart y.regs) (s : State) (req page : Nat) (f : Fld) :
    glbPart (hdrWrite s req page f act).regs = glbPart s.regs := by simp [hdrWrite, hact]

@[simp] theorem resetWaited_glb (s : State) (p : PageId) (x : ResetIn) :
    glbPart (resetWaited s p x).regs = glbPart s.regs := by
  unfold resetWaited
  repeat' split
  all_goals simp

@[simp] theorem softReset_glb (s : State) (p : PageId) (x : ResetIn) :
    glbPart (softReset s p x).regs = glbPart s.regs := by
  unfold softReset
  split <;> simp

@[simp] theorem startBlock_glb (p : PageId) (s : State) :
    glbPart (startBlock p s).regs = glbPart s.regs := by simp [startBlock]

@[simp] theorem drainBlock_glb (p : PageId) (s : State) :
    glbPart (drainBlock p s).regs = glbPart s.regs := by simp [drainBlock]

@[simp] theorem enableWrite_glb (s : State) (p : PageId) (on : Bool) :
    glbPart (enableWrite s p on).regs = glbPart s.regs := by simp [enableWrite]

@[simp] theorem blockGoesOn_glb (s : State) (p : PageId) :
    glbPart (blockGoesOn s p).regs = glbPart s.regs := by
  unfold blockGoesOn
  split <;> simp

@[simp] theorem startDone_glb (s : State) (p : PageId) (st : Option OeStart) (x : ResetIn) :
    glbPart (startDone s p st x).regs = glbPart s.regs := by
  unfold startDone
  split
  · rfl
  · extract_lets engine started
    have hengine : glbPart engine.regs = glbPart s.regs := by
      simp only [engine]
      split <;> simp
    simp [started, hengine]

@[simp] theorem onPage_glb {s : State} {act : PageId → State} (hact : ∀ p, glbPart (act p).regs = glbPart s.regs)
    (page : Nat) : glbPart (onPage s page act).regs = glbPart s.regs := by
  unfold onPage
  split <;> simp [hact]

@[simp] theorem drainDone_glb (s : State) (p : PageId) (x : ResetIn) :
    glbPart (drainDone s p x).regs = glbPart s.regs := by simp [drainDone]

@[simp] theorem ctrlWrite_glb (s : State) (req : Nat) (p : PageId) (lock on : Bool) (soft : Option ResetIn) :
    glbPart (ctrlWrite s req p lock on soft).regs = glbPart s.regs := by
  unfold ctrlWrite
  dsimp only
  split <;> simp

@[simp] theorem forceWrite_glb (s : State) (p : PageId) (v : Nat) :
    glbPart (forceWrite s p v).regs = glbPart s.regs := by simp [forceWrite]

@[simp] theorem intEnable_glb (s : State) (p : PageId) (v : Nat) :
    glbPart (intEnable s p v).regs = glbPart s.regs := by simp [intEnable]

@[simp] theorem eoi_glb {d : Nat} (h : d < 4) (s : State) (mask : Nat) :
    glbPart (eoi s d mask).regs = glbPart s.regs := by
  simp [eoi, offGlb_inService h, offGlb_noticePend h, deliver1_glb h]

@[simp] theorem msixWrite_glb {d : Nat} (h : d < 4) (s : State) (v : Nat) (e : MsixEntry) :
    glbPart (msixWrite s d v e).regs = glbPart s.regs := by simp [msixWrite, sendVector_glb, h]

/-! ### Machine/Registers.lean -/

@[simp] theorem afterWrite_glb (old s : State) (p : PageId) (f : Fld) (refused : Bool) :
    glbPart (afterWrite old s p f refused).regs = glbPart s.regs := by simp [afterWrite]

@[simp] theorem fieldApply_glb {p : PageId} {f : Fld} {i : Nat}
    (h : f.acc ≠ .ro → f.acc ≠ .wo → ownWrite f = false → OffGlb p f i) (s : State) (v : Nat) (refused : Bool) :
    glbPart (fieldApply s p f i v refused).regs = glbPart s.regs := by
  unfold fieldApply
  split
  · rfl
  · next hfree =>
    simp only [Bool.or_eq_true, decide_eq_true_eq, not_or, Bool.not_eq_true] at hfree
    obtain ⟨⟨⟨hro, hwo⟩, hown⟩, -⟩ := hfree
    simp [h hro hwo hown]

@[simp] theorem headerApply_glb (s : State) (req : Nat) (p : PageId) (off v : Nat) (x : ResetIn) :
    glbPart (headerApply s req p off v x).regs = glbPart s.regs := by simp [headerApply]

@[simp] theorem onBit_glb {act : State → State} (hact : ∀ y, glbPart (act y).regs = glbPart y.regs)
    (s : State) (v : Nat) (f : Fld) (off : Nat) :
    glbPart (onBit s v f off act).regs = glbPart s.regs := by simp [onBit, hact]

@[simp] theorem linkApply_glb (s : State) (p : PageId) (off v : Nat) :
    glbPart (linkApply s p off v).regs = glbPart s.regs := by
  unfold linkApply
  split <;> simp
end Sys2Proof.Proofs
end

section
/-!
SUPPORT. What leaves the registers of the windows (R29): the commands, but for resets and the writes of registers
and of DIST_GLB.
-/
open Sys2Proof Sys2Proof.Machine Sys2Proof.Safety Sys2Proof.Laws
namespace Sys2Proof.Proofs

/-- A command that goes on keeps the part of the register file that holds the windows. -/
def GlbO (s : State) (o : Host.Outcome State Fault Refusal) : Prop :=
  ∀ t, o = .next t → glbPart t.regs = glbPart s.regs

@[simp] theorem glbO_next {s t : State} : GlbO s (.next t) ↔ glbPart t.regs = glbPart s.regs :=
  ⟨fun h => h t rfl, fun h _ ht => Host.Outcome.next.inj ht ▸ h⟩

@[simp] theorem glbO_fault {s : State} {r : Fault} : GlbO s (.fault r) := fun _ h => nomatch h

@[simp] theorem glbO_ite {s : State} {c : Prop} [Decidable c] {o p : Host.Outcome State Fault Refusal} :
    GlbO s (if c then o else p) ↔ if c then GlbO s o else GlbO s p := by
  split <;> rfl

@[simp] theorem startRow_glb (name : String) (d : DistId) (h : CmdHdr) (c : Cmd) (desc : Option (List Byte))
    (refused : Bool) (s : State) : GlbO s (startRow name d h c desc refused s) := by
  unfold startRow
  split <;> simp

@[simp] theorem onArrival_glb {act : State → List Byte → State}
    (hact : ∀ y b, glbPart (act y b).regs = glbPart y.regs) (s : State) (p : List Byte → Bool)
    (errs : SectorErrs) : GlbO s (onArrival s p errs act) := by
  unfold onArrival
  refine glbO_next.mpr ?_
  split
  · next htaken =>
    split
    · rw [collPumpAll_glb, hact, takeColl_glb htaken]
    · rfl
  · rfl

@[simp] theorem onColl_glb {act : State → Coll → State}
    (hact : ∀ y c, glbPart (act y c).regs = glbPart y.regs) (s : State) (key : Nat) (p : Coll → Bool) :
    GlbO s (onColl s key p act) := by
  unfold onColl
  refine glbO_next.mpr ?_
  split
  · split
    · exact hact s _
    · rfl
  · rfl

/-! ### Machine/D2D.lean -/

theorem execDieHeartbeatLost_glb (d : DieId) (s : State) : GlbO s (execDieHeartbeatLost d s) := by
  simp [execDieHeartbeatLost]

theorem execDieResetSignalled_glb (d : DieId) (s : State) : GlbO s (execDieResetSignalled d s) := by
  simp [execDieResetSignalled]

theorem execDieClockLoss_glb (d : DieId) (s : State) : GlbO s (execDieClockLoss d s) := by
  simp [execDieClockLoss]

theorem execD2dFlitCrcError_glb (g : GroupId) (m : Fin 24) (flips : List (Nat × Nat)) (s : State) :
    GlbO s (execD2dFlitCrcError g m flips s) := by
  simp [execD2dFlitCrcError]

theorem execD2dLaneFail_glb (g : GroupId) (m : Fin 24) (dir : Bool) (lane : Fin 68) (halfFree : Bool)
    (s : State) :
    GlbO s (execD2dLaneFail g m dir lane halfFree s) := by
  simp [execD2dLaneFail]

theorem execD2dModuleRetrained_glb (g : GroupId) (m : Fin 24) (ok : Bool) (s : State) :
    GlbO s (execD2dModuleRetrained g m ok s) := by
  simp [execD2dModuleRetrained]

theorem execOeHeartbeatLost_glb (e : OeId) (why : Fin 3) (s : State) : GlbO s (execOeHeartbeatLost e why s) := by
  simp [execOeHeartbeatLost]

/-! ### Machine/Host.lean -/

theorem execHostLinkTrained_glb (p : PortId) (gen : Fin 7) (width : Fin 17) (flit : Bool) (s : State) :
    GlbO s (execHostLinkTrained p gen width flit s) := by
  simp [execHostLinkTrained]

theorem execHostLinkDown_glb (p : PortId) (s : State) : GlbO s (execHostLinkDown p s) := by
  simp [execHostLinkDown]

theorem execHostPortReset_glb (p : PortId) (k : PortReset) (s : State) : GlbO s (execHostPortReset p k s) := by
  unfold execHostPortReset
  split <;> simp

theorem execQdieMaskWrite_glb (req : PortId) (d : DistId) (value : Nat) (s : State) :
    GlbO s (execQdieMaskWrite req d value s) := by
  simp [execQdieMaskWrite]

theorem execQdieScrubDone_glb (q : Fin 16) (s : State) : GlbO s (execQdieScrubDone q s) := by
  simp [execQdieScrubDone]

theorem execWindowRead_glb (p : PortId) (off : Fin 2147483648) (len : Nat) (errs : SectorErrs) (s : State) :
    GlbO s (execWindowRead p off len errs s) := by
  simp [execWindowRead]

theorem execWindowWrite_glb (p : PortId) (off : Fin 2147483648) (bytes : List Byte) (s : State) :
    GlbO s (execWindowWrite p off bytes s) := by
  simp [execWindowWrite]

theorem execCmdDoorbell_glb (req : PortId) (d : DistId) (value : Nat) (s : State) :
    GlbO s (execCmdDoorbell req d value s) := by
  simp [execCmdDoorbell]

theorem execCplHeadWrite_glb (req : PortId) (d : DistId) (value : Nat) (refused : Bool) (s : State) :
    GlbO s (execCplHeadWrite req d value refused s) :=
  glbO_next.mpr (fieldWrite_glb (fun y => withRefuse_glb (fun z => cplHead_glb d.isLt z _) y d refused) s req
    (cmdprocP d) CMDPROC_CPL_HEAD 0)

/-! ### Machine/Power.lean -/

theorem execPwrCapWrite_glb (req : PortId) (value : Nat) (s : State) : GlbO s (execPwrCapWrite req value s) := by
  simp [execPwrCapWrite]

theorem execOpTargetWrite_glb (req : PortId) (d : DieId) (value : Nat) (s : State) :
    GlbO s (execOpTargetWrite req d value s) := by
  simp [execOpTargetWrite]

theorem execDuskRound_glb (r : RoundIn) (s : State) : GlbO s (execDuskRound r s) := by
  simp [execDuskRound]

theorem execSensorSuspectLow_glb (ch : Fin 528) (s : State) : GlbO s (execSensorSuspectLow ch s) := by
  simp [execSensorSuspectLow]

theorem execSensorRecovered_glb (ch : Fin 528) (s : State) : GlbO s (execSensorRecovered ch s) := by
  simp [execSensorRecovered]

theorem execSensorHighSuspect_glb (ch : Fin 528) (s : State) : GlbO s (execSensorHighSuspect ch s) := by
  simp [execSensorHighSuspect]

theorem execRailOutOfRange_glb (ch : Fin 96) (s : State) : GlbO s (execRailOutOfRange ch s) := by
  unfold execRailOutOfRange
  extract_lets i w marked
  have hmarked : glbPart marked.regs = glbPart s.regs := wr_glb (offGlb_railOor ch.isLt) s _
  split
  · simp [hmarked]
  · simp

theorem execTempLevelRelease_glb (d : Fin 5) (td : Bool) (s : State) : GlbO s (execTempLevelRelease d td s) := by
  simp [execTempLevelRelease]

theorem execRefreshRateFall_glb (q : Fin 16) (s : State) : GlbO s (execRefreshRateFall q s) := by
  simp [execRefreshRateFall]

theorem execOpRaiseQualified_glb (d : DieId) (s : State) : GlbO s (execOpRaiseQualified d s) := by
  simp [execOpRaiseQualified]

theorem execOpStepDone_glb (d : DieId) (s : State) : GlbO s (execOpStepDone d s) := by
  simp [execOpStepDone]

theorem execCapUnattainable_glb (s : State) : GlbO s (execCapUnattainable s) := by
  simp [execCapUnattainable]

theorem execGovernorStep_glb (doms : List GovIn) (htr : List (Nat × Bool)) (s : State) :
    GlbO s (execGovernorStep doms htr s) := by
  simp [execGovernorStep]

theorem execIccCeilingRise_glb (d : DieId) (s : State) : GlbO s (execIccCeilingRise d s) := by
  simp [execIccCeilingRise]

theorem execThrottleNAssert_glb (s : State) : GlbO s (execThrottleNAssert s) := by
  simp [execThrottleNAssert]

theorem execThrottleNRelease_glb (s : State) : GlbO s (execThrottleNRelease s) := by
  simp [execThrottleNRelease]

theorem execPrerampStart_glb (d : DieId) (cls : Fin 4) (s : State) : GlbO s (execPrerampStart d cls s) := by
  unfold execPrerampStart
  split <;> simp

theorem execHintStart_glb (d : DieId) (cls : Fin 4) (s : State) : GlbO s (execHintStart d cls s) := by
  unfold execHintStart
  split <;> simp

theorem execHintExpire_glb (d : DieId) (s : State) : GlbO s (execHintExpire d s) := by
  simp [execHintExpire]

/-! ### Machine/Dawn.lean -/

theorem execVddAonRise_glb (s : State) : GlbO s (execVddAonRise s) := by
  simp [execVddAonRise]

theorem execDawnRailsGood_glb (s : State) : GlbO s (execDawnRailsGood s) := by
  simp [execDawnRailsGood]

theorem execDawnRailHalt_glb (s : State) : GlbO s (execDawnRailHalt s) := by
  simp [execDawnRailHalt]

theorem execPwrgoodRise_glb (ownerSel : Fin 4) (s : State) : GlbO s (execPwrgoodRise ownerSel s) := by
  simp [execPwrgoodRise]

theorem execFwGo_glb (req : PortId) (s : State) : GlbO s (execFwGo req s) := by
  simp [execFwGo]

theorem execFwBundleCheck_glb (bundle : List Byte) (rec : List Byte) (s : State) :
    GlbO s (execFwBundleCheck bundle rec s) := by
  simp [execFwBundleCheck]

theorem execDieRelease_glb (fails : BitVec 24) (restored : Bool) (s : State) :
    GlbO s (execDieRelease fails restored s) := by
  simp [execDieRelease]

theorem execD2dLinkTraining_glb (g : GroupId) (partnerMax rate : Fin 64) (vmin vmax : BitVec 16)
    (mods : List ModTrain) (restored : Bool) (s : State) :
    GlbO s (execD2dLinkTraining g partnerMax rate vmin vmax mods restored s) := by
  simp [execD2dLinkTraining]

theorem execVerticalPortTraining_glb (d : DieId) (fails : List PortFail) (restored : Bool) (s : State) :
    GlbO s (execVerticalPortTraining d fails restored s) := by
  simp [execVerticalPortTraining]

theorem execBistWaveStart_glb (fails : List BistFail) (s : State) : GlbO s (execBistWaveStart fails s) := by
  simp [execBistWaveStart]

theorem execBistBudgetExpire_glb (d : DieId) (row : Fin 16) (col : Fin 32) (us : Nat) (s : State) :
    GlbO s (execBistBudgetExpire d row col us s) := by
  simp [execBistBudgetExpire]

theorem execYieldMapForm_glb (s : State) : GlbO s (execYieldMapForm s) := by
  simp [execYieldMapForm]

theorem execDawnDone_glb (sections : List TrainSection) (s : State) : GlbO s (execDawnDone sections s) := by
  simp [execDawnDone]

theorem execRecEmit_glb (req : PortId) (sections : List TrainSection) (s : State) :
    GlbO s (execRecEmit req sections s) := by
  simp [execRecEmit]

theorem execRecordEmitted_glb (takes : Nat) (s : State) : GlbO s (execRecordEmitted takes s) := by
  simp [execRecordEmitted]

/-! ### Machine/Faults.lean -/

theorem execTileClockLoss_glb (t : TileId) (s : State) : GlbO s (execTileClockLoss t s) := by
  simp [execTileClockLoss]

theorem execTileRouterLost_glb (t : TileId) (s : State) : GlbO s (execTileRouterLost t s) := by
  simp [execTileRouterLost]

theorem execSlicePortLoss_glb (t : TileId) (s : State) : GlbO s (execSlicePortLoss t s) := by
  simp [execSlicePortLoss]

theorem execTripComparatorDegraded_glb (d : DieId) (t : Fin 8) (c : Fin 3) (s : State) :
    GlbO s (execTripComparatorDegraded d t c s) := by
  simp [execTripComparatorDegraded]

/-! ### Machine/Security.lean -/

theorem execLcReq_glb (req : PortId) (target : Fin 8) (confirm : BitVec 16) (s : State) :
    GlbO s (execLcReq req target confirm s) := by
  simp [execLcReq]

theorem execFusePulse_glb (ok : Bool) (s : State) : GlbO s (execFusePulse ok s) := by
  simp [execFusePulse]

theorem execFuseSupplySag_glb (mv : Fin 1620) (s : State) : GlbO s (execFuseSupplySag mv s) := by
  unfold execFuseSupplySag
  split <;> simp

theorem execScanEnable_glb (req : PortId) (scan engine : Bool) (s : State) :
    GlbO s (execScanEnable req scan engine s) := by
  simp [execScanEnable]

theorem execAttGo_glb (req : PortId) (d : DistId) (pkg : Bool) (s : State) : GlbO s (execAttGo req d pkg s) := by
  simp [execAttGo]

theorem execAttDone_glb (d : DistId) (refused : Bool) (s : State) : GlbO s (execAttDone d refused s) := by
  simp [execAttDone]

theorem execSignPolicyWrite_glb (req : PortId) (d : DistId) (word : Fin 9) (value : BitVec 32) (s : State) :
    GlbO s (execSignPolicyWrite req d word value s) := by
  unfold execSignPolicyWrite
  refine glbO_next.mpr ?_
  split
  · exact fieldWrite_glb (fun y => policyWrite_glb (offGlb_district d _ _) y _ _ _) _ _ _ _ _
  · have hword : 8 * d.val + (word.val - 1) < 40 := by omega
    exact fieldWrite_glb (fun y => policyWrite_glb (offGlb_keyDigest hword) y _ _ _) _ _ _ _ _

/-! ### Machine/Optics.lean -/

theorem execOpticsStart_glb (e : OeId) (st : OeStart) (s : State) : GlbO s (execOpticsStart e st s) := by
  simp [execOpticsStart]

theorem execCrossingApply_glb (req : PortId) (e : OeId) (s : State) : GlbO s (execCrossingApply req e s) := by
  simp [execCrossingApply]

theorem execCrossingMove_glb (e : OeId) (cells : List CellSet) (recals : List CellCal) (mask : BitVec 8)
    (s : State) :
    GlbO s (execCrossingMove e cells recals mask s) := by
  unfold execCrossingMove
  split <;> simp

theorem execMoveStepTimeout_glb (e : OeId) (s : State) : GlbO s (execMoveStepTimeout e s) := by
  unfold execMoveStepTimeout
  split <;> simp

theorem execMoveDone_glb (e : OeId) (locked : Bool) (tx : BitVec 8) (s : State) :
    GlbO s (execMoveDone e locked tx s) := by
  unfold execMoveDone
  split <;> simp

theorem execCrossingDither_glb (e : OeId) (cells : List CellCode) (s : State) :
    GlbO s (execCrossingDither e cells s) := by
  simp [execCrossingDither]

theorem execDfbFail_glb (e : OeId) (line : Fin 8) (event : DfbEvent) (s : State) :
    GlbO s (execDfbFail e line event s) := by
  unfold execDfbFail
  repeat' split
  all_goals simp

theorem execCombLineDark_glb (e : OeId) (k : Fin 32) (s : State) : GlbO s (execCombLineDark e k s) := by
  simp [execCombLineDark]

theorem execOeEnableWrite_glb (req : PortId) (e : OeId) (on : Bool) (s : State) :
    GlbO s (execOeEnableWrite req e on s) := by
  simp [execOeEnableWrite]

theorem execBlvdEnableWrite_glb (req : PortId) (e : OeId) (tx : Bool) (value : BitVec 32) (s : State) :
    GlbO s (execBlvdEnableWrite req e tx value s) := by
  simp [execBlvdEnableWrite]

/-! ### Machine/Link.lean -/

theorem execRelease_glb (a : AlleyId) (f : Fin 4) (s : State) : GlbO s (execRelease a f s) := by
  simp [execRelease]

theorem execReleaseDone_glb (a : AlleyId) (f : Fin 4) (s : State) : GlbO s (execReleaseDone a f s) := by
  simp [execReleaseDone]

theorem execGrantReq_glb (a : AlleyId) (f : Fin 4) (s : State) : GlbO s (execGrantReq a f s) := by
  simp [execGrantReq]

theorem execGrantAccept_glb (a : AlleyId) (f : Fin 4) (s : State) : GlbO s (execGrantAccept a f s) := by
  simp [execGrantAccept]

theorem execGrantRefuse_glb (a : AlleyId) (f : Fin 4) (s : State) : GlbO s (execGrantRefuse a f s) := by
  simp [execGrantRefuse]

theorem execDropNotice_glb (l : LinkId) (lane : Fin 32) (s : State) : GlbO s (execDropNotice l lane s) := by
  simp [execDropNotice]

theorem execRelockReq_glb (l : LinkId) (lane : Fin 32) (s : State) : GlbO s (execRelockReq l lane s) := by
  simp [execRelockReq]

theorem execRetrainReq_glb (l : LinkId) (s : State) : GlbO s (execRetrainReq l s) := by
  simp [execRetrainReq]

theorem execHandover_glb (l : LinkId) (e : OeId) (seq : Fin 65536) (s : State) :
    GlbO s (execHandover l e seq s) := by
  simp [execHandover]

theorem execLaneIdentityWord_glb (l : LinkId) (lane : Fin 32) (sides : Sides) (peer : Bool) (vers : BitVec 32)
    (s : State) :
    GlbO s (execLaneIdentityWord l lane sides peer vers s) := by
  unfold execLaneIdentityWord
  split <;> simp

theorem execIdentityTimeout_glb (l : LinkId) (lane : Fin 32) (s : State) :
    GlbO s (execIdentityTimeout l lane s) := by
  simp [execIdentityTimeout]

theorem execFlitReceive_glb (l : LinkId) (lanes : List (List (BitVec 16))) (s : State) :
    GlbO s (execFlitReceive l lanes s) := by
  simp [execFlitReceive]

theorem execLinkWordReceive_glb (l : LinkId) (sides : Sides) (s : State) :
    GlbO s (execLinkWordReceive l sides s) := by
  unfold execLinkWordReceive
  split <;> simp

theorem execNakRepeat_glb (l : LinkId) (s : State) : GlbO s (execNakRepeat l s) := by
  simp [execNakRepeat]

theorem execReplayTimeout_glb (l : LinkId) (s : State) : GlbO s (execReplayTimeout l s) := by
  simp [execReplayTimeout]

theorem execLinkRetrainDone_glb (l : LinkId) (rx : Bool) (bad : BitVec 32) (badId : BitVec 32) (s : State) :
    GlbO s (execLinkRetrainDone l rx bad badId s) := by
  simp [execLinkRetrainDone]

theorem execLaneLightLoss_glb (l : LinkId) (lane : Fin 32) (s : State) : GlbO s (execLaneLightLoss l lane s) := by
  simp [execLaneLightLoss]

theorem execLinkWordSilence_glb (a : AlleyId) (s : State) : GlbO s (execLinkWordSilence a s) := by
  simp [execLinkWordSilence]

theorem execAlleyRetrain_glb (req : PortId) (a : AlleyId) (s : State) : GlbO s (execAlleyRetrain req a s) := by
  simp [execAlleyRetrain]

/-! ### Machine/Topology.lean -/

theorem execBeaconReceive_glb (l : LinkId) (s : State) : GlbO s (execBeaconReceive l s) := by
  unfold execBeaconReceive
  split <;> simp

theorem execNeighbourAbsent_glb (p : Fin 36) (s : State) : GlbO s (execNeighbourAbsent p s) := by
  simp [execNeighbourAbsent]

theorem execPortAccept_glb (req : PortId) (mask : BitVec 4) (s : State) : GlbO s (execPortAccept req mask s) := by
  simp [execPortAccept]

theorem execSquareAccept_glb (req : PortId) (mask : BitVec 32) (s : State) :
    GlbO s (execSquareAccept req mask s) := by
  simp [execSquareAccept]

theorem execQuarterEntryWrite_glb (req : PortId) (i : Fin 4) (word : Fin 3) (value : BitVec 32) (s : State) :
    GlbO s (execQuarterEntryWrite req i word value s) := by
  simp [execQuarterEntryWrite]

theorem execPacketReceive_glb (l : LinkId) (s : State) : GlbO s (execPacketReceive l s) := by
  unfold execPacketReceive
  split <;> simp

/-! ### Machine/Collective.lean -/

theorem execCollInstanceStart_glb (key : Nat) (errs : SectorErrs) (s : State) :
    GlbO s (execCollInstanceStart key errs s) := by
  unfold execCollInstanceStart
  split <;> simp

theorem execCollReadyReceive_glb (errs : SectorErrs) (s : State) : GlbO s (execCollReadyReceive errs s) := by
  simp [execCollReadyReceive]

theorem execCollDataReceive_glb (errs : SectorErrs) (s : State) : GlbO s (execCollDataReceive errs s) := by
  simp [execCollDataReceive]

theorem execCollBlockFold_glb (key idx : Nat) (errs : SectorErrs) (s : State) :
    GlbO s (execCollBlockFold key idx errs s) := by
  simp [execCollBlockFold]

theorem execCollHoldReceive_glb (s : State) : GlbO s (execCollHoldReceive s) := by
  simp [execCollHoldReceive]

theorem execCollHoldSend_glb (key : Nat) (s : State) : GlbO s (execCollHoldSend key s) := by
  simp [execCollHoldSend]

theorem execCollHoldExpire_glb (key rank : Nat) (s : State) : GlbO s (execCollHoldExpire key rank s) :=
  onColl_glb (fun y _ => setColl_glb y _) s key _

theorem execCollHoldExhausted_glb (key : Nat) (s : State) : GlbO s (execCollHoldExhausted key s) := by
  simp [execCollHoldExhausted]

theorem execCollAbortReceive_glb (s : State) : GlbO s (execCollAbortReceive s) := by
  simp [execCollAbortReceive]

theorem execCollStartTimeout_glb (key : Nat) (s : State) : GlbO s (execCollStartTimeout key s) := by
  simp [execCollStartTimeout]

theorem execCollProgressTimeout_glb (key : Nat) (s : State) : GlbO s (execCollProgressTimeout key s) := by
  simp [execCollProgressTimeout]

theorem execCollAbort_glb (req : PortId) (e : CollId) (s : State) : GlbO s (execCollAbort req e s) := by
  simp [execCollAbort]

/-! ### Machine/Commands.lean -/

theorem execCommandFetch_glb (d : DistId) (entry desc : Option (List Byte)) (refused : Bool) (s : State) :
    GlbO s (execCommandFetch d entry desc refused s) := by
  simp [execCommandFetch]

theorem execNop_glb (d : DistId) (h : CmdHdr) (refused : Bool) (s : State) : GlbO s (execNop d h refused s) := by
  simp [execNop]

theorem execWriteMem_glb (d : DistId) (h : CmdHdr) (host dev len : Nat) (refused : Bool) (s : State) :
    GlbO s (execWriteMem d h host dev len refused s) := by
  simp [execWriteMem]

theorem execReadMem_glb (d : DistId) (h : CmdHdr) (host dev len : Nat) (refused : Bool) (s : State) :
    GlbO s (execReadMem d h host dev len refused s) := by
  simp [execReadMem]

theorem execFill_glb (d : DistId) (h : CmdHdr) (dev len pattern : Nat) (refused : Bool) (s : State) :
    GlbO s (execFill d h dev len pattern refused s) := by
  simp [execFill]

theorem execDmaComplete_glb (d : DistId) (seq : Nat) (data : List Byte) (takes : Nat) (errs : SectorErrs)
    (refused : Bool) (s : State) :
    GlbO s (execDmaComplete d seq data takes errs refused s) := by
  simp [execDmaComplete]

theorem execLoadImage_glb (d : DistId) (h : CmdHdr) (host size slot : Nat) (refused : Bool) (s : State) :
    GlbO s (execLoadImage d h host size slot refused s) := by
  simp [execLoadImage]

theorem execLaunch_glb (d : DistId) (h : CmdHdr) (slot : Nat) (args : List Nat) (refused : Bool) (s : State) :
    GlbO s (execLaunch d h slot args refused s) := by
  simp [execLaunch]

theorem execWaitEvent_glb (d : DistId) (h : CmdHdr) (event count timeout : Nat) (refused : Bool) (s : State) :
    GlbO s (execWaitEvent d h event count timeout refused s) := by
  simp [execWaitEvent]

theorem execWaitEventTimeout_glb (d : DistId) (refused : Bool) (s : State) :
    GlbO s (execWaitEventTimeout d refused s) := by
  unfold execWaitEventTimeout
  split <;> simp

theorem execSignalEvent_glb (d : DistId) (h : CmdHdr) (target counter : Nat) (refused : Bool) (s : State) :
    GlbO s (execSignalEvent d h target counter refused s) := by
  simp [execSignalEvent]

theorem execCollective_glb (d : DistId) (h : CmdHdr) (addr arg slot : Nat) (desc : Option (List Byte))
    (refused : Bool) (s : State) :
    GlbO s (execCollective d h addr arg slot desc refused s) := by
  simp [execCollective]

theorem execPhaseHint_glb (d : DistId) (h : CmdHdr) (cls lead dies : Nat) (refused : Bool) (s : State) :
    GlbO s (execPhaseHint d h cls lead dies refused s) := by
  simp [execPhaseHint]

theorem execRespare_glb (d : DistId) (h : CmdHdr) (die row : Nat) (refused : Bool) (s : State) :
    GlbO s (execRespare d h die row refused s) := by
  simp [execRespare]

theorem execRespareDone_glb (d : DistId) (fails : BitVec 32) (refused : Bool) (s : State) :
    GlbO s (execRespareDone d fails refused s) := by
  unfold execRespareDone
  split <;> simp

theorem execFence_glb (d : DistId) (h : CmdHdr) (target : Nat) (refused : Bool) (s : State) :
    GlbO s (execFence d h target refused s) := by
  simp [execFence]

theorem execModerationTimer_glb (d : DistId) (s : State) : GlbO s (execModerationTimer d s) := by
  simp [execModerationTimer]

theorem execCmdprocSoftReset_glb (req : PortId) (d : DistId) (entries : List (List Byte)) (refused : Bool)
    (s : State) :
    GlbO s (execCmdprocSoftReset req d entries refused s) := by
  simp [execCmdprocSoftReset]

theorem execLoadImageDone_glb (d : DistId) (seq : Nat) (data : List Byte) (refused : Bool) (s : State) :
    GlbO s (execLoadImageDone d seq data refused s) := by
  simp [execLoadImageDone]

/-! ### Machine/Slice.lean -/

theorem execSliceRead_glb (t : TileId) (d : DistId) (sec : SectorId) (req : Fin 4) (err : Option SectorErr)
    (s : State) :
    GlbO s (execSliceRead t d sec req err s) := by
  simp [execSliceRead]

theorem execSliceWrite_glb (t : TileId) (d : DistId) (sec : SectorId) (bytes : List Byte) (s : State) :
    GlbO s (execSliceWrite t d sec bytes s) := by
  simp [execSliceWrite]

theorem execNarrowWrite_glb (t : TileId) (d : DistId) (sec : SectorId) (lo : Fin 32) (bytes : List Byte)
    (s : State) :
    GlbO s (execNarrowWrite t d sec lo bytes s) := by
  simp [execNarrowWrite]

theorem execMergeAgeExpire_glb (t : TileId) (sec : Nat) (s : State) : GlbO s (execMergeAgeExpire t sec s) := by
  simp [execMergeAgeExpire]

theorem execMergeFlush_glb (t : TileId) (sec : Nat) (err : Option SectorErr) (s : State) :
    GlbO s (execMergeFlush t sec err s) := by
  simp [execMergeFlush]

theorem execSliceRefresh_glb (t : TileId) (s : State) : GlbO s (execSliceRefresh t s) := by
  simp [execSliceRefresh]

theorem execScrubRead_glb (t : TileId) (err : Option SectorErr) (s : State) : GlbO s (execScrubRead t err s) := by
  simp [execScrubRead]

theorem execSliceSoftReset_glb (req : PortId) (t : TileId) (errs : SectorErrs) (s : State) :
    GlbO s (execSliceSoftReset req t errs s) := by
  simp [execSliceSoftReset]

/-! ### Machine/Engine.lean -/

theorem execEngineWindowAccess_glb (t : TileId) (d : DistId) (off : Fin 1048576) (req : Fin 4)
    (data : Option (List Byte)) (err : Option SectorErr) (s : State) :
    GlbO s (execEngineWindowAccess t d off req data err s) := by
  unfold execEngineWindowAccess
  split <;> simp

theorem execEngineModeWrite_glb (t : TileId) (d : DistId) (word : Nat) (s : State) :
    GlbO s (execEngineModeWrite t d word s) := by
  simp [execEngineModeWrite]

theorem execEngineModeEntered_glb (t : TileId) (s : State) : GlbO s (execEngineModeEntered t s) := by
  simp [execEngineModeEntered]

theorem execEngineModeLeft_glb (t : TileId) (s : State) : GlbO s (execEngineModeLeft t s) := by
  simp [execEngineModeLeft]

theorem execEngineGo_glb (t : TileId) (d : DistId) (word : Nat) (s : State) :
    GlbO s (execEngineGo t d word s) := by
  simp [execEngineGo]

theorem execEngineGoAccept_glb (t : TileId) (s : State) : GlbO s (execEngineGoAccept t s) := by
  simp [execEngineGoAccept]

theorem execEnginePass_glb (t : TileId) (errs : EngErrs) (s : State) : GlbO s (execEnginePass t errs s) := by
  simp [execEnginePass]

theorem execEngineRunComplete_glb (t : TileId) (s : State) : GlbO s (execEngineRunComplete t s) := by
  simp [execEngineRunComplete]

theorem execHubRefreshDue_glb (t : TileId) (s : State) : GlbO s (execHubRefreshDue t s) := by
  simp [execHubRefreshDue]

theorem execRefreshPause_glb (t : TileId) (s : State) : GlbO s (execRefreshPause t s) := by
  simp [execRefreshPause]

theorem execRefreshPauseEnd_glb (t : TileId) (s : State) : GlbO s (execRefreshPauseEnd t s) := by
  simp [execRefreshPauseEnd]

theorem execEngineEnableWrite_glb (req : PortId) (t : TileId) (on : Bool) (s : State) :
    GlbO s (execEngineEnableWrite req t on s) := by
  simp [execEngineEnableWrite]

theorem execEngineSoftReset_glb (req : PortId) (t : TileId) (s : State) :
    GlbO s (execEngineSoftReset req t s) := by
  simp [execEngineSoftReset]

/-! ### Machine/Matrix.lean -/

theorem execMxLdw_glb (t : TileId) (f : LdwF) (s : State) : GlbO s (execMxLdw t f s) := by
  simp [execMxLdw]

theorem execMxRun_glb (t : TileId) (f : RunF) (s : State) : GlbO s (execMxRun t f s) := by
  simp [execMxRun]

theorem execMxWin_glb (t : TileId) (f : WinF) (s : State) : GlbO s (execMxWin t f s) := by
  simp [execMxWin]

/-! ### Machine/Mesh.lean -/

theorem execNxSend_glb (t : TileId) (o : Fin 16) (route : Fin 64) (n : Nat) (csrc : Bool) (sc : Fin 32)
    (s : State) :
    GlbO s (execNxSend t o route n csrc sc s) := by
  simp [execNxSend]

theorem execNxSig_glb (t : TileId) (route : Fin 64) (s : State) : GlbO s (execNxSig t route s) := by
  simp [execNxSig]

theorem execNxWait_glb (t : TileId) (e : Fin 8) (sb : Fin 32) (s : State) : GlbO s (execNxWait t e sb s) := by
  simp [execNxWait]

theorem execNxColl_glb (t : TileId) (entry : Fin 64) (e : Fin 8) (sa : Fin 32) (s : State) :
    GlbO s (execNxColl t entry e sa s) := by
  simp [execNxColl]

theorem execNxHevt_glb (t : TileId) (event : Fin 256) (s : State) : GlbO s (execNxHevt t event s) := by
  simp [execNxHevt]

theorem execMeshLineArrive_glb (src : MeshFrom) (lines : Nat) (s : State) :
    GlbO s (execMeshLineArrive src lines s) := by
  unfold execMeshLineArrive
  split <;> simp

theorem execMeshSignalArrive_glb (src : SigFrom) (s : State) : GlbO s (execMeshSignalArrive src s) := by
  unfold execMeshSignalArrive
  split <;> simp

theorem execMeshCreditReturn_glb (t : TileId) (far : Option FarQueue) (s : State) :
    GlbO s (execMeshCreditReturn t far s) := by
  simp [execMeshCreditReturn]

/-! ### Machine/Mover.lean -/

theorem execMoverRead_glb (t : TileId) (ch : Fin 8) (lines : Nat) (errs : SectorErrs) (s : State) :
    GlbO s (execMoverRead t ch lines errs s) := by
  simp [execMoverRead]

theorem execMoverWrite_glb (t : TileId) (ch : Fin 8) (lines : Nat) (s : State) :
    GlbO s (execMoverWrite t ch lines s) := by
  simp [execMoverWrite]

theorem execMoverFill_glb (t : TileId) (ch : Fin 8) (lines : Nat) (s : State) :
    GlbO s (execMoverFill t ch lines s) := by
  simp [execMoverFill]

theorem execMoverTread_glb (t : TileId) (ch : Fin 8) (lines : Nat) (errs : SectorErrs) (s : State) :
    GlbO s (execMoverTread t ch lines errs s) := by
  simp [execMoverTread]

theorem execChannelHalt_glb (t : TileId) (ch : Fin 8) (errs : SectorErrs) (s : State) :
    GlbO s (execChannelHalt t ch errs s) := by
  simp [execChannelHalt]

theorem execMoverCommandDone_glb (t : TileId) (ch : Fin 8) (s : State) :
    GlbO s (execMoverCommandDone t ch s) := by
  simp [execMoverCommandDone]

theorem execMoverConfigWrite_glb (req : PortId) (t : TileId) (route : Option (Fin 64)) (value : Nat) (s : State) :
    GlbO s (execMoverConfigWrite req t route value s) := by
  simp [execMoverConfigWrite]

/-! ### Machine/Tile.lean -/

theorem execBundleIssue_glb (t : TileId) (errs : CycleErrs) (s : State) : GlbO s (execBundleIssue t errs s) := by
  simp [execBundleIssue]

theorem execWaitRelease_glb (t : TileId) (errs : CycleErrs) (s : State) : GlbO s (execWaitRelease t errs s) := by
  simp [execWaitRelease]

theorem execPacingCycle_glb (t : TileId) (s : State) : GlbO s (execPacingCycle t s) := by
  simp [execPacingCycle]

theorem execParityRetry_glb (t : TileId) (fails : List Nat) (s : State) : GlbO s (execParityRetry t fails s) := by
  simp [execParityRetry]

theorem execRegisterResultLand_glb (t : TileId) (s : State) : GlbO s (execRegisterResultLand t s) := by
  simp [execRegisterResultLand]

theorem execArrayResultLand_glb (t : TileId) (s : State) : GlbO s (execArrayResultLand t s) := by
  simp [execArrayResultLand]

theorem execTrapSettled_glb (t : TileId) (s : State) : GlbO s (execTrapSettled t s) := by
  simp [execTrapSettled]

theorem execTileComplete_glb (t : TileId) (s : State) : GlbO s (execTileComplete t s) := by
  simp [execTileComplete]

theorem execSlipTimeout_glb (t : TileId) (s : State) : GlbO s (execSlipTimeout t s) := by
  simp [execSlipTimeout]

theorem execTileSoftReset_glb (req : PortId) (t : TileId) (s : State) : GlbO s (execTileSoftReset req t s) := by
  simp [execTileSoftReset]

theorem execMoverSoftReset_glb (req : PortId) (t : TileId) (s : State) : GlbO s (execMoverSoftReset req t s) := by
  simp [execMoverSoftReset]

/-! ### Machine/Twilight.lean -/

theorem execTwReq_glb (req : PortId) (keep : Bool) (s : State) : GlbO s (execTwReq req keep s) := by
  simp [execTwReq]

theorem execTwEntryDone_glb (s : State) : GlbO s (execTwEntryDone s) := by
  simp [execTwEntryDone]

theorem execTwExit_glb (req : PortId) (keep : Bool) (s : State) : GlbO s (execTwExit req keep s) := by
  simp [execTwExit]

theorem execTwExitDone_glb (st : List OeStart) (s : State) : GlbO s (execTwExitDone st s) := by
  simp [execTwExitDone]

/-! ### Machine/Views.lean -/

theorem execErrAddrLoRead_glb (req : PortId) (page : Fin 16384) (size : Nat) (s : State) :
    GlbO s (execErrAddrLoRead req page size s) := by
  simp [execErrAddrLoRead]

theorem execLoHalfRead_glb (req : PortId) (off : Fin 67108864) (size : Nat) (s : State) :
    GlbO s (execLoHalfRead req off size s) := by
  simp [execLoHalfRead]

theorem execSetOffset_glb (offset : BitVec 32) (pec : Bool) (s : State) :
    GlbO s (execSetOffset offset pec s) := by
  simp [execSetOffset]

theorem execRead32_glb (s : State) : GlbO s (execRead32 s) := by
  simp [execRead32]

theorem execRead64_glb (s : State) : GlbO s (execRead64 s) := by
  simp [execRead64]

/-! ### Machine/Pages.lean -/

theorem execBlockEnableWrite_glb (req : PortId) (page : Fin 16384) (on : Bool) (s : State) :
    GlbO s (execBlockEnableWrite req page on s) := by
  simp [execBlockEnableWrite]

theorem execBlockStartDone_glb (page : Fin 16384) (st : Option OeStart) (x : ResetIn) (s : State) :
    GlbO s (execBlockStartDone page st x s) := by
  simp [execBlockStartDone]

theorem execBlockDrainDone_glb (page : Fin 16384) (x : ResetIn) (s : State) :
    GlbO s (execBlockDrainDone page x s) := by
  simp [execBlockDrainDone]

theorem execPageSoftReset_glb (req : PortId) (page : Fin 16384) (x : ResetIn) (s : State) :
    GlbO s (execPageSoftReset req page x s) := by
  simp [execPageSoftReset]

theorem execIntForceWrite_glb (req : PortId) (page : Fin 16384) (value : BitVec 32) (s : State) :
    GlbO s (execIntForceWrite req page value s) := by
  simp [execIntForceWrite]

theorem execIntStatusClear_glb (req : PortId) (page : Fin 16384) (value : BitVec 32) (s : State) :
    GlbO s (execIntStatusClear req page value s) := by
  simp [execIntStatusClear]

theorem execIntEnableWrite_glb (req : PortId) (page : Fin 16384) (value : BitVec 32) (s : State) :
    GlbO s (execIntEnableWrite req page value s) := by
  simp [execIntEnableWrite]

theorem execIntEoi_glb (req : PortId) (d : DistId) (mask : BitVec 8) (s : State) :
    GlbO s (execIntEoi req d mask s) := by
  simp [execIntEoi]

theorem execMsixUnmask_glb (f : PortId) (v : Fin 8) (e : MsixEntry) (s : State) :
    GlbO s (execMsixUnmask f v e s) := by
  simp [execMsixUnmask]

theorem execLockWrite_glb (req : PortId) (page : Fin 16384) (lock on : Bool) (soft : Option ResetIn) (s : State) :
    GlbO s (execLockWrite req page lock on soft s) := by
  simp [execLockWrite]

/-! ### Machine/Scalar.lean -/

theorem execCtLi_glb (t : TileId) (sd : Fin 32) (imm : Fin 65536) (hi : Bool) (s : State) :
    GlbO s (execCtLi t sd imm hi s) := by
  simp [execCtLi]

theorem execCtAlu_glb (t : TileId) (sd : Fin 32) (sa : Fin 32) (sb : Fin 32) (fn : Fin 16) (s : State) :
    GlbO s (execCtAlu t sd sa sb fn s) := by
  simp [execCtAlu]

theorem execCtAddi_glb (t : TileId) (sd : Fin 32) (sa : Fin 32) (imm : Fin 65536) (s : State) :
    GlbO s (execCtAddi t sd sa imm s) := by
  simp [execCtAddi]

theorem execCtLoop_glb (t : TileId) (l : Fin 4) (sc : Fin 32) (endB : Fin 4096) (s : State) :
    GlbO s (execCtLoop t l sc endB s) := by
  simp [execCtLoop]

theorem execCtRdl_glb (t : TileId) (sd : Fin 32) (l : Fin 4) (s : State) : GlbO s (execCtRdl t sd l s) := by
  simp [execCtRdl]

theorem execCtBr_glb (t : TileId) (sa : Fin 32) (sb : Fin 32) (cond : Fin 8) (target : Fin 4096) (s : State) :
    GlbO s (execCtBr t sa sb cond target s) := by
  simp [execCtBr]

theorem execCtPhase_glb (t : TileId) (cls : Fin 4) (lead : Fin 4096) (s : State) :
    GlbO s (execCtPhase t cls lead s) := by
  simp [execCtPhase]

theorem execCtEnd_glb (t : TileId) (s : State) : GlbO s (execCtEnd t s) := by
  simp [execCtEnd]

theorem execCtTrap_glb (t : TileId) (code : Fin 256) (s : State) : GlbO s (execCtTrap t code s) := by
  simp [execCtTrap]

/-! ### Machine/Stream.lean -/

theorem execSmVld_glb (t : TileId) (vd : Fin 64) (sb : Fin 32) (loff : Nat) (pmask lmask : Fin 16) (s : State) :
    GlbO s (execSmVld t vd sb loff pmask lmask s) := by
  simp [execSmVld]

theorem execSmVst_glb (t : TileId) (va : Fin 64) (sb : Fin 32) (loff : Nat) (pmask : Fin 4) (lmask : Fin 16)
    (s : State) :
    GlbO s (execSmVst t va sb loff pmask lmask s) := by
  simp [execSmVst]

theorem execSmQtov_glb (t : TileId) (vd : Fin 64) (q : Fin 16) (lmask : Fin 16) (s : State) :
    GlbO s (execSmQtov t vd q lmask s) := by
  simp [execSmQtov]

theorem execSmVtoq_glb (t : TileId) (va : Fin 64) (o : Fin 16) (lmask : Fin 16) (s : State) :
    GlbO s (execSmVtoq t va o lmask s) := by
  simp [execSmVtoq]

theorem execSmQtos_glb (t : TileId) (n : Nat) (q : Fin 16) (port : Fin 2) (sb : Fin 32) (loff : Nat) (s : State) :
    GlbO s (execSmQtos t n q port sb loff s) := by
  simp [execSmQtos]

theorem execSmStoq_glb (t : TileId) (n : Nat) (o : Fin 16) (port : Fin 4) (sb : Fin 32) (loff : Nat) (s : State) :
    GlbO s (execSmStoq t n o port sb loff s) := by
  simp [execSmStoq]

theorem execSmCh_glb (t : TileId) (f : ChF) (s : State) : GlbO s (execSmCh t f s) := by
  simp [execSmCh]

theorem execSmFence_glb (t : TileId) (mask : Fin 256) (s : State) : GlbO s (execSmFence t mask s) := by
  simp [execSmFence]

/-! ### Machine/Vector.lean -/

theorem execVxAdd_glb (t : TileId) (f : VxF) (s : State) : GlbO s (execVxAdd t f s) := by
  simp [execVxAdd]

theorem execVxSub_glb (t : TileId) (f : VxF) (s : State) : GlbO s (execVxSub t f s) := by
  simp [execVxSub]

theorem execVxMul_glb (t : TileId) (f : VxF) (s : State) : GlbO s (execVxMul t f s) := by
  simp [execVxMul]

theorem execVxMax_glb (t : TileId) (f : VxF) (s : State) : GlbO s (execVxMax t f s) := by
  simp [execVxMax]

theorem execVxMin_glb (t : TileId) (f : VxF) (s : State) : GlbO s (execVxMin t f s) := by
  simp [execVxMin]

theorem execVxFma_glb (t : TileId) (f : VxF) (s : State) : GlbO s (execVxFma t f s) := by
  simp [execVxFma]

theorem execVxFnma_glb (t : TileId) (f : VxF) (s : State) : GlbO s (execVxFnma t f s) := by
  simp [execVxFnma]

theorem execVxCmp_glb (t : TileId) (f : VxF) (s : State) : GlbO s (execVxCmp t f s) := by
  simp [execVxCmp]

theorem execVxSel_glb (t : TileId) (f : VxF) (s : State) : GlbO s (execVxSel t f s) := by
  simp [execVxSel]

theorem execVxPlog_glb (t : TileId) (f : VxF) (s : State) : GlbO s (execVxPlog t f s) := by
  simp [execVxPlog]

theorem execVxAnd_glb (t : TileId) (f : VxF) (s : State) : GlbO s (execVxAnd t f s) := by
  simp [execVxAnd]

theorem execVxOr_glb (t : TileId) (f : VxF) (s : State) : GlbO s (execVxOr t f s) := by
  simp [execVxOr]

theorem execVxXor_glb (t : TileId) (f : VxF) (s : State) : GlbO s (execVxXor t f s) := by
  simp [execVxXor]

theorem execVxShl_glb (t : TileId) (f : VxF) (s : State) : GlbO s (execVxShl t f s) := by
  simp [execVxShl]

theorem execVxShr_glb (t : TileId) (f : VxF) (s : State) : GlbO s (execVxShr t f s) := by
  simp [execVxShr]

theorem execVxSra_glb (t : TileId) (f : VxF) (s : State) : GlbO s (execVxSra t f s) := by
  simp [execVxSra]

theorem execVxPerm_glb (t : TileId) (f : VxF) (s : State) : GlbO s (execVxPerm t f s) := by
  simp [execVxPerm]

theorem execVxSplat_glb (t : TileId) (f : VxF) (s : State) : GlbO s (execVxSplat t f s) := by
  simp [execVxSplat]

theorem execVxIota_glb (t : TileId) (f : VxF) (s : State) : GlbO s (execVxIota t f s) := by
  simp [execVxIota]

theorem execVxExt_glb (t : TileId) (f : VxF) (s : State) : GlbO s (execVxExt t f s) := by
  simp [execVxExt]

theorem execVxCvt_glb (t : TileId) (f : VxF) (s : State) : GlbO s (execVxCvt t f s) := by
  simp [execVxCvt]

theorem execVxCvtfmx_glb (t : TileId) (f : VxF) (s : State) : GlbO s (execVxCvtfmx t f s) := by
  simp [execVxCvtfmx]

theorem execVxCvtmx_glb (t : TileId) (f : VxF) (s : State) : GlbO s (execVxCvtmx t f s) := by
  simp [execVxCvtmx]

theorem execVxExp2_glb (t : TileId) (f : VxF) (s : State) : GlbO s (execVxExp2 t f s) := by
  simp [execVxExp2]

theorem execVxLog2_glb (t : TileId) (f : VxF) (s : State) : GlbO s (execVxLog2 t f s) := by
  simp [execVxLog2]

theorem execVxRcp_glb (t : TileId) (f : VxF) (s : State) : GlbO s (execVxRcp t f s) := by
  simp [execVxRcp]

theorem execVxRsq_glb (t : TileId) (f : VxF) (s : State) : GlbO s (execVxRsq t f s) := by
  simp [execVxRsq]

theorem execVxRsum_glb (t : TileId) (f : VxF) (s : State) : GlbO s (execVxRsum t f s) := by
  simp [execVxRsum]

theorem execVxRmax_glb (t : TileId) (f : VxF) (s : State) : GlbO s (execVxRmax t f s) := by
  simp [execVxRmax]

theorem execVxRmin_glb (t : TileId) (f : VxF) (s : State) : GlbO s (execVxRmin t f s) := by
  simp [execVxRmin]

theorem execVxAcrd_glb (t : TileId) (f : VxF) (s : State) : GlbO s (execVxAcrd t f s) := by
  simp [execVxAcrd]

theorem execVxAcwr_glb (t : TileId) (f : VxF) (s : State) : GlbO s (execVxAcwr t f s) := by
  simp [execVxAcwr]
end Sys2Proof.Proofs
end

section
/-!
PROOF. The windows of the Districts fit the slices (R29): the one operation that writes a DIST_GLB pair drops a
window that ends beyond a slice; a reset clears the pairs; every other command leaves them.
-/
open Sys2Proof Sys2Proof.Machine Sys2Proof.Safety Sys2Proof.Laws
namespace Sys2Proof.Proofs

variable {s t : State} {e : DistId} {p : PageId} {f : Fld} {i off v : Nat}

/-- The window of District `e` ends within a slice. -/
def WindowFits (e : DistId) (s : State) : Prop :=
  rd s pkgswP PKGSW_DIST_GLB_BASE e + rd s pkgswP PKGSW_DIST_GLB_SIZE e ≤ 384

/-! ### The pairs are read from the part -/

theorem fkey_glb_base (d : Nat) : fkey pkgswP PKGSW_DIST_GLB_BASE d = 8 * 0x4110 + 128 * d := by
  simp [fkey, pkgswP, PageId.base, PKGSW_DIST_GLB_BASE]
  omega

theorem fkey_glb_size (d : Nat) : fkey pkgswP PKGSW_DIST_GLB_SIZE d = 8 * 0x4114 + 128 * d := by
  simp [fkey, pkgswP, PageId.base, PKGSW_DIST_GLB_SIZE]
  omega

theorem rd_eq_of_glbPart (hs : regsOk s = true) (ht : regsOk t = true) (h : glbPart t.regs = glbPart s.regs)
    (hkey : inGlb (fkey p f i) = true) : rd t p f i = rd s p f i := by
  have hpart : ∀ {x : State}, regsOk x = true →
      SMap.find x.regs (fkey p f i) = SMap.find (glbPart x.regs) (fkey p f i) := fun hx =>
    (find_filter_of_kept (keysFrom_of_regsOk hx) hkey).symm
  simp only [rd, SMap.getD, hpart hs, hpart ht, h]

theorem WindowFits.of_glb (hfit : WindowFits e s) (hs : regsOk s = true) (ht : regsOk t = true)
    (h : glbPart t.regs = glbPart s.regs) : WindowFits e t := by
  have he := e.isLt
  rw [WindowFits, rd_eq_of_glbPart hs ht h (by simp [inGlb, fkey_glb_base]; omega),
    rd_eq_of_glbPart hs ht h (by simp [inGlb, fkey_glb_size]; omega)]
  exact hfit

theorem windowFits_reset : ∀ e : DistId, WindowFits e State.reset := by
  unfold WindowFits
  decide

/-- With no pair set, every window is empty. -/
theorem windowFits_of_cleared (ht : regsOk t = true) (h : glbPart t.regs = []) : WindowFits e t :=
  (windowFits_reset e).of_glb (by decide) ht h

/-! ### The write of a pair -/

theorem windowFits_glbApply (hok : regsOk s = true) (hfit : WindowFits e s) (d base size : Nat) :
    WindowFits e (glbApply s d base size) := by
  have hkept : regsOk (glbApply s d base size) = true := (glbApply_kept s d base size (.refl s)).regs hok
  obtain hbeyond | hwithin := Nat.lt_or_ge 384 (base + size)
  · rw [glbApply_of_beyond hbeyond] at hkept ⊢
    exact hfit.of_glb hok hkept (raise_glb _ _ _)
  · by_cases hed : e.val = d
    · obtain ⟨hbase, hsize⟩ := rd_glbApply hok hwithin (d := d)
      rw [WindowFits, hed, hbase, hsize]
      exact hwithin
    · rw [glbApply_of_within hwithin]
      have hkeys : keysFrom 0 (glbTaken s d).regs = true := keysFrom_of_regsOk hok
      have hkeys' : keysFrom 0 (wr (glbTaken s d) pkgswP PKGSW_DIST_GLB_BASE base d).regs = true :=
        keysFrom_of_regsOk ((wr_kept (Kept.refl (glbTaken s d)) pkgswP _ _ _).regs hok)
      have hother : ∀ f : Fld, f = PKGSW_DIST_GLB_BASE ∨ f = PKGSW_DIST_GLB_SIZE →
          rd (wr (wr (glbTaken s d) pkgswP PKGSW_DIST_GLB_BASE base d) pkgswP PKGSW_DIST_GLB_SIZE size d)
            pkgswP f e = rd s pkgswP f e := by
        intro f hf
        obtain rfl | rfl := hf
        · rw [rd_wr_of_ne hkeys' (by rw [fkey_glb_size, fkey_glb_base]; omega),
            rd_wr_of_ne hkeys (by rw [fkey_glb_base, fkey_glb_base]; omega)]
          rfl
        · rw [rd_wr_of_ne hkeys' (by rw [fkey_glb_size, fkey_glb_size]; omega),
            rd_wr_of_ne hkeys (by rw [fkey_glb_base, fkey_glb_size]; omega)]
          rfl
      rw [WindowFits, hother _ (.inl rfl), hother _ (.inr rfl)]
      exact hfit

theorem windowFits_glbWrite (hok : regsOk s = true) (hfit : WindowFits e s) (req d : Nat)
    (base size : Option Nat) : WindowFits e (glbWrite s req d base size) := by
  have hkept : regsOk (glbWrite s req d base size) = true :=
    (glbWrite_kept s req d base size (.refl s)).regs hok
  unfold glbWrite at hkept ⊢
  split
  · next hbarred =>
    rw [if_pos hbarred] at hkept
    exact hfit.of_glb hok hkept (raise_glb _ _ _)
  · split
    · exact windowFits_glbApply hok hfit _ _ _
    · split
      · exact windowFits_glbApply hok hfit _ _ _
      · exact hfit
    · split
      · exact windowFits_glbApply hok hfit _ _ _
      · exact hfit
    · exact hfit

/-! ### The write of a register (R336) -/

/-- There are four command processors. -/
theorem inst_lt_of_cmdproc {o : Nat} (h : pageAt o = some p) (hk : p.kind = .cmdproc) : p.inst < 4 := by
  by_cases hlow : o < 0x80000
  · have low : ∀ i : Fin 128,
        (pageAt (4096 * i.val)).all (fun p => p.kind != .cmdproc || p.inst < 4) = true := by decide
    have hinst := low ⟨o / 4096, by omega⟩
    rw [pageAt_of_low hlow] at h
    simpa [h, hk] using hinst
  · rw [pageAt, if_neg hlow] at h
    dsimp only at h
    repeat' split at h
    all_goals cases h
    all_goals contradiction

/-- The plain fields of the pages of a kind stand outside the part. -/
def plainOffGlb (k : PageKind) : Bool :=
  (allFields k).all fun f => decide (f.acc = .ro) || decide (f.acc = .wo) || ownWrite f ||
    (List.range f.cnt).all fun i => !inGlb (fkey ⟨k, 0⟩ f i)

theorem offGlb_of_plainOffGlb {k : PageKind} (h : plainOffGlb k = true) (hf : f ∈ allFields k) (hi : i < f.cnt)
    (hro : f.acc ≠ .ro) (hwo : f.acc ≠ .wo) (hown : ownWrite f = false) : OffGlb ⟨k, 0⟩ f i := by
  have hfield := List.all_eq_true.mp h f hf
  simp only [decide_eq_false hro, decide_eq_false hwo, hown, Bool.false_or] at hfield
  simpa [OffGlb] using List.all_eq_true.mp hfield i (List.mem_range.mpr hi)

/-- A field that a plain write of its register sets stands outside the part: the pairs have an action of
their own. -/
theorem offGlb_of_plain (hf : f ∈ allFields p.kind) (hi : i < f.cnt) (hro : f.acc ≠ .ro) (hwo : f.acc ≠ .wo)
    (hown : ownWrite f = false) : OffGlb p f i := by
  obtain ⟨k, n⟩ := p
  cases k
  case plaza => exact offGlb_of_plainOffGlb (k := .plaza) (by decide) hf hi hro hwo hown
  case dusk => exact offGlb_of_plainOffGlb (k := .dusk) (by decide) hf hi hro hwo hown
  case sec => exact offGlb_of_plainOffGlb (k := .sec) (by decide) hf hi hro hwo hown
  case fuse => exact offGlb_of_plainOffGlb (k := .fuse) (by decide) hf hi hro hwo hown
  case pkgsw => exact offGlb_of_plainOffGlb (k := .pkgsw) (by decide) hf hi hro hwo hown
  case hdr => exact offGlb_of_plainOffGlb (k := .hdr) (by decide) hf hi hro hwo hown
  all_goals exact offGlb_of_base (by simp only [PageId.base]; omega) f i

theorem of_mem_fieldsAt {k : PageKind} {x : Fld × Nat} (h : x ∈ fieldsAt k off) :
    x.1 ∈ allFields k ∧ x.2 < x.1.cnt := by
  obtain ⟨f, hf, he⟩ := List.mem_flatMap.mp h
  split at he
  · next hcnt =>
    split at he
    · obtain rfl := List.mem_singleton.mp he
      exact ⟨hf, Nat.lt_of_lt_of_eq Nat.zero_lt_one hcnt.symm⟩
    · exact absurd he (List.not_mem_nil)
  · obtain ⟨i, hi, rfl⟩ := List.mem_map.mp he
    exact ⟨hf, List.mem_range.mp (List.mem_of_mem_filter hi)⟩

theorem plainApply_glb (s : State) (p : PageId) (off v : Nat) (refused : Bool) :
    glbPart (plainApply s p off v refused).regs = glbPart s.regs :=
  foldl_mem_glb (fun y _ he => fieldApply_glb (fun hro hwo hown =>
    offGlb_of_plain (of_mem_fieldsAt he).1 (of_mem_fieldsAt he).2 hro hwo hown) y _ refused) s

/-- The actions of the pages other than `PKGSW`. -/
theorem packageApply_glb (hk : p.kind ≠ .pkgsw) (hcmd : p.kind = .cmdproc → p.inst < 4) (s : State)
    (req off v : Nat) (x : ResetIn) : glbPart (packageApply s req p off v x).regs = glbPart s.regs := by
  unfold packageApply
  dsimp only
  split
  case h_1 =>
    cases hentry : entryAt PLAZA_INT_EOI off with
    | none => rfl
    | some d => exact eoi_glb (lt_of_entryAt hentry) s v
  case h_2 hpkgsw => exact absurd hpkgsw hk
  case h_3 hdistrict =>
    have hoff : OffGlb p DISTRICT_SIGN_REQUIRED 0 :=
      offGlb_of_base (by simp only [PageId.base, hdistrict]; omega) _ _
    split
    · simp
    · split <;> simp [hoff]
  case h_4 hcmdproc =>
    split
    · simp
    · split
      · exact withRefuse_glb (fun y => cplHead_glb (hcmd hcmdproc) y _) _ _ _
      · rfl
  case h_5 hsec =>
    split
    · simp
    · split
      · simp
      · cases hkey : entryAt SEC_IMG_KEY_DIGEST off with
        | some i =>
          have hoff : OffGlb p SEC_IMG_KEY_DIGEST i := by
            have hpage : fkey p SEC_IMG_KEY_DIGEST i = fkey secP SEC_IMG_KEY_DIGEST i := by
              simp only [fkey, PageId.base, hsec, secP]
            have hi : i < 32 := lt_of_entryAt hkey
            rw [OffGlb, hpage]
            exact offGlb_keyDigest (by omega)
          exact policyWrite_glb hoff s _ _ _
        | none =>
          cases hgo : entryAt SEC_ATT_GO off with
          | some d =>
            dsimp only
            split
            · exact attGo_glb (lt_of_entryAt hgo) s _ _
            · rfl
          | none => rfl
  case h_6 =>
    split
    · simp
    · exact elim_glb (fun d => by simp) _
  case h_7 => exact (onBit_glb (fun y => by simp) _ _ _ _).trans (onBit_glb (fun y => by simp) _ _ _ _)
  case h_8 =>
    refine (onBit_glb (fun y => ?_) _ _ _ _).trans (onBit_glb (fun y => by simp) _ _ _ _)
    split <;> simp
  case h_9 => rfl

theorem windowFits_packageApply (hok : regsOk s = true) (hfit : WindowFits e s)
    (hcmd : p.kind = .cmdproc → p.inst < 4) (req off v : Nat) (x : ResetIn) :
    WindowFits e (packageApply s req p off v x) := by
  by_cases hk : p.kind = .pkgsw
  · unfold packageApply
    simp only [hk]
    split
    · exact windowFits_glbWrite hok hfit _ _ _ _
    · exact windowFits_glbWrite hok hfit _ _ _ _
    · exact hfit
  · exact hfit.of_glb hok ((packageApply_kept s req p off v x (.refl s)).regs hok)
      (packageApply_glb hk hcmd s req off v x)

theorem windowFits_ownApply (hok : regsOk s = true) (hfit : WindowFits e s)
    (hcmd : p.kind = .cmdproc → p.inst < 4) (req off v : Nat) (x : ResetIn) :
    WindowFits e (ownApply s req p off v x) := by
  unfold ownApply
  split
  · exact hfit.of_glb hok ((headerApply_kept s req p off v x (.refl s)).regs hok)
      (headerApply_glb s req p off v x)
  · split
    · exact hfit.of_glb hok ((moverWord_kept s p.inst off v (.refl s)).regs hok) (moverWord_glb s p.inst off v)
    · have hlink : regsOk (linkApply s p off v) = true := (linkApply_kept s p off v (.refl s)).regs hok
      exact windowFits_packageApply hlink (hfit.of_glb hok hlink (linkApply_glb s p off v)) hcmd req off v x

theorem windowFits_wordApply (hok : regsOk s = true) (hfit : WindowFits e s)
    (hcmd : p.kind = .cmdproc → p.inst < 4) (req off v : Nat) (x : ResetIn) :
    WindowFits e (wordApply s req p off v x) := by
  have hown : regsOk (ownApply s req p off v x) = true := (ownApply_kept s req p off v x (.refl s)).regs hok
  exact (windowFits_ownApply hok hfit hcmd req off v x).of_glb hown
    ((plainApply_kept _ p off v x.refused (.refl _)).regs hown) (plainApply_glb _ p off v x.refused)

theorem windowFits_wordApply_twice (hok : regsOk s = true) (hfit : WindowFits e s)
    (hcmd : p.kind = .cmdproc → p.inst < 4) (req off v off' v' : Nat) (x : ResetIn) :
    WindowFits e (wordApply (wordApply s req p off v x) req p off' v' x) :=
  windowFits_wordApply ((wordApply_kept s req p off v x (.refl s)).regs hok)
    (windowFits_wordApply hok hfit hcmd req off v x) hcmd req off' v' x

theorem windowFits_pairApply (hok : regsOk s = true) (hfit : WindowFits e s)
    (hcmd : p.kind = .cmdproc → p.inst < 4) (req off v : Nat) (x : ResetIn) :
    WindowFits e (pairApply s req p off v x) := by
  unfold pairApply
  dsimp only
  split
  · exact windowFits_glbWrite hok hfit _ _ _ _
  · split
    · exact hfit.of_glb hok ((quarterWrite_kept s _ _ (.refl s)).regs hok) (quarterWrite_glb s _ _)
    · exact windowFits_wordApply_twice hok hfit hcmd _ _ _ _ _ _
  · exact windowFits_wordApply_twice hok hfit hcmd _ _ _ _ _ _

/-! ### Commands -/

/-- A command that goes on keeps the window of District `e` within the slices. -/
def FitO (e : DistId) (s : State) (o : Host.Outcome State Fault Refusal) : Prop :=
  regsOk s = true → WindowFits e s → ∀ t, o = .next t → WindowFits e t

theorem fitO_of_glb {c : Instr} (h : GlbO s (exec c s)) : FitO e s (exec c s) := fun hok hfit t ht =>
  hfit.of_glb hok (((exec_kept c s).ok t ht).regs hok) (h t ht)

theorem fitO_next (h : regsOk s = true → WindowFits e s → WindowFits e t) : FitO e s (.next t) :=
  fun hok hfit _ ht => Host.Outcome.next.inj ht ▸ h hok hfit

theorem regsOk_regRefused (hok : regsOk s = true) (req o code : Nat) (write : Bool) :
    regsOk (regRefused s req o code write) = true := (regRefused_kept s req o code write (.refl s)).regs hok

theorem execRegisterWrite_fit (req : PortId) (o : Fin 67108864) (size v : Nat) (x : ResetIn) (s : State) :
    FitO e s (execRegisterWrite req o size v x s) := by
  refine fitO_next fun hok hfit => ?_
  have hrefused : ∀ o code : Nat, WindowFits e (regRefused s req o code true) := fun o code =>
    hfit.of_glb hok (regsOk_regRefused hok _ _ _ _) (regRefused_glb s _ _ _ _)
  unfold hostWrite
  split
  · exact hfit
  · dsimp only
    split
    · exact hrefused _ _
    · split
      · exact hfit
      · next p hpage =>
        have hcmd : p.kind = .cmdproc → p.inst < 4 := inst_lt_of_cmdproc hpage
        split
        · exact hrefused _ _
        · split
          · exact windowFits_pairApply hok hfit hcmd _ _ _ _
          · exact windowFits_wordApply hok hfit hcmd _ _ _ _

theorem execDistGlbWrite_fit (req : PortId) (d : DistId) (base size : Option (Fin 512)) (s : State) :
    FitO e s (execDistGlbWrite req d base size s) := by
  unfold execDistGlbWrite
  split
  · exact fun _ _ _ ht => nomatch ht
  · extract_lets n o e
    refine fitO_next fun hok hfit => ?_
    split
    · exact hfit
    · split
      · exact hfit.of_glb hok (regsOk_regRefused hok _ _ _ _) (regRefused_glb s _ _ _ _)
      · exact windowFits_glbWrite hok hfit _ _ _ _

/-! ### Resets clear the pairs (R29) -/

/-- What a filter keeps of the part, where it keeps none of its keys. -/
theorem glbPart_filter_eq_nil {keep : Nat → Bool} (h : ∀ k, inGlb k = true → keep k = false) (m : SMap Nat) :
    glbPart (m.filter (fun kv => keep kv.1)) = [] := by
  unfold glbPart
  rw [List.filter_filter, List.filter_eq_nil_iff]
  intro kv _
  cases hk : inGlb kv.1 with
  | false => simp
  | true => simp [h kv.1 hk]

theorem latchBit_of_inGlb {k : Nat} (h : inGlb k = true) : latchBit k = false := by
  simp only [inGlb, Bool.and_eq_true, decide_eq_true_eq] at h
  simp only [latchBit, Bool.and_eq_false_iff, decide_eq_false_iff_not]
  omega

theorem keptByReset_of_inGlb {k : Nat} (h : inGlb k = true) : keptByReset k = false := by
  have hlatch := latchBit_of_inGlb h
  simp only [inGlb, Bool.and_eq_true, decide_eq_true_eq] at h
  simp only [keptByReset, hlatch, Bool.or_eq_false_iff, Bool.and_eq_false_iff, decide_eq_false_iff_not,
    beq_eq_false_iff_ne, and_true]
  omega

@[simp] theorem plazaReset_glb (s : State) : glbPart (plazaReset s).regs = [] :=
  glbPart_filter_eq_nil (fun _ => keptByReset_of_inGlb) s.regs

@[simp] theorem powerDown_glb (s : State) : glbPart (powerDown s).regs = [] := rfl

@[simp] theorem midnight_glb (s : State) (d t : Nat) : glbPart (midnight s d t).regs = [] := by
  simp [midnight]

theorem windowFits_plazaReset (hok : regsOk s = true) : WindowFits e (plazaReset s) :=
  windowFits_of_cleared ((plazaReset_kept s (.refl s)).regs hok) (plazaReset_glb s)

theorem windowFits_leaveReset (hok : regsOk s = true) : WindowFits e (leaveReset (plazaReset s)) :=
  windowFits_of_cleared ((leaveReset_kept _ (plazaReset_kept s (.refl s))).regs hok)
    (by rw [leaveReset_glb, plazaReset_glb])

theorem execPwrgoodFall_fit (s : State) : FitO e s (execPwrgoodFall s) := by
  refine fitO_next fun hok hfit => ?_
  split
  · exact windowFits_plazaReset (s := { s with dawn := { s.dawn with pwrgood := false, railsGood := false } }) hok
  · exact hfit

theorem execPlazaReset_fit (s : State) : FitO e s (execPlazaReset s) := by
  refine fitO_next fun hok hfit => ?_
  split
  · exact windowFits_leaveReset hok
  · exact hfit

theorem execVddAonRemove_fit (dip : Bool) (s : State) : FitO e s (execVddAonRemove dip s) := by
  have hkept := (exec_kept (.vddAonRemove dip) s).ok _ rfl
  refine fitO_next fun hok _ => windowFits_of_cleared (hkept.regs hok) ?_
  split
  · exact glbPart_filter_eq_nil (fun _ => latchBit_of_inGlb) s.regs
  · exact powerDown_glb _

theorem execThermalTrip_fit (d : DieId) (t : Fin 8) (up : Bool) (s : State) :
    FitO e s (execThermalTrip d t up s) := by
  refine fitO_next fun hok hfit => ?_
  split
  · exact windowFits_of_cleared ((midnight_kept s d t (.refl s)).regs hok) (midnight_glb s d t)
  · exact hfit

theorem execLcTransitionDone_fit (s : State) : FitO e s (execLcTransitionDone s) := by
  refine fitO_next fun hok hfit => ?_
  split
  · split
    · exact windowFits_leaveReset hok
    · exact hfit
  · exact hfit

/-- Every command keeps every window within the slices. -/
theorem exec_fit (c : Instr) (s : State) : FitO e s (exec c s) :=
  match c with
  | .vddAonRise => fitO_of_glb (execVddAonRise_glb s)
  | .dawnRailsGood => fitO_of_glb (execDawnRailsGood_glb s)
  | .dawnRailHalt => fitO_of_glb (execDawnRailHalt_glb s)
  | .pwrgoodRise _ => fitO_of_glb (execPwrgoodRise_glb _ s)
  | .pwrgoodFall => execPwrgoodFall_fit s
  | .vddAonRemove _ => execVddAonRemove_fit _ s
  | .plazaReset => execPlazaReset_fit s
  | .hostLinkTrained _ _ _ _ => fitO_of_glb (execHostLinkTrained_glb _ _ _ _ s)
  | .hostLinkDown _ => fitO_of_glb (execHostLinkDown_glb _ s)
  | .fwGo _ => fitO_of_glb (execFwGo_glb _ s)
  | .fwBundleCheck _ _ => fitO_of_glb (execFwBundleCheck_glb _ _ s)
  | .dieRelease _ _ => fitO_of_glb (execDieRelease_glb _ _ s)
  | .d2dLinkTraining _ _ _ _ _ _ _ => fitO_of_glb (execD2dLinkTraining_glb _ _ _ _ _ _ _ s)
  | .verticalPortTraining _ _ _ => fitO_of_glb (execVerticalPortTraining_glb _ _ _ s)
  | .bistWaveStart _ => fitO_of_glb (execBistWaveStart_glb _ s)
  | .bistBudgetExpire _ _ _ _ => fitO_of_glb (execBistBudgetExpire_glb _ _ _ _ s)
  | .yieldMapForm => fitO_of_glb (execYieldMapForm_glb s)
  | .opticsStart _ _ => fitO_of_glb (execOpticsStart_glb _ _ s)
  | .dawnDone _ => fitO_of_glb (execDawnDone_glb _ s)
  | .recEmit _ _ => fitO_of_glb (execRecEmit_glb _ _ s)
  | .recordEmitted _ => fitO_of_glb (execRecordEmitted_glb _ s)
  | .dieHeartbeatLost _ => fitO_of_glb (execDieHeartbeatLost_glb _ s)
  | .dieResetSignalled _ => fitO_of_glb (execDieResetSignalled_glb _ s)
  | .dieClockLoss _ => fitO_of_glb (execDieClockLoss_glb _ s)
  | .d2dFlitCrcError _ _ _ => fitO_of_glb (execD2dFlitCrcError_glb _ _ _ s)
  | .d2dLaneFail _ _ _ _ _ => fitO_of_glb (execD2dLaneFail_glb _ _ _ _ _ s)
  | .d2dModuleRetrained _ _ _ => fitO_of_glb (execD2dModuleRetrained_glb _ _ _ s)
  | .bundleIssue _ _ => fitO_of_glb (execBundleIssue_glb _ _ s)
  | .waitRelease _ _ => fitO_of_glb (execWaitRelease_glb _ _ s)
  | .pacingCycle _ => fitO_of_glb (execPacingCycle_glb _ s)
  | .parityRetry _ _ => fitO_of_glb (execParityRetry_glb _ _ s)
  | .registerResultLand _ => fitO_of_glb (execRegisterResultLand_glb _ s)
  | .arrayResultLand _ => fitO_of_glb (execArrayResultLand_glb _ s)
  | .mxLdw _ _ => fitO_of_glb (execMxLdw_glb _ _ s)
  | .mxRun _ _ => fitO_of_glb (execMxRun_glb _ _ s)
  | .mxWin _ _ => fitO_of_glb (execMxWin_glb _ _ s)
  | .vxAdd _ _ => fitO_of_glb (execVxAdd_glb _ _ s)
  | .vxSub _ _ => fitO_of_glb (execVxSub_glb _ _ s)
  | .vxMul _ _ => fitO_of_glb (execVxMul_glb _ _ s)
  | .vxMax _ _ => fitO_of_glb (execVxMax_glb _ _ s)
  | .vxMin _ _ => fitO_of_glb (execVxMin_glb _ _ s)
  | .vxFma _ _ => fitO_of_glb (execVxFma_glb _ _ s)
  | .vxFnma _ _ => fitO_of_glb (execVxFnma_glb _ _ s)
  | .vxCmp _ _ => fitO_of_glb (execVxCmp_glb _ _ s)
  | .vxSel _ _ => fitO_of_glb (execVxSel_glb _ _ s)
  | .vxPlog _ _ => fitO_of_glb (execVxPlog_glb _ _ s)
  | .vxAnd _ _ => fitO_of_glb (execVxAnd_glb _ _ s)
  | .vxOr _ _ => fitO_of_glb (execVxOr_glb _ _ s)
  | .vxXor _ _ => fitO_of_glb (execVxXor_glb _ _ s)
  | .vxShl _ _ => fitO_of_glb (execVxShl_glb _ _ s)
  | .vxShr _ _ => fitO_of_glb (execVxShr_glb _ _ s)
  | .vxSra _ _ => fitO_of_glb (execVxSra_glb _ _ s)
  | .vxPerm _ _ => fitO_of_glb (execVxPerm_glb _ _ s)
  | .vxSplat _ _ => fitO_of_glb (execVxSplat_glb _ _ s)
  | .vxIota _ _ => fitO_of_glb (execVxIota_glb _ _ s)
  | .vxExt _ _ => fitO_of_glb (execVxExt_glb _ _ s)
  | .vxCvt _ _ => fitO_of_glb (execVxCvt_glb _ _ s)
  | .vxCvtfmx _ _ => fitO_of_glb (execVxCvtfmx_glb _ _ s)
  | .vxCvtmx _ _ => fitO_of_glb (execVxCvtmx_glb _ _ s)
  | .vxExp2 _ _ => fitO_of_glb (execVxExp2_glb _ _ s)
  | .vxLog2 _ _ => fitO_of_glb (execVxLog2_glb _ _ s)
  | .vxRcp _ _ => fitO_of_glb (execVxRcp_glb _ _ s)
  | .vxRsq _ _ => fitO_of_glb (execVxRsq_glb _ _ s)
  | .vxRsum _ _ => fitO_of_glb (execVxRsum_glb _ _ s)
  | .vxRmax _ _ => fitO_of_glb (execVxRmax_glb _ _ s)
  | .vxRmin _ _ => fitO_of_glb (execVxRmin_glb _ _ s)
  | .vxAcrd _ _ => fitO_of_glb (execVxAcrd_glb _ _ s)
  | .vxAcwr _ _ => fitO_of_glb (execVxAcwr_glb _ _ s)
  | .smVld _ _ _ _ _ _ => fitO_of_glb (execSmVld_glb _ _ _ _ _ _ s)
  | .smVst _ _ _ _ _ _ => fitO_of_glb (execSmVst_glb _ _ _ _ _ _ s)
  | .smQtov _ _ _ _ => fitO_of_glb (execSmQtov_glb _ _ _ _ s)
  | .smVtoq _ _ _ _ => fitO_of_glb (execSmVtoq_glb _ _ _ _ s)
  | .smQtos _ _ _ _ _ _ => fitO_of_glb (execSmQtos_glb _ _ _ _ _ _ s)
  | .smStoq _ _ _ _ _ _ => fitO_of_glb (execSmStoq_glb _ _ _ _ _ _ s)
  | .smCh _ _ => fitO_of_glb (execSmCh_glb _ _ s)
  | .smFence _ _ => fitO_of_glb (execSmFence_glb _ _ s)
  | .moverRead _ _ _ _ => fitO_of_glb (execMoverRead_glb _ _ _ _ s)
  | .moverWrite _ _ _ => fitO_of_glb (execMoverWrite_glb _ _ _ s)
  | .moverFill _ _ _ => fitO_of_glb (execMoverFill_glb _ _ _ s)
  | .moverTread _ _ _ _ => fitO_of_glb (execMoverTread_glb _ _ _ _ s)
  | .channelHalt _ _ _ => fitO_of_glb (execChannelHalt_glb _ _ _ s)
  | .moverCommandDone _ _ => fitO_of_glb (execMoverCommandDone_glb _ _ s)
  | .nxSend _ _ _ _ _ _ => fitO_of_glb (execNxSend_glb _ _ _ _ _ _ s)
  | .nxSig _ _ => fitO_of_glb (execNxSig_glb _ _ s)
  | .nxWait _ _ _ => fitO_of_glb (execNxWait_glb _ _ _ s)
  | .nxColl _ _ _ _ => fitO_of_glb (execNxColl_glb _ _ _ _ s)
  | .nxHevt _ _ => fitO_of_glb (execNxHevt_glb _ _ s)
  | .meshLineArrive _ _ => fitO_of_glb (execMeshLineArrive_glb _ _ s)
  | .meshSignalArrive _ => fitO_of_glb (execMeshSignalArrive_glb _ s)
  | .meshCreditReturn _ _ => fitO_of_glb (execMeshCreditReturn_glb _ _ s)
  | .ctLi _ _ _ _ => fitO_of_glb (execCtLi_glb _ _ _ _ s)
  | .ctAlu _ _ _ _ _ => fitO_of_glb (execCtAlu_glb _ _ _ _ _ s)
  | .ctAddi _ _ _ _ => fitO_of_glb (execCtAddi_glb _ _ _ _ s)
  | .ctLoop _ _ _ _ => fitO_of_glb (execCtLoop_glb _ _ _ _ s)
  | .ctRdl _ _ _ => fitO_of_glb (execCtRdl_glb _ _ _ s)
  | .ctBr _ _ _ _ _ => fitO_of_glb (execCtBr_glb _ _ _ _ _ s)
  | .ctPhase _ _ _ => fitO_of_glb (execCtPhase_glb _ _ _ s)
  | .ctEnd _ => fitO_of_glb (execCtEnd_glb _ s)
  | .ctTrap _ _ => fitO_of_glb (execCtTrap_glb _ _ s)
  | .trapSettled _ => fitO_of_glb (execTrapSettled_glb _ s)
  | .tileComplete _ => fitO_of_glb (execTileComplete_glb _ s)
  | .slipTimeout _ => fitO_of_glb (execSlipTimeout_glb _ s)
  | .tileSoftReset _ _ => fitO_of_glb (execTileSoftReset_glb _ _ s)
  | .moverSoftReset _ _ => fitO_of_glb (execMoverSoftReset_glb _ _ s)
  | .moverConfigWrite _ _ _ _ => fitO_of_glb (execMoverConfigWrite_glb _ _ _ _ s)
  | .sliceRead _ _ _ _ _ => fitO_of_glb (execSliceRead_glb _ _ _ _ _ s)
  | .sliceWrite _ _ _ _ => fitO_of_glb (execSliceWrite_glb _ _ _ _ s)
  | .narrowWrite _ _ _ _ _ => fitO_of_glb (execNarrowWrite_glb _ _ _ _ _ s)
  | .mergeAgeExpire _ _ => fitO_of_glb (execMergeAgeExpire_glb _ _ s)
  | .mergeFlush _ _ _ => fitO_of_glb (execMergeFlush_glb _ _ _ s)
  | .sliceRefresh _ => fitO_of_glb (execSliceRefresh_glb _ s)
  | .scrubRead _ _ => fitO_of_glb (execScrubRead_glb _ _ s)
  | .sliceSoftReset _ _ _ => fitO_of_glb (execSliceSoftReset_glb _ _ _ s)
  | .engineWindowAccess _ _ _ _ _ _ => fitO_of_glb (execEngineWindowAccess_glb _ _ _ _ _ _ s)
  | .engineModeWrite _ _ _ => fitO_of_glb (execEngineModeWrite_glb _ _ _ s)
  | .engineModeEntered _ => fitO_of_glb (execEngineModeEntered_glb _ s)
  | .engineModeLeft _ => fitO_of_glb (execEngineModeLeft_glb _ s)
  | .engineGo _ _ _ => fitO_of_glb (execEngineGo_glb _ _ _ s)
  | .engineGoAccept _ => fitO_of_glb (execEngineGoAccept_glb _ s)
  | .enginePass _ _ => fitO_of_glb (execEnginePass_glb _ _ s)
  | .engineRunComplete _ => fitO_of_glb (execEngineRunComplete_glb _ s)
  | .hubRefreshDue _ => fitO_of_glb (execHubRefreshDue_glb _ s)
  | .refreshPause _ => fitO_of_glb (execRefreshPause_glb _ s)
  | .refreshPauseEnd _ => fitO_of_glb (execRefreshPauseEnd_glb _ s)
  | .engineEnableWrite _ _ _ => fitO_of_glb (execEngineEnableWrite_glb _ _ _ s)
  | .engineSoftReset _ _ => fitO_of_glb (execEngineSoftReset_glb _ _ s)
  | .crossingApply _ _ => fitO_of_glb (execCrossingApply_glb _ _ s)
  | .crossingMove _ _ _ _ => fitO_of_glb (execCrossingMove_glb _ _ _ _ s)
  | .moveStepTimeout _ => fitO_of_glb (execMoveStepTimeout_glb _ s)
  | .moveDone _ _ _ => fitO_of_glb (execMoveDone_glb _ _ _ s)
  | .crossingDither _ _ => fitO_of_glb (execCrossingDither_glb _ _ s)
  | .release _ _ => fitO_of_glb (execRelease_glb _ _ s)
  | .releaseDone _ _ => fitO_of_glb (execReleaseDone_glb _ _ s)
  | .grantReq _ _ => fitO_of_glb (execGrantReq_glb _ _ s)
  | .grantAccept _ _ => fitO_of_glb (execGrantAccept_glb _ _ s)
  | .grantRefuse _ _ => fitO_of_glb (execGrantRefuse_glb _ _ s)
  | .dropNotice _ _ => fitO_of_glb (execDropNotice_glb _ _ s)
  | .relockReq _ _ => fitO_of_glb (execRelockReq_glb _ _ s)
  | .retrainReq _ => fitO_of_glb (execRetrainReq_glb _ s)
  | .handover _ _ _ => fitO_of_glb (execHandover_glb _ _ _ s)
  | .laneIdentityWord _ _ _ _ _ => fitO_of_glb (execLaneIdentityWord_glb _ _ _ _ _ s)
  | .identityTimeout _ _ => fitO_of_glb (execIdentityTimeout_glb _ _ s)
  | .flitReceive _ _ => fitO_of_glb (execFlitReceive_glb _ _ s)
  | .linkWordReceive _ _ => fitO_of_glb (execLinkWordReceive_glb _ _ s)
  | .nakRepeat _ => fitO_of_glb (execNakRepeat_glb _ s)
  | .replayTimeout _ => fitO_of_glb (execReplayTimeout_glb _ s)
  | .linkRetrainDone _ _ _ _ => fitO_of_glb (execLinkRetrainDone_glb _ _ _ _ s)
  | .laneLightLoss _ _ => fitO_of_glb (execLaneLightLoss_glb _ _ s)
  | .dfbFail _ _ _ => fitO_of_glb (execDfbFail_glb _ _ _ s)
  | .linkWordSilence _ => fitO_of_glb (execLinkWordSilence_glb _ s)
  | .combLineDark _ _ => fitO_of_glb (execCombLineDark_glb _ _ s)
  | .alleyRetrain _ _ => fitO_of_glb (execAlleyRetrain_glb _ _ s)
  | .oeEnableWrite _ _ _ => fitO_of_glb (execOeEnableWrite_glb _ _ _ s)
  | .blvdEnableWrite _ _ _ _ => fitO_of_glb (execBlvdEnableWrite_glb _ _ _ _ s)
  | .beaconReceive _ => fitO_of_glb (execBeaconReceive_glb _ s)
  | .neighbourAbsent _ => fitO_of_glb (execNeighbourAbsent_glb _ s)
  | .portAccept _ _ => fitO_of_glb (execPortAccept_glb _ _ s)
  | .squareAccept _ _ => fitO_of_glb (execSquareAccept_glb _ _ s)
  | .quarterEntryWrite _ _ _ _ => fitO_of_glb (execQuarterEntryWrite_glb _ _ _ _ s)
  | .packetReceive _ => fitO_of_glb (execPacketReceive_glb _ s)
  | .collInstanceStart _ _ => fitO_of_glb (execCollInstanceStart_glb _ _ s)
  | .collReadyReceive _ => fitO_of_glb (execCollReadyReceive_glb _ s)
  | .collDataReceive _ => fitO_of_glb (execCollDataReceive_glb _ s)
  | .collBlockFold _ _ _ => fitO_of_glb (execCollBlockFold_glb _ _ _ s)
  | .collHoldReceive => fitO_of_glb (execCollHoldReceive_glb s)
  | .collHoldSend _ => fitO_of_glb (execCollHoldSend_glb _ s)
  | .collHoldExpire _ _ => fitO_of_glb (execCollHoldExpire_glb _ _ s)
  | .collHoldExhausted _ => fitO_of_glb (execCollHoldExhausted_glb _ s)
  | .collAbortReceive => fitO_of_glb (execCollAbortReceive_glb s)
  | .collStartTimeout _ => fitO_of_glb (execCollStartTimeout_glb _ s)
  | .collProgressTimeout _ => fitO_of_glb (execCollProgressTimeout_glb _ s)
  | .collAbort _ _ => fitO_of_glb (execCollAbort_glb _ _ s)
  | .hostPortReset _ _ => fitO_of_glb (execHostPortReset_glb _ _ s)
  | .qdieMaskWrite _ _ _ => fitO_of_glb (execQdieMaskWrite_glb _ _ _ s)
  | .qdieScrubDone _ => fitO_of_glb (execQdieScrubDone_glb _ s)
  | .windowRead _ _ _ _ => fitO_of_glb (execWindowRead_glb _ _ _ _ s)
  | .windowWrite _ _ _ => fitO_of_glb (execWindowWrite_glb _ _ _ s)
  | .cmdDoorbell _ _ _ => fitO_of_glb (execCmdDoorbell_glb _ _ _ s)
  | .cplHeadWrite _ _ _ _ => fitO_of_glb (execCplHeadWrite_glb _ _ _ _ s)
  | .commandFetch _ _ _ _ => fitO_of_glb (execCommandFetch_glb _ _ _ _ s)
  | .nop _ _ _ => fitO_of_glb (execNop_glb _ _ _ s)
  | .writeMem _ _ _ _ _ _ => fitO_of_glb (execWriteMem_glb _ _ _ _ _ _ s)
  | .readMem _ _ _ _ _ _ => fitO_of_glb (execReadMem_glb _ _ _ _ _ _ s)
  | .fill _ _ _ _ _ _ => fitO_of_glb (execFill_glb _ _ _ _ _ _ s)
  | .dmaComplete _ _ _ _ _ _ => fitO_of_glb (execDmaComplete_glb _ _ _ _ _ _ s)
  | .loadImage _ _ _ _ _ _ => fitO_of_glb (execLoadImage_glb _ _ _ _ _ _ s)
  | .launch _ _ _ _ _ => fitO_of_glb (execLaunch_glb _ _ _ _ _ s)
  | .waitEvent _ _ _ _ _ _ => fitO_of_glb (execWaitEvent_glb _ _ _ _ _ _ s)
  | .waitEventTimeout _ _ => fitO_of_glb (execWaitEventTimeout_glb _ _ s)
  | .signalEvent _ _ _ _ _ => fitO_of_glb (execSignalEvent_glb _ _ _ _ _ s)
  | .collective _ _ _ _ _ _ _ => fitO_of_glb (execCollective_glb _ _ _ _ _ _ _ s)
  | .phaseHint _ _ _ _ _ _ => fitO_of_glb (execPhaseHint_glb _ _ _ _ _ _ s)
  | .respare _ _ _ _ _ => fitO_of_glb (execRespare_glb _ _ _ _ _ s)
  | .respareDone _ _ _ => fitO_of_glb (execRespareDone_glb _ _ _ s)
  | .fence _ _ _ _ => fitO_of_glb (execFence_glb _ _ _ _ s)
  | .moderationTimer _ => fitO_of_glb (execModerationTimer_glb _ s)
  | .cmdprocSoftReset _ _ _ _ => fitO_of_glb (execCmdprocSoftReset_glb _ _ _ _ s)
  | .tileClockLoss _ => fitO_of_glb (execTileClockLoss_glb _ s)
  | .tileRouterLost _ => fitO_of_glb (execTileRouterLost_glb _ s)
  | .slicePortLoss _ => fitO_of_glb (execSlicePortLoss_glb _ s)
  | .blockEnableWrite _ _ _ => fitO_of_glb (execBlockEnableWrite_glb _ _ _ s)
  | .blockStartDone _ _ _ => fitO_of_glb (execBlockStartDone_glb _ _ _ s)
  | .blockDrainDone _ _ => fitO_of_glb (execBlockDrainDone_glb _ _ s)
  | .pageSoftReset _ _ _ => fitO_of_glb (execPageSoftReset_glb _ _ _ s)
  | .errAddrLoRead _ _ _ => fitO_of_glb (execErrAddrLoRead_glb _ _ _ s)
  | .loHalfRead _ _ _ => fitO_of_glb (execLoHalfRead_glb _ _ _ s)
  | .intForceWrite _ _ _ => fitO_of_glb (execIntForceWrite_glb _ _ _ s)
  | .intStatusClear _ _ _ => fitO_of_glb (execIntStatusClear_glb _ _ _ s)
  | .intEnableWrite _ _ _ => fitO_of_glb (execIntEnableWrite_glb _ _ _ s)
  | .intEoi _ _ _ => fitO_of_glb (execIntEoi_glb _ _ _ s)
  | .msixUnmask _ _ _ => fitO_of_glb (execMsixUnmask_glb _ _ _ s)
  | .lockWrite _ _ _ _ _ => fitO_of_glb (execLockWrite_glb _ _ _ _ _ s)
  | .registerWrite _ _ _ _ _ => execRegisterWrite_fit _ _ _ _ _ s
  | .distGlbWrite _ _ _ _ => execDistGlbWrite_fit _ _ _ _ s
  | .pwrCapWrite _ _ => fitO_of_glb (execPwrCapWrite_glb _ _ s)
  | .opTargetWrite _ _ _ => fitO_of_glb (execOpTargetWrite_glb _ _ _ s)
  | .duskRound _ => fitO_of_glb (execDuskRound_glb _ s)
  | .sensorSuspectLow _ => fitO_of_glb (execSensorSuspectLow_glb _ s)
  | .sensorRecovered _ => fitO_of_glb (execSensorRecovered_glb _ s)
  | .sensorHighSuspect _ => fitO_of_glb (execSensorHighSuspect_glb _ s)
  | .railOutOfRange _ => fitO_of_glb (execRailOutOfRange_glb _ s)
  | .tempLevelRelease _ _ => fitO_of_glb (execTempLevelRelease_glb _ _ s)
  | .refreshRateFall _ => fitO_of_glb (execRefreshRateFall_glb _ s)
  | .opRaiseQualified _ => fitO_of_glb (execOpRaiseQualified_glb _ s)
  | .opStepDone _ => fitO_of_glb (execOpStepDone_glb _ s)
  | .capUnattainable => fitO_of_glb (execCapUnattainable_glb s)
  | .governorStep _ _ => fitO_of_glb (execGovernorStep_glb _ _ s)
  | .iccCeilingRise _ => fitO_of_glb (execIccCeilingRise_glb _ s)
  | .throttleNAssert => fitO_of_glb (execThrottleNAssert_glb s)
  | .throttleNRelease => fitO_of_glb (execThrottleNRelease_glb s)
  | .prerampStart _ _ => fitO_of_glb (execPrerampStart_glb _ _ s)
  | .hintStart _ _ => fitO_of_glb (execHintStart_glb _ _ s)
  | .hintExpire _ => fitO_of_glb (execHintExpire_glb _ s)
  | .thermalTrip _ _ _ => execThermalTrip_fit _ _ _ s
  | .tripComparatorDegraded _ _ _ => fitO_of_glb (execTripComparatorDegraded_glb _ _ _ s)
  | .twReq _ _ => fitO_of_glb (execTwReq_glb _ _ s)
  | .twEntryDone => fitO_of_glb (execTwEntryDone_glb s)
  | .twExit _ _ => fitO_of_glb (execTwExit_glb _ _ s)
  | .twExitDone _ => fitO_of_glb (execTwExitDone_glb _ s)
  | .lcReq _ _ _ => fitO_of_glb (execLcReq_glb _ _ _ s)
  | .fusePulse _ => fitO_of_glb (execFusePulse_glb _ s)
  | .fuseSupplySag _ => fitO_of_glb (execFuseSupplySag_glb _ s)
  | .lcTransitionDone => execLcTransitionDone_fit s
  | .scanEnable _ _ _ => fitO_of_glb (execScanEnable_glb _ _ _ s)
  | .attGo _ _ _ => fitO_of_glb (execAttGo_glb _ _ _ s)
  | .attDone _ _ => fitO_of_glb (execAttDone_glb _ _ s)
  | .signPolicyWrite _ _ _ _ => fitO_of_glb (execSignPolicyWrite_glb _ _ _ _ s)
  | .setOffset _ _ => fitO_of_glb (execSetOffset_glb _ _ s)
  | .read32 => fitO_of_glb (execRead32_glb s)
  | .read64 => fitO_of_glb (execRead64_glb s)
  | .oeHeartbeatLost _ _ => fitO_of_glb (execOeHeartbeatLost_glb _ _ s)
  | .loadImageDone _ _ _ _ => fitO_of_glb (execLoadImageDone_glb _ _ _ _ s)

/-- Settles O46: a reset clears the pairs, a write of a pair that would end beyond a slice is dropped, and no
other command touches them. -/
theorem globalWindowFitsTheSlices : Obligations.GlobalWindowFitsTheSlices := by
  refine ⟨?write, ?step⟩
  case write =>
    exact fun s t req d e b z hok hexec hfit => execDistGlbWrite_fit req d b z s hok hfit t hexec
  case step =>
    intro s t hok hfit hstep
    obtain ⟨-, rfl⟩ | ⟨c, rest, -, hexec⟩ := step_cases hstep
    · exact hfit
    · exact fun d => exec_fit c { s with pending := rest } hok (hfit d) t hexec

end Sys2Proof.Proofs
end
